-- ==== Sys2Proof/Word.lean ====
section
/-! DEFINITION. The machine's words and bytes (00_scope.md, 02_programming_model.md). -/

namespace Sys2Proof

/-- A 32-bit word: a word register, a memory word, a device register. -/
abbrev Word := BitVec 32

/-- A byte of memory; also the width of a quality tag (R51). -/
abbrev Byte := BitVec 8

end Sys2Proof
end

