-- ==== Sys2Proof/Types/Basic.lean ====
section
/-! DEFINITION. Names and small data types shared by every part of the module (01_module_architecture.md). -/

namespace Sys2Proof

/-- The three lane dies. -/
inductive LaneId where
  | a | b | c
  deriving DecidableEq, Repr

/-- One piece of data for each lane. -/
structure Lanes (α : Type) where
  a : α
  b : α
  c : α
  deriving DecidableEq, Repr

/-- Lockstep pairs P0 to P7 (R12). -/
abbrev PairId := Fin 8
/-- Tasks 0 to 15 of a pair (R60). -/
abbrev TaskId := Fin 16
/-- Network ports: 0 to 31 are V00 to V31, 32 to 35 are BAF, BAR, BBF, BBR, 36 is MNT. -/
abbrev Port := Fin 37
/-- Field channels CH00 to CH47. -/
abbrev Chan := Fin 48

/-- A statistical counter: a 32-bit value and its sticky overflow bit (R44, R46, R47). -/
structure Stat where
  count : Word
  ovf   : Bool
  deriving DecidableEq, Repr

/-- What an access finds in the error-correcting code of the word it reads (R510, R513): nothing, a single
correctable bit (bit number 0 to 38 of a word of 32 bits with its check bits, 0 to 71 of an MRAM word; `hard` when a rewrite does not cure it), or uncorrectable data. The environment decides. -/
inductive Hit where
  | none
  | soft (bit : Fin 72)
  | hard (bit : Fin 72)
  | bad
  deriving DecidableEq, Repr

/-- Exception codes (02_programming_model.md, exception table). -/
inductive ExcCode where
  | mem | align | access | illegal | arith | overrun | stack
  deriving DecidableEq, Repr

/-- Who makes a register access. -/
inductive Master where
  | lane (l : LaneId)
  | steward
  deriving DecidableEq, Repr

/-- Roles (17, Roles). -/
inductive Role where
  | view | maint | engineer | owner
  deriving DecidableEq, Repr

/-- Where a request arrives (R549): MNT, the backbone, or a vehicle port, whose datagrams are rejected. -/
inductive SvcIface where
  | mnt | backbone | vehicle
  deriving DecidableEq, Repr

end Sys2Proof
end

