-- ==== Sys2Proof/Types/Mem.lean ====
section
/-! DEFINITION. Sparse memories and the damage of their error-correcting codes (15_fabric_arbitration_and_memory.md). -/

namespace Sys2Proof

/-- A memory: (address, byte) pairs in one canonical form, addresses strictly rising and no entry equal to what an
unlisted address reads as (`Memory.wf`). What an unlisted address reads as is an argument of the operations. -/
abbrev Memory := List Host.Cell

/-- The words of a memory whose code is damaged: byte address of the word and what a read of it finds (R510, R513, R515). -/
abbrev Damage := List (Nat × Hit)

/-- One entry of a memory's 16-entry address table: EC_TADDR and EC_TENT (R512, R517). `scrubbed` remembers a
scrubber write-back to the address (R513). -/
structure EccEntry where
  addr     : Word
  valid    : Bool
  hard     : Bool
  bit      : BitVec 7
  count    : BitVec 16
  scrubbed : Bool
  deriving DecidableEq, Repr

/-- The EC_ register set of one memory (R517). -/
structure EccSet where
  corr  : Stat
  unc   : Stat
  tlost : Stat
  uaddr : Word
  table : Vector EccEntry 16
  deriving DecidableEq, Repr

/-- The seven memories that carry an EC_ set (R517), in the order of their offsets. -/
inductive MemId where
  | lane (l : LaneId)
  | quay | mram | f1 | f2
  deriving DecidableEq, Repr

/-- Who read an uncorrectable word (R515). -/
inductive Reader where
  | pair | mover (n : Fin 8) | tideMover | signature | rejoin | untimed | inbound | steward | scrubber
  deriving DecidableEq, Repr

end Sys2Proof
end

