-- ==== Sys2Proof/Types/Bridge.lean ====
section
/-! DEFINITION. The Corbel bridge (14_corbel_bridge.md). -/

namespace Sys2Proof

/-- Who makes an untimed access outside its own lane: a core, or the steward. -/
inductive Agent where
  | core (l : LaneId) (p : PairId) (odd : Bool)
  | steward
  deriving DecidableEq, Repr

/-- What an outbound access does (R470, R476). -/
inductive AccKind where
  | store (v : Word)
  | load
  | cas (old new : Word)
  | xchg (new : Word)
  deriving DecidableEq, Repr

/-- An entry of the posting queue (R472): its sequence number, its issuer, the Corbel address, the outbound region and
what it does; `orphan` that its lane has dropped since (R475). -/
structure Posted where
  pseq   : BitVec 16
  agent  : Agent
  kind   : AccKind
  addr   : Word
  win    : BitVec 4
  orphan : Bool
  deriving DecidableEq, Repr

/-- Whose transaction is outbound: the head of the posting queue or a mover's piece. -/
inductive OutSrc where
  | queue
  | mover (n : Fin 8)
  deriving DecidableEq, Repr

/-- Where an outbound transaction stands: on the bus, waiting to be reissued after a retry, or backed off (R465, R478). -/
inductive OutPhase where
  | issued | retried | backedOff
  deriving DecidableEq, Repr

/-- The outbound transaction in progress. `write` tells the WRITE beat from the READ beat of a locked sequence,
`got` is the word its READ returned, `lock` that CB_LOCK_N is driven (R476). `since` is the instant from which its 64 µs count (R473, R487),
`ended` the one at which its last address phase ended in a retry or gave way (R465). -/
structure OutTx where
  src      : OutSrc
  phase    : OutPhase
  backoffs : Nat
  write    : Bool
  lock     : Bool
  got      : Word
  since    : Nat
  ended    : Nat
  deriving DecidableEq, Repr

/-- A transaction as the bridge put it on the Corbel bus: command, address, and for each beat the word on CB_AD with its
byte enables (a 1 enables a byte here). -/
structure BusTx where
  write : Bool
  addr  : Word
  beats : List (Word × BitVec 4)
  deriving DecidableEq, Repr

/-- A target's answer to the bridge as master (R465). `done` and `disconnect` carry the words read, one for each beat
completed; `parity` is a data parity error of an otherwise completed access. -/
inductive TgtResp where
  | done (data : List Word)
  | retry
  | disconnect (beats : Nat) (data : List Word)
  | targetAbort
  | masterAbort
  | parity (data : List Word)
  deriving DecidableEq, Repr

/-- An entry of the posted-write log (BR_PWLA, BR_PWLI, BR_PWLD). -/
structure PwEntry where
  valid : Bool
  addr  : Word
  kind  : BitVec 3
  lane  : BitVec 2
  pair  : BitVec 4
  core  : Bool
  win   : BitVec 4
  pseq  : BitVec 16
  data  : Word
  deriving DecidableEq, Repr

/-- A mover (R485 to R489): first descriptor of its chain, owner, current descriptor, bytes moved of it, last error. -/
structure Mover where
  busy    : Bool
  owner   : Option Master
  first   : Word
  desc    : BitVec 23
  moved   : Nat
  lastErr : BitVec 4
  deriving DecidableEq, Repr

/-- A word of the inbound write buffer: Quay offset, word, byte enables (R481). -/
structure InWord where
  off  : Nat
  data : Word
  be   : BitVec 4
  deriving DecidableEq, Repr

/-- Data kept for a retried inbound READ, since when (R482). -/
structure InData where
  addr : Word
  data : List Word
  at_  : Nat
  deriving DecidableEq, Repr

/-- The lines of an address phase beside CB_AD: the command on CB_CBE_N, and CB_PAR of the cycle after it (R462, R464). -/
structure AddrLines where
  cbe : BitVec 4
  par : Bool
  deriving DecidableEq, Repr

/-- A data beat of an inbound WRITE: the word on CB_AD, the byte enables (a 1 enables a byte here) and CB_PAR of the cycle after it. -/
structure InBeat where
  data : Word
  be   : BitVec 4
  par  : Bool
  deriving DecidableEq, Repr

/-- What the rack arbiter samples: the requests CB_AREQ_N of the slots (a 1 asks), and whether CB_LOCK_N is low (R468). -/
structure RackLines where
  areq : Word
  lock : Bool
  deriving DecidableEq, Repr

/-- The answer of the bridge as target to its last inbound transaction. -/
inductive InResp where
  | none | ignored | accepted | retry | abort
  | data (ws : List Word)
  deriving DecidableEq, Repr

/-- The bridge. `headAt` is the instant at which the head of the queue became its head (R473). `locki` is the 64-byte Quay block an inbound
locked sequence holds, `lockAt` since when, `lockDead` that its lock has been taken back (R484). `errN` tells that the last transaction had a
data cycle whose parity failed here, so that CB_ERR_N has been asserted for one cycle (R464). `rstLow` is CB_RST_N as driven or seen, `bootAt` the
instant at which the Keystone left reset, `intl` the interrupt lines that have fallen, `grant` the rack slot the arbiter grants, `parked` that
it grants it unasked, `idleAt` since when the bus has been idle under it, `lastGrant` the slot last granted, `busLock` the slot that holds
CB_LOCK_N (R468). -/
structure Bridge where
  mt        : Bool
  wbase     : BitVec 2
  bo        : BitVec 16
  iwin      : Word
  inte      : BitVec 4
  intl      : BitVec 4
  pwerr     : Bool
  backoff   : Stat
  retry     : Stat
  pwlost    : Stat
  inerr     : Stat
  arbidle   : Stat
  queue     : List Posted
  nextSeq   : BitVec 16
  headAt    : Nat
  out       : Option OutTx
  lastBus   : Option BusTx
  log       : Vector PwEntry 16
  movers    : Vector Mover 8
  inbuf     : List InWord
  claimed   : Option (Word × Bool)
  inData    : Option InData
  inResp    : InResp
  locki     : Option Nat
  lockAt    : Nat
  lockDead  : Bool
  errN      : Bool
  rstLow    : Bool
  bootAt    : Nat
  grant     : Option (Fin 32)
  parked    : Bool
  idleAt    : Nat
  lastGrant : Fin 32
  busLock   : Option (Fin 32)
  deriving DecidableEq, Repr

end Sys2Proof
end

