-- ==== Sys2Proof/Types/Chan.lean ====
section
/-! DEFINITION. Field channels and their islands (13_field_channels.md), and the Parapet's safety logic
(12_safety_functions_parapet.md). -/

namespace Sys2Proof

/-- Rows of the channel-supply table (R429): 15.0 V and above, 12.0 V to 15.0 V, below 12.0 V. -/
inductive SupplyBand where
  | full | low | dead
  deriving DecidableEq, Repr

/-- Causes of an island's fault bit (R454). -/
inductive FaultCause where
  | supply | overload | readback | shortfall | temp | safeState | selfCheck
  deriving DecidableEq, Repr

/-- Fault classes of IO_CSTAT.CLASS. -/
inductive FaultClass where
  | none | unlocalised | fieldSide | externalFeed | wetting | silent | watchdog | overload | overloadCleared
  | testfailDark | testfailLight
  deriving DecidableEq, Repr

/-- IO_CSTAT.TEST. -/
inductive TestKind where
  | idle | dark | light | localise
  deriving DecidableEq, Repr

/-- What localisation observed (R455). -/
inductive LocObs where
  | cleared | clearedThenRose | stayed
  deriving DecidableEq, Repr

/-- What a wake island keeps of its declaration in NEAP: thresholds in steps of 0.25 V and the filter in 10 µs (R439). -/
structure WakeCfg where
  on     : Nat
  off    : Nat
  filter : Nat
  deriving DecidableEq, Repr

/-- An island has accepted no refresh for 32 µs; `sent` tells that the Parapet has sent it (R448, R449, R455). -/
structure WatchExpiry where
  ch   : Chan
  sent : Bool
  deriving DecidableEq, Repr

/-- One channel: its island and what the Parapet keeps for it. `sv` and `volt` are the channel supply V(S-M) and the signal voltage V(P-M) in mV as last reported, `comp` the comparator reading, `compStamp` and `compAt` the train
time in µs and the instant of its last change, `acc` and `stamp` the accepted reading and its timestamp; `voted` the voted value, `force` the voted forced value of the last commit or, in SERVICE, of the last boundary (R209, R210), `held` the value its last commit gave it,
`base` the value before the safety enable, `drv` the drive sent and `drvAcc` the last drive the island accepted; `closed` the switch, `latched` an overload trip; `causes` the
active fault causes, `fbit` the fault bit as the Parapet last saw it; `inSafe` the island safe state, `prog` the programmed one (none: hold), `stale` that the Parapet had not refreshed the island (R455), `starting` an island start (R649);
`pulseAt` the instant at which a pulse or a localisation began, `testAt` the test period of the last test (R444), `rbAt` since when read-back and drive have been what they are (R443); `wcfg` what a wake island keeps in NEAP; `cls` the class of the fault bit; `iw` the wetting current in mA,
`locating` that a localisation is under way, `wetting` that the sink draws the wetting current now, `clean` the consecutive comparator changes without a shortfall. -/
structure ChanSt where
  supply    : SupplyBand
  sv        : Nat
  volt      : Nat
  comp      : Bool
  compStamp : Word
  compAt    : Nat
  acc       : Bool
  stamp     : Word
  count     : Word
  voted     : Bool
  force     : Option Bool
  everCom   : Bool
  held      : Bool
  base      : Bool
  drv       : Bool
  drvAcc    : Bool
  en        : Bool
  closed    : Bool
  latched   : Bool
  causes    : List FaultCause
  fbit      : Bool
  inSafe    : Bool
  prog      : Option Bool
  stale     : Bool
  starting  : Bool
  silent    : Bool
  asleep    : Bool
  cls       : FaultClass
  test      : TestKind
  locating  : Bool
  pulseAt   : Nat
  testAt    : Option Nat
  rbAt      : Nat
  wcfg      : Option WakeCfg
  failDark  : Nat
  failLight : Nat
  aban      : Nat
  abanSaid  : Bool
  iw        : Nat
  wetting   : Bool
  clean     : Nat
  cfault    : Stat
  ctfail    : Stat
  ctaban    : Stat
  cwet      : Stat
  deriving DecidableEq, Repr

/-- One Parapet safety function (R407, R413 to R417). `holdFrom` is the instant, in 62.5 ns logic clocks since power-on,
from which the restore condition has held without a break, `start` that at which the function started. -/
structure FuncSt where
  decl     : Bool
  shadow   : Vector Word 6
  act      : Vector Word 6
  en       : Bool
  start    : Nat
  holdFrom : Option Nat
  trip     : Stat
  deriving DecidableEq, Repr

/-- Instants and period of one tacho channel, in 62.5 ns logic clocks (R412). -/
structure TachoCh where
  level  : Bool
  rise   : Option Nat
  period : Option Nat
  deriving DecidableEq, Repr

/-- SF_STAT.CAUSE: the first fault. -/
inductive ParaCause where
  | none | rail | limitCrc | comparator | tachoBoth | tachoOne
  deriving DecidableEq, Repr

/-- The Parapet's safety logic. `lastEdge` is the last edge on either
channel, `oneRun` the consecutive edges on `lastCh` with none on the other (R420), `tachoFlt` the tacho island fault bits,
`tachoFltEnd` when the last of them cleared. -/
structure Parapet where
  funcs    : Vector FuncSt 4
  pfault   : Bool
  tfault   : Bool
  cause    : ParaCause
  cha      : TachoCh
  chb      : TachoCh
  lastEdge : Option Nat
  pos      : Word
  pref     : Word
  rev      : Word
  still    : Bool
  pss      : Word
  oneRun   : Nat
  lastCh   : Bool
  tachoFltA   : Bool
  tachoFltB   : Bool
  tachoFltEnd : Option Nat
  deriving DecidableEq, Repr

end Sys2Proof
end

