-- ==== Sys2Proof/Types/Forms.lean ====
section
/-! DEFINITION. The operand fields of the Tlavo instruction forms, as raw bits (R95, R96). -/

namespace Sys2Proof

/-- Which core is asked to execute an instruction, and what the fetch and the data access of that instruction find
in the error-correcting code of the words they read. `odd` names the odd core of a split pair. -/
structure Ctx where
  lane  : LaneId
  pair  : PairId
  odd   : Bool
  fetch : Hit
  data  : Hit
  deriving DecidableEq, Repr

/-- Form A, register-register. `s3` is S3 or COND. -/
structure FormA where
  d    : BitVec 4
  s1   : BitVec 4
  s2   : BitVec 4
  s3   : BitVec 4
  i    : Bool
  imm5 : BitVec 5
  z    : BitVec 3
  deriving DecidableEq, Repr

/-- Form B, register and 16-bit immediate. -/
structure FormB where
  d   : BitVec 4
  s1  : BitVec 4
  z   : Bool
  imm : BitVec 16
  deriving DecidableEq, Repr

/-- Form C, base plus displacement. -/
structure FormC where
  d    : BitVec 4
  base : BitVec 4
  disp : BitVec 17
  deriving DecidableEq, Repr

/-- Form C, timer and counter variant. -/
structure FormT where
  z24  : Bool
  q    : BitVec 3
  base : BitVec 4
  z16  : Bool
  inp  : BitVec 3
  blk  : BitVec 13
  deriving DecidableEq, Repr

/-- Form D, flow. -/
structure FormD where
  a   : BitVec 4
  off : BitVec 21
  deriving DecidableEq, Repr

/-- Form E, bit operations. -/
structure FormE where
  d   : BitVec 4
  s1  : BitVec 4
  s2  : BitVec 4
  bit : BitVec 5
  z   : BitVec 8
  deriving DecidableEq, Repr

/-- Form E as EDGE uses it, with SLOT13 in [12:0]. -/
structure FormG where
  d    : BitVec 4
  s1   : BitVec 4
  s2   : BitVec 4
  slot : BitVec 13
  deriving DecidableEq, Repr

end Sys2Proof
end

