-- ==== Sys2Proof/Types/Time.lean ====
section
/-! DEFINITION. Network time: the local clock, the two domains, peer delays (10_network_time.md). -/

namespace Sys2Proof

/-- The local clock (R358, R359): SEC, NS, FRAC, the 16-bit extension below FRAC, and the signed rate correction in units
of 2^-32 ns per 8 ns tick. -/
structure Clock where
  sec  : BitVec 48
  ns   : BitVec 30
  frac : BitVec 16
  ext  : BitVec 16
  corr : BitVec 24
  deriving DecidableEq, Repr

/-- Which domain the local clock follows (TI_STAT.ACT). -/
inductive ActDom where
  | none | first | second
  deriving DecidableEq, Repr

/-- One tracked domain (R371): offset o in ns (none: not tracked), tide count of the last good Sync and of the start of the
present run without a gap of 16 tides, the grandmaster identity, and the last sequenceId accepted from each sender. -/
structure DomainSt where
  ofs      : Option Int
  lastGood : Option Nat
  runStart : Nat
  gm       : BitVec 64
  seqs     : List (BitVec 80 × BitVec 16)
  deriving DecidableEq, Repr

/-- A PTP message as received, by the fields the module reads (R362, R363): `sender` is the sourcePortIdentity, its clockIdentity in the
upper 64 bits; `origin` is the originTimestamp and `corr` the correctionField, in ns. -/
structure PtpMsg where
  msgType  : BitVec 4
  version  : BitVec 4
  domain   : Byte
  twoStep  : Bool
  seq      : BitVec 16
  sender   : BitVec 80
  origin   : Int
  corr     : Int
  deriving DecidableEq, Repr

/-- Network time. `delays` holds the last eight peer-delay values of the backbone ports in ns, newest first,
`delayBad` that event 0x0506 stands recorded for the port, `pdSent` the egress time t1 of a Pdelay_Req that is not yet answered and
`pdNext` the tide, counted since power-on, from which the next one is due (R366); `convFrom` since when CONV is set; `seqIds` the sequenceId counters by message type, port and
domain; `latchL` and `latchN` what TI_SECL and TI_NS read;
`trim` the oscillator trim in steps of 0.05 ppm; `phi` and `relab` the joiner's phase and whole tides
(R374); `overFrom` since when the rate correction has exceeded 0.5 ppm (R547), in ns since power-on. -/
structure TimeSt where
  clock    : Clock
  set      : Bool
  dom1     : DomainSt
  dom2     : DomainSt
  act      : ActDom
  hold     : Bool
  slewing  : Bool
  slewFrom : Nat
  convFrom : Nat
  rel      : Bool
  hops     : BitVec 6
  latchL   : Word
  latchN   : Word
  syncMiss : Stat
  ptpRej   : Stat
  delays   : Vector (List Nat) 4
  delayBad : Vector Bool 4
  pdSent   : Vector (Option Int) 4
  pdNext   : Vector Nat 4
  seqIds   : List ((BitVec 4 × Port × Byte) × BitVec 16)
  trim     : Int
  phi      : Option Int
  relab    : Int
  overFrom : Option Nat
  deriving DecidableEq, Repr

end Sys2Proof
end

