-- ==== Sys2Proof/Types/Net.lean ====
section
/-! DEFINITION. The vehicle network, Ashlar connections, TRDP, ARP and ICMP
(08_vehicle_network.md, 11_ashlar_safe_layer.md). -/

namespace Sys2Proof

/-- Guardian states of a vehicle port (R287). -/
inductive Guard where
  | admitted | isolated | probation
  deriving DecidableEq, Repr

/-- A frame on its way: when its first bit arrives and when it ends, in ns from the start of the tide; its bytes from
destination address to FCS. -/
structure Arrival where
  bytes : List Byte
  start : Nat
  stop  : Nat
  deriving DecidableEq, Repr

/-- What one Keystone slice presents of a frame, against the copy its lane's image gives: the same, the same with bits
flipped in one 32-bit word, or silent from a word on (R231). The environment decides. -/
inductive SliceFault where
  | none
  | flip (word : Nat) (x : Word)
  | silentFrom (word : Nat)
  deriving DecidableEq, Repr

/-- A frame as the module put it on a wire: its bytes, FCS included, and whether the egress voter cut it off (R232). -/
structure TxFrame where
  bytes   : List Byte
  aborted : Bool
  deriving DecidableEq, Repr

/-- How a port starts a frame: when, in ns from the start of the tide; whether its egress is busy or a ring frame is arriving for it (R326);
a frame that is still arriving on another port (R272). -/
structure EgressStart where
  now  : Nat
  busy : Bool
  cut  : Option (Port × Arrival)
  deriving DecidableEq, Repr

/-- A port starts a message: when, in ns from the start of the tide, and what the slices present of it. -/
structure TxAt (P : Type) where
  port : P
  now  : Nat
  sl   : Lanes SliceFault
  deriving DecidableEq, Repr

/-- A PTP message that arrives, with the offset of its first bit in the tide in ns (R368). -/
structure PtpArrival where
  msg : PtpMsg
  now : Nat
  deriving DecidableEq, Repr

/-- What is written into a frame after its egress vote (R233): nothing; HOP of a beacon (R330); the egress time plus `d` ns as
originTimestamp, the turnaround since a request arrived at `rx`, or residence time and peer delay of `d` ns, both into correctionField
(R365, R367, R369). `asIs` is a frame in transit with a bad FCS, whose FCS is passed on with it. -/
inductive Stamp where
  | plain
  | asIs
  | hop (h : Nat)
  | origin (d : Int)
  | turn (rx : Int)
  | residence (d : Nat)
  deriving DecidableEq, Repr

/-- A frame to be sent, without its FCS: the copies of the three slices; whether the module originates it (R235), and whether it passes
through one slice alone, as transit and best effort do (R234); what is written into it after the vote. -/
structure QFrame where
  copies : Lanes (List Byte)
  own    : Bool
  lone   : Bool
  stamp  : Stamp
  deriving DecidableEq, Repr

/-- A vehicle, backbone or MNT port (R265 to R276, R285 to R288, R308, R310, R647). `isoEnd` is the boundary at which an
isolation ends, `viols` the boundaries of the recent violations, `cleanFrom` the boundary from which none has occurred;
token buckets in milli-bits with the instant of their last filling; `accepted` the windows that have accepted a frame in
this tide, `sent` the windows whose frame has been sent or given up in it (R298), `cutTo` the ports that carry on an arriving frame
cut-through (R272); `roleAt` when the PHY role was taken and `dwell` its dwell in ms (R313); `losses` and `fcsFails` when link was lost and FCS failures counted (R308); `sqiLow` since when SQI is 2 or
below. -/
structure PortSt where
  link     : Bool
  speed    : BitVec 2
  lead     : Bool
  derated  : Bool
  sqi      : BitVec 3
  guard    : Guard
  exp      : Nat
  isoEnd   : Nat
  viols    : List Nat
  cleanFrom : Nat
  lastv    : BitVec 4
  mac      : Option (List Byte)
  qPtp     : List QFrame
  qRc      : List QFrame
  qBe      : List QFrame
  rcTok    : Nat
  beTok    : Nat
  tokAt    : Nat
  accepted : List Nat
  sent     : List Nat
  cutTo    : List Port
  losses   : List Nat
  fcsFails : List Nat
  sqiLow   : Option Nat
  derSaid  : Bool
  dwell    : Nat
  roleAt   : Nat
  tx       : Option TxFrame
  pviol    : Stat
  ppolice  : Stat
  piso     : Stat
  pmiss    : Stat
  prej     : Stat
  deriving DecidableEq, Repr

/-- An instance received: payload and Ashlar trailer. -/
structure RxInst where
  payload : List Byte
  trailer : List Byte
  deriving DecidableEq, Repr

/-- The verdict of a Keystone slice on an instance, against the one that the receiver checks give: the same, or the error code that the
slice finds, 0 for good (R389). The environment decides. -/
abbrev SliceVerdict := Option (BitVec 3)

/-- A receive SLOT (R196, R197): the latest instance received and not yet frozen, with the tide boundaries that have passed
since its reception; the payload of the latest good instance and m. -/
structure RxSt where
  pend    : Option RxInst
  pendAge : Nat
  good    : Option (List Byte)
  m       : Nat
  deriving DecidableEq, Repr

/-- State of an Ashlar connection (R386, R391, R392, R405). A send connection is `noref` before its first commit and `up`
when sending; `seq`, `time`, `code1` are the reference, or the last send. -/
inductive AshState where
  | noref | up | lapsed
  deriving DecidableEq, Repr

structure AshSt where
  st      : AshState
  seq     : Word
  time    : Word
  code1   : Word
  d       : Word
  lastErr : BitVec 4
  err     : Stat
  resync  : Stat
  deriving DecidableEq, Repr

/-- The schedule mode and a mode request (R290 to R297, KS_MODE). `word` is the last voted word, `dead` that the word
counts as no request until it changes (R296), `said` that its value is recorded as outside NEXT (R292), `echoAt` the tide, counted since power-on, whose end was
last counted, and its number as a request tide (R295, R296), `heard` the ports that have echoed in this tide. -/
structure ModeSt where
  cur     : BitVec 3
  req     : Bool
  rq      : BitVec 3
  go      : Bool
  echo    : BitVec 2
  rtide   : Nat
  lastout : BitVec 2
  word    : Option (Word × Byte)
  dead    : Bool
  said    : Bool
  echoAt  : Option (Nat × Nat)
  heard   : List Nat
  deriving DecidableEq, Repr

/-- The two interfaces of the local stack. -/
inductive Iface where
  | vehicle | mnt
  deriving DecidableEq, Repr

/-- An ARP cache entry and an outstanding resolution (R305). Instants in ns since power-on. -/
structure ArpEntry where
  iface : Iface
  ip    : Word
  mac   : List Byte
  at_   : Nat
  deriving DecidableEq, Repr

structure ArpWait where
  iface : Iface
  ip    : Word
  tries : Nat
  at_   : Nat
  deriving DecidableEq, Repr

/-- The network. `rx` and `trdpSeq`, `trdpRx` are indexed by the position of the SLOT in the admitted set-up, `conns` by the
position of the CONN; `pushAt` is the tide, counted since power-on, of the last push (R300). -/
structure Net where
  ports    : Vector PortSt 37
  rx       : List RxSt
  conns    : List AshSt
  trdpSeq  : List Word
  trdpRx   : List (Option Word)
  pushAt   : Option Nat
  mode     : ModeSt
  arp      : List ArpEntry
  arpWait  : List ArpWait
  icmp     : Vector (Nat × Nat) 2
  conflict : Vector (Option Nat) 2
  deriving DecidableEq, Repr

end Sys2Proof
end

