-- ==== Sys2Proof/Types/Power.lean ====
section
/-! DEFINITION. Power, feeds, straps, NEAP and the front panel (16_power_and_clocks.md, 20_connectors_straps_ratings.md). -/

namespace Sys2Proof

/-- The strap contacts (R626, R627). -/
structure Straps where
  slot    : BitVec 5
  vtype   : BitVec 4
  lmode   : BitVec 2
  cbrole  : BitVec 2
  bootsel : BitVec 2
  feedcfg : BitVec 2
  outdef  : Bool
  ftestN  : Bool
  deriving DecidableEq, Repr

/-- Power states of the module. -/
inductive PowerState where
  | off | run | neap
  deriving DecidableEq, Repr

/-- The two feeds. -/
inductive FeedId where
  | feedA | feedB
  deriving DecidableEq, Repr

/-- One feed: measured voltage in 10 mV units, in limits under R519, standing out of limits seen (R522), and when it
became standby (ns since power-on). -/
structure FeedSt where
  v       : BitVec 16
  inLim   : Bool
  stbyAt  : Option Nat
  deriving DecidableEq, Repr

/-- Sources of a wake (PM_WAKE.SRC). -/
inductive WakeSrc where
  | powerOn | wakeN | channel (c : Fin 48) | baf | bar | button
  deriving DecidableEq, Repr

/-- Refusers of NEAP entry that an input from outside decides (R535): levels seen at the attempt or within the quiet time. -/
structure NeapInputs where
  wakeN     : Bool
  wakeChan  : Bool
  button    : Bool
  otherWrite : Bool
  deriving DecidableEq, Repr

/-- NEAP entry steps (PM_STAT.ESTEP). -/
inductive EStep where
  | none | e1 | e2 | e3 | e4 | e5 | e6 | e7
  deriving DecidableEq, Repr

/-- Domains with SLACK (R530). -/
inductive SlackDom where
  | cores (l : LaneId) (p : PairId) | steward | regs (i : Fin 9) | bt | common (l : LaneId) | flash
  deriving DecidableEq, Repr

/-- A wake of a domain (R531, R532): the instant in ns at which the domain is ready, and the requesters whose accesses stall on it. -/
structure Waking where
  dom   : SlackDom
  ready : Nat
  by_   : List Agent
  deriving DecidableEq, Repr

/-- Parts that have a PLL (R544). -/
inductive PllPart where
  | lane (l : LaneId) | keystone | parapet
  deriving DecidableEq, Repr

/-- Power. `active` and the feeds make PM_STAT; `pref` the preference in force (R520); `straps` the values in use;
`lastWake`, `lastTry`, `lastSwitch` are instants in ns since power-on; `latch` the wake latch with Headland times (R537);
`neapAt` that of the entry into NEAP; `wakeSrc` and `nlatch` make PM_WAKE; `asleep` the domains in SLACK, `waking` those that wake; `ledTest` PM_LED.TEST with `pattern`; `ledTestAt` when
it was set; `litUntil` the end of the service button's 3 s (R633); `mntForced` its 10 s hold; `pllLost` parts without lock;
`opsec` and `pcyc` the lifetime counters. -/
structure Power where
  state     : PowerState
  straps    : Straps
  chg       : Bool
  unstable  : Bool
  feedA     : FeedSt
  feedB     : FeedSt
  active    : Option FeedId
  holdup    : Bool
  holdupAt  : Nat
  full      : Bool
  pref      : BitVec 2
  retSaid   : Bool
  dstep     : BitVec 2
  refflt    : Bool
  inlet     : Byte
  laneTemp  : Byte
  ksTemp    : Byte
  ppTemp    : Byte
  estep     : EStep
  reflast   : BitVec 16
  nref      : Vector Stat 7
  swcnt     : Stat
  holdcnt   : Stat
  wakeSrc   : WakeSrc
  latched   : Bool
  nlatch    : BitVec 5
  latch     : List (WakeSrc × Word)
  lastWake  : Nat
  lastTry   : Nat
  lastSwitch : Option Nat
  neapAt    : Nat
  asleep    : List SlackDom
  waking    : List Waking
  ledTest   : Bool
  ledTestAt : Nat
  pattern   : BitVec 9
  litUntil  : Nat
  mntForced : Bool
  pllLost   : List PllPart
  laneHot   : Lanes Bool
  ksHot     : Bool
  ppHot     : Bool
  opsec     : Word
  pcyc      : Word
  deriving DecidableEq, Repr

end Sys2Proof
end

