-- ==== Sys2Proof/Types/Ring.lean ====
section
/-! DEFINITION. The train backbone ring (09_train_backbone.md). -/

namespace Sys2Proof

/-- The two physical sides of a node: F (BAF, BBF) and R (BAR, BBR). -/
inductive SideId where
  | f | r
  deriving DecidableEq, Repr

/-- The two lines. -/
inductive Line where
  | a | b
  deriving DecidableEq, Repr

/-- Side states (R320). -/
inductive SideSt where
  | linked | crossA | crossB | end_
  deriving DecidableEq, Repr

/-- KS_RING.STATE. -/
inductive RingState where
  | alone | joining | member | master | hold
  deriving DecidableEq, Repr

/-- Roster states of a slot (R329). -/
inductive SlotState where
  | free | active | lost
  deriving DecidableEq, Repr

/-- A roster entry, with what the master counts for it (R338): consecutive tides without a good frame. -/
structure RosterEntry where
  uid   : BitVec 64
  st    : SlotState
  quiet : Nat
  deriving DecidableEq, Repr

/-- A beacon by field (R329). -/
structure Beacon where
  epoch    : Word
  muid     : BitVec 64
  hop      : Nat
  nodes    : Nat
  slots    : Nat
  bl       : Nat
  cabslot  : Nat
  merge    : Bool
  handover : Bool
  slew     : Bool
  gresult  : Byte
  gslot    : Nat
  guid     : BitVec 64
  act      : Word
  roster   : List (BitVec 64 × SlotState)
  deriving DecidableEq, Repr

/-- A probe by field (R331); `cycle` is CYCLE of its header, the sender's tide index (R277). -/
structure Probe where
  kind  : Byte
  cab   : Bool
  slew  : Bool
  epoch : Word
  muid  : BitVec 64
  nodes : Nat
  slots : Nat
  free  : Nat
  bl    : Nat
  act   : Word
  lost  : Nat
  cycle : BitVec 16
  deriving DecidableEq, Repr

/-- A ring frame that arrives: its bytes, the offset of its first bit in the tide in ns, and what the slices present as it is passed on. -/
structure RingRx where
  bytes : List Byte
  start : Nat
  sl    : Lanes SliceFault
  deriving DecidableEq, Repr

/-- A ring frame that is passed on: its bytes, and what the slices present of it. -/
structure RingPass where
  bytes : List Byte
  sl    : Lanes SliceFault
  deriving DecidableEq, Repr

/-- The claim mini-slot as a claimer finds it: whether a frame is arriving for it (R340), and what the slices present of the claim. -/
structure MiniSlot where
  busy : Bool
  sl   : Lanes SliceFault
  deriving DecidableEq, Repr

/-- A lost line before its restore: its port, whether it has carried idle without error since the last look (R347), and what the slices
present of the probe. -/
structure LineProbe where
  port  : Fin 4
  clean : Bool
  sl    : Lanes SliceFault
  deriving DecidableEq, Repr

/-- A side that sends a probe on its lines, and what the slices present of it. -/
structure SideTx where
  side : SideId
  sl   : Lanes SliceFault
  deriving DecidableEq, Repr

/-- A claim frame by field (R331). -/
structure Claim where
  uid   : BitVec 64
  kind  : Byte
  n     : Nat
  frame : Nat
  deriving DecidableEq, Repr

/-- A junction probe that arrives, and what the slices present of a merge notice that it causes. -/
structure ProbeRx where
  probe : Probe
  sl    : Lanes SliceFault
  deriving DecidableEq, Repr

/-- The ACT boundary of a merge: its side, and the relabel of the joiner's master in tides (R374; assumption log entry 91). -/
structure MergeActs where
  side : SideId
  k    : Int
  deriving DecidableEq, Repr

/-- A merge that both junction nodes have decided and that waits for ACT (R350 to R352). -/
structure MergeDec where
  side   : SideId
  keeper : Bool
  tide   : Nat
  other  : BitVec 64
  act    : Option Nat
  deriving DecidableEq, Repr

/-- The ring as this node sees it. `inward` is the side that faces the master (none: no good beacon yet, R333); `miss` the
consecutive boundaries without a beacon; `gotAt` the tide (counted since power-on) of the last good beacon, `heardAt` and `backAt` of the last
one on the A leg and on the B leg, `missAt` that of the last counted miss; `flips` the consecutive tides with FLIP from CABSLOT; `answer` the claim the master answers in its next beacon; `refusedEpoch` and `retryAt` bar further claims (R342);
`sent` that a claim of this node awaits its result; `notice` the keeper master of a merge that the master has been told of (R352); `probeF`, `probeR` the neighbours' last junction probes; `refusedF`, `refusedR` the
probes a merge at a span was refused on; `restoreF`, `restoreR` the ACT of a restore; `forced` the ports forced down, with the instant (R344);
`p0` when the pattern begins, in ns from the start of the tide (R321); `syncOut` the tide in which a Sync last left a port (R370); `masterAt`
the tide in which this node became master; `ringSaid` the ports whose withheld loop is recorded (R345);
`regain` since which boundary a lost line's port has had link again; `cabSeen`, `flipSeen` and `slotSeen` what this tide's
frames carried, `slotGood` the slots of which a good copy has been taken (R319, R395); `relay` that the bypass relays are closed (R314). -/
structure Ring where
  on        : Bool
  relay     : Bool
  st        : RingState
  node      : Nat
  slot      : Nat
  sideF     : SideSt
  sideR     : SideSt
  inward    : Option SideId
  nodes     : Nat
  bl        : Nat
  epoch     : Word
  muid      : BitVec 64
  roster    : List RosterEntry
  hasTable  : Bool
  cabslot   : Nat
  cabOwn    : Bool
  merge     : Bool
  handover  : Bool
  slew      : Bool
  act       : Option Nat
  gresult   : Byte
  gslot     : Nat
  guid      : BitVec 64
  answer    : Option Claim
  everHeard : Bool
  gotAt     : Option Nat
  heardAt   : Option Nat
  backAt    : Option Nat
  missAt    : Option Nat
  p0        : Nat
  syncOut   : Vector (Option Nat) 4
  masterAt  : Nat
  miss      : Nat
  flips     : Nat
  flipSeen  : Bool
  cabSeen   : List Nat
  slotSeen  : List Nat
  slotGood  : List Nat
  refusedEpoch : Option Word
  retryAt   : Option Nat
  sent      : Bool
  claimSaid : Bool
  ringSaid  : List (Fin 4)
  notice    : Option (BitVec 64)
  probeF    : Option Probe
  probeR    : Option Probe
  dec       : Option MergeDec
  refusedF  : Option (Probe × Probe)
  refusedR  : Option (Probe × Probe)
  restoreF  : Option Nat
  restoreR  : Option Nat
  forced    : List (Fin 4 × Nat)
  regain    : Vector (Option Nat) 4
  mergeLast : BitVec 2
  mergeWhy  : BitVec 4
  heal      : Stat
  bmiss     : Stat
  rclaim    : Stat
  deriving DecidableEq, Repr

end Sys2Proof
end

