-- ==== Sys2Proof/Types/Setup.lean ====
section
/-! DEFINITION. Set-up programs: the raw instruction and the declarations it makes (05_setup_programs_and_admission.md). -/

namespace Sys2Proof

/-- A set-up instruction with its operand words and its number in the program (R161). -/
structure SetupInstr where
  op   : BitVec 7
  arg  : BitVec 16
  ws   : List Word
  idx  : Nat
  deriving DecidableEq, Repr

/-- A binding word (R165): a byte offset in a task's PI or PQ section. -/
structure Binding where
  pair : PairId
  task : TaskId
  tse  : Bool
  off  : Nat
  deriving DecidableEq, Repr

/-- A pair's layout: the exclusive end addresses of its six spaces (R68, TASK with L = 1). -/
structure LayoutDecl where
  pair : PairId
  code : Nat
  k    : Nat
  pi   : Nat
  pq   : Nat
  ret  : Nat
  work : Nat
  idx  : Nat
  deriving DecidableEq, Repr

/-- A section: offset from the start of its space and length, in bytes (R70). -/
structure Sect where
  start : Nat
  len   : Nat
  deriving DecidableEq, Repr

/-- A timed task (TASK with L = 0). -/
structure TaskDecl where
  pair  : PairId
  task  : TaskId
  prio  : Nat
  k     : Nat
  entry : Word
  pi    : Sect
  pq    : Sect
  ret   : Sect
  work  : Sect
  trap  : Bool
  idx   : Nat
  deriving DecidableEq, Repr

/-- What a SLOT declares beyond the fields that all slots share (SLOT operands table). -/
inductive SlotKind where
  | tt (offset length : Nat)
  | backbone (uid : BitVec 64)
  | route
  | rc (comId ip : Word) (push : Nat)
  deriving DecidableEq, Repr

/-- A SLOT: `frame` is FRAME for TT and the dataset bytes for RC. -/
structure SlotDecl where
  kind   : SlotKind
  mode   : Nat
  port   : Nat
  rx     : Bool
  win    : Nat
  slotId : BitVec 16
  frame  : Nat
  bind   : Option Binding
  agelim : Nat
  bound  : Nat
  idx    : Nat
  deriving DecidableEq, Repr

/-- PORT 0 to 36. Limits in Mb/s. -/
structure PortDecl where
  port  : Port
  speed : BitVec 2
  lead  : Bool
  rc    : Nat
  be    : Nat
  minspd : BitVec 2
  idx   : Nat
  deriving DecidableEq, Repr

/-- PORT 63, the module-wide network values. -/
structure NetDecl where
  ethertype : BitVec 16
  dom1      : Byte
  dom2      : Byte
  vip       : Word
  mip       : Word
  mntPrefix : Nat
  vehPrefix : Nat
  deriving DecidableEq, Repr

/-- MODE. -/
structure ModeDecl where
  mode : Nat
  init : Bool
  next : Byte
  echo : Word
  idx  : Nat
  deriving DecidableEq, Repr

/-- Channel kinds of CHAN. -/
inductive ChanKind where
  | input | output | counter | wake
  deriving DecidableEq, Repr

/-- Safe states of an output channel. -/
inductive SafeKind where
  | off | on | hold
  deriving DecidableEq, Repr

/-- CHAN with ADDB = 0. Thresholds in 0.25 V, filter, dark and light pulses in 10 µs, test period in 10 ms. -/
structure ChanDecl where
  ch      : Chan
  kind    : ChanKind
  preset  : BitVec 4
  on      : Nat
  off     : Nat
  filter  : Nat
  dark    : Nat
  light   : Nat
  testper : Nat
  safe    : SafeKind
  bind    : Option Binding
  idx     : Nat
  deriving DecidableEq, Repr

/-- CHAN with ADDB = 1: a further reader of a channel. -/
structure AddbDecl where
  ch   : Chan
  bind : Option Binding
  idx  : Nat
  deriving DecidableEq, Repr

/-- REFLEX. An input of 0x3F is unused (none); `stray` tells that a channel number is 48 to 62, or 63 for the output. -/
structure ReflexDecl where
  table   : Nat
  out     : Chan
  combine : BitVec 2
  ins     : List (Option Chan)
  truth   : BitVec 16
  stray   : Bool
  idx     : Nat
  deriving DecidableEq, Repr

/-- PARAPET: the six words of one function's limits. -/
structure ParapetDecl where
  func : Fin 4
  ws   : Vector Word 6
  idx  : Nat
  deriving DecidableEq, Repr

/-- CONN: one Ashlar connection. `time` is the time expectation in µs. -/
structure ConnDecl where
  rx     : Bool
  connId : Word
  srcId  : Word
  slotId : BitVec 16
  port   : Nat
  time   : Nat
  idx    : Nat
  deriving DecidableEq, Repr

/-- The values of the POLICY keys (R171). -/
structure Policy where
  feedReturn  : Bool
  feedHold    : Nat
  rejoinLimit : Nat
  rejoinWin   : Nat
  ring        : Bool
  claim       : Bool
  derate      : Nat
  sleep       : Bool
  sleepQuiet  : Nat
  splitwork   : Bool
  portrate    : Bool
  trim        : Bool
  wetCur      : Nat
  wetTime     : Nat
  forcekeep   : Bool
  rackslot    : Option Nat
  vtype       : Option Nat
  deriving DecidableEq, Repr

/-- PORT 61, the bridge's words (R460). -/
structure CorbelDecl where
  w0 : Word
  w1 : Word
  deriving DecidableEq, Repr

/-- Everything a set-up declares, undeclared items at the values of R163. `n` and `bl` are SPARE's. -/
structure Setup where
  layouts   : List LayoutDecl
  tasks     : List TaskDecl
  slots     : List SlotDecl
  ports     : List PortDecl
  net       : NetDecl
  corbel    : Option CorbelDecl
  modes     : List ModeDecl
  n         : Nat
  bl        : Nat
  chans     : List ChanDecl
  addbs     : List AddbDecl
  reflexes  : List ReflexDecl
  parapets  : List ParapetDecl
  conns     : List ConnDecl
  splitmask : Byte
  lanes     : BitVec 2
  feed      : Option (BitVec 2)
  policy    : Policy
  deriving DecidableEq, Repr

/-- The kinds of initial image an application carries. -/
inductive SegKind where
  | code | k | ret | work
  deriving DecidableEq, Repr

/-- One initial image: the bytes of a pair's space, from the start of the space. -/
structure Segment where
  kind  : SegKind
  pair  : PairId
  bytes : List Byte
  deriving DecidableEq, Repr

/-- The result of a lane's check (R155): code, and where it points; the digest is kept apart. -/
structure AdmResult where
  code : Byte
  pair : BitVec 3
  task : BitVec 4
  index : BitVec 16
  digest : BitVec 64
  deriving DecidableEq, Repr

/-- An application image as the module reads it (R579): set-up words, initial images, OUTDEF table, the verdict of the
checks of R580 (0 when they pass), VERSION and SVN. -/
structure AppImage where
  words   : List Word
  segs    : List Segment
  outdef  : List (Chan × Bool)
  trust   : Byte
  version : Word
  svn     : Byte
  deriving DecidableEq, Repr

/-- Tag positions of one task (R279): byte offsets in its PI section, and in its PQ section. -/
structure TagMap where
  pair : PairId
  task : TaskId
  pi   : List Nat
  pq   : List Nat
  deriving DecidableEq, Repr

/-- A set-up with the images and tables that go into effect with it. `append` tells an application load from a boot. -/
structure Loaded where
  setup  : Setup
  image  : AppImage
  digest : BitVec 64
  tags   : List TagMap
  append : Bool
  deriving DecidableEq, Repr

/-- Admission (05). `cur` is the set-up in force (none before the first COMMIT since power-on), `last` the words and the
CODE and K images last admitted (R187), `image` the image whose set-up is to be checked, `results` the lanes' results,
`next` the admitted set-up that waits for E, `effect` the boundary E; the rest is SV_ADMIT. -/
structure Adm where
  cur     : Option Loaded
  last    : Option (List Word × List Segment)
  image   : Option AppImage
  append  : Bool
  results : Lanes (Option AdmResult)
  next    : Option Loaded
  effect  : Option Nat
  code    : Byte
  pair    : BitVec 3
  task    : BitVec 4
  lanedis : Bool
  index   : BitVec 16
  deriving DecidableEq, Repr

end Sys2Proof
end

