-- ==== Sys2Proof/Types/Boot.lean ====
section
/-! DEFINITION. Boot, update and trust (18_boot_update_and_trust.md). -/

namespace Sys2Proof

/-- The two banks. -/
inductive BankId where
  | a | b
  deriving DecidableEq, Repr

/-- Journal states and steps (R595). -/
inductive JState where
  | confirmed | staged | trialBoot | trialRun | reverted
  deriving DecidableEq, Repr

inductive JStep where
  | none | verify | migrate | admission
  deriving DecidableEq, Repr

/-- A journal record (R595). -/
structure Journal where
  gen      : Word
  state    : JState
  step     : JStep
  attempt  : BitVec 2
  active   : BankId
  otherval : Bool
  slip     : Bool
  fusepend : Bool
  reason   : Byte
  kind     : Byte
  tsvn     : Byte
  version  : Word
  deriving DecidableEq, Repr

/-- One journal copy: a record, or none where MARK or CRC make it unusable. -/
abbrev JCopy := Option Journal

/-- A settings generation (R578): format, number, OUTDEF table, K overlay (pair, offset in K, word), area pointer. -/
structure Settings where
  fmt     : BitVec 16
  gen     : Word
  outdef  : List (Fin 48 × Bool)
  overlay : List (PairId × Nat × Word)
  area    : Bool
  deriving DecidableEq, Repr

/-- What stands in a firmware slot or an application area: the bytes written so far, erased elsewhere (0xFF). `bad` names the 512-byte
sectors of the bank's flash device, counted from its start, whose data is uncorrectable (R509, R516). -/
structure BankSt where
  fw    : Memory
  app0  : Memory
  app1  : Memory
  half0 : Option Settings
  half1 : Option Settings
  bad   : List Nat
  deriving DecidableEq, Repr

/-- A rewrite of an erase block under way (R516): the device, the block of 128 KiB and the corrected bits of the sector that caused it. -/
structure Refresh where
  dev   : BankId
  block : Nat
  bits  : Nat
  deriving DecidableEq, Repr

/-- A directory entry: type, pair, offset and length. -/
structure DirEntry where
  typ : Nat
  pair : Nat
  off : Nat
  len : Nat
  deriving DecidableEq, Repr

/-- A key slot in OTP (R582). -/
structure KeySlot where
  key     : List Byte
  prog    : Bool
  revoked : Bool
  deriving DecidableEq, Repr

/-- A file being loaded: which kind, its declared length, and the offsets and lengths of the blocks written. Owner is the session. -/
inductive SeqKind where
  | app
  | upd (kind : Byte)
  deriving DecidableEq, Repr

structure LoadSeq where
  kind    : SeqKind
  session : Word
  length  : Nat
  blocks  : List (Nat × Nat)
  deriving DecidableEq, Repr

/-- What bank the boot chose by (BT_STAT.SOURCE). -/
inductive BootSrc where
  | journal | bootsel | fallback
  deriving DecidableEq, Repr

/-- Boot, update and trust. `bank` the booted bank, `recov` a recovery boot, `romSvc` the ROM recovery service (R590),
`booted` that the steward firmware runs. -/
structure Boot where
  bankA    : BankSt
  bankB    : BankSt
  copy0    : JCopy
  copy1    : JCopy
  uid      : BitVec 64
  vkeys    : Vector KeySlot 4
  okeys    : Vector KeySlot 4
  rb       : Nat
  bank     : BankId
  recov    : Bool
  romSvc   : Bool
  booted   : Bool
  src      : BootSrc
  fwVer    : Word
  appVer   : Word
  fwSvn    : Byte
  appSvn   : Byte
  refresh  : Option Refresh
  seq      : Option LoadSeq
  chkFail  : Stat
  deriving DecidableEq, Repr

end Sys2Proof
end

