-- ==== Sys2Proof/Types/Lane.lean ====
section
/-! DEFINITION. The state of one lane die: register banks, activations, pairs and cores
(02_programming_model.md, 07_lanes_voting_and_lockstep.md). -/

namespace Sys2Proof

/-- A word register: value and quality tag (R51). -/
structure WReg where
  v : Word
  t : Byte
  deriving DecidableEq, Repr

/-- A bit register: value and quality tag (R51). -/
structure BReg where
  v : Bool
  t : Byte
  deriving DecidableEq, Repr

/-- An entry of the loop stack: runs left and the address of the first word of the body. -/
structure LoopEntry where
  count : BitVec 16
  start : Word
  deriving DecidableEq, Repr

/-- One register bank (R60): the registers a task sees. Entry 0 of `w` and of `b` is never read and never written,
because W0 and B0 are hard-wired (R52). Stacks hold their top entry first. -/
structure Bank where
  w     : Vector WReg 16
  b     : Vector BReg 8
  pc    : Word
  ret   : List Word
  loops : List LoopEntry
  dz    : Bool
  finv  : Bool
  deriving DecidableEq, Repr

/-- Where an activation of a timed task stands in one lane (R22, R23, R82, R129). `released`: its inputs are being
delivered; `ready`: it may execute; `done`: it has completed DONE; `ended`: an exception has ended it. -/
inductive Phase where
  | idle | released | ready | done | ended
  deriving DecidableEq, Repr

/-- An exception record (R84). `addr` is 0 for codes that carry no address, `imm` is 0 but for TRAP. -/
structure ExcRec where
  code : ExcCode
  pc   : Word
  addr : Word
  imm  : BitVec 16
  deriving DecidableEq, Repr

/-- What an activation contributes to its signature while it executes (R236 steps 3 and 4). -/
inductive SigEv where
  | write (addr data : Word) (be : BitVec 4)
  | sig (v : Word) (t : Byte)
  deriving DecidableEq, Repr

/-- One task of one pair in one lane: its bank and its current activation. `sigs` is newest first. `lifted` is the PQ
image that the tide movers have lifted for the coming commit, `com` the last committed image of this lane. -/
structure TaskRun where
  bank   : Bank
  phase  : Phase
  exc    : Option ExcRec
  sigs   : List SigEv
  cycles : Nat
  lifted : Option (List Byte)
  com    : Option (List Byte)
  deriving DecidableEq, Repr

/-- An untimed access still in flight: the posting sequence of the entry and the register that receives its data (R473). -/
structure AccWait where
  pseq : BitVec 16
  dest : BitVec 4
  deriving DecidableEq, Repr

/-- One core of a split pair: its untimed bank, whether it holds an unfinished work item, and the access it waits for. -/
structure UCore where
  bank   : Bank
  active : Bool
  wait   : Option AccWait
  deriving DecidableEq, Repr

/-- What is wrong with a comparator (R253): `differ`, it reports a difference whatever it sees; `deaf`, the bits in which it sees
none. Neither in a sound one. -/
structure CompFault where
  differ : Bool
  deaf   : BitVec 64
  deriving DecidableEq, Repr

/-- One lockstep pair of one lane (R12, R60, R250 to R257). `leader` and `checker` are the signature registers of the
two cores, `retired` the instructions retired in the open window, `closed` the registers of the window that has closed last, until its
comparison has been seen, `cmpX` and `cmpY` the comparators, `testCnt` the comparator test count,
`splitPend` the entry addresses of a pending split, `split` whether the cores run untimed work now,
`resume` whether a split pair that was joined by a release splits again. -/
structure PairSt where
  tasks     : Vector TaskRun 16
  active    : Option TaskId
  leader    : BitVec 64
  checker   : BitVec 64
  retired   : Nat
  closed    : Option (BitVec 64 × BitVec 64)
  cmpX      : CompFault
  cmpY      : CompFault
  testCnt   : Fin 64
  splitPend : Option (Word × Word)
  split     : Bool
  resume    : Bool
  even      : UCore
  odd       : UCore
  deriving DecidableEq, Repr

/-- Lane states (07, table Lane states). -/
inductive LaneState where
  | absent | booting | voting | dropped | rejoining | halted
  deriving DecidableEq, Repr

/-- One lane die. `selfTest` is the verdict of the last self-test, none while it has not completed; `cause`, `dropPair`
and `dropTask` are SV_DROP, `fellAt` the instant of the last drop in ns since power-on, `uncounted` that the next rejoin does not count
against the limit (R246, R262); `charges` the tides of the output-path charges (R240); `chBad` and `egBad` record that the
lane was in an output-path minority in the current tide;
`sig` the lane signature of the last boundary; `sram` the lane's SRAM by its EC_ byte offset and `dmg` its damaged words. -/
structure LaneSt where
  pairs    : Vector PairSt 8
  st       : LaneState
  selfTest : Option Bool
  dbg      : Bool
  cause    : BitVec 8
  dropPair : BitVec 4
  dropTask : BitVec 4
  fellAt   : Option Nat
  uncounted : Bool
  charges  : List Nat
  chBad    : Bool
  egBad    : Bool
  sig      : Option (BitVec 64)
  egMin    : Stat
  chMin    : Stat
  sram     : Memory
  dmg      : Damage
  deriving DecidableEq, Repr

/-- Rejoin phases of SV_LANE.PHASE (R247). -/
inductive RejoinPhase where
  | none | copy | wait | shadow
  deriving DecidableEq, Repr

/-- A rejoin in progress and the rejoin accounting (R245 to R248, SV_LANE, SV_REJOIN). `starts` holds the operating
seconds of the counted rejoins, newest first; `shadowStart` the tide S; `due` counts the boundaries of the shadow run at which signatures are to be compared; `digests` those of the source and of the rejoining
lane, captured at S; `limit` and `window` come from POLICY REJOIN. -/
structure Rejoin where
  lane        : Option LaneId
  src         : Option LaneId
  phase       : RejoinPhase
  matched     : BitVec 5
  due         : BitVec 5
  shadowStart : Nat
  starts      : List Nat
  withheld    : Bool
  limit       : BitVec 4
  window      : BitVec 16
  egAbort     : Stat
  tapRefused  : Lanes Bool
  digests     : Option (BitVec 64 × BitVec 64)
  deriving DecidableEq, Repr

end Sys2Proof
end

