-- ==== Sys2Proof/Types/Control.lean ====
section
/-! DEFINITION. The controller, the retain image, forcing and online change (06_cyclic_execution.md). -/

namespace Sys2Proof

/-- Controller states. -/
inductive CtlState where
  | cold | setup | run | stopped | service
  deriving DecidableEq, Repr

/-- A stop that waits for its commit instant (R199, R239): the boundary, and STOPCAUSE and STOPPC when it is a program
fault (R89); `cmd` that a STOP command asks for it (R203, R375). -/
structure PendStop where
  tide  : Nat
  fault : Option (Word × Word)
  cmd   : Bool
  deriving DecidableEq, Repr

/-- The commands with an effect tide (R203). -/
inductive CtlCmd where
  | stop | restart (warm : Bool) | service | leave
  deriving DecidableEq, Repr

/-- The current or last release of one task: NOW and TIDE of its activation, the tide at which its period ends, whether an
activation is under way, the boundary of its last commit, and whether the task has committed since RUN was entered. -/
structure Rel where
  now       : Word
  tide      : Word
  endTide   : Nat
  live      : Bool
  comAt     : Nat
  committed : Bool
  deriving DecidableEq, Repr

/-- Where a slot lies: a PI, PQ, RET or WORK section. -/
inductive SectKind where
  | pi | pq | ret | work
  deriving DecidableEq, Repr

/-- A force table item (R209). `tagged` tells a tagged word slot from a qualified bit slot; `off` is the byte offset in
the task's section. -/
inductive ForceItem where
  | chin (c : Chan)
  | chout (c : Chan)
  | slot (sect : SectKind) (p : PairId) (t : TaskId) (off : Nat) (tagged : Bool)
  deriving DecidableEq, Repr

/-- A force table entry: `eff` is the effect tide of the force, `endAt` that of its removal, `active` that it has taken
effect, `under` the underlying value of an RW item (R214). -/
structure Force where
  item   : ForceItem
  value  : Word
  eff    : Nat
  active : Bool
  endAt  : Option Nat
  ended  : Bool
  under  : Option (Word × Byte)
  deriving DecidableEq, Repr

/-- What an online-change item writes (R217). -/
inductive OlcTarget where
  | kWord (p : PairId) (off : Nat)
  | word (sect : SectKind) (p : PairId) (t : TaskId) (off : Nat)
  | tagged (sect : SectKind) (p : PairId) (t : TaskId) (off : Nat)
  | bit (sect : SectKind) (p : PairId) (t : TaskId) (off : Nat)
  deriving DecidableEq, Repr

/-- Outcome of an online-change item (R220 to R222). `inEffect` is a K item whose overlay and log writes are under way. -/
inductive OlcOutcome where
  | pending | inEffect | applied | masked | discarded
  deriving DecidableEq, Repr

/-- One item of a request. -/
structure OlcItem where
  target  : OlcTarget
  value   : Word
  old     : Word
  outcome : OlcOutcome
  deriving DecidableEq, Repr

/-- An online-change request: its number, its named tide, and the role, interface and address that sent it. -/
structure OlcReq where
  num   : Word
  tide  : Word
  items : List OlcItem
  role  : Role
  iface : SvcIface
  ip    : Word
  deriving DecidableEq, Repr

/-- A retain buffer with its commit record (R206, R207): the captured RET sections by pair and task, GEN, DIGEST, MARK;
`bad` records that the body or the record no longer matches its CRC. -/
structure RetBuf where
  body   : List (PairId × TaskId × List Byte)
  gen    : Word
  digest : BitVec 64
  mark   : Byte
  bad    : Bool
  deriving DecidableEq, Repr

/-- The retain cycle (R204 to R206): `full` when every task has been captured and the buffer is being written; `lastGen` is the
generation last committed. -/
structure Retain where
  busy  : Bool
  full  : Bool
  src   : Option LaneId
  caps  : List (PairId × TaskId × List Byte)
  buf0  : RetBuf
  buf1  : RetBuf
  lastGen : Word
  stopcause : Word
  stoppc    : Word
  deriving DecidableEq, Repr

/-- The controller. `from` is the state SETUP was entered from, `everCommit` that a set-up has been admitted since
power-on (R200), `runTide` the boundary at which RUN was last entered. -/
structure Ctl where
  state      : CtlState
  from_      : CtlState
  warm       : Bool
  fallback   : Bool
  source     : BitVec 2
  stopcause  : Word
  stoppc     : Word
  everCommit : Bool
  runTide    : Nat
  pendStop   : Option PendStop
  cmds       : List (CtlCmd × Nat)
  rel        : Vector (Vector Rel 16) 8
  forces     : List Force
  olcs       : List OlcReq
  olcDone    : List OlcReq
  olcNext    : Word
  olcLast    : BitVec 2
  olcMasked  : Bool
  retain     : Retain
  deriving DecidableEq, Repr

end Sys2Proof
end

