-- ==== Sys2Proof/Types/Service.lean ====
section
/-! DEFINITION. The engineering service protocol (17_engineering_service.md). -/

namespace Sys2Proof

/-- What carries a request: the source address of its frame, and the IPv4 and UDP headers of its datagram as they arrived (R304, R550). -/
structure NetHead where
  mac : List Byte
  hdr : List Byte
  udp : List Byte
  deriving DecidableEq, Repr

/-- The envelope of a request as it arrives (R551): who sent it and the fields before the body. `body` is the BODY as sent,
which the TAG covers; `lenOk` that the datagram length is 64 + LEN; `net` the headers before it. -/
structure Env where
  iface   : SvcIface
  ip      : Word
  port    : BitVec 16
  version : Byte
  type    : Byte
  target  : BitVec 64
  origin  : BitVec 64
  session : Word
  seq     : Word
  status  : BitVec 16
  body    : List Byte
  tag     : List Byte
  lenOk   : Bool
  net     : NetHead
  deriving DecidableEq, Repr

/-- What a reply carries beside its status. -/
inductive ReplyBody where
  | empty
  | hello (salt ns : List Byte) (uid : BitVec 64) (seconds : Word)
  | session (id : Word)
  | seconds (n : Word)
  | tide (t : Nat)
  | words (ws : List Word)
  | bytes (bs : List Byte)
  | forces (fs : List Force)
  | outcomes (os : List OlcOutcome)
  | admission (w : Word) (e : Option Nat)
  | count (n : Nat)
  | entries (es : List (List Byte)) (oldest next : Word)
  deriving DecidableEq, Repr

/-- The addresses and IPv4 fields under which a reply leaves (R269, R304, R550, R561). -/
structure ReplyHead where
  smac : List Byte
  dmac : List Byte
  src  : Word
  sport : BitVec 16
  ttl  : Byte
  df   : Bool
  deriving DecidableEq, Repr

/-- A reply (R551), to an address and a port. -/
structure Reply where
  head    : ReplyHead
  ip      : Word
  port    : BitVec 16
  iface   : SvcIface
  cmd     : BitVec 16
  origin  : BitVec 64
  session : Word
  seq     : Word
  status  : BitVec 16
  body    : ReplyBody
  keyed   : Bool
  deriving DecidableEq, Repr

/-- An open session (R559). `key` is Ks, `last` the last accepted SEQ with its stored reply, `idleFrom` ns since
power-on, `factory` a session opened with the factory password (R554). -/
structure Session where
  id       : Word
  role     : Role
  key      : List Byte
  last     : Option Word
  reply    : Option Reply
  idleFrom : Nat
  iface    : SvcIface
  ip       : Word
  factory  : Bool
  deriving DecidableEq, Repr

/-- A role's record in the Headland FRAM (R553, R555). -/
structure RoleRec where
  salt    : List Byte
  hash    : Option (List Byte)
  fails   : Nat
  lockEnd : Option Word
  deriving DecidableEq, Repr

/-- An outstanding module nonce (R557). -/
structure Nonce where
  role : Role
  nc   : List Byte
  ns   : List Byte
  at_  : Nat
  deriving DecidableEq, Repr

/-- A relay table entry (R560); the peer's hardware address, CMD and SESSION are kept for the reply that the relaying module sends itself (R551, R562). -/
structure Relay where
  mac    : List Byte
  ip     : Word
  port   : BitVec 16
  target : BitVec 64
  seq    : Word
  cmd    : BitVec 16
  sess   : Word
  since  : Nat
  deriving DecidableEq, Repr

/-- A configuration change log entry by field (R570). `peer` is role, interface and address of the peer, none where no session
is behind the entry. -/
structure LogEntry where
  index   : Word
  opsec   : Word
  pcyc    : Word
  ttime   : BitVec 64
  peer    : Option (Role × SvcIface × Word)
  cmd     : BitVec 16
  status  : BitVec 16
  details : List Word
  deriving DecidableEq, Repr

/-- The calibration record (17, Calibration): gain and offset of every island's threshold converter and of the two feed
monitors, as the words the record holds. -/
structure CalRec where
  isl     : Vector (Word × Word) 48
  feeds   : Vector (Word × Word) 2
  gen     : Word
  opsec   : Word
  factory : Bool
  deriving DecidableEq, Repr

/-- The service. `nextLog` is the next index of the change log; `appendBy` and `confirmBy` are the session and the request that wait for
the end of admission (R568) and for the last fuse (R598). `calWork` is the session, the working copy and the points taken,
`last` the last reply sent, `relayed` the last frame relayed. -/
structure Service where
  recs     : Vector RoleRec 3
  facPw    : Bool
  sessions : List Session
  nonces   : List Nonce
  relays   : List Relay
  log      : List LogEntry
  nextLog  : Word
  cal      : CalRec
  calMirA  : CalRec
  calMirB  : CalRec
  calWork  : Option (Word × CalRec × List (Nat × Nat × Word))
  appendBy : Option (Word × Env)
  confirmBy : Option (Word × Env)
  last     : Option Reply
  relayed  : Option (List Byte)
  sessCnt  : Stat
  authFail : Stat
  macFail  : Stat
  svcRej   : Stat
  arpDrop  : Stat
  deriving DecidableEq, Repr

/-- A READ item (R565). -/
inductive ReadSpace where
  | regs (lane : LaneId)
  | bank (lane : Option LaneId) (p : PairId)
  | common (lane : LaneId)
  | quay
  deriving DecidableEq, Repr

structure ReadItem where
  space : ReadSpace
  addr  : Word
  n     : Nat
  deriving DecidableEq, Repr

/-- A force item of a request (R566). Where an RW item lies, in RET or in WORK, and the form of a slot, its KIND and binding word
do not tell: `work` and `bits` (a qualified bit slot) carry both (assumption log entry 24). -/
structure ForceReq where
  kind  : BitVec 4
  loc   : Word
  value : Word
  work  : Bool
  bits  : Bool
  deriving DecidableEq, Repr

/-- An OLC item of a request (R567): space 0 K, 1 RET, 2 WORK; form 0 word, 1 tagged slot, 2 qualified bit slot. -/
structure OlcItemReq where
  space : BitVec 2
  form  : BitVec 2
  pair  : PairId
  koff  : Nat
  loc   : Word
  value : Word
  deriving DecidableEq, Repr

/-- A request by its command and arguments, without its envelope: what a backbone datagram carries (R561, R563). -/
inductive SvcReq where
  | hello (role : Role) (nc : List Byte)
  | login (role : Role) (nc proof : List Byte)
  | logout
  | passwd (role : Role) (masked : List Byte)
  | keyslotInstall (n : Fin 4) (key : List Byte)
  | keyslotRevoke (vendor : Bool) (n : Fin 4)
  | status
  | read (items : List ReadItem)
  | force (items : List ForceReq)
  | unforce (items : Option (List ForceReq))
  | forcelist (first : Nat)
  | olc (named : Word) (items : List OlcItemReq)
  | olcstat (num : Word)
  | stop
  | restart (warm : Bool)
  | service
  | leave
  | reboot
  | appbegin (length : Nat)
  | appblock (offset : Nat) (data : List Byte)
  | append
  | updbegin (kind : Byte) (length : Nat)
  | updblock (offset : Nat) (data : List Byte)
  | updquery
  | updend
  | confirm
  | recread (area : Byte) (first : Word) (n : Nat)
  | logread (first : Word) (n : Nat)
  | calstart
  | calpoint (target step : Nat) (value : Word)
  | calread
  | calwrite
  | calabort
  deriving DecidableEq, Repr

end Sys2Proof
end

