-- ==== Sys2Proof/Syntax.lean ====
section
/-! DEFINITION. The commands of the block, one constructor per row of the opcode table. Instructions carry the core that is
asked to execute them and their raw fields; events carry what the environment brings (95_what_each_step_holds.md);
service requests carry their envelope and arguments. -/

namespace Sys2Proof

inductive Instr where
  /-- UNASSIGNED_OPCODE (R94). A core executes a word whose primary opcode is unassigned, such as cleared memory or erased flash, and raises EX_ILLEGAL. -/
  | unassignedOpcode (x : Ctx) (op : BitVec 7)
  /-- SETUP_CLASS_INSTRUCTION (R76). Untimed work executes a set-up class opcode, 0x70 to 0x7F, and raises EX_ILLEGAL. -/
  | setupClassInstruction (x : Ctx) (op : BitVec 7)
  /-- ADD (R116). Adds two word registers modulo 2^32 and combines their tags. -/
  | add (x : Ctx) (f : FormA)
  /-- ADDI (R116). Adds a sign-extended 16-bit immediate to a word register. -/
  | addi (x : Ctx) (f : FormB)
  /-- SUB (R116). Subtracts one word register from another modulo 2^32. -/
  | sub (x : Ctx) (f : FormA)
  /-- SUBI (R116). Subtracts a sign-extended 16-bit immediate from a word register. -/
  | subi (x : Ctx) (f : FormB)
  /-- ADDS (R116). Signed addition clamped to the 32-bit signed range. -/
  | adds (x : Ctx) (f : FormA)
  /-- SUBS (R116). Signed subtraction clamped to the 32-bit signed range. -/
  | subs (x : Ctx) (f : FormA)
  /-- NEG (R116). Negates a word register; 0x8000_0000 stays unchanged. -/
  | neg (x : Ctx) (f : FormA)
  /-- MUL (R116). Writes the low 32 bits of the product. -/
  | mul (x : Ctx) (f : FormA)
  /-- MULH (R116). Writes the high 32 bits of the signed product. -/
  | mulh (x : Ctx) (f : FormA)
  /-- DIV (R116). Signed division truncated toward zero; a zero divisor saturates and sets DZ. -/
  | div (x : Ctx) (f : FormA)
  /-- DIVU (R116). Unsigned division; a zero divisor follows the bit-31 rule and sets DZ. -/
  | divu (x : Ctx) (f : FormA)
  /-- REM (R116). Signed remainder with the sign of the dividend; a zero divisor returns the dividend and sets DZ. -/
  | rem (x : Ctx) (f : FormA)
  /-- ABS (R116). Writes the magnitude of a signed word. -/
  | abs (x : Ctx) (f : FormA)
  /-- MIN (R116). Writes the signed minimum of two words. -/
  | min (x : Ctx) (f : FormA)
  /-- MAX (R116). Writes the signed maximum of two words. -/
  | max (x : Ctx) (f : FormA)
  /-- AND (R116). Bitwise AND of two words. -/
  | and (x : Ctx) (f : FormA)
  /-- ANDI (R116). Bitwise AND with a zero-extended immediate. -/
  | andi (x : Ctx) (f : FormB)
  /-- OR (R116). Bitwise OR of two words. -/
  | or (x : Ctx) (f : FormA)
  /-- ORI (R116). Bitwise OR with a zero-extended immediate. -/
  | ori (x : Ctx) (f : FormB)
  /-- XOR (R116). Bitwise exclusive OR of two words. -/
  | xor (x : Ctx) (f : FormA)
  /-- XORI (R116). Bitwise exclusive OR with a zero-extended immediate. -/
  | xori (x : Ctx) (f : FormB)
  /-- NOT (R116). Bitwise complement of a word. -/
  | not (x : Ctx) (f : FormA)
  /-- LIMIT (R116). Clamps a signed word between two bounds. -/
  | limit (x : Ctx) (f : FormA)
  /-- SHL (R116). Logical left shift by a register or immediate amount. -/
  | shl (x : Ctx) (f : FormA)
  /-- SHR (R116). Logical right shift. -/
  | shr (x : Ctx) (f : FormA)
  /-- SAR (R116). Arithmetic right shift. -/
  | sar (x : Ctx) (f : FormA)
  /-- ROL (R116). Rotate left. -/
  | rol (x : Ctx) (f : FormA)
  /-- SEL (R116). Selects one of two words by a bit register and combines the condition's tag. -/
  | sel (x : Ctx) (f : FormA)
  /-- MOV (R116). Copies a word register with its tag. -/
  | mov (x : Ctx) (f : FormA)
  /-- MOVI (R116). Loads a sign-extended immediate with the neutral tag. -/
  | movi (x : Ctx) (f : FormB)
  /-- MOVHI (R116). Places a 16-bit immediate in the upper half of a word. -/
  | movhi (x : Ctx) (f : FormB)
  /-- CMP (R116). Compares two words under a condition code into a bit register. -/
  | cmp (x : Ctx) (f : FormA)
  /-- CMPI (R116). Compares a word with a 12-bit immediate into a bit register. -/
  | cmpi (x : Ctx) (f : FormB)
  /-- BSET (R118). Sets one bit of a word. -/
  | bset (x : Ctx) (f : FormE)
  /-- BCLR (R118). Clears one bit of a word. -/
  | bclr (x : Ctx) (f : FormE)
  /-- BTST (R118). Tests the bit selected by a register into a bit register. -/
  | btst (x : Ctx) (f : FormE)
  /-- BLD (R118). Loads one bit of a word into a bit register. -/
  | bld (x : Ctx) (f : FormE)
  /-- BST (R118). Replaces one bit of a word with a bit register. -/
  | bst (x : Ctx) (f : FormE)
  /-- BAND (R118). AND of two bit registers. -/
  | band (x : Ctx) (f : FormE)
  /-- BOR (R118). OR of two bit registers. -/
  | bor (x : Ctx) (f : FormE)
  /-- BXOR (R118). Exclusive OR of two bit registers. -/
  | bxor (x : Ctx) (f : FormE)
  /-- BNOT (R118). Inverts a bit register. -/
  | bnot (x : Ctx) (f : FormE)
  /-- BMOV (R118). Copies a bit register. -/
  | bmov (x : Ctx) (f : FormE)
  /-- EDGE (R119). Detects a rising edge against a state slot and updates the slot. -/
  | edge (x : Ctx) (f : FormG)
  /-- FADD (R120). REAL32 addition rounded to nearest even. -/
  | fadd (x : Ctx) (f : FormA)
  /-- FSUB (R120). REAL32 subtraction. -/
  | fsub (x : Ctx) (f : FormA)
  /-- FMUL (R120). REAL32 multiplication. -/
  | fmul (x : Ctx) (f : FormA)
  /-- FDIV (R126). REAL32 division; a finite value over zero gives an infinity and sets DZ. -/
  | fdiv (x : Ctx) (f : FormA)
  /-- FSQRT (R120). REAL32 square root. -/
  | fsqrt (x : Ctx) (f : FormA)
  /-- FMIN (R123). Smaller of two REAL32 values with the stated zero and NaN rules. -/
  | fmin (x : Ctx) (f : FormA)
  /-- FMAX (R123). Larger of two REAL32 values. -/
  | fmax (x : Ctx) (f : FormA)
  /-- FABS (R121). Clears the sign bit of a REAL32 value. -/
  | fabs (x : Ctx) (f : FormA)
  /-- FNEG (R121). Inverts the sign bit of a REAL32 value. -/
  | fneg (x : Ctx) (f : FormA)
  /-- FCMP (R125). Compares two REAL32 values under a condition code. -/
  | fcmp (x : Ctx) (f : FormA)
  /-- FTOI (R124). Converts REAL32 to a signed integer, saturating when out of range. -/
  | ftoi (x : Ctx) (f : FormA)
  /-- ITOF (R120). Converts a signed integer to REAL32. -/
  | itof (x : Ctx) (f : FormA)
  /-- FLIM (R124). Clamps a REAL32 value between bounds; any NaN is invalid. -/
  | flim (x : Ctx) (f : FormA)
  /-- FSCALE (R120). Multiplies a REAL32 value by a power of two. -/
  | fscale (x : Ctx) (f : FormA)
  /-- LDW (R58). Loads a word with the tag of its address range. -/
  | ldw (x : Ctx) (f : FormC)
  /-- LDH (R127). Loads a sign-extended halfword. -/
  | ldh (x : Ctx) (f : FormC)
  /-- LDHU (R127). Loads a zero-extended halfword. -/
  | ldhu (x : Ctx) (f : FormC)
  /-- LDB (R127). Loads a sign-extended byte. -/
  | ldb (x : Ctx) (f : FormC)
  /-- LDBU (R127). Loads a zero-extended byte. -/
  | ldbu (x : Ctx) (f : FormC)
  /-- LDQ (R74). Loads a qualified bit slot with its tag into a bit register. -/
  | ldq (x : Ctx) (f : FormC)
  /-- LDT (R73). Loads a tagged word slot with its tag. -/
  | ldt (x : Ctx) (f : FormC)
  /-- STW (R127). Stores a word and discards its tag. -/
  | stw (x : Ctx) (f : FormC)
  /-- STH (R127). Stores the low halfword, merging into the corrected word. -/
  | sth (x : Ctx) (f : FormC)
  /-- STB (R127). Stores the low byte, merging into the corrected word. -/
  | stb (x : Ctx) (f : FormC)
  /-- STQ (R74). Stores a bit register and its tag into a qualified bit slot. -/
  | stq (x : Ctx) (f : FormC)
  /-- STT (R73). Stores a word register and its tag into a tagged word slot. -/
  | stt (x : Ctx) (f : FormC)
  /-- BR (R99). Branches unconditionally by a word offset. -/
  | br (x : Ctx) (f : FormD)
  /-- BT (R128). Branches when the bit register is 1. -/
  | bt (x : Ctx) (f : FormD)
  /-- BF (R128). Branches when the bit register is 0. -/
  | bf (x : Ctx) (f : FormD)
  /-- CALL (R128). Pushes the return address and branches. -/
  | call (x : Ctx) (f : FormD)
  /-- RET (R128). Pops the return stack and continues there. -/
  | ret (x : Ctx) (f : FormD)
  /-- LOOP (R106). Opens a counted loop on the loop stack. -/
  | loop (x : Ctx) (f : FormD)
  /-- ENDL (R106). Returns to the loop body start or falls through after COUNT runs. -/
  | endl (x : Ctx) (f : FormD)
  /-- JTAB (R107). Jumps through a table of N offsets by an unsigned index, clamping to N−1. -/
  | jtab (x : Ctx) (f : FormD)
  /-- DONE (R129). Ends the activation of a timed task or the untimed work item. -/
  | done (x : Ctx) (f : FormD)
  /-- TON (R134). On-delay timer update of a timer block. -/
  | ton (x : Ctx) (f : FormT)
  /-- TOF (R134). Off-delay timer update of a timer block. -/
  | tof (x : Ctx) (f : FormT)
  /-- TP (R134). Pulse timer update of a timer block. -/
  | tp (x : Ctx) (f : FormT)
  /-- CTU (R135). Up-counter on rising input, saturating. -/
  | ctu (x : Ctx) (f : FormT)
  /-- CTD (R135). Down-counter on rising input, saturating. -/
  | ctd (x : Ctx) (f : FormT)
  /-- NOW (R136). Returns the release instant in µs (live time in untimed work). -/
  | now (x : Ctx) (f : FormA)
  /-- TIDE (R136). Returns the index of the release tide. -/
  | tide (x : Ctx) (f : FormA)
  /-- AGE (R138). Returns the AGE field of a register's tag. -/
  | age (x : Ctx) (f : FormA)
  /-- QCHK (R139). Tests a register's tag against the enabled quality tests. -/
  | qchk (x : Ctx) (f : FormB)
  /-- SUBST (R140). Substitutes a value when the source's VALID is clear, marking SUBST. -/
  | subst (x : Ctx) (f : FormA)
  /-- FENCE (R145). Stalls until all earlier untimed stores of the core have completed. -/
  | fence (x : Ctx) (f : FormA)
  /-- LDX (R141). Untimed word load from Quay, the Corbel window or a sleepable register block. -/
  | ldx (x : Ctx) (f : FormC)
  /-- STX (R141). Untimed word store; outbound Corbel stores enter the posting queue. -/
  | stx (x : Ctx) (f : FormC)
  /-- CAS (R142). Atomic compare-and-swap on one word. -/
  | cas (x : Ctx) (f : FormA)
  /-- XCHG (R142). Atomic exchange of one word. -/
  | xchg (x : Ctx) (f : FormA)
  /-- RDSYS (R79). Reads a system register with the neutral tag. -/
  | rdsys (x : Ctx) (f : FormB)
  /-- WRSYS (R78). Writes a system register; only the W1C bits of FLAGS act. -/
  | wrsys (x : Ctx) (f : FormB)
  /-- ARPRI (R147). Sets the priority of an arbiter requester. -/
  | arpri (x : Ctx) (f : FormB)
  /-- SPLIT (R148). Records entry addresses and marks a split of the pair pending. -/
  | split (x : Ctx) (f : FormA)
  /-- JOIN (R149). Ends the core's work item and requests that the pair join. -/
  | join (x : Ctx) (f : FormA)
  /-- SIG (R150). Adds a value and tag to the activation's state signature. -/
  | sig (x : Ctx) (f : FormA)
  /-- TRAP (R151). Raises EX_ILLEGAL carrying its immediate. -/
  | trap (x : Ctx) (f : FormB)
  /-- NOP (R151). Does nothing. -/
  | nop (x : Ctx) (f : FormA)
  /-- DEADLINE_OVERRUN (R83). A timed task that has not completed DONE by its deadline raises EX_OVERRUN. -/
  | deadlineOverrun (l : LaneId) (p : PairId) (t : TaskId)
  /-- EXCEPTION_CLASSIFY (R88). Once all voting lanes have posted or the commit instant is reached, the records are classified as program, lane or multiple lane fault. -/
  | exceptionClassify (p : PairId) (t : TaskId) (atCommit : Bool)
  /-- OUTPUT_WINDOW (R24). At period end less 2 µs the tide movers lift the PQ images of committing tasks. -/
  | outputWindow (bad : Lanes Bool)
  /-- COMMIT_INSTANT (R25). At the tide boundary the Parapet votes outputs and voted frames enter their slots. -/
  | commitInstant (silent : Lanes Bool)
  /-- TASK_RELEASE (R22). At a release instant inputs are frozen and the released pairs are woken. -/
  | taskRelease (bad : List Nat)
  /-- TASK_READY (R23). At the end of the input window released tasks become ready and start by priority. -/
  | taskReady (hurt : List (LaneId × PairId × CompFault × CompFault))
  /-- SIGNATURE_COMPARE (R238). At T + 500 ns the slices compare lane signatures and act on the majority. -/
  | signatureCompare (lost : Lanes Bool)
  /-- OUTPUT_PATH_JUDGE (R240). At the end of each tide each lane is charged for output-path minorities and dropped at the fourth charge. -/
  | outputPathJudge
  /-- LOCKSTEP_WINDOW_CLOSE (R252). After 64 retired instructions or at DONE the pair's signatures are compared by both comparators. -/
  | lockstepWindowClose (l : LaneId) (p : PairId) (lerr : BitVec 64) (cerr : BitVec 64) (fx : CompFault) (fy : CompFault)
  /-- LANE_POWER_LOSS (R223). Loss of a lane's supply, clock or reset makes it ABSENT. -/
  | lanePowerLoss (l : LaneId)
  /-- LANE_SUPPLY_READY (R223). A lane whose supply has been in range for 10 ms enters BOOTING. -/
  | laneSupplyReady (l : LaneId)
  /-- LANE_SELF_TEST_DONE (R223). Completion of a lane self-test moves the lane to VOTING, DROPPED or HALTED. -/
  | laneSelfTestDone (l : LaneId) (pass : Bool) (result : Byte)
  /-- LANE_SELF_TEST_TIMEOUT (R223). A self-test not complete within 300 ms halts the lane. -/
  | laneSelfTestTimeout (l : LaneId)
  /-- REJOIN_START (R245). At a tide boundary a dropped lane meeting every condition starts a rejoin. -/
  | rejoinStart
  /-- REJOIN_COPY_DONE (R247). The state copy into the rejoining lane completes. -/
  | rejoinCopyDone (bad : Bool)
  /-- SHADOW_START (R247). At the first boundary releasing every task together the shadow run begins. -/
  | shadowStart
  /-- REJOIN_ENTER (R247). After 16 matching signatures and the digest the lane enters VOTING. -/
  | rejoinEnter (digestOk : Bool)
  /-- SPLIT_HANDOVER (R254). A pending split takes effect when the pair has no ready timed task. -/
  | splitHandover (l : LaneId) (p : PairId)
  /-- DEBUG_ATTACH (R259). A debug attach to a lane is accepted or refused by controller state. -/
  | debugAttach (l : LaneId)
  /-- DEBUG_DETACH (R262). A detach resets and self-tests the lane and returns it to DROPPED. -/
  | debugDetach (l : LaneId)
  /-- SETUP_ENTRY (R154). The controller enters SETUP and every voting lane checks the set-up program. -/
  | setupEntry (flip : Lanes (BitVec 64)) (readBack : Bool)
  /-- ADMISSION_VOTE (R156). The lanes' admission results are voted and the set-up admitted, refused or ended at ABORT. -/
  | admissionVote
  /-- BANK_LOAD_DONE (R185). Loading CODE and K into every lane completes and fixes the effect boundary E. -/
  | bankLoadDone
  /-- EFFECT_BOUNDARY (R185). At E all admitted settings take effect together and the controller enters RUN. -/
  | effectBoundary (retBad : BitVec 2)
  /-- COMMAND_EFFECT_TIDE (R203). At the effect tide a STOP, RESTART, SERVICE or LEAVE command changes the controller state. -/
  | commandEffectTide (retBad : BitVec 2)
  /-- FORCE_EFFECT (R213). An accepted force or unforce takes effect at its effect tide. -/
  | forceEffect
  /-- K_OVERLAY_WRITE_DONE (R222). The overlay and log writes of a K item complete and the item is reported APPLIED. -/
  | kOverlayWriteDone (req : Word) (item : Nat)
  /-- RETAIN_CYCLE_START (R204). A retain cycle starts at a boundary whose index is a multiple of 64. -/
  | retainCycleStart
  /-- RETAIN_CAPTURES_COMPLETE (R206). When every task is captured the Keystone writes the buffer to MRAM in order. -/
  | retainCapturesComplete
  /-- RETAIN_WRITE_DONE (R206). Writing MARK as 0xC3 ends the retain cycle. -/
  | retainWriteDone
  /-- LINK_UP (R267). A port reaches link with its partner. -/
  | linkUp (port : Port)
  /-- LINK_LOSS (R267). A port loses link; the learned address is cleared. -/
  | linkLoss (port : Port)
  /-- TT_WINDOW_TX (R283). The module starts its TT frame in a transmit window with the last committed payload. -/
  | ttWindowTx (port : Port) (win : Nat) (sl : Lanes SliceFault) (ready : Bool)
  /-- TT_FRAME_RECEIVE (R278). A TT frame arriving in a receive window is checked and accepted or rejected. -/
  | ttFrameReceive (port : Port) (arr : Arrival) (verdict : Lanes SliceVerdict)
  /-- ISOLATION_END (R287). An isolated port enters PROBATION when its isolation time has passed. -/
  | isolationEnd (port : Port)
  /-- PROBATION_END (R287). After 256 tides without violation a port returns to ADMITTED. -/
  | probationEnd (port : Port)
  /-- GUARDIAN_EXP_RESET (R287). After 240,000 clean tides the isolation exponent resets to 0. -/
  | guardianExpReset (port : Port)
  /-- FRAME_FORWARD (R271). An RC or BE frame is forwarded between vehicle ports by destination address. -/
  | frameForward (port : Port) (arr : Arrival)
  /-- NON_TT_EGRESS_START (R275). Outside windows a port starts the next PTP, RC or BE frame in priority order. -/
  | nonTtEgressStart (port : Port) (start : EgressStart) (sl : Lanes SliceFault)
  /-- TRDP_PUSH (R300). A TRDP telegram is queued at the start of every 2^k-th tide. -/
  | trdpPush
  /-- TRDP_RECEIVE (R301). A received TRDP telegram is checked and accepted or rejected. -/
  | trdpReceive (port : Port) (frame : List Byte)
  /-- TRDP_PULL_REJECT (R302). Pull requests, other msgTypes and port 17225 datagrams are rejected. -/
  | trdpPullReject (port : Port) (frame : List Byte)
  /-- ARP_REQUEST_RECEIVE (R305). The module answers an ARP request for its own address. -/
  | arpRequestReceive (iface : Iface) (target : Word) (ip : Word) (mac : List Byte)
  /-- ARP_RETRY (R305). An unresolved destination gets up to three requests 1 s apart. -/
  | arpRetry (iface : Iface) (ip : Word)
  /-- ARP_ENTRY_EXPIRE (R305). An ARP cache entry expires 300 s after its last confirmation. -/
  | arpEntryExpire (iface : Iface) (ip : Word)
  /-- ADDRESS_CONFLICT (R306). Another device claiming the module's IPv4 address is recorded. -/
  | addressConflict (iface : Iface) (mac : List Byte)
  /-- ICMP_ECHO (R307). The module answers an ICMP echo request within its rate limit. -/
  | icmpEcho (iface : Iface) (mac : List Byte) (hdr : List Byte) (msg : List Byte)
  /-- MODE_ECHO_TIDE (R295). At the end of each request tide echoes are counted and a switch decided after two. -/
  | modeEchoTide
  /-- MODE_SWITCH (R295). At the boundary ending the MODEGO tide the module switches mode. -/
  | modeSwitch
  /-- MODE_REQUEST_LAPSE (R296). A request not decided by request tide 64 lapses. -/
  | modeRequestLapse
  /-- SQI_UPDATE (R647). Every millisecond the PHY updates SQI from the measured margin. -/
  | sqiUpdate (port : Port) (snr : Int)
  /-- PORT_DERATE (R308). A derating trigger retrains a port at 100BASE-T1 or is withheld. -/
  | portDerate (port : Port)
  /-- BACKBONE_PHY_DWELL (R313). A backbone port without link alternates its PHY role each dwell. -/
  | backbonePhyDwell (port : Fin 4)
  /-- BEACON_SEND (R322). The master starts the beacon at p0 + 200 ns with table and claim results. -/
  | beaconSend (sl : Lanes SliceFault)
  /-- BEACON_RECEIVE (R330). A node takes its number from HOP and forwards the beacon. -/
  | beaconReceive (port : Fin 4) (rx : RingRx)
  /-- BEACON_MISS (R323). A node without a good beacon holds its timing and roster. -/
  | beaconMiss
  /-- RING_SLOT_TX (R322). A node starts its own backbone frame at its slot. -/
  | ringSlotTx (sl : Lanes SliceFault)
  /-- RING_SLOT_RECEIVE (R328). A data frame in a slot is accepted or rejected. -/
  | ringSlotReceive (port : Fin 4) (frame : List Byte) (verdict : Lanes SliceVerdict)
  /-- RING_FRAME_FORWARD (R316). A node forwards or removes a ring frame on the A or B leg. -/
  | ringFrameForward (port : Fin 4) (pos : Nat) (rx : RingPass)
  /-- BECOME_MASTER (R332). A node with inward side END and no beacon for two boundaries becomes master. -/
  | becomeMaster
  /-- CLAIM_SEND (R339). A JOINING node sends a claim in the mini-slot or defers. -/
  | claimSend (mini : MiniSlot)
  /-- CLAIM_RETRY (R342). A node refused for no free slot claims again 4,000 tides later. -/
  | claimRetry
  /-- SLOT_LOST (R338). After 64 tides without a good frame the master marks a slot LOST. -/
  | slotLost (k : Nat)
  /-- SLOT_FREE (R338). A LOST slot is set FREE after a further 16,000 tides. -/
  | slotFree (k : Nat)
  /-- HANDOVER (R337). At the ACT boundary the far end becomes master and every node exchanges sides. -/
  | handover
  /-- LINE_LOST (R343). Loss of link or a silent active ingress declares a line lost. -/
  | lineLost (port : Fin 4) (silent : Bool)
  /-- FORCED_LINK_DOWN_END (R344). A port forced down for 2 ms is released. -/
  | forcedLinkDownEnd (port : Fin 4)
  /-- RESTORE_PROBE (R347). After 4,000 clean tides the inward node sends a restore probe. -/
  | restoreProbe (line : LineProbe)
  /-- RESTORE_ACT (R347). At the restore ACT boundary both nodes return the side to LINKED. -/
  | restoreAct (side : SideId) (probe : Option Probe)
  /-- JUNCTION_PROBE (R349). A node with an END side with link sends a junction probe each tide. -/
  | junctionProbe (at_ : SideTx)
  /-- MERGE_DECISION (R351). Holding both probes, the junction nodes choose keeper and joiner or refuse. -/
  | mergeDecision (side : SideId) (rx : ProbeRx)
  /-- MERGE_NOTICE (R352). The joiner's master receives KIND 0x04 and sets MERGE with ACT once not slewing. -/
  | mergeNotice (frame : List Byte)
  /-- MERGE_ACT (R352). At ACT the junction sides link and joiner nodes become JOINING. -/
  | mergeAct (at_ : MergeActs)
  /-- BACKBONE_ENERGY_WAKE (R353). Energy on BAF or BAR for 1 ms wakes a module in NEAP. -/
  | backboneEnergyWake (port : Fin 4)
  /-- SYNC_SEND (R369). A grandmaster or port sends a one-step Sync. -/
  | syncSend (start : TxAt Port)
  /-- SYNC_RECEIVE (R371). A good Sync updates the offset of its domain. -/
  | syncReceive (port : Port) (rx : PtpArrival)
  /-- PDELAY_REQ_SEND (R366). A backbone port sends Pdelay_Req at link-up and every 64 tides. -/
  | pdelayReqSend (start : TxAt (Fin 4))
  /-- PDELAY_REQ_RECEIVE (R365). The module answers a Pdelay_Req with a one-step Pdelay_Resp. -/
  | pdelayReqReceive (port : Port) (msg : PtpMsg) (now : Nat)
  /-- PDELAY_RESP_RECEIVE (R366). A Pdelay_Resp updates the port's mean peer delay. -/
  | pdelayRespReceive (port : Fin 4) (msg : PtpMsg) (now : Nat)
  /-- ANNOUNCE_SEND (R362). Announce is sent on vehicle ports and MNT every 4,000 tides. -/
  | announceSend (port : Port)
  /-- CLOCK_SET (R361). The local clock is set once from a Sync or the Headland base. -/
  | clockSet (sync : Option (Fin 4 × PtpMsg))
  /-- ACTIVE_DOMAIN_CHANGE (R371). The active domain changes after the stated Sync absences or presences. -/
  | activeDomainChange
  /-- SLEW_END (R372). The clock stops slewing once |o| is 10 ns or less. -/
  | slewEnd
  /-- HOLDOVER_ENTER (R376). A non-master with no good Sync for 128 tides enters holdover. -/
  | holdoverEnter
  /-- HOLDOVER_LEAVE (R376). The first good Sync ends holdover. -/
  | holdoverLeave (dom2 : Bool)
  /-- OSCILLATOR_RETRIM (R547). A rate correction beyond 0.5 ppm for 64 s re-trims the TCXO or is withheld. -/
  | oscillatorRetrim
  /-- REFERENCE_CHECK (R546). The Headland counts TCXO cycles over 32,768 crystal cycles and latches REFFLT on deviation. -/
  | referenceCheck (count : Nat)
  /-- COMPARATOR_CHANGE (R431). An island's input comparator changes reading and starts wetting. -/
  | comparatorChange (ch : Chan) (mv : Nat)
  /-- FILTER_ACCEPT (R434). A reading held for FILTER × 10 µs is accepted. -/
  | filterAccept (ch : Chan)
  /-- WETTING_END (R433). The sink returns to holding current after the wetting time. -/
  | wettingEnd (ch : Chan)
  /-- CHANNEL_SUPPLY_CHANGE (R429). The channel supply crosses a limit and the island changes behaviour. -/
  | channelSupplyChange (ch : Chan) (mv : Nat)
  /-- ISLAND_START (R649). An island starting holds its switch open and reports its fault bit. -/
  | islandStart (ch : Chan)
  /-- ISLAND_WATCHDOG_EXPIRE (R449). An island without refresh for 32 µs drives its safe state. -/
  | islandWatchdogExpire (expiry : WatchExpiry)
  /-- ISLAND_REFRESH_RESUME (R450). After 64 accepted refreshes the island follows its drive again. -/
  | islandRefreshResume (ch : Chan)
  /-- OVERLOAD_TRIP (R442). An output over current for 10 ms opens its switch and sets the fault bit. -/
  | overloadTrip (ch : Chan)
  /-- READBACK_MISMATCH (R443). Read-back differing from the drive for 500 µs sets the fault bit. -/
  | readbackMismatch (ch : Chan)
  /-- FAULT_BIT_RISE (R455). On a fault-bit rise the Parapet starts localisation. -/
  | faultBitRise (ch : Chan) (cause : FaultCause) (mv : Nat)
  /-- LOCALISATION_END (R455). Localisation concludes and sets the channel's class. -/
  | localisationEnd (ch : Chan) (obs : LocObs)
  /-- COUPLER_SILENT (R456). No valid upstream frame for 32 µs gives class SILENT. -/
  | couplerSilent (ch : Chan)
  /-- TEST_PULSE_START (R444). A dark or light test pulse starts at its scheduled instant. -/
  | testPulseStart (ch : Chan)
  /-- TEST_PULSE_END (R445). At the end of a pulse the read-back judges the test. -/
  | testPulseEnd (ch : Chan) (mv : Nat)
  /-- TACHO_EDGE (R412). An edge of CHA or CHB updates period, position and the function conditions. -/
  | tachoEdge (cha : Option Bool) (chb : Option Bool)
  /-- ENABLE_RESTORE (R415). The enable is restored after the restore condition has held for 16 ms. -/
  | enableRestore (f : Fin 4)
  /-- QUIET_TIME_REACHED (R414). The quiet time reaches the latch or standstill time. -/
  | quietTimeReached (f : Fin 4)
  /-- PARAPET_TIDE_SELF_CHECK (R420). Each tide the Parapet checks limit CRC and comparators. -/
  | parapetTideSelfCheck (crcErr : Option (Fin 4 × Word)) (compErr : Option (Fin 4))
  /-- RAIL_FAULT (R420). A dual-rail checker flags a non-complementary pair. -/
  | railFault (f : Fin 4)
  /-- TACHO_ISLAND_FAULT (R420). The fault bit of a tacho island removes every function's enable. -/
  | tachoIslandFault (ch : Chan) (set : Bool)
  /-- OUTBOUND_ISSUE (R472). The head of the posting queue is issued on the Corbel bus. -/
  | outboundIssue (src : OutSrc)
  /-- TARGET_RESPONSE (R465). The bridge reacts as master to retry, disconnect, abort or parity. -/
  | targetResponse (r : TgtResp)
  /-- RETRY_REISSUE (R465). A retried transaction is reissued after two idle cycles. -/
  | retryReissue
  /-- OUTBOUND_TIMEOUT (R473). An access not complete 64 µs after reaching the queue head times out. -/
  | outboundTimeout
  /-- INBOUND_CLAIM (R480). The bridge claims an inbound READ or WRITE in its window. -/
  | inboundClaim (addr : Word) (c : AddrLines) (lock : Bool) (slot : Fin 32)
  /-- INBOUND_WRITE (R481). An inbound WRITE is buffered and applied to Quay, or rejected. -/
  | inboundWrite (addr : Word) (beats : List InBeat) (ready : Bool)
  /-- INBOUND_READ (R482). An inbound READ is served, retried or target-aborted. -/
  | inboundRead (addr : Word) (n : Nat) (ready : Bool) (hit : Hit)
  /-- INBOUND_DATA_EXPIRE (R482). Fetched data held for a retried READ is discarded after 64 µs. -/
  | inboundDataExpire
  /-- INBOUND_LOCK_TIMEOUT (R484). CB_LOCK_N low over 16 µs releases the Quay lock. -/
  | inboundLockTimeout
  /-- LOCK_ABORT (R477). The bridge drives the lock-abort sequence for a masked or timed-out lock. -/
  | lockAbort
  /-- RACK_ARBITRATE (R468). As rack arbiter the module grants slots round-robin. -/
  | rackArbitrate (lines : RackLines)
  /-- GRANT_WITHDRAW (R468). A grant leaving the bus idle 16 cycles is withdrawn. -/
  | grantWithdraw
  /-- CORBEL_RESET (R466). CB_RST_N low ends outbound transactions as timeouts. -/
  | corbelReset
  /-- CORBEL_INTERRUPT (R490). A falling edge of CB_INT_N is latched in INTE. -/
  | corbelInterrupt (line : Fin 4)
  /-- MOVER_DESCRIPTOR_DONE (R487). A mover finishes a descriptor, writes STATUS and CTRL and follows NEXT. -/
  | moverDescriptorDone (n : Fin 8) (hit : Hit)
  /-- ARBITER_CONTEST (R500). At the end of a transfer the arbiter grants a requester by WAIT and priority. -/
  | arbiterContest (a : Bool) (reqs : BitVec 14)
  /-- SCRUB_READ (R511). The scrubber reads a word and writes back a corrected value. -/
  | scrubRead (m : MemId) (addr : Nat) (hit : Hit) (bits : Nat)
  /-- DOMAIN_SLACK_ENTRY (R530). A domain idle for its time closes its clock gate. -/
  | domainSlackEntry (d : SlackDom)
  /-- FEED_OUT_OF_LIMITS (R519). A feed outside its bands for 4 µs or 100 ms goes out of limits. -/
  | feedOutOfLimits (f : FeedId) (mv : Nat)
  /-- FEED_IN_LIMITS (R519). A feed within 16.8 V to 30.0 V for 1 s becomes in limits. -/
  | feedInLimits (f : FeedId) (mv : Nat) (straps : Straps)
  /-- FEED_RETURN (R522). After HOLD seconds standby the Headland returns to the preferred feed. -/
  | feedReturn
  /-- STORE_DEPLETED (R527). The store at 20 V with no feed resets all domains and enters OFF. -/
  | storeDepleted
  /-- POWER_ON (R587). Power applied starts the Headland, samples the straps and closes a feed switch. -/
  | powerOn (straps : Straps) (unstable : Bool) (va : Nat) (vb : Nat)
  /-- NEAP_ATTEMPT (R535). At a qualifying boundary the refusers are examined and entry begins if none refuses. -/
  | neapAttempt (inp : NeapInputs) (inp2 : Option (Bool × NeapInputs))
  /-- WAKE_LATCH (R537). A wake event after A2 is latched for later replay. -/
  | wakeLatch (src : WakeSrc) (t : Word)
  /-- WAKE (R539). A wake event in NEAP powers the domains and boots. -/
  | wake (src : WakeSrc) (straps : Straps) (unstable : Bool)
  /-- DERATING_STEP (R541). The inlet temperature read every 100 ms changes the derating step. -/
  | deratingStep (inlet : Byte) (lane : Byte) (ks : Byte) (pp : Byte)
  /-- LANE_THERMAL_SHUTDOWN (R543). A lane die at 125 °C switches off and becomes ABSENT. -/
  | laneThermalShutdown (l : LaneId)
  /-- PLL_LOCK_LOSS (R544). A PLL losing lock stops the clock it drives. -/
  | pllLockLoss (part : PllPart)
  /-- BOOT_BANK_SELECT (R588). The boot ROM chooses the bank from the journal or BOOTSEL. -/
  | bootBankSelect
  /-- TRIAL_STEP (R596). A trial step VERIFY, MIGRATE or ADMIT completes or reverts. -/
  | trialStep
  /-- FUSE_BURN_DONE (R598). The fuse burn of a confirmation completes and FUSEPEND is cleared. -/
  | fuseBurnDone
  /-- CAIRN_SECTOR_PROGRAM (R611). A full staging buffer is programmed to flash and read back. -/
  | cairnSectorProgram (ok : Bool)
  /-- CAIRN_TOKEN_REFILL (R614). Every 16,000 tides each event code's bucket gains a token. -/
  | cairnTokenRefill
  /-- SUPPRESSED_REPORT_TIMEOUT (R615). 10 s after the first suppressed event a suppressed-count record is written. -/
  | suppressedReportTimeout (code : BitVec 16)
  /-- HEADLAND_EVENT_BUFFER (R613). While the steward does not run the Headland buffers events in FRAM. -/
  | headlandEventBuffer (code : BitVec 16) (data : List Byte)
  /-- HELLO (R556). Returns salt, module nonce, UID and lockout time for a role. -/
  | hello (e : Env) (role : Role) (nc : List Byte)
  /-- LOGIN (R556). Checks the proof and opens a session or counts a failure. -/
  | login (e : Env) (role : Role) (nc : List Byte) (proof : List Byte)
  /-- LOGOUT (R559). Closes the session after its reply. -/
  | logout (e : Env)
  /-- PASSWD (R564). Sets a role's password with fresh salt and closes its other sessions. -/
  | passwd (e : Env) (role : Role) (masked : List Byte)
  /-- KEYSLOT_INSTALL (R584). Burns a public key into an empty operator slot. -/
  | keyslotInstall (e : Env) (n : Fin 4) (key : List Byte)
  /-- KEYSLOT_REVOKE (R584). Burns the REVOKED fuse of an active slot. -/
  | keyslotRevoke (e : Env) (vendor : Bool) (n : Fin 4)
  /-- STATUS (R563). Returns controller, lane, admission, force, power, time and ring state. -/
  | status (e : Env)
  /-- READ (R565). Reads up to 32 items of registers or memory. -/
  | read (e : Env) (items : List ReadItem)
  /-- FORCE (R566). Accepts up to 16 force items with an effect tide. -/
  | force (e : Env) (items : List ForceReq)
  /-- UNFORCE (R566). Accepts removal of force items with an effect tide. -/
  | unforce (e : Env) (items : Option (List ForceReq))
  /-- FORCELIST (R563). Returns up to 64 force table entries. -/
  | forcelist (e : Env) (first : Nat)
  /-- OLC (R218). Accepts or rejects an online-change request for a named tide. -/
  | olc (e : Env) (named : Word) (items : List OlcItemReq)
  /-- OLCSTAT (R563). Returns the outcome of each item of a request. -/
  | olcstat (e : Env) (num : Word)
  /-- STOP (R203). Accepts a stop with an effect tide. -/
  | stop (e : Env)
  /-- RESTART (R228). Accepts a warm or cold restart with an effect tide. -/
  | restart (e : Env) (warm : Bool)
  /-- SERVICE (R203). Accepts entry into SERVICE with an effect tide. -/
  | service (e : Env)
  /-- LEAVE (R203). Accepts leaving SERVICE with an effect tide. -/
  | leave (e : Env)
  /-- REBOOT (R563). Replies and resets the module. -/
  | reboot (e : Env)
  /-- APPBEGIN (R569). Opens an application load sequence. -/
  | appbegin (e : Env) (length : Nat)
  /-- APPBLOCK (R568). Writes one block of an application image into the load area. -/
  | appblock (e : Env) (offset : Nat) (data : List Byte)
  /-- APPEND (R568). Checks the loaded image and starts SETUP. -/
  | append (e : Env)
  /-- UPDBEGIN (R592). Opens an update sequence and gives up the fall-back. -/
  | updbegin (e : Env) (kind : Byte) (length : Nat)
  /-- UPDBLOCK (R568). Writes one block into Slipway. -/
  | updblock (e : Env) (offset : Nat) (data : List Byte)
  /-- UPDQUERY (R593). Returns the lowest offset not yet written. -/
  | updquery (e : Env)
  /-- UPDEND (R593). Completes staging and writes the journal as STAGED. -/
  | updend (e : Env)
  /-- CONFIRM (R598). Confirms a trial run and sets the fuse targets. -/
  | confirm (e : Env)
  /-- RECREAD (R616). Returns valid Cairn records of an area from an index. -/
  | recread (e : Env) (area : Byte) (first : Word) (n : Nat)
  /-- LOGREAD (R571). Returns valid configuration change log entries. -/
  | logread (e : Env) (first : Word) (n : Nat)
  /-- CALSTART (R572). Opens a calibration working copy and suspends CHOUT forces. -/
  | calstart (e : Env)
  /-- CALPOINT (R572). Changes the working copy from a measured reference point. -/
  | calpoint (e : Env) (target : Nat) (step : Nat) (value : Word)
  /-- CALREAD (R563). Returns the calibration record in force and any working copy. -/
  | calread (e : Env)
  /-- CALWRITE (R573). Writes the working copy to both mirrors and puts it in force. -/
  | calwrite (e : Env)
  /-- CALABORT (R572). Discards the calibration working copy. -/
  | calabort (e : Env)
  /-- SESSION_IDLE_TIMEOUT (R559). A session closes after 60 s without an accepted request. -/
  | sessionIdleTimeout (id : Word)
  /-- RELAY_REQUEST (R560). A request on MNT for another UID is relayed over the backbone. -/
  | relayRequest (e : Env) (cmd : BitVec 16)
  /-- RELAY_REPLY (R562). A backbone reply is forwarded to the peer of its relay entry. -/
  | relayReply (origin : BitVec 64) (seq : Word) (frame : List Byte)
  /-- RELAY_TIMEOUT (R562). A relay entry unanswered for 2 s returns TIMEOUT. -/
  | relayTimeout (n : Nat)
  /-- BACKBONE_SERVICE_REQUEST (R561). A backbone service request is executed only by its target. -/
  | backboneServiceRequest (e : Env) (req : SvcReq)
  /-- AR_PRI_WRITE (R503). A steward write to AR_PRI changes a requester's priority at once. -/
  | arPriWrite (a : Bool) (q : Fin 14) (pri : BitVec 4)
  /-- PM_LED_WRITE (R631). A write to PM_LED starts or ends an LED test pattern. -/
  | pmLedWrite (v : Word)
  /-- LED_TEST_EXPIRE (R631). Hardware clears the LED test 10 s after it is set. -/
  | ledTestExpire
  /-- REGISTER_WRITE (R39). A write to a register without a row of its own acts by its access type. -/
  | registerWrite (x : Option Ctx) (addr : Word) (v : Word)
  /-- SERVICE_BUTTON_PRESS (R633). A short press lights every LED for 3 s. -/
  | serviceButtonPress
  /-- SERVICE_BUTTON_HOLD (R633). A 10 s hold forces MNT up with link-local addressing. -/
  | serviceButtonHold
  /-- FAULT_BIT_CLEAR (R454). An island's fault bit clears when its cause ends (supply recovered, cooling, shortfall ended, self-check passed), and the channel class clears with it. -/
  | faultBitClear (ch : Chan) (cause : FaultCause)
  /-- ISLAND_REPORTING_AGAIN (R456). A coupler that was silent delivers valid upstream frames again, so the class SILENT ends and event 0x0606 is recorded. -/
  | islandReportingAgain (ch : Chan)
  /-- RACK_RESET_RELEASE (R468). CB_RST_N goes high: as arbiter, 100 ms after the Keystone leaves reset; otherwise when the rack releases it, so the bridge claims and drives again. -/
  | rackResetRelease
  /-- ARP_REPLY (R305). An ARP reply for a requested destination arrives and enters or confirms an entry of the 64-entry cache. -/
  | arpReply (iface : Iface) (ip : Word) (mac : List Byte)
  /-- STORE_RECHARGED (R525). The hold-up store finishes recharging after a feed returns, setting STOREFULL and restoring the full class S2 hold-up. -/
  | storeRecharged
  /-- LOCKOUT_END (R555). A role's lockout time runs out in operating seconds and its LOCK bit in SV_SVC clears. -/
  | lockoutEnd (role : Role)
  /-- OPERATING_SECONDS_INCREMENT (R528). The Headland's operating-seconds count increments by 1 for each second of its 32.768 kHz base while powered. -/
  | operatingSecondsIncrement
  deriving DecidableEq, Repr

end Sys2Proof
end

