-- ==== Sys2Proof/Config.lean ====
section
/-! DEFINITION. The values the spec leaves open or takes from outside it: free values and the cryptographic functions of
other standards. Nothing in Lean can evaluate them. -/

namespace Sys2Proof.Config

/-- A fresh byte drawn by the module: byte `i` of draw `n` (nonces, salts, session identifiers: R556, R564; PHY dwell
times, R313). Assumption log entry 3. -/
opaque draw : Nat → Nat → Byte

/-- SHAKE256 with a 32-byte output (R553). Assumption log entry 4. -/
opaque shake256 : List Byte → List Byte

/-- KMAC256: key, message, output length in bytes, customization string (R556, R564). Assumption log entry 4. -/
opaque kmac256 : List Byte → List Byte → Nat → List Byte → List Byte

/-- The four bytes of the OID that SP 800-208 assigns to XMSS-SHAKE256_20_256 (R581). Assumption log entry 4. -/
opaque oidByte : Nat → Byte
def xmssOid : List Byte := (List.range 4).map oidByte

/-- The admission digest over what R155 lists, given as words. Assumption log entry 5. -/
opaque digest : List (BitVec 32) → BitVec 64

/-- The digest of the shadow run (R247). Assumption log entry 5. -/
opaque laneDigest : Memory → BitVec 64

/-- One step of a core's multiple-input signature register over what R250 lists. Assumption log entry 6. -/
opaque misr : BitVec 64 → List (BitVec 32) → BitVec 64

/-- The vendor public key in V0 at delivery: 68 bytes that begin with the OID (R2, R581, R582). Assumption log entry 7. -/
opaque keyByte : Nat → Byte
def vendorKey : List Byte := xmssOid ++ (List.range 64).map keyByte

/-- What is open of the firmware that leaves the factory in bank A (R2): its length, payload, signature, security version, release
version and settings formats. Assumption log entry 7. -/
opaque factoryLen : Nat
opaque factoryByte : Nat → Byte
opaque factorySigByte : Nat → Byte
opaque factorySvn : Nat
opaque factoryField : Nat → Byte

/-- A number as four bytes, least significant first. -/
def four (n : Nat) : List Byte := (List.range 4).map fun i => BitVec.ofNat 8 (n / 256 ^ i)

def factoryPayload : List Byte := (List.range (factoryLen % 0x1FFF000)).map factoryByte
def factorySig : List Byte := (List.range 2820).map factorySigByte

/-- Bytes 0 to 511 of the header of that firmware, as R579 lays them out: vendor slot 0, no new vendor key, and the directory's entries
of the steward and the lane firmware. -/
def factoryHead : List Byte :=
  let n := factoryPayload.length
  [0x53, 0x44, 0x49, 0x4D, 1, 0, 1, 0, 0x32, 0x48, 1, BitVec.ofNat 8 (factorySvn % 65)] ++ (List.range 4).map factoryField ++ four n ++
    (List.range 4).map (fun i => factoryField (4 + i)) ++ [2, 0xFF] ++ List.replicate 102 0 ++
    [0x11, 0, 0, 0] ++ four 0 ++ four (n / 2) ++ four 0 ++ [0x12, 0, 0, 0] ++ four (n / 2) ++ four (n - n / 2) ++ four 0 ++
    List.replicate 352 0

/-- The firmware image that leaves the factory in bank A (R2, R579). -/
def factoryFirmware : List Byte := factoryHead ++ factorySig ++ List.replicate 764 0 ++ factoryPayload

/-- XMSS-SHAKE256_20_256 verification: public key, message, signature (R581). Of its values only one is known: the firmware that leaves the
factory is signed under the key in V0 (R2). Assumption log entry 4. -/
opaque xmssElse : List Byte → List Byte → List Byte → Bool
def xmssVerify (key msg sig : List Byte) : Bool :=
  xmssElse key msg sig || (key == vendorKey && msg == factoryHead ++ factoryPayload && sig == factorySig)

/-- Salt and H of OWNER's factory password (R2, R554). Assumption log entry 7. -/
opaque factorySalt : List Byte
opaque factoryHash : List Byte

/-- Whether an LED that flashes with half-period `h` ns is lit at instant `t`: the phase of the flashing is not stated.
Assumption log entry 12. -/
opaque ledLit : Nat → Nat → Bool

/-- What the bytes of an OUTDEF table in an application image say of the channels (R200, R579): the spec gives no layout.
Assumption log entry 16. -/
opaque outdefTable : List Byte → List (Fin 48 × Bool)

/-- The module's RFC 3927 link-local address on MNT: that standard lets the device choose it. Assumption log entry 19. -/
opaque linkLocal : BitVec 32

/-- Whether a line of CB_INT_N that has fallen is still low at instant `t`: the commands bring only falling edges (R490).
Assumption log entry 18. -/
opaque intLevel : Nat → BitVec 4

/-- The rate correction of steady tracking after a Sync: the spec bounds it by 1 ppm and states no servo (R372). Assumption log
entry 21. -/
opaque trackCorr : Nat → BitVec 24

/-- The address, in the system area of Quay, of the value that a set-up instruction's binding stages (R496, R515): the spec gives
that area no address. Assumption log entry 22. -/
opaque systemArea : Nat → Nat

/-- Whether the steward moves a stopped work item to another split pair (R256): the spec says it may. Assumption log entry 23. -/
opaque moveWork : Nat → Bool

/-- The resulting word of a calibration point: old word, reference value, step (17, Calibration). Assumption log entry 8. -/
opaque trimOf : BitVec 32 → BitVec 32 → Nat → BitVec 32

end Sys2Proof.Config
end

