-- ==== Sys2Proof/Types/Fabric.lean ====
section
/-! DEFINITION. The fabric: arbiters, lock words and the EC_ sets (15_fabric_arbitration_and_memory.md). -/

namespace Sys2Proof

/-- Owner of a Quay lock word (R497). -/
inductive LockOwner where
  | core (l : LaneId) (p : PairId) (odd : Bool)
  | steward
  | bridge
  deriving DecidableEq, Repr

/-- One arbiter (R499, R500, AR_PRI, AR_STAT): priority and WAIT of requesters 0x00 to 0x0D, the holder of the grant and
the last winner. WAIT never exceeds 8 (R45). -/
structure Arbiter where
  pri    : Vector (BitVec 4) 14
  wait   : Vector (Fin 9) 14
  holder : Option (Fin 14)
  last   : Fin 14
  deriving DecidableEq, Repr

/-- The fabric. `owner` is the owner of each lock word; the words themselves lie in Quay. -/
structure Fabric where
  quayArb   : Arbiter
  bridgeArb : Arbiter
  owner     : Vector (Option LockOwner) 32
  qlbrk     : Word
  frel      : Stat
  deriving DecidableEq, Repr

/-- The EC_ sets of the seven memories. -/
structure EccSets where
  lanes : Lanes EccSet
  quay  : EccSet
  mram  : EccSet
  f1    : EccSet
  f2    : EccSet
  deriving DecidableEq, Repr

end Sys2Proof
end

