-- ==== Sys2Proof/Types/Recorder.lean ====
section
/-! DEFINITION. The Cairn event recorder (19_event_recorder.md). -/

namespace Sys2Proof

/-- A Cairn record (R603), by field; its CRC and MARK follow from the fields. -/
structure Record where
  index : Word
  opsec : Word
  pcyc  : Word
  ttime : BitVec 64
  code  : BitVec 16
  data  : BitVec 64
  deriving DecidableEq, Repr

/-- The token bucket and the suppressed count of one event code (R614, R615). `first` and `last` are the instants of the
first and the last suppressed event, in ns since power-on. -/
structure Bucket where
  code   : BitVec 16
  tokens : Nat
  supp   : Word
  first  : Nat
  last   : Nat
  deriving DecidableEq, Repr

/-- A sector of an area: its records, or none where its program was cut off or read back wrong (R612). -/
abbrev Sector := Option (List Record)

/-- The recorder. `staging` is the buffer being filled (newest last), `waiting` the full buffer that waits to be
programmed; areas hold their sectors oldest first, `block` the erase block of the circulating area in which its oldest sector lies; `fbuf` is the Headland's FRAM buffer (oldest first) and `fbufLost`
the events beyond 16 (R613); `fullSeen` that event 0x0003 has been recorded, `fullCode` the code it is to name (R610). -/
structure Recorder where
  next       : Word
  staging    : List Record
  waiting    : Option (List Record)
  circ       : List Sector
  block      : Fin 17
  found      : List Record
  buckets    : List Bucket
  fullSeen   : Bool
  fullCode   : Option (BitVec 16)
  supp       : Stat
  foundLost  : Stat
  torn       : Stat
  fbuf       : List Record
  fbufLost   : Word
  deriving DecidableEq, Repr

end Sys2Proof
end

