-- ==== Sys2Proof/Machine/State.lean ====
section
/-! DEFINITION. The state of the block, its reasons to stop, and the state right after reset. -/

namespace Sys2Proof.Machine

/-- Why the block stops with a fault. No command raises one: every command of the table has an effect or none. -/
inductive Fault where
  deriving DecidableEq, Repr

/-- Why a command has no meaning. -/
inductive Refusal where
  /-- Raised by an arm of `exec` whose command has no meaning yet; safe, because the machine stops. -/
  | notModelled (mnemonic : String)
  deriving DecidableEq, Repr

/-- The SH4832. `pending` is the queue of commands, first in first out. `fresh` counts the draws made from
`Config.draw` and `up` the ns since power-on: both are the model's own. `tide` is the index of the tide boundary last
passed and `tideUp` how many boundaries have passed since power-on, which no relabel moves. -/
structure State where
  pending : List Instr
  fresh   : Nat
  up      : Nat
  tide    : Nat
  tideUp  : Nat
  lanes   : Lanes LaneSt
  rejoin  : Rejoin
  ctl     : Ctl
  adm     : Adm
  net     : Net
  ring    : Ring
  time    : TimeSt
  chans   : Vector ChanSt 48
  para    : Parapet
  br      : Bridge
  fab     : Fabric
  ecc     : EccSets
  quay    : Memory
  quayDmg : Damage
  mramDmg : Damage
  pw      : Power
  svc     : Service
  boot    : Boot
  rc      : Recorder
  deriving DecidableEq, Repr

/-- A statistical counter at reset. -/
def Stat.zero : Stat := { count := 0, ovf := false }

/-- A bank as a release resets it (R53), with the PC at an entry address. -/
def resetBank (entry : Word) : Bank :=
  { w := Vector.replicate 16 ⟨0, 0⟩, b := Vector.replicate 8 ⟨false, 0⟩, pc := entry, ret := [], loops := [], dz := false,
    finv := false }

def resetTask : TaskRun :=
  { bank := resetBank 0, phase := .idle, exc := none, sigs := [], cycles := 0, lifted := none, com := none }

def resetCore : UCore := { bank := resetBank 0, active := false, wait := none }

/-- A comparator without a fault. -/
def soundComp : CompFault := { differ := false, deaf := 0 }

def resetPair : PairSt :=
  { tasks := Vector.replicate 16 resetTask, active := none, leader := BitVec.allOnes 64, checker := BitVec.allOnes 64,
    retired := 0, closed := none, cmpX := soundComp, cmpY := soundComp, testCnt := 0, splitPend := none, split := false, resume := false, even := resetCore, odd := resetCore }

def resetLane : LaneSt :=
  { pairs := Vector.replicate 8 resetPair, st := .absent, selfTest := none, dbg := false, cause := 0, dropPair := 0,
    dropTask := 0, fellAt := none, uncounted := false, charges := [], chBad := false, egBad := false, sig := none, egMin := Stat.zero, chMin := Stat.zero,
    sram := [], dmg := [] }

def resetRejoin : Rejoin :=
  { lane := none, src := none, phase := .none, matched := 0, due := 0, shadowStart := 0, starts := [], withheld := false, limit := 3,
    window := 24, egAbort := Stat.zero, tapRefused := ⟨false, false, false⟩,
    digests := none }

def resetBuf : RetBuf := { body := [], gen := 0, digest := 0, mark := 0, bad := false }

def resetRetain : Retain :=
  { busy := false, full := false, src := none, caps := [], buf0 := resetBuf, buf1 := resetBuf, lastGen := 0, stopcause := 0, stoppc := 0 }

def resetCtl : Ctl :=
  { state := .cold, from_ := .cold, warm := false, fallback := false, source := 0, stopcause := 0, stoppc := 0,
    everCommit := false, runTide := 0, pendStop := none, cmds := [],
    rel := Vector.replicate 8 (Vector.replicate 16
      { now := 0, tide := 0, endTide := 0, live := false, comAt := 0, committed := false }),
    forces := [], olcs := [], olcDone := [], olcNext := 1, olcLast := 0, olcMasked := false,
    retain := resetRetain }

def resetAdm : Adm :=
  { cur := none, last := none, image := none, append := false, results := ⟨none, none, none⟩, next := none, effect := none,
    code := 0xFF, pair := 0, task := 0, lanedis := false, index := 0xFFFF }

def resetPort : PortSt :=
  { link := false, speed := 0, lead := false, derated := false, sqi := 0, guard := .admitted, exp := 0, isoEnd := 0,
    viols := [], cleanFrom := 0, lastv := 0, mac := none, qPtp := [], qRc := [], qBe := [], rcTok := 0, beTok := 0,
    tokAt := 0, accepted := [], sent := [], cutTo := [], losses := [], fcsFails := [], sqiLow := none, derSaid := false, dwell := 0, roleAt := 0, tx := none,
    pviol := Stat.zero, ppolice := Stat.zero, piso := Stat.zero, pmiss := Stat.zero, prej := Stat.zero }

def resetMode : ModeSt :=
  { cur := 0, req := false, rq := 0, go := false, echo := 0, rtide := 0, lastout := 0, word := none, dead := false, said := false, echoAt := none,
    heard := [] }

def resetNet : Net :=
  { ports := Vector.replicate 37 resetPort, rx := [], conns := [], trdpSeq := [], trdpRx := [], pushAt := none, mode := resetMode, arp := [],
    arpWait := [], icmp := Vector.replicate 2 (0, 0), conflict := Vector.replicate 2 none }

def resetRing : Ring :=
  { on := false, relay := true, st := .alone, node := 0, slot := 0, sideF := .end_, sideR := .end_, inward := none,
    nodes := 0, bl := 0, epoch := 0, muid := 0, roster := [], hasTable := false, cabslot := 0, cabOwn := false,
    merge := false, handover := false, slew := false, act := none, gresult := 0, gslot := 0, guid := 0, answer := none,
    everHeard := false, gotAt := none, heardAt := none, backAt := none, missAt := none, p0 := 0, syncOut := Vector.replicate 4 none, masterAt := 0, miss := 0, flips := 0, flipSeen := false, cabSeen := [], slotSeen := [], slotGood := [],
    refusedEpoch := none, retryAt := none, sent := false, claimSaid := false, ringSaid := [], notice := none,
    probeF := none, probeR := none, dec := none, refusedF := none, refusedR := none, restoreF := none, restoreR := none, forced := [],
    regain := Vector.replicate 4 none, mergeLast := 0, mergeWhy := 0, heal := Stat.zero,
    bmiss := Stat.zero, rclaim := Stat.zero }

def resetDomain : DomainSt := { ofs := none, lastGood := none, runStart := 0, gm := 0, seqs := [] }

def resetTime : TimeSt :=
  { clock := ⟨0, 0, 0, 0, 0⟩, set := false, dom1 := resetDomain, dom2 := resetDomain, act := .none, hold := false,
    slewing := false, slewFrom := 0, convFrom := 0, rel := false, hops := 0, latchL := 0, latchN := 0, syncMiss := Stat.zero,
    ptpRej := Stat.zero, delays := Vector.replicate 4 [], delayBad := Vector.replicate 4 false,
    pdSent := Vector.replicate 4 none, pdNext := Vector.replicate 4 0, seqIds := [],
    trim := 0, phi := none, relab := 0, overFrom := none }

def resetChan : ChanSt :=
  { supply := .dead, sv := 0, volt := 0, comp := false, compStamp := 0, compAt := 0, acc := false, stamp := 0, count := 0, voted := false, force := none, everCom := false,
    held := false, base := false, drv := false, drvAcc := false, en := false, closed := false, latched := false, causes := [], fbit := false, inSafe := false, prog := some false, stale := false, starting := false,
    silent := false, asleep := false, cls := .none, test := .idle, locating := false, pulseAt := 0, testAt := none, rbAt := 0, wcfg := none, failDark := 0, failLight := 0,
    aban := 0, abanSaid := false, iw := 0, wetting := false, clean := 0, cfault := Stat.zero,
    ctfail := Stat.zero, ctaban := Stat.zero, cwet := Stat.zero }

def resetFunc : FuncSt :=
  { decl := false, shadow := Vector.replicate 6 0, act := Vector.replicate 6 0, en := false, start := 0, holdFrom := none,
    trip := Stat.zero }

def resetPara : Parapet :=
  { funcs := Vector.replicate 4 resetFunc, pfault := false, tfault := false, cause := .none,
    cha := ⟨false, none, none⟩, chb := ⟨false, none, none⟩, lastEdge := none, pos := 0, pref := 0, rev := 0, still := false,
    pss := 0, oneRun := 0, lastCh := false, tachoFltA := false, tachoFltB := false, tachoFltEnd := none }

def resetPw : PwEntry :=
  { valid := false, addr := 0, kind := 0, lane := 0, pair := 0, core := false, win := 0, pseq := 0, data := 0 }

def resetBridge : Bridge :=
  { mt := false, wbase := 0, bo := 0, iwin := 0, inte := 0, intl := 0, pwerr := false, backoff := Stat.zero,
    retry := Stat.zero, pwlost := Stat.zero, inerr := Stat.zero, arbidle := Stat.zero, queue := [], nextSeq := 0, headAt := 0,
    out := none, lastBus := none, log := Vector.replicate 16 resetPw,
    movers := Vector.replicate 8
      { busy := false, owner := none, first := 0xFFFFFFFF, desc := 0, moved := 0, lastErr := 0 },
    inbuf := [], claimed := none, inData := none, inResp := .none, locki := none, lockAt := 0, lockDead := false, errN := false,
    rstLow := false, bootAt := 0, grant := none, parked := false, idleAt := 0, lastGrant := 0, busLock := none }

/-- Priorities of the arbitration table (R499), in requester order. Numbers that are not requesters of the bridge arbiter
hold 0. -/
def quayPri : Vector (BitVec 4) 14 := #v[8, 8, 8, 6, 10, 4, 4, 4, 4, 4, 4, 4, 4, 15]
def bridgePri : Vector (BitVec 4) 14 := #v[8, 8, 8, 6, 0, 4, 4, 4, 4, 4, 4, 4, 4, 0]

def resetFabric : Fabric :=
  { quayArb := { pri := quayPri, wait := Vector.replicate 14 0, holder := none, last := 0 },
    bridgeArb := { pri := bridgePri, wait := Vector.replicate 14 0, holder := none, last := 0 },
    owner := Vector.replicate 32 none, qlbrk := 0, frel := Stat.zero }

def resetEcc : EccSet :=
  { corr := Stat.zero, unc := Stat.zero, tlost := Stat.zero, uaddr := 0,
    table := Vector.replicate 16
      { addr := 0, valid := false, hard := false, bit := 0, count := 0, scrubbed := false } }

/-- Straps of an unwired rack (R626). -/
def openStraps : Straps :=
  { slot := 0, vtype := 0, lmode := 0, cbrole := 0, bootsel := 0, feedcfg := 0, outdef := false, ftestN := true }

def resetPower : Power :=
  { state := .off, straps := openStraps, chg := false, unstable := false, feedA := ⟨0, false, none⟩,
    feedB := ⟨0, false, none⟩, active := none, holdup := false, holdupAt := 0, full := false, pref := 0, retSaid := false,
    dstep := 0, refflt := false, inlet := 0, laneTemp := 0, ksTemp := 0, ppTemp := 0, estep := .none, reflast := 0xF000,
    nref := Vector.replicate 7 Stat.zero, swcnt := Stat.zero, holdcnt := Stat.zero, wakeSrc := .powerOn, latched := false,
    nlatch := 0, latch := [], lastWake := 0, lastTry := 0, lastSwitch := none, neapAt := 0, asleep := [], waking := [], ledTest := false,
    ledTestAt := 0, pattern := 0, litUntil := 0, mntForced := false, pllLost := [], laneHot := ⟨false, false, false⟩,
    ksHot := false, ppHot := false, opsec := 0, pcyc := 0 }

def resetCal : CalRec :=
  { isl := Vector.replicate 48 (0, 0), feeds := Vector.replicate 2 (0, 0), gen := 0, opsec := 0, factory := true }

/-- The role records at delivery (R554): MAINT and ENGINEER without a password, OWNER with the factory password. -/
def resetSvc : Service :=
  { recs := #v[⟨[], none, 0, none⟩, ⟨[], none, 0, none⟩, ⟨Config.factorySalt, some Config.factoryHash, 0, none⟩],
    facPw := true, sessions := [], nonces := [], relays := [], log := [], nextLog := 0, cal := resetCal, calMirA := resetCal,
    calMirB := resetCal, calWork := none, appendBy := none, confirmBy := none, last := none, relayed := none, sessCnt := Stat.zero,
    authFail := Stat.zero, macFail := Stat.zero, svcRej := Stat.zero, arpDrop := Stat.zero }

def emptyBank : BankSt := { fw := [], app0 := [], app1 := [], half0 := none, half1 := none, bad := [] }

def freshJournal : Journal :=
  { gen := 0, state := .confirmed, step := .none, attempt := 0, active := .a, otherval := false, slip := false,
    fusepend := false, reason := 0, kind := 0, tsvn := 0, version := 0 }

/-- The factory firmware as it stands in the slot: erased bytes are not listed. -/
def factoryFw : Memory := (Config.factoryFirmware.zipIdx.filter fun x => x.1 != 0xFF).map fun x => (x.2, x.1)

/-- The trust state at delivery (R2, R582): firmware in bank A, bank B erased, V0 active, operator slots empty. -/
def resetBoot : Boot :=
  { bankA := { emptyBank with fw := factoryFw }, bankB := emptyBank, copy0 := some freshJournal, copy1 := none,
    uid := 1, vkeys := #v[⟨Config.vendorKey, true, false⟩, ⟨[], false, false⟩, ⟨[], false, false⟩, ⟨[], false, false⟩],
    okeys := Vector.replicate 4 ⟨[], false, false⟩, rb := 0, bank := .a, recov := false, romSvc := false, booted := false,
    src := .journal, fwVer := 0, appVer := 0, fwSvn := 0, appSvn := 0, refresh := none, seq := none, chkFail := Stat.zero }

def resetRecorder : Recorder :=
  { next := 0, staging := [], waiting := none, circ := [], block := 0, found := [], buckets := [], fullSeen := false, fullCode := none,
    supp := Stat.zero, foundLost := Stat.zero, torn := Stat.zero, fbuf := [], fbufLost := 0 }

/-- The module as it leaves the factory (R2), without power, every register at its reset value. Assumption log entries 1
and 2 name the values the spec does not state. -/
def State.reset : State :=
  { pending := [], fresh := 0, up := 0, tide := 0, tideUp := 0, lanes := ⟨resetLane, resetLane, resetLane⟩,
    rejoin := resetRejoin, ctl := resetCtl, adm := resetAdm, net := resetNet, ring := resetRing, time := resetTime,
    chans := Vector.replicate 48 resetChan, para := resetPara, br := resetBridge, fab := resetFabric,
    ecc := { lanes := ⟨resetEcc, resetEcc, resetEcc⟩, quay := resetEcc, mram := resetEcc, f1 := resetEcc, f2 := resetEcc },
    quay := [], quayDmg := [], mramDmg := [], pw := resetPower, svc := resetSvc, boot := resetBoot, rc := resetRecorder }

end Sys2Proof.Machine
end

