-- ==== Sys2Proof/Machine/Bits.lean ====
section
/-! DEFINITION. Byte order, bit fields, lists, and one-per-lane data. -/

namespace Sys2Proof

/-- The part of a lane. -/
def Lanes.get {α : Type} (t : Lanes α) : LaneId → α
  | .a => t.a
  | .b => t.b
  | .c => t.c

/-- The data with the part of one lane replaced. -/
def Lanes.set {α : Type} (t : Lanes α) (l : LaneId) (x : α) : Lanes α :=
  match l with
  | .a => { t with a := x }
  | .b => { t with b := x }
  | .c => { t with c := x }

def Lanes.map {α β : Type} (t : Lanes α) (f : LaneId → α → β) : Lanes β := ⟨f .a t.a, f .b t.b, f .c t.c⟩

/-- One increment of a statistical counter (R44, R46). -/
def Stat.inc (c : Stat) : Stat := if c.count = BitVec.allOnes 32 then { c with ovf := true } else { c with count := c.count + 1 }

/-- `n` increments of a statistical counter. -/
def Stat.addN (c : Stat) (n : Nat) : Stat :=
  if c.count.toNat + n ≤ 2 ^ 32 - 1 then { c with count := c.count + BitVec.ofNat 32 n } else ⟨BitVec.allOnes 32, true⟩

end Sys2Proof

namespace Sys2Proof.Machine

/-- The word of four bytes, the first byte in bits [7:0] (R91, R73). -/
def leWord (b0 b1 b2 b3 : Byte) : Word := b3 ++ b2 ++ b1 ++ b0

/-- Byte `i` of a word, byte 0 in bits [7:0]. -/
def byteOf (w : Word) (i : Nat) : Byte := (w >>> (8 * i)).setWidth 8

/-- The bytes of a word, little-endian. -/
def wordBytes (w : Word) : List Byte := [byteOf w 0, byteOf w 1, byteOf w 2, byteOf w 3]

/-- `n` bytes of a number, little-endian. -/
def leBytes : Nat → Nat → List Byte
  | 0, _ => []
  | n + 1, v => BitVec.ofNat 8 v :: leBytes n (v / 256)

/-- `n` bytes of a number, big-endian. -/
def beBytes (n v : Nat) : List Byte := (leBytes n v).reverse

/-- The number that bytes spell, little-endian. -/
def leNat : List Byte → Nat
  | [] => 0
  | b :: r => b.toNat + 256 * leNat r

/-- The number that bytes spell, big-endian. -/
def beNat (l : List Byte) : Nat := leNat l.reverse

/-- The word at byte offset `o` of a byte string, little-endian; missing bytes read 0. -/
def wordAt (l : List Byte) (o : Nat) : Word :=
  leWord (l.getD o 0) (l.getD (o + 1) 0) (l.getD (o + 2) 0) (l.getD (o + 3) 0)

/-- A byte string with the bytes from offset `o` replaced by `x`; its length does not change. -/
def putBytes (l : List Byte) (o : Nat) (x : List Byte) : List Byte :=
  l.take o ++ (x.take (l.length - o)) ++ l.drop (o + x.length)

/-- The bytes of a list of words, little-endian. -/
def bytesOfWords (ws : List Word) : List Byte := ws.flatMap wordBytes

/-- A byte string as little-endian words; missing bytes of the last word are 0. -/
def wordsOfBytes (l : List Byte) : List Word := (List.range ((l.length + 3) / 4)).map fun i => wordAt l (4 * i)

/-- Bits `hi` to `lo` of a word as a number. -/
def field (w : Word) (hi lo : Nat) : Nat := (w.toNat >>> lo) % 2 ^ (hi + 1 - lo)

/-- A number placed in a field of `n` bits from bit `lo`. -/
def put (v lo n : Nat) : Word := BitVec.ofNat 32 ((v % 2 ^ n) <<< lo)

/-- One bit placed at position `i`. -/
def bit (b : Bool) (i : Nat) : Word := if b then BitVec.ofNat 32 (2 ^ i) else 0

def b2n (b : Bool) : Nat := if b then 1 else 0

/-- Sign extension of a field to a word (R95). -/
def sext {n : Nat} (b : BitVec n) : Word := b.signExtend 32

/-- Zero extension of a field to a word (R95). -/
def zext {n : Nat} (b : BitVec n) : Word := b.setWidth 32

/-- A list with the entry at `i` changed by `f`. -/
def modAt {α : Type} (l : List α) (i : Nat) (f : α → α) : List α := l.modify i f

/-- The value of a key in an association list. -/
def lookup? {κ α : Type} [DecidableEq κ] (l : List (κ × α)) (k : κ) : Option α := (l.find? fun p => p.1 = k).map (·.2)

/-- An association list with a key set. -/
def insertKey {κ α : Type} [DecidableEq κ] (l : List (κ × α)) (k : κ) (a : α) : List (κ × α) :=
  (k, a) :: l.filter fun p => p.1 ≠ k

/-- The lanes in letter order. -/
def laneList : List LaneId := [.a, .b, .c]

/-- LANEID encoding: 1, 2, 3 for lanes A, B, C. -/
def laneNo : LaneId → Nat
  | .a => 1
  | .b => 2
  | .c => 3

/-- Index of a lane, 0 to 2. -/
def laneIdx : LaneId → Nat
  | .a => 0
  | .b => 1
  | .c => 2

/-- All members of `Fin n`. -/
def fins (n : Nat) : List (Fin n) := List.finRange n

/-- A vector with the entry at `i` changed. -/
def vmod {α : Type} {n : Nat} (v : Vector α n) (i : Fin n) (f : α → α) : Vector α n := v.set i (f (v.get i))

/-- Whether sequence value `a` is later than `b` (R49). -/
def later {n : Nat} (a b : BitVec n) : Bool := 1 ≤ (a - b).toNat && (a - b).toNat ≤ 2 ^ (n - 1) - 1

/-- A lifetime counter's increment (R44, R50). -/
def lifeInc (c : Word) : Word := if c = BitVec.allOnes 32 then c else c + 1

end Sys2Proof.Machine
end

