-- ==== Sys2Proof/Machine/Crc.lean ====
section
/-! DEFINITION. The cyclic redundancy codes the spec names. -/

namespace Sys2Proof.Machine

/-- One bit step of a non-reflected code of width `n`. -/
def crcStepN {n : Nat} (poly : BitVec n) (r : BitVec n) : BitVec n :=
  if r.msb then (r <<< 1) ^^^ poly else r <<< 1

def iter {α : Type} (f : α → α) : Nat → α → α
  | 0, a => a
  | n + 1, a => iter f n (f a)

/-- One byte into a non-reflected code. -/
def crcByteN {n : Nat} (poly : BitVec n) (r : BitVec n) (b : Byte) : BitVec n :=
  iter (crcStepN poly) 8 (r ^^^ (b.setWidth n <<< (n - 8)))

/-- CRC-64 with the polynomial of ECMA-182, initial value and final exclusive OR all ones, without reflection (R236). -/
def crc64 (l : List Byte) : BitVec 64 := ~~~ (l.foldl (crcByteN 0x42F0E1EBA9EA3693) (BitVec.allOnes 64))

/-- CRC-64 over words, each as four bytes little-endian (R236). -/
def crc64Words (ws : List Word) : BitVec 64 := crc64 (bytesOfWords ws)

/-- CRC-8 of a Cairn record: polynomial 0x2F, initial value and final exclusive OR 0xFF (R603). -/
def crc8 (l : List Byte) : Byte := ~~~ (l.foldl (crcByteN 0x2F) (BitVec.allOnes 8))

/-- One bit step of a reflected 32-bit code; `poly` is the reversed polynomial. -/
def crcStepR (poly : Word) (r : Word) : Word := if r.getLsbD 0 then (r >>> 1) ^^^ poly else r >>> 1

def crcByteR (poly : Word) (r : Word) (b : Byte) : Word := iter (crcStepR poly) 8 (r ^^^ b.setWidth 32)

/-- A reflected 32-bit code with initial value and final exclusive OR all ones. -/
def crcR (poly : Word) (l : List Byte) : Word := ~~~ (l.foldl (crcByteR poly) (BitVec.allOnes 32))

/-- CRC-32 of IEEE 802.3 (the FCS). -/
def crc32 (l : List Byte) : Word := crcR 0xEDB88320 l

/-- CRC-32C, Castagnoli. -/
def crc32c (l : List Byte) : Word := crcR 0x82F63B78 l

/-- CODE2 of an Ashlar trailer: CRC-32K (polynomial 0x741B8CD7) without reflection, initial value and final exclusive OR all
ones (R385). -/
def crc32k (l : List Byte) : Word := ~~~ (l.foldl (crcByteN 0x741B8CD7) (BitVec.allOnes 32))

end Sys2Proof.Machine
end

