-- ==== Sys2Proof/Machine/Cairn.lean ====
section
/-! DEFINITION. Writing a Cairn record (19_event_recorder.md). -/

namespace Sys2Proof.Machine

/-- Train time in ns (R358). -/
def trainNs (s : State) : Nat := s.time.clock.sec.toNat * 1000000000 + s.time.clock.ns.toNat

/-- The index of the tide in which the present instant lies (R189). -/
def tideNow (s : State) : Nat := trainNs s / 250000

/-- The offset of the active domain, as the clock follows it. -/
def activeOfs (s : State) : Int :=
  match s.time.act with
  | .none => 0
  | .first => s.time.dom1.ofs.getD 0
  | .second => s.time.dom2.ofs.getD 0

/-- CONV of the module's timestamps (R373, R376). -/
def convBit (s : State) : Bool := decide (50 ≤ (activeOfs s).natAbs) || s.ring.slew || s.time.hold

/-- Whether the steward runs: the module is awake, its Keystone has its clock and its firmware has started (R544, R602, R613). -/
def stewardRuns (s : State) : Bool := s.pw.state == .run && !s.pw.pllLost.contains .keystone && s.boot.booted

/-- TTIME of a record made now: CONV, HOLD, NOTIME and the time (R603). -/
def ttime (s : State) (notime : Bool) : BitVec 64 :=
  let flag (b : Bool) (i : Nat) : BitVec 64 := if b then BitVec.ofNat 64 (2 ^ i) else 0
  let t := if notime then s.up * 32768 / 1000000000 else trainNs s
  flag (convBit s) 63 ||| flag s.time.hold 62 ||| flag notime 61 ||| BitVec.ofNat 64 (t % 2 ^ 61)

/-- The foundation codes (R608). -/
def foundationCode (c : BitVec 16) : Bool :=
  c == 0x0003 || c == 0x010F || c == 0x0110 || c == 0x0205 || (0x0703 ≤ c && c ≤ 0x0706) || c == 0x0903 ||
    (0x0A09 ≤ c && c ≤ 0x0A0C) || c == 0x0B06 || c == 0x0B08 || c == 0x0C05

/-- The first 8 bytes of a DATA string as the field of a record, byte 22 in bits [7:0]. -/
def dataWord (d : List Byte) : BitVec 64 := BitVec.ofNat 64 (leNat (d.take 8))

/-- The records an event makes: itself, and continuations of code 0x0000 for the data beyond 8 bytes (R604). -/
def recordsOf (opsec pcyc : Word) (tt : BitVec 64) : Nat → Word → BitVec 16 → List Byte → List Record
  | 0, _, _, _ => []
  | n + 1, i, c, d =>
    ⟨i, opsec, pcyc, tt, c, dataWord d⟩ ::
      (if d.length ≤ 8 then [] else recordsOf opsec pcyc tt n (i + 1) 0 (d.drop 8))

/-- A sector programmed into the circulating area, which erases its oldest block first where it is full (R609). -/
def programSector (circ : List Sector) (x : Sector) : List Sector :=
  (if 4352 ≤ circ.length then circ.drop 256 else circ) ++ [x]

/-- The erase block of the oldest sector after a sector is programmed (R609). -/
def programBlock (rc : Recorder) : Fin 17 := if 4352 ≤ rc.circ.length then rc.block + 1 else rc.block

/-- The foundation area, the foundation records lost, and the code of the first that did not fit. -/
structure Found where
  recs : List Record
  lost : Nat
  code : Option (BitVec 16)
  deriving DecidableEq, Repr

/-- The foundation area takes one record of a sector that is programmed; `next` are the records after it. A continuation goes with
the record before it; a foundation record and its continuations go in together or not at all (R608, R610). -/
def enterFound (f : Found) (r : Record) (next : List Record) : Found :=
  if r.code = 0 then
    if (f.recs.getLast?).any fun l => l.index + 1 == r.index then { f with recs := f.recs ++ [r] } else f
  else if foundationCode r.code then
    let need := 1 + (next.takeWhile fun x => x.code == 0).length
    if f.recs.length + need ≤ 4096 then { f with recs := f.recs ++ [r] }
    else { f with lost := f.lost + 1, code := f.code.or (some r.code) }
  else f

/-- The records of a sector entered in order; `after` are the records that follow the sector. -/
def enterAll (f : Found) (after : List Record) : List Record → Found
  | [] => f
  | r :: rest => enterAll (enterFound f r (rest ++ after)) after rest

/-- A full buffer programmed and read back (R608 to R611). `after` are the records that follow it. -/
def programBuffer (rc : Recorder) (w after : List Record) : Recorder :=
  let f := enterAll ⟨rc.found, 0, none⟩ after w
  { rc with circ := programSector rc.circ (some w), block := programBlock rc, found := f.recs, foundLost := rc.foundLost.addN f.lost,
            fullCode := if rc.fullSeen then none else rc.fullCode.or f.code }

/-- One record into the staging buffer. A buffer that holds 16 records waits to be programmed and the other is filled
(R611); where both are full the steward programs the waiting one first (assumption log entry 10). -/
def stage (rc : Recorder) (r : Record) : Recorder :=
  let st := rc.staging ++ [r]
  if st.length < 16 then { rc with staging := st, next := rc.next + 1 }
  else
    match rc.waiting with
    | none => { rc with staging := [], waiting := some st, next := rc.next + 1 }
    | some w => { programBuffer rc w st with staging := [], waiting := some st, next := rc.next + 1 }

/-- An event's records staged. -/
def stageEvent (s : State) (code : BitVec 16) (data : List Byte) : State :=
  { s with rc := (recordsOf s.pw.opsec s.pw.pcyc (ttime s (!s.time.set)) 64 s.rc.next code data).foldl stage s.rc }

/-- Event 0x0003, once: the first foundation record that does not fit (R610). -/
def sayFull (s : State) : State :=
  match s.rc.fullCode with
  | none => s
  | some c => stageEvent { s with rc := { s.rc with fullCode := none, fullSeen := true } } 0x0003 (leBytes 2 c.toNat)

/-- An event written without asking for a token: its record and its continuations. -/
def putEvent (s : State) (code : BitVec 16) (data : List Byte) : State := sayFull (stageEvent s code data)

/-- The bucket of a code; full where none is listed (R614). -/
def bucketOf (rc : Recorder) (c : BitVec 16) : Bucket :=
  (rc.buckets.find? fun b => b.code = c).getD { code := c, tokens := 16, supp := 0, first := 0, last := 0 }

def setBucket (rc : Recorder) (b : Bucket) : Recorder :=
  { rc with buckets := b :: rc.buckets.filter fun x => x.code ≠ b.code }

/-- The suppressed-count record of a bucket, and the count cleared (R615). -/
def reportSuppressed (s : State) (b : Bucket) : State :=
  let span := min 65535 ((b.last - b.first) / 1000000000)
  let s := putEvent s 0x0002 (leBytes 2 b.code.toNat ++ leBytes 4 b.supp.toNat ++ leBytes 2 span)
  { s with rc := setBucket s.rc { b with supp := 0, first := 0, last := 0 } }

/-- A suppressed event counted (R614, R615). -/
def suppress (s : State) (b : Bucket) : State :=
  let b' := { b with supp := lifeInc b.supp, first := if b.supp = 0 then s.up else b.first, last := s.up }
  { s with rc := { setBucket s.rc b' with supp := s.rc.supp.inc } }

/-- An event in Cairn while the steward runs: its token, the suppressed count before it, and the record (R611 to R615). -/
def recordRunning (s : State) (code : BitVec 16) (data : List Byte) : State :=
  if code.toNat < 256 || foundationCode code then putEvent s code data
  else
    let b := bucketOf s.rc code
    if b.tokens = 0 then suppress s b
    else
      let s := if b.supp = 0 then s else reportSuppressed s b
      let b := bucketOf s.rc code
      putEvent { s with rc := setBucket s.rc { b with tokens := b.tokens - 1 } } code data

/-- An event the Headland writes to its 16-record buffer while the steward does not run (R613): its record and its continuations (R604), or,
where they do not all fit, one event lost. The indexes are the steward's to assign. -/
def headlandRecord (s : State) (code : BitVec 16) (data : List Byte) : State :=
  let rs := recordsOf s.pw.opsec s.pw.pcyc (ttime s true) 64 0 code data
  if s.rc.fbuf.length + rs.length ≤ 16 then { s with rc := { s.rc with fbuf := s.rc.fbuf ++ rs } }
  else { s with rc := { s.rc with fbufLost := s.rc.fbufLost + 1 } }

/-- The module records an event. -/
def record (s : State) (code : BitVec 16) (data : List Byte) : State :=
  if stewardRuns s then recordRunning s code data else headlandRecord s code data

/-- One byte of DATA. -/
def d1 (n : Nat) : List Byte := leBytes 1 n
def d2 (n : Nat) : List Byte := leBytes 2 n
def d4 (n : Nat) : List Byte := leBytes 4 n
def d8 (n : Nat) : List Byte := leBytes 8 n
/-- A signed number in four bytes, two's complement (R604). -/
def di (i : Int) : List Byte := d4 (BitVec.ofInt 32 i).toNat

/-- The 32 bytes of a record (R603). -/
def recordBytes (r : Record) : List Byte :=
  let b := d4 r.index.toNat ++ d4 r.opsec.toNat ++ d4 r.pcyc.toNat ++ d8 r.ttime.toNat ++ d2 r.code.toNat ++ d8 r.data.toNat
  b ++ [crc8 b, 0xA5]

end Sys2Proof.Machine
end

