-- ==== Sys2Proof/Machine/Mem.lean ====
section
/-! DEFINITION. Sparse memories in canonical form, and the damage of their codes. `d` is what an unlisted address reads as. -/

namespace Sys2Proof.Machine

/-- The listed byte at an address. -/
def memFind : Memory → Nat → Option Byte
  | [], _ => none
  | (k, v) :: r, a => if k = a then some v else memFind r a

/-- The byte a read of an address returns. -/
def memRead (d : Byte) (m : Memory) (a : Nat) : Byte := (memFind m a).getD d

/-- One byte written; the canonical form is kept. -/
def memWrite (d : Byte) : Memory → Nat → Byte → Memory
  | [], a, b => if b = d then [] else [(a, b)]
  | (k, v) :: r, a, b =>
    if k < a then (k, v) :: memWrite d r a b
    else if k = a then (if b = d then r else (a, b) :: r)
    else if b = d then (k, v) :: r else (a, b) :: (k, v) :: r

/-- `n` bytes from an address. -/
def memReadN (d : Byte) (m : Memory) (a n : Nat) : List Byte := (List.range n).map fun i => memRead d m (a + i)

/-- Bytes written from an address upwards. -/
def memWriteN (d : Byte) (m : Memory) (a : Nat) : List Byte → Memory
  | [] => m
  | b :: r => memWriteN d (memWrite d m a b) (a + 1) r

/-- The little-endian word at an address. -/
def memWord (d : Byte) (m : Memory) (a : Nat) : Word :=
  leWord (memRead d m a) (memRead d m (a + 1)) (memRead d m (a + 2)) (memRead d m (a + 3))

/-- A word written, little-endian, in the bytes that `be` enables (bit i for byte i). -/
def memWriteWord (d : Byte) (m : Memory) (a : Nat) (w : Word) (be : BitVec 4) : Memory :=
  let st (m : Memory) (i : Nat) : Memory := if be.getLsbD i then memWrite d m (a + i) (byteOf w i) else m
  st (st (st (st m 0) 1) 2) 3

/-- The memory with the range `lo` to `hi`, exclusive, taken from another memory of the same default. -/
def memTake (m src : Memory) (lo hi : Nat) : Memory :=
  m.filter (fun c => decide (c.1 < lo)) ++ src.filter (fun c => decide (lo ≤ c.1) && decide (c.1 < hi)) ++
    m.filter (fun c => decide (lo ≤ c.1) && decide (hi ≤ c.1))

/-- The memory with the range `lo` to `hi`, exclusive, erased to the default. -/
def memErase (m : Memory) (lo hi : Nat) : Memory :=
  m.filter fun c => decide (c.1 < lo) || decide (hi ≤ c.1)

/-- The canonical form: addresses strictly rising from `lo`, no entry equal to the default. -/
def memOk (d : Byte) : Nat → Memory → Bool
  | _, [] => true
  | lo, (k, v) :: r => decide (lo ≤ k) && decide (v ≠ d) && memOk d (k + 1) r

/-- `Memory.wf`: the memory is in canonical form. -/
def Memory.wf (d : Byte) (m : Memory) : Bool := memOk d 0 m

/-- What the code of the word at an address is damaged by. -/
def dmgFind : Damage → Nat → Hit
  | [], _ => .none
  | (k, h) :: r, a => if k = a then h else dmgFind r a

/-- The damage with a word's entry set; an undamaged word has none. -/
def dmgSet (d : Damage) (a : Nat) (h : Hit) : Damage :=
  let r := d.filter fun p => decide (p.1 ≠ a)
  match h with
  | .none => r
  | h => (a, h) :: r

/-- The damage after an access finds `h` at a word: what the access brings is added to what stands there. -/
def dmgMeet (d : Damage) (a : Nat) (h : Hit) : Damage :=
  match h with
  | .none => d
  | h => if dmgFind d a = .bad then d else dmgSet d a h

/-- What a store of a whole word leaves of a word's damage: fresh check bits cure it, but for a hard fault (R511, R642). -/
def dmgCure (d : Damage) (a : Nat) : Damage :=
  match dmgFind d a with
  | .none => d
  | .hard _ => d
  | _ => dmgSet d a .none

/-- The damage outside a range of addresses. -/
def dmgErase (d : Damage) (lo hi : Nat) : Damage := d.filter fun p => decide (p.1 < lo) || decide (hi ≤ p.1)

end Sys2Proof.Machine
end

