-- ==== Sys2Proof/Machine/Ecc.lean ====
section
/-! DEFINITION. Error-correcting codes: corrections, uncorrectable data, the address tables (15, R509 to R517). -/

namespace Sys2Proof.Machine

/-- Memory numbers of the EC_ block (R517). -/
def memNo : MemId → Nat
  | .lane l => laneIdx l
  | .quay => 3
  | .mram => 4
  | .f1 => 5
  | .f2 => 6

/-- Reader numbers of event 0x0902, in the order of the table of R515 (assumption log entry 9). -/
def readerNo : Reader → Nat
  | .pair => 0
  | .tideMover => 1
  | .signature => 2
  | .rejoin => 3
  | .untimed => 4
  | .inbound => 5
  | .mover _ => 6
  | .steward => 7
  | .scrubber => 8

def eccGet (s : State) : MemId → EccSet
  | .lane l => s.ecc.lanes.get l
  | .quay => s.ecc.quay
  | .mram => s.ecc.mram
  | .f1 => s.ecc.f1
  | .f2 => s.ecc.f2

def eccPut (s : State) (m : MemId) (e : EccSet) : State :=
  match m with
  | .lane l => { s with ecc := { s.ecc with lanes := s.ecc.lanes.set l e } }
  | .quay => { s with ecc := { s.ecc with quay := e } }
  | .mram => { s with ecc := { s.ecc with mram := e } }
  | .f1 => { s with ecc := { s.ecc with f1 := e } }
  | .f2 => { s with ecc := { s.ecc with f2 := e } }

/-- Whether a memory has an address table (R512, R517). -/
def hasTable : MemId → Bool
  | .f1 => false
  | .f2 => false
  | _ => true

/-- A correction at an address: counters, the address table, the events (R512, R513). -/
def eccCorrect (s : State) (m : MemId) (a : Nat) (bit : Fin 72) : State :=
  let e := eccGet s m
  let e := { e with corr := e.corr.inc }
  if !hasTable m then eccPut s m e
  else
    match (fins 16).find? fun i => (e.table.get i).valid && (e.table.get i).addr == BitVec.ofNat 32 a with
    | some i =>
      let t := e.table.get i
      let hard := t.hard || t.scrubbed
      let t' := { t with count := if t.count = 0xFFFF then t.count else t.count + 1, bit := BitVec.ofNat 7 bit.val, hard := hard }
      let s := eccPut s m { e with table := e.table.set i t' }
      if hard && !t.hard then record s 0x0903 (d1 (memNo m) ++ d4 a ++ d1 bit.val) else s
    | none =>
      match (fins 16).find? fun i => !(e.table.get i).valid with
      | some i =>
        let t : EccEntry := { addr := BitVec.ofNat 32 a, valid := true, hard := false, bit := BitVec.ofNat 7 bit.val, count := 1,
                              scrubbed := false }
        record (eccPut s m { e with table := e.table.set i t }) 0x0901 (d1 (memNo m) ++ d4 a ++ d1 bit.val)
      | none => record (eccPut s m { e with tlost := e.tlost.inc }) 0x0904 (d1 (memNo m))

/-- Uncorrectable data read at an address (R515). -/
def eccBad (s : State) (m : MemId) (a : Nat) (r : Reader) : State :=
  let e := eccGet s m
  let e := { e with unc := e.unc.inc, uaddr := if hasTable m then BitVec.ofNat 32 a else e.uaddr }
  record (eccPut s m e) 0x0902 (d1 (memNo m) ++ d4 a ++ d1 (readerNo r))

/-- What a read finds, and what follows from it: the state, and whether the data is good. -/
def eccRead (s : State) (m : MemId) (a : Nat) (r : Reader) (h : Hit) : State × Bool :=
  match h with
  | .none => (s, true)
  | .soft b => (eccCorrect s m a b, true)
  | .hard b => (eccCorrect s m a b, true)
  | .bad => (eccBad s m a r, false)

end Sys2Proof.Machine
end

