-- ==== Sys2Proof/Machine/Access.lean ====
section
/-! DEFINITION. Reading and changing the parts of the state: lanes, pairs, tasks, the admitted set-up. -/

namespace Sys2Proof.Machine

def lane (s : State) (l : LaneId) : LaneSt := s.lanes.get l

def modLane (s : State) (l : LaneId) (f : LaneSt → LaneSt) : State := { s with lanes := s.lanes.set l (f (s.lanes.get l)) }

def pair (s : State) (l : LaneId) (p : PairId) : PairSt := (lane s l).pairs.get p

def modPair (s : State) (l : LaneId) (p : PairId) (f : PairSt → PairSt) : State :=
  modLane s l fun x => { x with pairs := vmod x.pairs p f }

def taskRun (s : State) (l : LaneId) (p : PairId) (t : TaskId) : TaskRun := (pair s l p).tasks.get t

def modTask (s : State) (l : LaneId) (p : PairId) (t : TaskId) (f : TaskRun → TaskRun) : State :=
  modPair s l p fun x => { x with tasks := vmod x.tasks t f }

def modChan (s : State) (c : Chan) (f : ChanSt → ChanSt) : State := { s with chans := vmod s.chans c f }

def modPort (s : State) (p : Port) (f : PortSt → PortSt) : State := { s with net := { s.net with ports := vmod s.net.ports p f } }

def port (s : State) (p : Port) : PortSt := s.net.ports.get p

/-- The state with `f` applied for every member of a list. -/
def forAll {α : Type} (l : List α) (s : State) (f : State → α → State) : State := l.foldl f s

def isVoting (s : State) (l : LaneId) : Bool := (lane s l).st == .voting

/-- The lanes in VOTING, in letter order. -/
def voters (s : State) : List LaneId := laneList.filter (isVoting s)

/-- The lowest-lettered lane in VOTING (R225). -/
def leadLane (s : State) : Option LaneId := (voters s).head?

/-- LMODE as strapped (R5, R227). -/
def benchMode (s : State) : Bool := s.pw.straps.lmode == 2

/-- The set-up in force. -/
def setup? (s : State) : Option Setup := s.adm.cur.map (·.setup)

/-- What a module without an admitted set-up has declared: nothing (R163). -/
def emptyPolicy : Policy :=
  { feedReturn := false, feedHold := 0, rejoinLimit := 3, rejoinWin := 24, ring := true, claim := true, derate := 70,
    sleep := false, sleepQuiet := 600, splitwork := false, portrate := false, trim := true, wetCur := 8, wetTime := 2,
    forcekeep := false, rackslot := none, vtype := none }

def emptyNet : NetDecl := { ethertype := 0x88B5, dom1 := 0, dom2 := 1, vip := 0, mip := 0, mntPrefix := 0, vehPrefix := 0 }

def emptySetup : Setup :=
  { layouts := [], tasks := [], slots := [], ports := [], net := emptyNet, corbel := none, modes := [⟨0, true, 1, 0, 0⟩], n := 0,
    bl := 20, chans := [], addbs := [], reflexes := [], parapets := [], conns := [], splitmask := 0, lanes := 0, feed := none,
    policy := emptyPolicy }

def setup (s : State) : Setup := (setup? s).getD emptySetup

def policy (s : State) : Policy := (setup s).policy

def layoutIn (u : Setup) (p : PairId) : LayoutDecl :=
  (u.layouts.find? fun d => d.pair = p).getD ⟨p, 0, 0, 0, 0, 0, 0, 0⟩

def layout (s : State) (p : PairId) : LayoutDecl := layoutIn (setup s) p

def taskIn (u : Setup) (p : PairId) (t : TaskId) : Option TaskDecl := u.tasks.find? fun d => d.pair = p ∧ d.task = t

def taskDecl (s : State) (p : PairId) (t : TaskId) : Option TaskDecl := taskIn (setup s) p t

def chanDecl (s : State) (c : Chan) : Option ChanDecl := (setup s).chans.find? fun d => d.ch = c

def chanKind (s : State) (c : Chan) : Option ChanKind := (chanDecl s c).map (·.kind)

def portDecl (s : State) (p : Port) : Option PortDecl := (setup s).ports.find? fun d => d.port = p

/-- EC_ byte offset of a pair's bank (EC_UADDR). -/
def bankBase (p : PairId) : Nat := p.val * 0x200000

/-- EC_ byte offset of the lane-common area. -/
def commonBase : Nat := 0x1000000

/-- Start of a section's space in the bank. -/
def spaceStart (d : LayoutDecl) : SectKind → Nat
  | .pi => d.k
  | .pq => d.pi
  | .ret => d.pq
  | .work => d.ret

def sectOf (t : TaskDecl) : SectKind → Sect
  | .pi => t.pi
  | .pq => t.pq
  | .ret => t.ret
  | .work => t.work

/-- Bank address and length of a task's section. -/
def sectRange (u : Setup) (t : TaskDecl) (k : SectKind) : Nat × Nat :=
  (spaceStart (layoutIn u t.pair) k + (sectOf t k).start, (sectOf t k).len)

/-- Bytes of a lane's bank of a pair. -/
def bankRead (s : State) (l : LaneId) (p : PairId) (a n : Nat) : List Byte := memReadN 0 (lane s l).sram (bankBase p + a) n

/-- Whole words written into a lane's SRAM from an EC_ offset: fresh check bits cure them, but for hard faults (R642). -/
def sramWrite (s : State) (l : LaneId) (ea : Nat) (b : List Byte) : State :=
  modLane s l fun x =>
    { x with sram := memWriteN 0 x.sram ea b,
             dmg := x.dmg.filter fun q =>
               decide (q.1 < ea) || decide (ea + b.length ≤ q.1) || (match q.2 with | .hard _ => true | _ => false) }

/-- Bytes written into a lane's bank of a pair. -/
def bankWrite (s : State) (l : LaneId) (p : PairId) (a : Nat) (b : List Byte) : State := sramWrite s l (bankBase p + a) b

/-- The bytes of a task's section in a lane. -/
def sectRead (s : State) (l : LaneId) (t : TaskDecl) (k : SectKind) : List Byte :=
  bankRead s l t.pair (sectRange (setup s) t k).1 (sectRange (setup s) t k).2

def sectWrite (s : State) (l : LaneId) (t : TaskDecl) (k : SectKind) (b : List Byte) : State :=
  bankWrite s l t.pair (sectRange (setup s) t k).1 (b.take (sectRange (setup s) t k).2)

/-- The lanes whose banks the tide movers serve: VOTING, and REJOINING (R247). -/
def servedLanes (s : State) : List LaneId := laneList.filter fun l => (lane s l).st == .voting || (lane s l).st == .rejoining

/-- The lanes that execute timed tasks: VOTING, and REJOINING in its shadow run (R247). -/
def runsTimed (s : State) (l : LaneId) : Bool :=
  (lane s l).st == .voting || ((lane s l).st == .rejoining && s.rejoin.phase == .shadow && s.rejoin.lane == some l)

def timedLanes (s : State) : List LaneId := laneList.filter (runsTimed s)

/-- Whether the Keystone is out of reset with its clock: the module is awake (R587, R544). -/
def awake (s : State) : Bool := s.pw.state == .run && !s.pw.pllLost.contains .keystone

/-- A domain woken at once by what it works on: waking one that runs changes nothing (R530). -/
def wake (s : State) (d : SlackDom) : State :=
  if s.pw.asleep.contains d then { s with pw := { s.pw with asleep := s.pw.asleep.filter fun x => x ≠ d } } else s

/-- The stall of a first access, in ns (R530). -/
def stallNs : SlackDom → Nat
  | .cores _ _ => 40
  | .steward => 40
  | .regs _ => 100
  | .bt => 2000
  | .common _ => 200
  | .flash => 40000

/-- A domain that serves an access at once: it does not sleep, and no wake of it is under way (R531). -/
def domReady (s : State) (d : SlackDom) : Bool :=
  !s.pw.asleep.contains d && !(s.pw.waking.any fun w => w.dom == d && decide (s.up < w.ready))

/-- A requester stalls on a domain that is not ready (R35, R531): the first of them wakes it, and those that come during the wake wait for
the same. The access is made again, and served, once the domain is ready. -/
def stallOn (s : State) (d : SlackDom) (who : Agent) : State :=
  let old := s.pw.waking.filter fun w => decide (s.up < w.ready)
  if s.pw.asleep.contains d then
    { s with pw := { s.pw with asleep := s.pw.asleep.filter fun x => x ≠ d,
                               waking := ⟨d, s.up + stallNs d, [who]⟩ :: old.filter fun w => w.dom ≠ d } }
  else
    { s with pw := { s.pw with waking := old.map fun w => if w.dom == d && !w.by_.contains who then { w with by_ := who :: w.by_ } else w } }

/-- The lane of a requester. -/
def ofLane (l : LaneId) : Agent → Bool
  | .core k _ _ => k == l
  | .steward => false

/-- The accesses of a masked lane that stall on a wake are withdrawn; the domains complete their wakes (R532). -/
def withdrawStalled (s : State) (l : LaneId) : State :=
  { s with pw := { s.pw with waking := s.pw.waking.map fun w => { w with by_ := w.by_.filter fun a => !ofLane l a } } }

/-- Controller state numbers of SV_CTRL.STATE. -/
def ctlNo : CtlState → Nat
  | .cold => 0
  | .setup => 1
  | .run => 2
  | .stopped => 3
  | .service => 4

/-- The controller changes state; event 0x0C0C names the old state, the new state and the tide (R605). -/
def setCtl (s : State) (c : CtlState) : State :=
  record { s with ctl := { s.ctl with state := c } } 0x0C0C (d1 (ctlNo s.ctl.state) ++ d1 (ctlNo c) ++ d4 s.tide)

/-- A force is in effect from its effect tide to that of its removal (R213). -/
def inForce (s : State) (f : Force) : Bool := decide (f.eff ≤ s.tide) && !(f.endAt.any fun t => decide (t ≤ s.tide))

/-- A force or its removal waits for its effect tide (SV_FORCE PEND). -/
def forcePending (s : State) (f : Force) : Bool := decide (s.tide < f.eff) || f.endAt.any fun t => decide (s.tide < t)

/-- The force in effect on an item: the one accepted last (R213, R566). -/
def lastForce (s : State) (i : ForceItem) : Option Force := (s.ctl.forces.filter fun f => inForce s f && f.item == i).getLast?

end Sys2Proof.Machine
end

