-- ==== Sys2Proof/Machine/Drive.lean ====
section
/-! DEFINITION. What drives an output channel: vote, reflex, force, SAFE state, safety enable, island
(12_safety_functions_parapet.md, R408, R409; 13_field_channels.md; 06, the controller states). -/

namespace Sys2Proof.Machine

/-- The enable mask of a function names a channel (w3 and w4 of PARAPET). -/
def maskNames (w : Vector Word 6) (c : Chan) : Bool :=
  if c.val < 32 then (w.get 3).getLsbD c.val else (w.get 4).getLsbD (c.val - 32)

/-- The safety enable of a channel: the AND of the enables of the declared functions that name it (R408). -/
def enabled (s : State) (c : Chan) : Bool :=
  (fins 4).all fun f => let x := s.para.funcs.get f; !x.decl || !maskNames x.act c || x.en

/-- The OUTDEF state of a channel (R200); off in factory test (R630). -/
def outdefOf (s : State) (c : Chan) : Bool :=
  s.pw.straps.outdef && s.pw.straps.ftestN &&
    match (if s.boot.bank = .a then s.boot.bankA else s.boot.bankB) with
    | b =>
      let g := match b.half0, b.half1 with
        | some x, some y => if later y.gen x.gen then some y else some x
        | some x, none => some x
        | none, y => y
      ((g.bind fun g => lookup? g.outdef c).getD false)

/-- Whether an accepted reading takes part as 1 in a reflex: the island reports (R451). -/
def reflexBit (s : State) (c : Option Chan) : Bool :=
  match c with
  | none => false
  | some c => let x := s.chans.get c; x.acc && !x.silent

/-- The result of a reflex table (R451). -/
def reflexOf (s : State) (r : ReflexDecl) : Bool :=
  let n := (r.ins.zipIdx.map fun p => b2n (reflexBit s p.1) * 2 ^ p.2).foldl (· + ·) 0
  r.truth.getLsbD n

/-- The vote over the copies present: a majority of three, or two that agree (R230). -/
def voteBit (copies : List Bool) : Option Bool :=
  let ones := (copies.filter fun b => b).length
  if copies.length ≤ 1 then none else if 2 ≤ ones then some true else if 2 ≤ copies.length - ones then some false else none

/-- The force bit and the forced value of a channel in a lane's output image (R210), from that lane's copy of the force table; the
copies of the lanes that vote are identical. -/
def imageForce (s : State) (_l : LaneId) (c : Chan) : Bool × Bool :=
  match lastForce s (.chout c) with
  | some f => (true, f.value.getLsbD 0)
  | none => (false, false)

/-- The CHOUT force of a channel as the Parapet votes it over the images present (R210, R230): force bit and forced value 2oo3. With one
lane strapped there is no vote (R227). -/
def choutForce (s : State) (present : LaneId → Bool) (c : Chan) : Option Bool :=
  let imgs := ((voters s).filter present).map fun l => imageForce s l c
  match voteBit (imgs.map (·.1)), voteBit (imgs.map (·.2)) with
  | some true, some v => some v
  | _, _ => none

/-- The SAFE state of a channel (R199, R201): the last committed value for hold. -/
def safeOf (s : State) (d : ChanDecl) : Bool :=
  match d.safe with
  | .off => false
  | .on => true
  | .hold => (s.chans.get d.ch).held

/-- Steps 1 to 3 of R409 for an output channel in RUN. -/
def runValue (s : State) (d : ChanDecl) : Bool :=
  let x := s.chans.get d.ch
  match x.force with
  | some v => v
  | none =>
    match (setup s).reflexes.find? fun r => r.out = d.ch with
    | some r =>
      if r.combine = 2 then reflexOf s r
      else if !x.everCom then safeOf s d
      else if r.combine = 0 then x.voted || reflexOf s r
      else x.voted && reflexOf s r
    | none => if x.everCom then x.voted else safeOf s d

/-- The value of a channel before the safety enable, by controller state (06, Controller states; R200, R227, R572). -/
def valueOf (s : State) (c : Chan) : Bool :=
  if s.ctl.state = .setup then (s.chans.get c).base
  else if !s.ctl.everCommit then outdefOf s c
  else
    match chanDecl s c with
    | none => false
    | some d =>
      if d.kind ≠ .output then false
      else if benchMode s then safeOf s d
      else
        match s.ctl.state with
        | .run => runValue s d
        | .stopped => safeOf s d
        | .service =>
          match (s.chans.get c).force with
          | some v => v
          | none => safeOf s d
        | .setup => (s.chans.get c).base
        | .cold => outdefOf s c

/-- The safe state that an island is given at E: SAFE of its CHAN, none for hold; off where an enable mask names the channel, and where no
CHAN declares it (R449). -/
def safeProg (s : State) (c : Chan) : Option Bool :=
  if (fins 4).any fun f => (s.para.funcs.get f).decl && maskNames (s.para.funcs.get f).act c then some false
  else
    match chanDecl s c with
    | none => some false
    | some d =>
      match d.safe with
      | .off => some false
      | .on => some true
      | .hold => none

/-- The programmed safe state of an island, as the value it drives (R449). -/
def islandSafe (x : ChanSt) : Bool := x.prog.getD x.drvAcc

/-- The drive that an island follows: the last one it accepted, or its safe state. -/
def islandDrive (x : ChanSt) : Bool := if x.inSafe then islandSafe x else x.drvAcc

/-- The read-back of an output: V(P-M) above half of V(S-M) (R441). -/
def readback (x : ChanSt) : Bool := decide (x.sv < 2 * x.volt)

/-- A change at an island; since when its read-back and its drive are what they are is kept (R443). -/
def modIsland (s : State) (c : Chan) (f : ChanSt → ChanSt) : State :=
  modChan s c fun x =>
    let y := f x
    if readback x = readback y ∧ islandDrive x = islandDrive y then y else { y with rbAt := s.up }

/-- The switch of an island (R429, R440, R442, R444, R449, R649): open while it starts, sleeps, has tripped, is too hot or
lacks supply; else the safe state, the test pulse under the enable, or the drive it accepted. -/
def switchOf (x : ChanSt) : Bool :=
  if x.asleep || x.starting || x.latched || x.supply != .full || x.causes.contains .temp then false
  else if x.inSafe then islandSafe x
  else
    match x.test with
    | .dark => false
    | .localise => false
    | .light => x.en
    | .idle => x.drvAcc

/-- Class numbers of IO_CSTAT. -/
def classNo : FaultClass → Nat
  | .none => 0
  | .unlocalised => 1
  | .fieldSide => 2
  | .externalFeed => 3
  | .wetting => 4
  | .silent => 5
  | .watchdog => 6
  | .overload => 7
  | .overloadCleared => 8
  | .testfailDark => 9
  | .testfailLight => 10

/-- The class that IO_CSTAT shows: TESTFAIL from the second failed test of a kind in a row until one passes, SILENT while the coupler is
silent, else the class of the fault bit (R445, R455, R456; assumption log entry 94). -/
def shownClass (x : ChanSt) : FaultClass :=
  if 2 ≤ x.failDark then .testfailDark else if 2 ≤ x.failLight then .testfailLight else if x.silent then .silent else x.cls

/-- The fault bit falls once no cause is left and the island reports: event 0x0602, and the class clears, but while a localisation is under
way (R454, R456). -/
def settleBit (s : State) (c : Chan) : State :=
  let x := s.chans.get c
  if x.causes.isEmpty && x.fbit && !x.silent then
    record (modChan s c fun x => { x with fbit := false, cls := if x.locating then x.cls else .none }) 0x0602
      (d1 c.val ++ d1 (classNo (shownClass x)))
  else s

/-- A cause of the fault bit ends. -/
def dropCause (s : State) (c : Chan) (k : FaultCause) : State :=
  settleBit (modChan s c fun x => { x with causes := x.causes.filter fun y => y ≠ k }) c

/-- A cause of the fault bit begins. -/
def addCause (x : ChanSt) (k : FaultCause) : ChanSt := if x.causes.contains k then x else { x with causes := k :: x.causes }

/-- An off drive at an island ends an overload trip and its cause (R442). -/
def releaseTrip (s : State) (c : Chan) : State :=
  if (s.chans.get c).latched then dropCause (modChan s c fun x => { x with latched := false }) c .overload else s

/-- A demand during a pulse abandons the test, or the localisation (R446, R447, R455). -/
def demand (s : State) (c : Chan) : State :=
  let x := s.chans.get c
  match x.test with
  | .idle => s
  | .localise => modChan s c fun x => { x with test := .idle, locating := false, cls := .unlocalised }
  | _ =>
    let s := modChan s c fun x => { x with test := .idle, rbAt := s.up, ctaban := x.ctaban.inc, aban := x.aban + 1 }
    if 16 ≤ x.aban + 1 && !x.abanSaid then record (modChan s c fun x => { x with abanSaid := true }) 0x0608 (d1 c.val) else s

/-- Whether an island takes the drives it is sent: a coupler that is silent upstream does not hinder it (R448, R449). -/
def follows (x : ChanSt) : Bool := !(x.asleep || x.inSafe || x.starting)

/-- The island takes the drive it is sent (R17, R442). -/
def takeDrive (s : State) (c : Chan) : State :=
  let x := s.chans.get c
  if follows x then
    let s := modIsland s c fun x => { x with drvAcc := x.drv }
    if x.drv then s else releaseTrip s c
  else s

/-- The island's switch as its state gives it. -/
def settleSwitch (s : State) (c : Chan) : State := modChan s c fun x => { x with closed := switchOf x }

/-- The Parapet sends a channel's drive and enable as the state gives them, and the island acts (R17, R409). In SETUP the
value before the enable stays as it was. -/
def refreshDrive (s : State) (c : Chan) : State :=
  let x := s.chans.get c
  let en := enabled s c
  let base := valueOf s c
  let v := base && en
  let s := if v = x.drv ∧ en = x.en then s else demand s c
  let s := takeDrive (modChan s c fun x => { x with base := base, drv := v, en := en }) c
  settleSwitch s c

/-- Every channel's drive as the state gives it. -/
def refreshDrives (s : State) : State := forAll (fins 48) s refreshDrive

/-- The CHOUT forces reach the outputs: at a commit, and in SERVICE at a tide boundary (R209), from the images of the lanes that are
`present`. While a calibration's working copy is open none does (R572). -/
def applyForces (s : State) (present : LaneId → Bool) : State :=
  let held := s.ctl.state == .service && s.svc.calWork.isSome
  refreshDrives { s with chans := Vector.ofFn fun c => { s.chans.get c with force := if held then none else choutForce s present c } }

end Sys2Proof.Machine
end

