-- ==== Sys2Proof/Machine/Quay.lean ====
section
/-! DEFINITION. Quay: lock words, mover head words, reads and writes; masking at the arbiters
(15_fabric_arbitration_and_memory.md, R496 to R502; 14_corbel_bridge.md, R485). -/

namespace Sys2Proof.Machine

/-- Offset of lock word L0 (R496). -/
def lockBase : Nat := 0x7FFE80
/-- Offset of the head word of DM0 (R485). -/
def headBase : Nat := 0x7FFF00
/-- Size of Quay. -/
def quaySize : Nat := 0x800000

/-- The word a mover's head reads (R485). -/
def headWord (m : Mover) : Word := if m.busy then m.first else 0xFFFFFFFF

/-- The word at a Quay offset, a multiple of 4: general data, lock words, head words, or the reserved part (R496). -/
def quayWord (s : State) (o : Nat) : Word :=
  if o < headBase then memWord 0 s.quay o
  else if h : (o - headBase) / 4 < 8 then headWord (s.br.movers.get ⟨(o - headBase) / 4, h⟩)
  else 0

/-- The number of the lock word at an offset. -/
def lockIdx (o : Nat) : Option (Fin 32) :=
  if h : lockBase ≤ o ∧ (o - lockBase) / 4 < 32 then some ⟨(o - lockBase) / 4, h.2⟩ else none

/-- The master that starts a mover. -/
def masterOf : LockOwner → Option Master
  | .core l _ _ => some (.lane l)
  | .steward => some .steward
  | .bridge => none

def modMover (s : State) (n : Fin 8) (f : Mover → Mover) : State := { s with br := { s.br with movers := vmod s.br.movers n f } }

/-- A write to a mover's head word starts an idle mover at a multiple of 32 (R485). The bridge's inbound window never
reaches the head words (R481). -/
def writeHead (s : State) (n : Fin 8) (w : Word) (who : LockOwner) : State :=
  let m := s.br.movers.get n
  match masterOf who with
  | none => s
  | some o =>
    if m.busy || w.toNat % 32 ≠ 0 || quaySize ≤ w.toNat then s
    else
      modMover s n fun m => { m with busy := true, owner := some o, first := w, desc := BitVec.ofNat 23 w.toNat, moved := 0 }

/-- The owner of a lock word after a write (R497). -/
def newOwner (old : Option LockOwner) (w : Word) (who : LockOwner) : Option LockOwner :=
  if w = 0 then none
  else match old with
    | some o => some o
    | none => some who

/-- A write of the enabled bytes of a word in Quay (R496, R497). A full word cures a damaged code (R642). -/
def quayWrite (s : State) (o : Nat) (w : Word) (be : BitVec 4) (who : LockOwner) : State :=
  if o < headBase then
    let q := memWriteWord 0 s.quay o w be
    let s := { s with quay := q, quayDmg := if be = 0xF then dmgCure s.quayDmg o else s.quayDmg }
    match lockIdx o with
    | some i => { s with fab := { s.fab with owner := s.fab.owner.set i (newOwner (s.fab.owner.get i) (memWord 0 q o) who) } }
    | none => s
  else if h : be = 0xF ∧ (o - headBase) / 4 < 8 then writeHead s ⟨(o - headBase) / 4, h.2⟩ w who
  else s

/-- What a read of a Quay word finds in its code; lock words and data only. -/
def quayHit (s : State) (o : Nat) (r : Reader) (h : Hit) : State × Bool :=
  let a := o / 4 * 4
  if a < headBase then
    let s := { s with quayDmg := dmgMeet s.quayDmg a h }
    eccRead s .quay a r (dmgFind s.quayDmg a)
  else (s, true)

/-- `n` bytes of Quay from an offset. -/
def quayBytes (s : State) (o n : Nat) : List Byte :=
  (List.range n).map fun i => byteOf (quayWord s ((o + i) / 4 * 4)) ((o + i) % 4)

/-- The word of a byte string that lies at a Quay word address, with its byte enables; the string starts at offset `o`. -/
def spanWord (o : Nat) (b : List Byte) (wa : Nat) : Word × BitVec 4 :=
  let at_ (i : Nat) : Option Byte := if o ≤ wa + i then b[wa + i - o]? else none
  let en (i : Nat) : BitVec 4 := if (at_ i).isSome then BitVec.ofNat 4 (2 ^ i) else 0
  (leWord ((at_ 0).getD 0) ((at_ 1).getD 0) ((at_ 2).getD 0) ((at_ 3).getD 0), en 0 ||| en 1 ||| en 2 ||| en 3)

/-- Bytes written into Quay from an offset, word by word, by a mover or the bridge (R481, R494). -/
def quayWriteBytes (s : State) (o : Nat) (b : List Byte) (who : LockOwner) : State :=
  (List.range ((o % 4 + b.length + 3) / 4)).foldl (fun s i =>
    let wa := o / 4 * 4 + 4 * i
    let x := spanWord o b wa
    quayWrite s (wa % quaySize) x.1 x.2 who) s

/-- A party is masked by sideband: its lane is not in VOTING, it is in reset, or its domain is off (R502). -/
def masterMasked (s : State) : Master → Bool
  | .lane l => !isVoting s l
  | .steward => !stewardRuns s

/-- Requester `q` of an arbiter is masked (R502). -/
def masked (s : State) (q : Fin 14) : Bool :=
  if !awake s then true
  else if q.val = 0 then masterMasked s (.lane .a)
  else if q.val = 1 then masterMasked s (.lane .b)
  else if q.val = 2 then masterMasked s (.lane .c)
  else if q.val = 3 then masterMasked s .steward
  else if h : 5 ≤ q.val ∧ q.val - 5 < 8 then
    match (s.br.movers.get ⟨q.val - 5, h.2⟩).owner with
    | some m => (s.br.movers.get ⟨q.val - 5, h.2⟩).busy && masterMasked s m
    | none => false
  else false

/-- WAIT as a reader sees it: 0 for a masked requester (R502). -/
def waitOf (s : State) (a : Arbiter) (q : Fin 14) : Nat := if masked s q then 0 else (a.wait.get q).val

/-- Requester numbers of the two arbiters (R499). -/
def requester (bridge : Bool) (q : Nat) : Bool := decide (q < 14) && !(bridge && (q == 4 || q == 13))

/-- The requesters ARPRI may name: all but those fixed (R499). -/
def assigned (bridge : Bool) (q : Nat) : Bool := requester bridge q && q != 13

/-- A priority written: it acts at once and alters no WAIT (R501). -/
def setPri (s : State) (bridge : Bool) (q : Fin 14) (v : BitVec 4) : State :=
  if bridge then { s with fab := { s.fab with bridgeArb := { s.fab.bridgeArb with pri := s.fab.bridgeArb.pri.set q v } } }
  else { s with fab := { s.fab with quayArb := { s.fab.quayArb with pri := s.fab.quayArb.pri.set q v } } }

/-- Holder numbers in records: lanes 1 to 3, steward 4, bridge 5 (assumption log entry 9). -/
def ownerNo : LockOwner → Nat
  | .core l _ _ => laneNo l
  | .steward => 4
  | .bridge => 5

def masterNo : Master → Nat
  | .lane l => laneNo l
  | .steward => 4

/-- A forced release: AR_FREL and event 0x0906 with the resource, numbered in the order of R504's table, and its former
holder. -/
def forcedRelease (s : State) (resource holder : Nat) : State :=
  record { s with fab := { s.fab with frel := s.fab.frel.inc } } 0x0906 (d1 resource ++ d1 holder)

/-- A lock word of a masked owner marked broken (R498). -/
def breakLock (s : State) (i : Fin 32) : State :=
  match s.fab.owner.get i with
  | none => s
  | some o =>
    let s := { s with quay := memWriteWord 0 s.quay (lockBase + 4 * i.val) 0xFFFFFFFF 0xF,
                      fab := { s.fab with owner := s.fab.owner.set i none, qlbrk := s.fab.qlbrk ||| BitVec.ofNat 32 (2 ^ i.val) } }
    forcedRelease (record s 0x0907 (d1 i.val ++ d1 (ownerNo o))) 4 (ownerNo o)

/-- The lane of an access in records, 0 for the steward. -/
def agentLane : Agent → Nat
  | .core l _ _ => laneNo l
  | .steward => 0

/-- The point that event 0x0805 names, in the order of R477's table: 0 READ not completed, 1 READ completed, 2 WRITE in progress. -/
def lockPoint (t : OutTx) : Nat := if !t.write then 0 else if t.phase = .issued then 2 else 1

/-- The lock-abort sequence of a lane that is masked while its locked sequence holds CB_LOCK_N (R477, R504): no further beat, and the
result of a beat in progress is discarded. -/
def dropLock (s : State) (l : LaneId) : State :=
  match s.br.out, s.br.queue with
  | some t, e :: r =>
    if t.lock && decide (agentLane e.agent = laneNo l) then
      forcedRelease (record { s with br := { s.br with queue := r, out := none } } 0x0805 (d1 (laneNo l) ++ d1 (lockPoint t))) 2 (laneNo l)
    else s
  | _, _ => s

def ownerMasked (s : State) : LockOwner → Bool
  | .core l _ _ => masterMasked s (.lane l)
  | .steward => masterMasked s .steward
  | .bridge => false

/-- Every lock word of a masked owner is marked broken (R498). -/
def breakLocks (s : State) : State :=
  forAll (fins 32) s fun s i =>
    match s.fab.owner.get i with
    | some o => if ownerMasked s o then breakLock s i else s
    | none => s

/-- The arbiters after a change of masks: a masked holder's grant is taken back and masked requesters' WAIT is 0
(R502, R504). -/
def maskArbiter (s : State) (a : Arbiter) : Arbiter × Bool :=
  let wait := Vector.ofFn fun q => if masked s q then 0 else a.wait.get q
  match a.holder with
  | some h => if masked s h then ({ a with wait := wait, holder := none }, true) else ({ a with wait := wait }, false)
  | none => ({ a with wait := wait }, false)

/-- A requester as a holder in records: one more than its number (assumption log entry 9). -/
def holderNo (q : Fin 14) : Nat := q.val + 1

def maskArbiters (s : State) : State :=
  let q := maskArbiter s s.fab.quayArb
  let b := maskArbiter s s.fab.bridgeArb
  let hq := (s.fab.quayArb.holder.map holderNo).getD 0
  let hb := (s.fab.bridgeArb.holder.map holderNo).getD 0
  let s := { s with fab := { s.fab with quayArb := q.1, bridgeArb := b.1 } }
  let s := if q.2 then forcedRelease s 0 hq else s
  if b.2 then forcedRelease s 0 hb else s

/-- STATUS and CTRL of a descriptor written at its end (R486 to R488). -/
def writeStatus (s : State) (m : Mover) (err : Nat) : State :=
  let o := m.desc.toNat
  let ctrl := quayWord s o
  let who : LockOwner := match m.owner with
    | some (.lane l) => .core l 0 false
    | _ => .steward
  let s := quayWrite s (o + 16) (bit true 31 ||| put err 27 4 ||| put m.moved 0 24) 0xF who
  quayWrite s o (ctrl &&& 0x7FFFFFFF) 0xF who

/-- A mover stops its chain with an error (R488, R489). -/
def moverError (s : State) (n : Fin 8) (err : Nat) : State :=
  let m := s.br.movers.get n
  let s := writeStatus s m err
  let s := modMover s n fun m => { m with busy := false, owner := none, lastErr := BitVec.ofNat 4 err }
  record s 0x0806 (d1 n.val ++ d4 m.desc.toNat ++ d1 err)

/-- The movers of masked owners that have no transaction on the bus stop with error 0x8 (R489, R504). -/
def stopMovers (s : State) : State :=
  forAll (fins 8) s fun s n =>
    let m := s.br.movers.get n
    match m.owner with
    | some o =>
      let onBus := match s.br.out with
        | some t => t.src == .mover n && t.phase == .issued
        | none => false
      if m.busy && masterMasked s o && !onBus then moverError (forcedRelease s 5 (masterNo o)) n 8 else s
    | none => s

end Sys2Proof.Machine
end

