-- ==== Sys2Proof/Machine/Stop.lean ====
section
/-! DEFINITION. Entering STOPPED, dropping a lane, failing a rejoin
(06_cyclic_execution.md, R199; 07_lanes_voting_and_lockstep.md, R242 to R248). -/

namespace Sys2Proof.Machine

/-- Discarding the online-change requests that have not taken effect (R221). -/
def discardItem (i : OlcItem) : OlcItem := if i.outcome = .pending then { i with outcome := .discarded } else i

/-- Outcome numbers: 0 pending, 1 in effect, 2 applied, 3 masked, 4 discarded (assumption log entry 9). -/
def outcomeNo : OlcOutcome → Nat
  | .pending => 0
  | .inEffect => 1
  | .applied => 2
  | .masked => 3
  | .discarded => 4

/-- Event 0x0C07 for an item of a request (R605). -/
def recordItem (s : State) (num : Word) (i : Nat) (o : OlcOutcome) : State :=
  record s 0x0C07 (d4 num.toNat ++ d1 i ++ d1 (outcomeNo o))

/-- The named tide of a request has not yet passed. -/
def namedAhead (s : State) (r : OlcReq) : Bool := decide ((BitVec.ofNat 32 s.tide - r.tide).toNat ≥ 2 ^ 31)

/-- The requests of a kind are discarded. -/
def discardSome (s : State) (which : OlcReq → Bool) : State :=
  let gone := s.ctl.olcs.filter which
  let s := forAll gone s fun s r =>
    forAll r.items.zipIdx s fun s p => if p.1.outcome = .pending then recordItem s r.num p.2 .discarded else s
  if gone.isEmpty then s
  else
    { s with ctl := { s.ctl with
        olcs := s.ctl.olcs.filter fun r => !which r, olcDone := s.ctl.olcDone ++ gone.map fun r => { r with items := r.items.map discardItem }, olcLast := 3 } }

def discardOlcs (s : State) : State := discardSome s fun _ => true

/-- The value of a mode-request word as events hold it. -/
def wordVal (w : Option (Word × Byte)) : Nat := (w.map fun x => x.1.toNat).getD 0

/-- A request withdrawn or replaced (R297): event 0x0309. -/
def endRequest (s : State) (w : Option (Word × Byte)) : State :=
  let m := s.net.mode
  record { s with net := { s.net with mode := { m with req := false, rq := 0, go := false, echo := 0, rtide := 0, lastout := 3, heard := [] } } }
    0x0309 (d1 m.rq.toNat ++ d4 (wordVal w))

/-- Leaving RUN withdraws any mode request (R297). -/
def withdrawMode (s : State) : State := if s.net.mode.req then endRequest s s.net.mode.word else s

/-- A task without an activation. -/
def endTask (t : TaskRun) : TaskRun := { t with phase := .idle, exc := none, sigs := [], lifted := none, cycles := 0 }

def endTasks (x : LaneSt) : LaneSt :=
  { x with pairs := x.pairs.map fun p => { p with tasks := p.tasks.map endTask, active := none } }

/-- The releases of a pair's tasks when RUN is left: no activation is under way and none has committed. -/
def endRels (v : Vector Rel 16) : Vector Rel 16 := v.map fun r => { r with live := false, committed := false }

/-- STOPCAUSE of an entry into STOPPED that is not a program fault (R89). -/
def stopOther : Word := 0x80000000

/-- The rejoin in progress comes to its end. -/
def clearRejoin (s : State) : State :=
  { s with rejoin := { s.rejoin with lane := none, src := none, phase := .none, matched := 0 } }

/-- A retain cycle abandoned (R226): MARK of the buffer under way stays 0x00. -/
def abandonRetain (s : State) : State :=
  { s with ctl := { s.ctl with retain := { s.ctl.retain with busy := false, full := false, src := none, caps := [] } } }

/-- A lane that leaves the vote: registers and banks gone, its memory scrubbed to zero, its self-test begun (R242, R258).
Hard faults of its memory stay. -/
def resetLaneSt (x : LaneSt) (st : LaneState) : LaneSt :=
  { x with pairs := Vector.replicate 8 resetPair, st := st, selfTest := none, chBad := false, egBad := false, sig := none,
           sram := [], dmg := x.dmg.filter fun p => match p.2 with | .hard _ => true | _ => false }

/-- The posting queue after a drop: the entries of the lane stay and are marked (R475). -/
def orphanQueue (s : State) (l : LaneId) : State :=
  let mine (e : Posted) : Bool := match e.agent with | .core l' _ _ => l' == l | .steward => false
  if s.br.queue.any mine then
    forcedRelease { s with br := { s.br with queue := s.br.queue.map fun e => if mine e then { e with orphan := true } else e } }
      6 (laneNo l)
  else s

/-- What a lane held is taken back: grants, CB_LOCK_N, lock words, mover chains, queue entries; its accesses that
stall on a wake are withdrawn, and its retain cycle is abandoned (R242, R504, R532, R226). -/
def releaseHoldings (s : State) (l : LaneId) : State :=
  let s := maskArbiters s
  let s := dropLock s l
  let s := stopMovers s
  let s := breakLocks s
  let s := withdrawStalled (orphanQueue s l) l
  if s.ctl.retain.busy && s.ctl.retain.src == some l then abandonRetain s else s

/-- The lane is reset in its new state, SV_DROP holds the cause, and what it held is taken back (R242). -/
def leaveVote (s : State) (l : LaneId) (st : LaneState) (cause : Nat) (p : Nat) (t : Nat) : State :=
  let up := s.up
  let s := modLane s l fun x =>
    { resetLaneSt x st with cause := BitVec.ofNat 8 cause, dropPair := BitVec.ofNat 4 p, dropTask := BitVec.ofNat 4 t,
                            fellAt := some up, uncounted := cause == 0x09 }
  releaseHoldings s l

/-- Event 0x0201 (R264). -/
def recordDrop (s : State) (l : LaneId) (cause p t : Nat) : State :=
  record s 0x0201 (d1 (laneNo l) ++ d1 cause ++ d1 p ++ d1 t)

/-- Phase numbers of SV_LANE.PHASE (R247). -/
def phaseNo : RejoinPhase → Nat
  | .none => 0
  | .copy => 2
  | .wait => 3
  | .shadow => 4

/-- A rejoin fails: the lane returns to DROPPED with a cause (R248). -/
def rejoinFail (s : State) (cause : Nat) : State :=
  match s.rejoin.lane with
  | none => s
  | some l =>
    let ph := phaseNo s.rejoin.phase
    let s := clearRejoin s
    let s := record s 0x0204 (d1 (laneNo l) ++ d1 ph)
    leaveVote s l .dropped cause 0 0

/-- Entry into STOPPED (R89, R199, R221, R248, R297). `pf` is STOPCAUSE and STOPPC of a program fault. The MRAM keeps copies
of both registers. -/
def enterStopped (s : State) (pf : Option (Word × Word)) : State :=
  let cause := match pf with | some f => f.1 | none => stopOther
  let pc := match pf with | some f => f.2 | none => s.ctl.stoppc
  let wasRun := s.ctl.state == .run
  let s := setCtl s .stopped
  let s := { s with ctl := { s.ctl with
      stopcause := cause, stoppc := pc, pendStop := none,
      retain := { s.ctl.retain with stopcause := cause, stoppc := pc },
      rel := s.ctl.rel.map endRels } }
  let s := { s with lanes := s.lanes.map fun _ x => endTasks x }
  let s := if wasRun then rejoinFail s 0x0A else s
  let s := { s with rejoin := { s.rejoin with withheld := false } }
  let s := withdrawMode (discardOlcs s)
  refreshDrives s

/-- Fewer than two lanes vote, and the module is not strapped for one (R227, R243). -/
def tooFew (s : State) : Bool :=
  let n := (voters s).length
  if benchMode s then n == 0 else decide (n < 2)

/-- In RUN with too few lanes the controller enters STOPPED at once (R227, R243). -/
def checkVoters (s : State) : State := if s.ctl.state == .run && tooFew s then enterStopped s none else s

/-- A lane has dropped at this very instant. -/
def fellNow (s : State) (l : LaneId) : Bool := (lane s l).fellAt == some s.up

/-- A further drop cause at the instant of a drop: SV_DROP holds the lowest code (R243). -/
def lowerCause (s : State) (l : LaneId) (cause p t : Nat) : State :=
  if fellNow s l && decide (cause < (lane s l).cause.toNat) then
    modLane s l fun x => { x with cause := BitVec.ofNat 8 cause, dropPair := BitVec.ofNat 4 p, dropTask := BitVec.ofNat 4 t }
  else s

/-- A lane in VOTING drops (R242, R243); a rejoin whose source it was fails (R248). -/
def dropLane (s : State) (l : LaneId) (cause p t : Nat) : State :=
  if isVoting s l then
    let src := s.rejoin.src == some l
    let s := leaveVote (recordDrop s l cause p t) l .dropped cause p t
    let s := if src then rejoinFail s 0x0A else s
    checkVoters s
  else lowerCause s l cause p t

/-- A lane that fails in lockstep: it drops, or its rejoin fails (R248, R252, R253). -/
def laneFails (s : State) (l : LaneId) (cause p t : Nat) : State :=
  if s.rejoin.lane == some l && (lane s l).st == .rejoining then rejoinFail s 0x0A else dropLane s l cause p t

end Sys2Proof.Machine
end

