-- ==== Sys2Proof/Machine/Panel.lean ====
section
/-! DEFINITION. The front-panel LEDs, and the windows and states that registers show
(20_connectors_straps_ratings.md, R631 to R633; 06_cyclic_execution.md, R207, R216). -/

namespace Sys2Proof.Machine

/-- An LED that flashes: its half-period in ns. The phase is a free value (assumption log entry 12). -/
def flash (s : State) (half : Nat) : Bool := Config.ledLit half s.up

/-- The RUN LED (R631). -/
def ledRun (s : State) : Bool :=
  match s.ctl.state with
  | .run => true
  | .setup => flash s 250000000
  | .stopped => flash s 1000000000
  | .service => flash s 62500000
  | .cold => false

/-- The LED of a lane (07, Lane states; R260). -/
def ledLane (s : State) (l : LaneId) : Bool :=
  let x := lane s l
  if x.dbg then flash s 62500000
  else
    match x.st with
    | .absent => false
    | .booting => flash s 250000000
    | .voting => true
    | .dropped => flash s 1000000000
    | .rejoining => flash s 250000000
    | .halted => false

/-- The FORCE LED (R216): an entry whose effect tide has passed stands in the table. -/
def ledForce (s : State) : Bool := s.ctl.forces.any (inForce s)

/-- Which feeds the installation uses (R524). -/
def feedUsed (s : State) : FeedId → Bool
  | .feedA => s.pw.pref != 3
  | .feedB => s.pw.pref != 2

def feedOf (s : State) : FeedId → FeedSt
  | .feedA => s.pw.feedA
  | .feedB => s.pw.feedB

/-- Whether a feed is the standby feed: used, in limits, and not active (R521 to R524). -/
def isStandby (s : State) (f : FeedId) : Bool := feedUsed s f && (feedOf s f).inLim && s.pw.active != some f

/-- A feed's LED (R529). -/
def ledFeed (s : State) (f : FeedId) : Bool :=
  if s.pw.active = some f then true else if isStandby s f then flash s 1000000000 else false

/-- Whether a side is CROSS. -/
def isCross (x : SideSt) : Bool := x == .crossA || x == .crossB

/-- The NET LED (R631). -/
def ledNet (s : State) : Bool :=
  let cross := isCross s.ring.sideF || isCross s.ring.sideR
  if s.ring.st = .joining || cross then flash s 250000000 else s.ring.slot != 0

/-- The FAULT LED (R631). -/
def ledFault (s : State) : Bool :=
  (laneList.any fun l => (lane s l).st == .halted) || s.para.pfault || s.pw.refflt || s.boot.romSvc || !s.pw.straps.ftestN

/-- The LEDs without an LED test, in the bit order of PM_LED; NEAP and OFF leave every LED dark but for the button's 3 s. -/
def ledsOwn (s : State) : BitVec 9 :=
  if !awake s then 0
  else if s.up < s.pw.litUntil then BitVec.allOnes 9
  else
    let b (x : Bool) (i : Nat) : BitVec 9 := if x then BitVec.ofNat 9 (2 ^ i) else 0
    b (ledRun s) 0 ||| b (ledLane s .a) 1 ||| b (ledLane s .b) 2 ||| b (ledLane s .c) 3 ||| b (ledForce s) 4 |||
      b (ledFeed s .feedA) 5 ||| b (ledFeed s .feedB) 6 ||| b (ledNet s) 7 ||| b (ledFault s) 8

/-- The LEDs as they show: an LED test overrides every LED (R631). -/
def leds (s : State) : BitVec 9 := if s.pw.ledTest then s.pw.pattern else ledsOwn s

/-- The fault relay is energised in RUN while FAULT is dark by its own causes: an LED test does not move it (R632). -/
def faultRelay (s : State) : Bool := awake s && s.ctl.state == .run && !ledFault s

/-- PM_STRAP (R627). -/
def strapWord (x : Straps) (chg unstable : Bool) : Word :=
  put x.slot.toNat 27 5 ||| put x.vtype.toNat 23 4 ||| put x.lmode.toNat 21 2 ||| put x.cbrole.toNat 19 2 |||
    put x.bootsel.toNat 17 2 ||| put x.feedcfg.toNat 15 2 ||| bit x.outdef 14 ||| bit x.ftestN 13 ||| bit chg 12 ||| bit unstable 11

/-- A retain buffer is usable for a set-up digest (R207). -/
def bufUsable (b : RetBuf) (dig : BitVec 64) : Bool := b.mark == 0xC3 && !b.bad && b.digest == dig

/-- The digest of the set-up in force. -/
def curDigest (s : State) : BitVec 64 := (s.adm.cur.map (·.digest)).getD 0

/-- The buffer of the later usable GEN (R207): false for buffer 0. -/
def latestBuf (s : State) : Option Bool :=
  let r := s.ctl.retain
  match bufUsable r.buf0 (curDigest s), bufUsable r.buf1 (curDigest s) with
  | true, true => some (later r.buf1.gen r.buf0.gen)
  | true, false => some false
  | false, true => some true
  | false, false => none

/-- GEN of the latest committed buffer, of whatever set-up; 0 where none is committed (SV_RETGEN). -/
def committedGen (r : Retain) : Word :=
  let ok (b : RetBuf) : Bool := b.mark == 0xC3 && !b.bad
  match ok r.buf0, ok r.buf1 with
  | true, true => if later r.buf1.gen r.buf0.gen then r.buf1.gen else r.buf0.gen
  | true, false => r.buf0.gen
  | false, true => r.buf1.gen
  | false, false => 0

/-- The journal copy in force (R595). -/
def journalOf (s : State) : Journal :=
  match s.boot.copy0, s.boot.copy1 with
  | some a, some b => if later b.gen a.gen then b else a
  | some a, none => a
  | none, some b => b
  | none, none => freshJournal

/-- The rejoins counted in the current window (R246). -/
def rejoinUsed (s : State) : Nat :=
  (s.rejoin.starts.filter fun t => decide (s.pw.opsec.toNat < t + s.rejoin.window.toNat * 3600)).length

/-- The rack slot in effect (R468): POLICY RACKSLOT before the strap. -/
def rackSlot (s : State) : Nat := ((policy s).rackslot).getD s.pw.straps.slot.toNat

/-- The 62.5 ns ticks of the Parapet's logic clock since power-on (R412). -/
def logicNow (s : State) : Nat := s.up * 16 / 1000

/-- The longer of period and elapsed time of a tacho channel, in logic clocks, for a function that started at `start`: both
rising edges count as taken at the start until later ones come (R412, R416). -/
def tachoAge (s : State) (start : Nat) (x : TachoCh) : Nat :=
  let rise := max start (x.rise.getD start)
  let before := max start (rise - x.period.getD rise)
  max 1 (max (logicNow s - rise) (rise - before))

/-- Speed f in 0.01 Hz for a function that started at `start` (R412). -/
def speed (s : State) (start : Nat) : Nat :=
  max (1600000000 / tachoAge s start s.para.cha) (1600000000 / tachoAge s start s.para.chb)

/-- Since when no edge has come on either channel, for a function that started at `start`. -/
def quietFrom (s : State) (start : Nat) : Nat := max start (s.para.lastEdge.getD start)

/-- Quiet time q in logic clocks (R412). -/
def quietClocks (s : State) (start : Nat) : Nat := logicNow s - quietFrom s start

/-- SF_FVAL (R427): it reads the measured value of its function. -/
def funcValue (s : State) (f : Fin 4) : Word :=
  let start := (s.para.funcs.get f).start
  if f.val = 0 then BitVec.ofNat 32 (min (speed s start) 0xFFFFFFFF)
  else if f.val = 1 then s.para.rev
  else if f.val = 2 then s.para.pos - s.para.pref
  else BitVec.ofNat 32 (min (quietClocks s start / 16000) 0xFFFFFFFF)

/-- The side that faces the master (R333): before a good beacon an END side. -/
def inwardOf (s : State) : SideId :=
  match s.ring.inward with
  | some x => x
  | none => if s.ring.sideF = .end_ then .f else if s.ring.sideR = .end_ then .r else .f

def otherSide : SideId → SideId
  | .f => .r
  | .r => .f

def sideOf (s : State) : SideId → SideSt
  | .f => s.ring.sideF
  | .r => s.ring.sideR

def sideNo : SideSt → Nat
  | .linked => 0
  | .crossA => 1
  | .crossB => 2
  | .end_ => 3

end Sys2Proof.Machine
end

