-- ==== Sys2Proof/Types/Reg.lean ====
section
/-! DEFINITION. The names of the device registers (R34 and the register tables of the chapters). -/

namespace Sys2Proof

/-- Every register of the module. Per-port sets are those of ports 0 to 35 (R310, R356), per-connection sets those of R405. -/
inductive Reg where
  | lnParam
  | ksMode | ksRing | ksRepoch | ksRmuidh | ksRmuidl | ksRmerge | ksRheal | ksRbmiss | ksRclaim | ksRovf
  | ksPstat (p : Port) | ksPviol (p : Port) | ksPpolice (p : Port) | ksPiso (p : Port) | ksPmiss (p : Port) | ksPrej (p : Port)
  | ksPovf (p : Port) | ksPmach (p : Port) | ksPmacl (p : Port)
  | ksAstat (n : Fin 128) | ksAid (n : Fin 128) | ksAseq (n : Fin 128) | ksAdly (n : Fin 128) | ksAerr (n : Fin 128)
  | ksAresync (n : Fin 128) | ksAovf (n : Fin 128)
  | tiStat | tiSech | tiSecl | tiNs | tiOfs1 | tiOfs2 | tiSyncmiss | tiPtprej | tiOvf
  | ioFlt0 | ioFlt1
  | ioCstat (c : Chan) | ioCfault (c : Chan) | ioCtfail (c : Chan) | ioCtaban (c : Chan) | ioCwet (c : Chan) | ioCcnt (c : Chan)
  | ioCovf (c : Chan)
  | sfStat | sfShw (f : Fin 4) (i : Fin 6) | sfFval (f : Fin 4) | sfTrip (f : Fin 4) | sfOvf (f : Fin 4) | sfAcw (f : Fin 4) (i : Fin 6)
  | brStat | brWbase | brIwin | brInt | brBackoff | brRetry | brPwlost | brInerr | brArbidle | brOvf
  | brDmstat (n : Fin 8) | brPwla (e : Fin 16) | brPwli (e : Fin 16) | brPwld (e : Fin 16)
  | pmStrap | pmLed | pmStat | pmFeed | pmTemp | pmReflast | pmNref (n : Fin 7) | pmSwcnt | pmHoldcnt | pmOvf | pmWake
  | rcStat | rcNext | rcOldest | rcSupp | rcFlost | rcTorn | rcOvf
  | arPri (bridge : Bool) (q : Fin 14) | arStat (bridge : Bool) | arQlbrk | arFrel | arOvf
  | ecCorr (m : MemId) | ecUnc (m : MemId) | ecTlost (m : MemId) | ecOvf (m : MemId) | ecUaddr (m : MemId)
  | ecTaddr (m : MemId) (e : Fin 16) | ecTent (m : MemId) (e : Fin 16)
  | btStat | btFwver | btAppver | btSvn | btKeys | btUidh | btUidl | btChkfail | btOvf
  | svAdmit | svCtrl | svForce | svOlc | svRetain | svRetgen | svLane | svDrop (l : LaneId) | svRejoin
  | svEgmin (l : LaneId) | svChmin (l : LaneId) | svEgabort | svVoteovf | svSvc | svSesscnt | svAuthfail | svMacfail | svSvcrej
  | svArpdrop | svSvcovf
  deriving DecidableEq, Repr

/-- The ranges of the lane address map (R30), with the offset of an address in its range; a register block keeps the whole
address. -/
inductive Region where
  | bank (off : Nat)
  | common (off : Nat)
  | quay (off : Nat)
  | ln (off : Nat)
  | block (off : Nat)
  | corbel (off : Nat)
  deriving DecidableEq, Repr

end Sys2Proof
end

