-- ==== Sys2Proof/Machine/RegMap.lean ====
section
/-! DEFINITION. Where the registers lie (R30, R34, and the offsets of the register tables). -/

namespace Sys2Proof.Machine

/-- The range of R30 that holds an address, and the offset in it. -/
def regionOf (a : Nat) : Option Region :=
  if a < 0x200000 then some (.bank a)
  else if 0x1000000 ≤ a ∧ a < 0x1800000 then some (.common (a - 0x1000000))
  else if 0x20000000 ≤ a ∧ a < 0x20800000 then some (.quay (a - 0x20000000))
  else if 0x40000000 ≤ a ∧ a < 0x41000000 then some (.ln (a - 0x40000000))
  else if 0x41000000 ≤ a ∧ a < 0x4A000000 then some (.block a)
  else if 0x80000000 ≤ a ∧ a < 0xC0000000 then some (.corbel (a - 0x80000000))
  else none

/-- A Keystone register of a port (R310, R356). -/
def ksPortReg (p : Port) (o : Nat) : Option Reg :=
  if o = 0 then some (.ksPstat p) else if o = 4 then some (.ksPviol p) else if o = 8 then some (.ksPpolice p)
  else if o = 0xC then some (.ksPiso p) else if o = 0x10 then some (.ksPmiss p) else if o = 0x14 then some (.ksPrej p)
  else if o = 0x18 then some (.ksPovf p) else if o = 0x1C then some (.ksPmach p) else if o = 0x20 then some (.ksPmacl p) else none

/-- A register of a connection (R405). -/
def ksConnReg (n : Fin 128) (o : Nat) : Option Reg :=
  if o = 0 then some (.ksAstat n) else if o = 4 then some (.ksAid n) else if o = 8 then some (.ksAseq n)
  else if o = 0xC then some (.ksAdly n) else if o = 0x10 then some (.ksAerr n) else if o = 0x14 then some (.ksAresync n)
  else if o = 0x18 then some (.ksAovf n) else none

def ksReg (o : Nat) : Option Reg :=
  if o = 0x100 then some .ksMode
  else if o = 0x200 then some .ksRing else if o = 0x204 then some .ksRepoch else if o = 0x208 then some .ksRmuidh
  else if o = 0x20C then some .ksRmuidl else if o = 0x210 then some .ksRmerge else if o = 0x214 then some .ksRheal
  else if o = 0x218 then some .ksRbmiss else if o = 0x21C then some .ksRclaim else if o = 0x220 then some .ksRovf
  else if h : 0x10000 ≤ o ∧ (o - 0x10000) / 0x40 < 36 then
    ksPortReg ⟨(o - 0x10000) / 0x40, Nat.lt_trans h.2 (by decide)⟩ ((o - 0x10000) % 0x40)
  else if h : 0x20000 ≤ o ∧ (o - 0x20000) / 0x20 < 128 then ksConnReg ⟨(o - 0x20000) / 0x20, h.2⟩ ((o - 0x20000) % 0x20)
  else none

def tiReg (o : Nat) : Option Reg :=
  if o = 0 then some .tiStat else if o = 4 then some .tiSech else if o = 8 then some .tiSecl else if o = 0xC then some .tiNs
  else if o = 0x10 then some .tiOfs1 else if o = 0x14 then some .tiOfs2 else if o = 0x18 then some .tiSyncmiss
  else if o = 0x1C then some .tiPtprej else if o = 0x20 then some .tiOvf else none

def ioChanReg (c : Chan) (o : Nat) : Option Reg :=
  if o = 0 then some (.ioCstat c) else if o = 4 then some (.ioCfault c) else if o = 8 then some (.ioCtfail c)
  else if o = 0xC then some (.ioCtaban c) else if o = 0x10 then some (.ioCwet c) else if o = 0x14 then some (.ioCcnt c)
  else if o = 0x18 then some (.ioCovf c) else none

def ioReg (o : Nat) : Option Reg :=
  if o = 0 then some .ioFlt0 else if o = 4 then some .ioFlt1
  else if h : 0x10000 ≤ o ∧ (o - 0x10000) / 0x20 < 48 then ioChanReg ⟨(o - 0x10000) / 0x20, h.2⟩ ((o - 0x10000) % 0x20)
  else none

def sfFuncReg (f : Fin 4) (o : Nat) : Option Reg :=
  if h : o % 4 = 0 ∧ o / 4 < 6 then some (.sfShw f ⟨o / 4, h.2⟩)
  else if o = 0x18 then some (.sfFval f) else if o = 0x1C then some (.sfTrip f) else if o = 0x20 then some (.sfOvf f)
  else if h : o % 4 = 0 ∧ 0x24 ≤ o ∧ (o - 0x24) / 4 < 6 then some (.sfAcw f ⟨(o - 0x24) / 4, h.2.2⟩)
  else none

def sfReg (o : Nat) : Option Reg :=
  if o = 0 then some .sfStat
  else if h : 0x100 ≤ o ∧ (o - 0x100) / 0x40 < 4 then sfFuncReg ⟨(o - 0x100) / 0x40, h.2⟩ ((o - 0x100) % 0x40)
  else none

def brReg (o : Nat) : Option Reg :=
  if o = 0 then some .brStat else if o = 4 then some .brWbase else if o = 8 then some .brIwin else if o = 0xC then some .brInt
  else if o = 0x10 then some .brBackoff else if o = 0x14 then some .brRetry else if o = 0x18 then some .brPwlost
  else if o = 0x1C then some .brInerr else if o = 0x20 then some .brArbidle else if o = 0x24 then some .brOvf
  else if h : o % 4 = 0 ∧ 0x40 ≤ o ∧ (o - 0x40) / 4 < 8 then some (.brDmstat ⟨(o - 0x40) / 4, h.2.2⟩)
  else if h : 0x100 ≤ o ∧ (o - 0x100) / 16 < 16 then
    let e : Fin 16 := ⟨(o - 0x100) / 16, h.2⟩
    if (o - 0x100) % 16 = 0 then some (.brPwla e) else if (o - 0x100) % 16 = 4 then some (.brPwli e)
    else if (o - 0x100) % 16 = 8 then some (.brPwld e) else none
  else none

def pmReg (o : Nat) : Option Reg :=
  if o = 0 then some .pmStrap else if o = 4 then some .pmLed else if o = 0x10 then some .pmStat else if o = 0x14 then some .pmFeed
  else if o = 0x18 then some .pmTemp else if o = 0x20 then some .pmReflast
  else if h : o % 4 = 0 ∧ 0x24 ≤ o ∧ (o - 0x24) / 4 < 7 then some (.pmNref ⟨(o - 0x24) / 4, h.2.2⟩)
  else if o = 0x40 then some .pmSwcnt else if o = 0x44 then some .pmHoldcnt else if o = 0x48 then some .pmOvf
  else if o = 0x4C then some .pmWake else none

def rcReg (o : Nat) : Option Reg :=
  if o = 0 then some .rcStat else if o = 4 then some .rcNext else if o = 8 then some .rcOldest else if o = 0xC then some .rcSupp
  else if o = 0x10 then some .rcFlost else if o = 0x14 then some .rcTorn else if o = 0x18 then some .rcOvf else none

def arReg (o : Nat) : Option Reg :=
  if h : o % 4 = 0 ∧ o / 4 < 14 then some (.arPri false ⟨o / 4, h.2⟩)
  else if h : o % 4 = 0 ∧ 0x40 ≤ o ∧ (o - 0x40) / 4 < 14 then
    if requester true ((o - 0x40) / 4) then some (.arPri true ⟨(o - 0x40) / 4, h.2.2⟩) else none
  else if o = 0x80 then some (.arStat false) else if o = 0x84 then some (.arStat true)
  else if o = 0x100 then some .arQlbrk else if o = 0x104 then some .arFrel else if o = 0x108 then some .arOvf else none

/-- The memory of a number of the EC_ block (R517). -/
def memOf (n : Nat) : Option MemId :=
  if n = 0 then some (.lane .a) else if n = 1 then some (.lane .b) else if n = 2 then some (.lane .c)
  else if n = 3 then some .quay else if n = 4 then some .mram else if n = 5 then some .f1 else if n = 6 then some .f2 else none

def ecReg (o : Nat) : Option Reg :=
  match memOf (o / 0x100) with
  | none => none
  | some m =>
    let i := o % 0x100
    if i = 0 then some (.ecCorr m) else if i = 4 then some (.ecUnc m) else if i = 8 then some (.ecTlost m)
    else if i = 0xC then some (.ecOvf m)
    else if !hasTable m then none
    else if i = 0x10 then some (.ecUaddr m)
    else if h : 0x40 ≤ i ∧ (i - 0x40) / 8 < 16 then
      if i % 8 = 0 then some (.ecTaddr m ⟨(i - 0x40) / 8, h.2⟩)
      else if i % 8 = 4 then some (.ecTent m ⟨(i - 0x40) / 8, h.2⟩) else none
    else none

def btReg (o : Nat) : Option Reg :=
  if o = 0 then some .btStat else if o = 4 then some .btFwver else if o = 8 then some .btAppver else if o = 0xC then some .btSvn
  else if o = 0x10 then some .btKeys else if o = 0x14 then some .btUidh else if o = 0x18 then some .btUidl
  else if o = 0x1C then some .btChkfail else if o = 0x20 then some .btOvf else none

def svReg (o : Nat) : Option Reg :=
  if o = 0x40 then some .svAdmit else if o = 0x44 then some .svCtrl else if o = 0x48 then some .svForce
  else if o = 0x4C then some .svOlc else if o = 0x50 then some .svRetain else if o = 0x54 then some .svRetgen
  else if o = 0x60 then some .svLane else if o = 0x64 then some (.svDrop .a) else if o = 0x68 then some (.svDrop .b)
  else if o = 0x6C then some (.svDrop .c) else if o = 0x70 then some .svRejoin
  else if o = 0x80 then some (.svEgmin .a) else if o = 0x84 then some (.svEgmin .b) else if o = 0x88 then some (.svEgmin .c)
  else if o = 0x8C then some (.svChmin .a) else if o = 0x90 then some (.svChmin .b) else if o = 0x94 then some (.svChmin .c)
  else if o = 0x98 then some .svEgabort else if o = 0x9C then some .svVoteovf
  else if o = 0xA0 then some .svSvc else if o = 0xA4 then some .svSesscnt else if o = 0xA8 then some .svAuthfail
  else if o = 0xAC then some .svMacfail else if o = 0xB0 then some .svSvcrej else if o = 0xB4 then some .svArpdrop
  else if o = 0xB8 then some .svSvcovf else none

/-- The register at an address, a multiple of 4 (R34, R37). -/
def regAt (a : Nat) : Option Reg :=
  if a = 0x40000000 then some .lnParam
  else if 0x41000000 ≤ a ∧ a < 0x42000000 then ksReg (a - 0x41000000)
  else if 0x42000000 ≤ a ∧ a < 0x43000000 then tiReg (a - 0x42000000)
  else if 0x43000000 ≤ a ∧ a < 0x43800000 then ioReg (a - 0x43000000)
  else if 0x43800000 ≤ a ∧ a < 0x44000000 then sfReg (a - 0x43800000)
  else if 0x44000000 ≤ a ∧ a < 0x45000000 then brReg (a - 0x44000000)
  else if 0x45000000 ≤ a ∧ a < 0x46000000 then pmReg (a - 0x45000000)
  else if 0x46000000 ≤ a ∧ a < 0x47000000 then rcReg (a - 0x46000000)
  else if 0x47000000 ≤ a ∧ a < 0x47800000 then arReg (a - 0x47000000)
  else if 0x47800000 ≤ a ∧ a < 0x48000000 then ecReg (a - 0x47800000)
  else if 0x48000000 ≤ a ∧ a < 0x49000000 then btReg (a - 0x48000000)
  else if 0x49000000 ≤ a ∧ a < 0x4A000000 then svReg (a - 0x49000000)
  else none

/-- The domain whose clock an access to an address needs (R530). The sleepable interfaces are numbered 0 to 8 for KS_, TI_,
IO_, SF_, BR_, RC_, AR_, EC_, SV_. -/
def domainOf (l : LaneId) (a : Nat) : Option SlackDom :=
  if 0x1000000 ≤ a ∧ a < 0x1800000 then some (.common l)
  else if 0x41000000 ≤ a ∧ a < 0x42000000 then some (.regs 0)
  else if 0x42000000 ≤ a ∧ a < 0x43000000 then some (.regs 1)
  else if 0x43000000 ≤ a ∧ a < 0x43800000 then some (.regs 2)
  else if 0x43800000 ≤ a ∧ a < 0x44000000 then some (.regs 3)
  else if 0x44000000 ≤ a ∧ a < 0x45000000 then some (.regs 4)
  else if 0x46000000 ≤ a ∧ a < 0x47000000 then some (.regs 5)
  else if 0x47000000 ≤ a ∧ a < 0x47800000 then some (.regs 6)
  else if 0x47800000 ≤ a ∧ a < 0x48000000 then some (.regs 7)
  else if 0x49000000 ≤ a ∧ a < 0x4A000000 then some (.regs 8)
  else if 0x48000000 ≤ a ∧ a < 0x49000000 then some .bt
  else none

/-- An access of the steward wakes the domain it reaches, and the steward waits for it (R35). -/
def wakeFor (s : State) (l : LaneId) (a : Nat) : State :=
  match domainOf l a with
  | some d => wake s d
  | none => s

end Sys2Proof.Machine
end

