-- ==== Sys2Proof/Machine/Regs.lean ====
section
/-! DEFINITION. What the device registers read and what a write to them does (the register tables of every chapter). -/

namespace Sys2Proof.Machine

/-- LN_PARAM of the SH4832 (R43). -/
def lnParamWord : Word := 0x30208281

def laneStNo : LaneState → Nat
  | .absent => 0
  | .booting => 1
  | .voting => 2
  | .dropped => 3
  | .rejoining => 4
  | .halted => 5

def ringStNo : RingState → Nat
  | .alone => 0
  | .joining => 1
  | .member => 2
  | .master => 3
  | .hold => 4

def guardNo : Guard → Nat
  | .admitted => 0
  | .isolated => 1
  | .probation => 2

/-- KS_PSTAT (R310, R356). -/
def pstatWord (s : State) (p : Port) : Word :=
  let x := port s p
  let common := bit x.link 31 ||| put x.speed.toNat 29 2 ||| bit x.lead 28 ||| bit x.derated 27 |||
    put (if x.link then x.sqi.toNat else 0) 13 3
  if p.val < 32 then
    common ||| put (guardNo x.guard) 25 2 ||| put x.lastv.toNat 21 4 ||| bit x.mac.isSome 20 ||| put x.exp 16 4
  else common

/-- The learned address of a port; 0 when none is held. -/
def pmac (s : State) (p : Port) : List Byte := if p.val < 32 then (port s p).mac.getD [] else []

def connDecl (s : State) (n : Fin 128) : Option ConnDecl := (setup s).conns[n.val]?

def resetAsh : AshSt :=
  { st := .noref, seq := 0, time := 0, code1 := 0, d := 0, lastErr := 0, err := Stat.zero, resync := Stat.zero }

def conn (s : State) (n : Fin 128) : AshSt := s.net.conns.getD n.val resetAsh

def ashNo : AshState → Nat
  | .noref => 1
  | .up => 2
  | .lapsed => 3

def ofsWord (o : Option Int) : Word :=
  match o with
  | none => 0x80000000
  | some x => BitVec.ofInt 32 (max (-0x7FFFFFFF) (min 0x7FFFFFFF x))

def actNo : ActDom → Nat
  | .none => 0
  | .first => 1
  | .second => 2

def kindNo : ChanKind → Nat
  | .input => 0
  | .output => 1
  | .counter => 2
  | .wake => 3

def testNo : TestKind → Nat
  | .idle => 0
  | .dark => 1
  | .light => 2
  | .localise => 3

/-- IO_CSTAT (R457). -/
def cstatWord (s : State) (c : Chan) : Word :=
  let x := s.chans.get c
  let k := chanKind s c
  let ist := if k.isNone then 0 else if x.silent then 3 else if x.asleep then 4 else if x.inSafe then 2 else 1
  let wet := match k with
    | some .input => x.iw
    | some .wake => x.iw
    | _ => 0
  put ((k.map kindNo).getD 0) 30 2 ||| put ist 27 3 ||| bit x.fbit 26 ||| put (classNo (shownClass x)) 22 4 |||
    bit (if k = some .output then readback x else x.acc) 21 ||| bit x.drv 20 ||| bit x.en 19 ||| put (testNo x.test) 17 2 |||
    put wet 13 4

/-- IO_FLT0 and IO_FLT1: the channels from `base` whose class is not NONE. -/
def fltWord (s : State) (base : Nat) : Word :=
  ((fins 48).map fun c =>
    if base ≤ c.val ∧ c.val < base + 32 ∧ shownClass (s.chans.get c) ≠ .none then bit true (c.val - base) else 0).foldl (· ||| ·) 0

def paraCauseNo : ParaCause → Nat
  | .none => 0
  | .rail => 1
  | .limitCrc => 2
  | .comparator => 3
  | .tachoBoth => 4
  | .tachoOne => 5

/-- SF_STAT (R427). -/
def sfStatWord (s : State) : Word :=
  let each (g : FuncSt → Bool) (lo : Nat) : Word :=
    ((fins 4).map fun f => bit (g (s.para.funcs.get f)) (lo + f.val)).foldl (· ||| ·) 0
  bit s.para.pfault 31 ||| bit s.para.tfault 30 ||| each (·.decl) 26 ||| each (fun f => f.decl && f.en) 22 |||
    put (paraCauseNo s.para.cause) 19 3

/-- Whether the rack arbiter runs (R459, R468). -/
def rackArbiter (s : State) : Bool := awake s && s.pw.straps.cbrole == 2 && !s.br.rstLow

/-- BR_STAT (R491). -/
def brStatWord (s : State) : Word :=
  put s.pw.straps.cbrole.toNat 30 2 ||| bit s.br.mt 29 ||| bit (rackArbiter s) 28 |||
    bit ((s.br.out.map (·.lock)).getD false) 27 ||| bit s.br.locki.isSome 26 ||| put s.br.queue.length 21 5 |||
    put (rackSlot s) 16 5 ||| put (s.br.intl &&& Config.intLevel s.up).toNat 0 4

/-- BR_DMSTAT (R491). -/
def dmWord (m : Mover) : Word :=
  let own := match m.owner with
    | some o => masterNo o
    | none => 0
  bit m.busy 31 ||| put own 28 3 ||| put m.lastErr.toNat 23 4 ||| put m.desc.toNat 0 23

def pwliWord (e : PwEntry) : Word :=
  bit e.valid 31 ||| put e.kind.toNat 28 3 ||| put e.lane.toNat 26 2 ||| put e.pair.toNat 22 4 ||| bit e.core 21 |||
    put e.win.toNat 17 4 ||| put e.pseq.toNat 0 16

def feedNo : Option FeedId → Nat
  | none => 0
  | some .feedA => 1
  | some .feedB => 2

def estepNo : EStep → Nat
  | .none => 0
  | .e1 => 1
  | .e2 => 2
  | .e3 => 3
  | .e4 => 4
  | .e5 => 5
  | .e6 => 6
  | .e7 => 7

/-- The feed shown as STBY. -/
def standby (s : State) : Option FeedId :=
  if isStandby s .feedA then some .feedA else if isStandby s .feedB then some .feedB else none

/-- PM_STAT. -/
def pmStatWord (s : State) : Word :=
  put (estepNo s.pw.estep) 28 4 ||| put (feedNo s.pw.active) 26 2 ||| put (feedNo (standby s)) 24 2 ||| bit s.pw.holdup 23 |||
    bit s.pw.full 22 ||| put s.pw.dstep.toNat 20 2 ||| bit s.pw.refflt 19 ||| bit (decide (2 ≤ s.pw.pref.toNat)) 18

def srcNo : WakeSrc → Nat
  | .powerOn => 0
  | .wakeN => 1
  | .channel _ => 2
  | .baf => 3
  | .bar => 4
  | .button => 5

def srcChan : WakeSrc → Nat
  | .channel c => c.val
  | _ => 0

/-- Indexes of the circulating area in order, staged records included (R616). -/
def circRecords (s : State) : List Record :=
  (s.rc.circ.filterMap id).flatten ++ s.rc.waiting.getD [] ++ s.rc.staging

/-- The records of the foundation area that can be read: those of a sector with uncorrectable data are skipped (R607, R612, R616). -/
def foundRecords (s : State) : List Record :=
  (s.rc.found.zipIdx.filter fun x => !s.boot.bankA.bad.contains (0x30000 + x.2 / 16)).map fun x => x.1

/-- RC_OLDEST: the oldest index held; the next one where none is held. -/
def oldestIndex (s : State) : Word :=
  match circRecords s with
  | r :: _ => r.index
  | [] => s.rc.next

/-- AR_PRI. -/
def arPriWord (s : State) (a : Arbiter) (q : Fin 14) : Word :=
  bit (masked s q) 16 ||| put (waitOf s a q) 8 4 ||| put (a.pri.get q).toNat 0 4

def arStatWord (a : Arbiter) : Word :=
  bit a.holder.isSome 31 ||| put ((a.holder.map (·.val)).getD 0) 27 4 ||| put a.last.val 23 4

def tentWord (e : EccEntry) : Word := bit e.valid 31 ||| bit e.hard 30 ||| put e.bit.toNat 16 7 ||| put e.count.toNat 0 16

def jstateNo : JState → Nat
  | .confirmed => 0
  | .staged => 1
  | .trialBoot => 2
  | .trialRun => 3
  | .reverted => 4

def jstepNo : JStep → Nat
  | .none => 0
  | .verify => 1
  | .migrate => 2
  | .admission => 3

/-- BT_STAT (R601). -/
def btStatWord (s : State) : Word :=
  let j := journalOf s
  let src := match s.boot.src with | .journal => 0 | .bootsel => 1 | .fallback => 2
  bit (s.boot.bank == .b) 31 ||| bit s.boot.recov 30 ||| put (jstateNo j.state) 27 3 ||| put (jstepNo j.step) 25 2 |||
    put j.attempt.toNat 23 2 ||| bit j.fusepend 22 ||| bit j.slip 21 ||| bit j.otherval 20 ||| put j.reason.toNat 12 8 |||
    put src 10 2

def keyNo (k : KeySlot) : Nat := if k.revoked then 2 else if k.prog then 1 else 0

def btKeysWord (s : State) : Word :=
  ((fins 4).map fun i =>
    put (keyNo (s.boot.okeys.get i)) (8 + 2 * i.val) 2 ||| put (keyNo (s.boot.vkeys.get i)) (2 * i.val) 2).foldl (· ||| ·) 0

def roleNo : Role → Nat
  | .view => 0
  | .maint => 1
  | .engineer => 2
  | .owner => 3

/-- Whether a role is locked out (R555): its lockout end lies ahead. -/
def lockedOut (s : State) (i : Fin 3) : Bool :=
  match (s.svc.recs.get i).lockEnd with
  | some e => decide (s.pw.opsec.toNat < e.toNat)
  | none => false

/-- SV_SVC (R574). -/
def svSvcWord (s : State) : Word :=
  let seq := match s.boot.seq with
    | none => 0
    | some q => match q.kind with | .app => 1 | .upd _ => 2
  put s.svc.sessions.length 29 3 ||| put ((s.svc.sessions.map fun x => roleNo x.role).foldl max 0) 27 2 |||
    bit (lockedOut s 0) 24 ||| bit (lockedOut s 1) 25 ||| bit (lockedOut s 2) 26 ||| bit s.svc.facPw 23 |||
    bit s.svc.calWork.isSome 22 ||| put seq 20 2 ||| put s.svc.relays.length 16 4

def b01 (b : Bool) : Nat := b2n b

/-- SV_LANE (R263). -/
def svLaneWord (s : State) : Word :=
  put (laneStNo (lane s .a).st) 29 3 ||| put (laneStNo (lane s .b).st) 26 3 ||| put (laneStNo (lane s .c).st) 23 3 |||
    put (voters s).length 21 2 ||| bit (lane s .a).dbg 20 ||| bit (lane s .b).dbg 19 ||| bit (lane s .c).dbg 18 |||
    put ((s.rejoin.src.map laneNo).getD 0) 16 2 ||| put (phaseNo s.rejoin.phase) 13 3 ||| put s.rejoin.matched.toNat 8 5

/-- The overflow bits of counters, the first in bit 0. -/
def ovfs (l : List Stat) : Word := (l.zipIdx.map fun p => bit p.1.ovf p.2).foldl (· ||| ·) 0

def voteStats (s : State) : List Stat :=
  [s.lanes.a.egMin, s.lanes.b.egMin, s.lanes.c.egMin, s.lanes.a.chMin, s.lanes.b.chMin, s.lanes.c.chMin, s.rejoin.egAbort]

/-- The value a read of a register returns; latches aside, a read changes nothing. -/
def regGet (s : State) : Reg → Word
  | .lnParam => lnParamWord
  | .ksMode =>
    let m := s.net.mode
    put m.cur.toNat 29 3 ||| bit m.req 28 ||| put m.rq.toNat 25 3 ||| bit m.go 24 ||| put m.echo.toNat 22 2 |||
      put m.rtide 15 7 ||| put m.lastout.toNat 13 2
  | .ksRing =>
    put s.ring.node 26 6 ||| put s.ring.slot 20 6 ||| put (ringStNo s.ring.st) 17 3 |||
      put (sideNo (sideOf s (inwardOf s))) 15 2 ||| put (sideNo (sideOf s (otherSide (inwardOf s)))) 13 2 |||
      put s.ring.nodes 7 6 ||| put s.ring.roster.length 1 6 ||| bit (s.ring.cabslot != 0) 0
  | .ksRepoch => s.ring.epoch
  | .ksRmuidh => s.ring.muid.extractLsb' 32 32
  | .ksRmuidl => s.ring.muid.extractLsb' 0 32
  | .ksRmerge => put s.ring.mergeLast.toNat 30 2 ||| put s.ring.mergeWhy.toNat 26 4
  | .ksRheal => s.ring.heal.count
  | .ksRbmiss => s.ring.bmiss.count
  | .ksRclaim => s.ring.rclaim.count
  | .ksRovf => ovfs [s.ring.heal, s.ring.bmiss, s.ring.rclaim]
  | .ksPstat p => pstatWord s p
  | .ksPviol p => (port s p).pviol.count
  | .ksPpolice p => (port s p).ppolice.count
  | .ksPiso p => (port s p).piso.count
  | .ksPmiss p => (port s p).pmiss.count
  | .ksPrej p => (port s p).prej.count
  | .ksPovf p => ovfs [(port s p).pviol, (port s p).ppolice, (port s p).piso, (port s p).pmiss, (port s p).prej]
  | .ksPmach p => BitVec.ofNat 32 (beNat ((pmac s p).take 2))
  | .ksPmacl p => BitVec.ofNat 32 (beNat ((pmac s p).drop 2))
  | .ksAstat n =>
    match connDecl s n with
    | none => 0
    | some d =>
      let x := conn s n
      bit d.rx 31 ||| put (ashNo x.st) 29 2 ||| put x.lastErr.toNat 25 4 ||| put d.port 16 6 ||| put d.slotId.toNat 0 16
  | .ksAid n => match connDecl s n with | none => 0 | some d => d.connId
  | .ksAseq n => match connDecl s n with | none => 0 | some _ => (conn s n).seq
  | .ksAdly n => match connDecl s n with | none => 0 | some d => if d.rx then (conn s n).d else 0
  | .ksAerr n => match connDecl s n with | none => 0 | some _ => (conn s n).err.count
  | .ksAresync n => match connDecl s n with | none => 0 | some _ => (conn s n).resync.count
  | .ksAovf n => match connDecl s n with | none => 0 | some _ => ovfs [(conn s n).err, (conn s n).resync]
  | .tiStat =>
    put (actNo s.time.act) 30 2 ||| bit s.time.set 29 ||| bit (convBit s) 28 ||| bit s.time.hold 27 ||| bit s.time.slewing 26 |||
      bit s.time.rel 25 ||| put s.time.hops.toNat 19 6
  | .tiSech => BitVec.ofNat 32 (s.time.clock.sec.toNat / 2 ^ 32)
  | .tiSecl => s.time.latchL
  | .tiNs => s.time.latchN
  | .tiOfs1 => ofsWord s.time.dom1.ofs
  | .tiOfs2 => ofsWord s.time.dom2.ofs
  | .tiSyncmiss => s.time.syncMiss.count
  | .tiPtprej => s.time.ptpRej.count
  | .tiOvf => ovfs [s.time.syncMiss, s.time.ptpRej]
  | .ioFlt0 => fltWord s 0
  | .ioFlt1 => fltWord s 32
  | .ioCstat c => cstatWord s c
  | .ioCfault c => (s.chans.get c).cfault.count
  | .ioCtfail c => (s.chans.get c).ctfail.count
  | .ioCtaban c => (s.chans.get c).ctaban.count
  | .ioCwet c => (s.chans.get c).cwet.count
  | .ioCcnt c => if chanKind s c = some .counter then (s.chans.get c).count else 0
  | .ioCovf c => ovfs [(s.chans.get c).cfault, (s.chans.get c).ctfail, (s.chans.get c).ctaban, (s.chans.get c).cwet]
  | .sfStat => sfStatWord s
  | .sfShw f i => (s.para.funcs.get f).shadow.get i
  | .sfFval f => if (s.para.funcs.get f).decl then funcValue s f else 0
  | .sfTrip f => (s.para.funcs.get f).trip.count
  | .sfOvf f => ovfs [(s.para.funcs.get f).trip]
  | .sfAcw f i => (s.para.funcs.get f).act.get i
  | .brStat => brStatWord s
  | .brWbase => put s.br.wbase.toNat 30 2 ||| put s.br.bo.toNat 0 16
  | .brIwin => s.br.iwin &&& 0xFF0FFC07
  | .brInt => put s.br.inte.toNat 4 4 ||| bit s.br.pwerr 0
  | .brBackoff => s.br.backoff.count
  | .brRetry => s.br.retry.count
  | .brPwlost => s.br.pwlost.count
  | .brInerr => s.br.inerr.count
  | .brArbidle => s.br.arbidle.count
  | .brOvf => ovfs [s.br.backoff, s.br.retry, s.br.pwlost, s.br.inerr, s.br.arbidle]
  | .brDmstat n => dmWord (s.br.movers.get n)
  | .brPwla e => (s.br.log.get e).addr
  | .brPwli e => pwliWord (s.br.log.get e)
  | .brPwld e => (s.br.log.get e).data
  | .pmStrap => strapWord s.pw.straps s.pw.chg s.pw.unstable
  | .pmLed => bit s.pw.ledTest 31 ||| put (leds s).toNat 0 9
  | .pmStat => pmStatWord s
  | .pmFeed =>
    put (if feedUsed s .feedA then s.pw.feedA.v.toNat else 0) 16 16 ||| put (if feedUsed s .feedB then s.pw.feedB.v.toNat else 0) 0 16
  | .pmTemp => put s.pw.inlet.toNat 24 8 ||| put s.pw.laneTemp.toNat 16 8 ||| put s.pw.ksTemp.toNat 8 8 ||| put s.pw.ppTemp.toNat 0 8
  | .pmReflast => put s.pw.reflast.toNat 16 16
  | .pmNref n => (s.pw.nref.get n).count
  | .pmSwcnt => s.pw.swcnt.count
  | .pmHoldcnt => s.pw.holdcnt.count
  | .pmOvf => ovfs (s.pw.nref.toList ++ [s.pw.swcnt, s.pw.holdcnt])
  | .pmWake =>
    put (srcNo s.pw.wakeSrc) 28 4 ||| bit s.pw.latched 27 ||| put (srcChan s.pw.wakeSrc) 21 6 ||| put s.pw.nlatch.toNat 16 5
  | .rcStat =>
    put s.rc.found.length 19 13 ||| bit (decide (4096 ≤ s.rc.found.length)) 18 ||| put s.rc.staging.length 13 5 |||
      bit s.rc.waiting.isSome 12
  | .rcNext => s.rc.next
  | .rcOldest => oldestIndex s
  | .rcSupp => s.rc.supp.count
  | .rcFlost => s.rc.foundLost.count
  | .rcTorn => s.rc.torn.count
  | .rcOvf => ovfs [s.rc.supp, s.rc.foundLost, s.rc.torn]
  | .arPri b q => arPriWord s (if b then s.fab.bridgeArb else s.fab.quayArb) q
  | .arStat b => arStatWord (if b then s.fab.bridgeArb else s.fab.quayArb)
  | .arQlbrk => s.fab.qlbrk
  | .arFrel => s.fab.frel.count
  | .arOvf => ovfs [s.fab.frel]
  | .ecCorr m => (eccGet s m).corr.count
  | .ecUnc m => (eccGet s m).unc.count
  | .ecTlost m => (eccGet s m).tlost.count
  | .ecOvf m => ovfs [(eccGet s m).corr, (eccGet s m).unc, (eccGet s m).tlost]
  | .ecUaddr m => (eccGet s m).uaddr
  | .ecTaddr m e => ((eccGet s m).table.get e).addr
  | .ecTent m e => tentWord ((eccGet s m).table.get e)
  | .btStat => btStatWord s
  | .btFwver => s.boot.fwVer
  | .btAppver => s.boot.appVer
  | .btSvn => put s.boot.fwSvn.toNat 24 8 ||| put s.boot.appSvn.toNat 16 8 ||| put s.boot.rb 0 7
  | .btKeys => btKeysWord s
  | .btUidh => s.boot.uid.extractLsb' 32 32
  | .btUidl => s.boot.uid.extractLsb' 0 32
  | .btChkfail => s.boot.chkFail.count
  | .btOvf => ovfs [s.boot.chkFail]
  | .svAdmit =>
    put s.adm.code.toNat 24 8 ||| put s.adm.pair.toNat 21 3 ||| put s.adm.task.toNat 17 4 ||| bit s.adm.lanedis 16 |||
      put s.adm.index.toNat 0 16
  | .svCtrl => put (ctlNo s.ctl.state) 29 3 ||| bit s.ctl.warm 28 ||| bit s.ctl.fallback 27 ||| put s.ctl.source.toNat 25 2
  | .svForce =>
    bit (policy s).forcekeep 31 ||| bit (s.ctl.forces.any (forcePending s)) 30 |||
      bit (ledForce s) 29 ||| put (((s.ctl.forces.filter fun f => !f.ended).map (·.item)).eraseDups).length 0 9
  | .svOlc => put s.ctl.olcLast.toNat 30 2 ||| bit s.ctl.olcMasked 29 ||| put s.ctl.olcs.length 0 5
  | .svRetain =>
    bit (bufUsable s.ctl.retain.buf0 (curDigest s)) 31 ||| bit (bufUsable s.ctl.retain.buf1 (curDigest s)) 30 |||
      bit ((latestBuf s).getD false) 29 ||| bit s.ctl.retain.busy 28
  | .svRetgen => committedGen s.ctl.retain
  | .svLane => svLaneWord s
  | .svDrop l => put (lane s l).cause.toNat 24 8 ||| put (lane s l).dropPair.toNat 20 4 ||| put (lane s l).dropTask.toNat 16 4
  | .svRejoin =>
    put s.rejoin.limit.toNat 28 4 ||| put (min 15 (rejoinUsed s)) 24 4 ||| bit s.rejoin.withheld 23 ||| put s.rejoin.window.toNat 0 16
  | .svEgmin l => (lane s l).egMin.count
  | .svChmin l => (lane s l).chMin.count
  | .svEgabort => s.rejoin.egAbort.count
  | .svVoteovf => ovfs (voteStats s)
  | .svSvc => svSvcWord s
  | .svSesscnt => s.svc.sessCnt.count
  | .svAuthfail => s.svc.authFail.count
  | .svMacfail => s.svc.macFail.count
  | .svSvcrej => s.svc.svcRej.count
  | .svArpdrop => s.svc.arpDrop.count
  | .svSvcovf => ovfs [s.svc.sessCnt, s.svc.authFail, s.svc.macFail, s.svc.svcRej, s.svc.arpDrop]

/-- A read of a register: its value, and the latches that a read of TI_SECH takes (R379). -/
def regRead (s : State) (r : Reg) : State × Word :=
  match r with
  | .tiSech =>
    ({ s with time := { s.time with
        latchL := s.time.clock.sec.setWidth 32,
        latchN := bit (convBit s) 31 ||| bit s.time.hold 30 ||| s.time.clock.ns.setWidth 32 } }, regGet s r)
  | _ => (s, regGet s r)

/-- A counter cleared by a 1 at bit `i` of the word written (R47). -/
def clr (w : Word) (i : Nat) (c : Stat) : Stat := if w.getLsbD i then Stat.zero else c

def emptyPw : PwEntry := resetPw

def freeEcc : EccEntry := { addr := 0, valid := false, hard := false, bit := 0, count := 0, scrubbed := false }

def modFunc (s : State) (f : Fin 4) (g : FuncSt → FuncSt) : State := { s with para := { s.para with funcs := vmod s.para.funcs f g } }

/-- PM_LED written: TEST and PATTERN take effect at once; a test set starts its 10 s (R631). -/
def writeLed (s : State) (v : Word) : State :=
  { s with pw := { s.pw with ledTest := v.getLsbD 31, pattern := v.setWidth 9, ledTestAt := if v.getLsbD 31 then s.up else s.pw.ledTestAt } }

/-- A write to a register: the state after it, or none where the access type does not permit the write (R39, R40). Bits other
than those written to a permitted field are ignored (R38). -/
def regSet (s : State) (who : Master) (r : Reg) (w : Word) : Option State :=
  match r with
  | .ksRovf =>
    some { s with ring := { s.ring with heal := clr w 0 s.ring.heal, bmiss := clr w 1 s.ring.bmiss, rclaim := clr w 2 s.ring.rclaim } }
  | .ksPovf p =>
    some (modPort s p fun x =>
      { x with pviol := clr w 0 x.pviol, ppolice := clr w 1 x.ppolice, piso := clr w 2 x.piso, pmiss := clr w 3 x.pmiss,
               prej := clr w 4 x.prej })
  | .ksAovf n =>
    some { s with net := { s.net with
      conns := s.net.conns.modify n.val fun x => { x with err := clr w 0 x.err, resync := clr w 1 x.resync } } }
  | .tiOvf => some { s with time := { s.time with syncMiss := clr w 0 s.time.syncMiss, ptpRej := clr w 1 s.time.ptpRej } }
  | .ioCovf c =>
    some (modChan s c fun x =>
      { x with cfault := clr w 0 x.cfault, ctfail := clr w 1 x.ctfail, ctaban := clr w 2 x.ctaban, cwet := clr w 3 x.cwet })
  | .sfOvf f => some (modFunc s f fun x => { x with trip := clr w 0 x.trip })
  | .brInt =>
    some { s with br := { s.br with inte := s.br.inte &&& ~~~(w.extractLsb' 4 4), pwerr := s.br.pwerr && !w.getLsbD 0 } }
  | .brOvf =>
    some { s with br := { s.br with
      backoff := clr w 0 s.br.backoff, retry := clr w 1 s.br.retry, pwlost := clr w 2 s.br.pwlost, inerr := clr w 3 s.br.inerr,
      arbidle := clr w 4 s.br.arbidle } }
  | .brPwli e => some (if w.getLsbD 31 then { s with br := { s.br with log := s.br.log.set e emptyPw } } else s)
  | .pmStrap =>
    some { s with pw := { s.pw with chg := s.pw.chg && !w.getLsbD 12, unstable := s.pw.unstable && !w.getLsbD 11 } }
  | .pmLed => some (writeLed s w)
  | .pmOvf =>
    some { s with pw := { s.pw with
      nref := Vector.ofFn fun i => clr w i.val (s.pw.nref.get i), swcnt := clr w 7 s.pw.swcnt, holdcnt := clr w 8 s.pw.holdcnt } }
  | .rcOvf =>
    some { s with rc := { s.rc with supp := clr w 0 s.rc.supp, foundLost := clr w 1 s.rc.foundLost, torn := clr w 2 s.rc.torn } }
  | .arPri b q =>
    match who with
    | .steward => if q.val = 13 then none else some (setPri s b q (w.setWidth 4))
    | .lane _ => none
  | .arQlbrk => some { s with fab := { s.fab with qlbrk := s.fab.qlbrk &&& ~~~w } }
  | .arOvf => some { s with fab := { s.fab with frel := clr w 0 s.fab.frel } }
  | .ecOvf m =>
    let e := eccGet s m
    some (eccPut s m { e with corr := clr w 0 e.corr, unc := clr w 1 e.unc, tlost := clr w 2 e.tlost })
  | .ecTent m i =>
    let e := eccGet s m
    some (if w.getLsbD 31 then eccPut s m { e with table := e.table.set i freeEcc } else s)
  | .btOvf => some { s with boot := { s.boot with chkFail := clr w 0 s.boot.chkFail } }
  | .svVoteovf =>
    let l (i : Nat) (x : LaneSt) : LaneSt := { x with egMin := clr w i x.egMin, chMin := clr w (3 + i) x.chMin }
    some { s with lanes := ⟨l 0 s.lanes.a, l 1 s.lanes.b, l 2 s.lanes.c⟩,
                  rejoin := { s.rejoin with egAbort := clr w 6 s.rejoin.egAbort } }
  | .svSvcovf =>
    some { s with svc := { s.svc with
      sessCnt := clr w 0 s.svc.sessCnt, authFail := clr w 1 s.svc.authFail, macFail := clr w 2 s.svc.macFail,
      svcRej := clr w 3 s.svc.svcRej, arpDrop := clr w 4 s.svc.arpDrop } }
  | _ => none

end Sys2Proof.Machine
end

