-- ==== Sys2Proof/Machine/Flags.lean ====
section
/-! DEFINITION. Quality tags and the conditions of comparisons (02_programming_model.md, R51 to R59; R101, R139, R140). -/

namespace Sys2Proof.Machine

/-- The neutral tag (R54). -/
def neutral : Byte := 0x90
/-- The tag of a value from outside the pair-private bank (R58). -/
def outside : Byte := 0x80
/-- The tag of a forced value (R59, R209). -/
def forcedTag : Byte := 0xC0

def tagValid (t : Byte) : Bool := t.getLsbD 7
def tagForced (t : Byte) : Bool := t.getLsbD 6
def tagSubst (t : Byte) : Bool := t.getLsbD 5
def tagSafe (t : Byte) : Bool := t.getLsbD 4
def tagAge (t : Byte) : BitVec 4 := t.setWidth 4

/-- A tag from its fields. -/
def mkTag (valid forced subst safe : Bool) (age : Nat) : Byte :=
  BitVec.ofNat 8 (b2n valid * 128 + b2n forced * 64 + b2n subst * 32 + b2n safe * 16 + min age 15)

/-- The combination of two tags, field by field: AND for VALID and SAFE, OR for FORCED and SUBST, the larger AGE (R54, R56). -/
def comb (a b : Byte) : Byte :=
  (a &&& b &&& 0x90) ||| ((a ||| b) &&& 0x60) ||| (if (a &&& 0x0F).toNat < (b &&& 0x0F).toNat then b &&& 0x0F else a &&& 0x0F)

def comb3 (a b c : Byte) : Byte := comb (comb a b) c

/-- The tag of SUBST when the first operand is not VALID (R140). -/
def substTag (ts tt : Byte) : Byte := (tt ||| 0x20) ||| (ts &&& 0x40)

/-- The tag test of QCHK (R139). -/
def qchkPass (t : Byte) (imm : BitVec 16) : Bool :=
  (!imm.getLsbD 11 || tagValid t) && (!imm.getLsbD 10 || !tagForced t) && (!imm.getLsbD 9 || !tagSubst t) &&
    (!imm.getLsbD 8 || tagSafe t) && (!imm.getLsbD 4 || decide ((tagAge t).toNat ≤ (imm.setWidth 4).toNat))

/-- The reserved bits of QCHK's field are 0 (R139). -/
def qchkLegal (imm : BitVec 16) : Bool := imm &&& 0xF0E0 == 0

/-- The condition of CMP and CMPI; none where the code is reserved (R101). -/
def intCond (c : BitVec 4) (a b : Word) : Option Bool :=
  match c.toNat with
  | 0 => some (a == b)
  | 1 => some (a != b)
  | 2 => some (a.slt b)
  | 3 => some (!a.slt b)
  | 4 => some (a.sle b)
  | 5 => some (!a.sle b)
  | 6 => some (a.ult b)
  | 7 => some (!a.ult b)
  | 8 => some (a.ule b)
  | 9 => some (!a.ule b)
  | _ => none

/-- IMM12 of CMPI extended as its condition asks (R101). -/
def cmpImm (c : BitVec 4) (imm : BitVec 12) : Word := if c.toNat ≤ 5 then sext imm else zext imm

end Sys2Proof.Machine
end

