-- ==== Sys2Proof/Machine/Operands.lean ====
section
/-! DEFINITION. The register operands of the instruction forms and their legality (R52, R92, R93, R95 to R98). -/

namespace Sys2Proof.Machine

/-- A word register: W0 reads 0 with the neutral tag (R52). -/
def rdW (b : Bank) (n : BitVec 4) : WReg := if n = 0 then ⟨0, neutral⟩ else b.w.get n.toFin

/-- A bit register: B0 reads 1 with the neutral tag (R52). The low 3 bits of the field name it (R92). -/
def rdB (b : Bank) (n : BitVec 4) : BReg :=
  let i : BitVec 3 := n.setWidth 3
  if i = 0 then ⟨true, neutral⟩ else b.b.get i.toFin

/-- A word register written; W0 discards value and tag (R52). -/
def wrW (b : Bank) (n : BitVec 4) (v : Word) (t : Byte) : Bank := if n = 0 then b else { b with w := b.w.set n.toFin ⟨v, t⟩ }

/-- A bit register written; B0 discards value and tag (R52). -/
def wrB (b : Bank) (n : BitVec 4) (v : Bool) (t : Byte) : Bank :=
  let i : BitVec 3 := n.setWidth 3
  if i = 0 then b else { b with b := b.b.set i.toFin ⟨v, t⟩ }

/-- The PC advanced to the next word. -/
def nextPc (b : Bank) : Bank := { b with pc := b.pc + 4 }

/-- A 4-bit field that holds a bit register has its high bit 0 (R93). -/
def bitField (n : BitVec 4) : Bool := !n.getLsbD 3

/-- Form A with D, S1 and S2 in use: S3, I, IMM5 and the low bits are 0 (R93). -/
def legalA3 (f : FormA) : Bool := f.s3 == 0 && !f.i && f.imm5 == 0 && f.z == 0
/-- Form A with D and S1 in use. -/
def legalA2 (f : FormA) : Bool := legalA3 f && f.s2 == 0
/-- Form A with D in use. -/
def legalA1 (f : FormA) : Bool := legalA2 f && f.s1 == 0
/-- Form A with no field in use. -/
def legalA0 (f : FormA) : Bool := legalA1 f && f.d == 0
/-- Form A with all four register fields in use. -/
def legalA4 (f : FormA) : Bool := !f.i && f.imm5 == 0 && f.z == 0
/-- Form A of a shift or FSCALE: amount from Wt, or from IMM5 with S2 = 0 (R93). -/
def legalShift (f : FormA) : Bool := f.s3 == 0 && f.z == 0 && (if f.i then f.s2 == 0 else f.imm5 == 0)
/-- Form B: bit 16 is 0. -/
def legalB (f : FormB) : Bool := !f.z
/-- Form E with a word destination or source and BIT in use. -/
def legalE (f : FormE) : Bool := f.z == 0
/-- The timer and counter variant of form C. -/
def legalT (f : FormT) : Bool := !f.z24 && !f.z16
/-- Form D with every field 0. -/
def legalD0 (f : FormD) : Bool := f.a == 0 && f.off == 0
/-- Form D with A = 0. -/
def legalDA (f : FormD) : Bool := f.a == 0
/-- Form D of LOOP: bits [24:16] 0 and COUNT not 0 (R96, R105). -/
def legalLoop (f : FormD) : Bool := f.a == 0 && f.off.extractLsb' 16 5 == 0 && f.off.setWidth 16 != (0 : BitVec 16)
/-- Form D of JTAB: bits [20:16] 0 and N not 0 (R96, R105). -/
def legalJtab (f : FormD) : Bool := f.off.extractLsb' 16 5 == 0 && f.off.setWidth 16 != (0 : BitVec 16)

/-- The address of a form C access (R97). -/
def addrC (b : Bank) (f : FormC) : Word := (rdW b f.base).v + sext f.disp
/-- The address of a timer or counter block (R97). -/
def addrT (b : Bank) (f : FormT) : Word := (rdW b f.base).v + BitVec.ofNat 32 (16 * f.blk.toNat)
/-- The address of an EDGE slot (R97). -/
def addrG (b : Bank) (f : FormG) : Word := (rdW b f.s2).v + BitVec.ofNat 32 (4 * f.slot.toNat)

/-- The target of a branch or CALL (R99). -/
def target (b : Bank) (f : FormD) : Word := b.pc + 4 * sext f.off

/-- The shift amount of a shift: Wt[4:0] or IMM5. -/
def amount (b : Bank) (f : FormA) : Nat := if f.i then f.imm5.toNat else (rdW b f.s2).v.toNat % 32

/-- The tag of a shift or FSCALE result. -/
def shiftTag (b : Bank) (f : FormA) : Byte := if f.i then (rdW b f.s1).t else comb (rdW b f.s1).t (rdW b f.s2).t

end Sys2Proof.Machine
end

