-- ==== Sys2Proof/Machine/Act.lean ====
section
/-! DEFINITION. What an instruction does, before the pair retires it: the types of the shared instruction skeleton. -/

namespace Sys2Proof.Machine

/-- The core that executes: where it stands, the timed task it runs (none: untimed work), and the bank it sees. -/
structure Core where
  x     : Ctx
  timed : Option TaskId
  bank  : Bank

/-- The outcome of an instruction's body. `raise`: an exception with its address and immediate; `stall`: the core waits and
retires nothing; `go`: it retires with a new bank and what it adds to the signature register beside PC, flags and depths;
`finish`: as `go`, and the activation or work item ends. The state carries every effect outside the bank. -/
inductive Act where
  | raise (s : State) (code : ExcCode) (addr : Word) (imm : BitVec 16)
  | stall (s : State)
  | go (s : State) (b : Bank) (ws : List Word)
  | finish (s : State) (b : Bank) (ws : List Word)

/-- The classes of ordinary loads and stores (R30, R58, R72). `word` tells the 32-bit ones, which alone reach LN_. -/
inductive AccClass where
  | load (word : Bool)
  | store (word : Bool)
  | tagLoad
  | tagStore
  deriving DecidableEq, Repr

/-- Where a permitted ordinary access goes: an offset in the pair's bank, an offset in the lane-common area, an LN_
register. -/
inductive Place where
  | bank (o : Nat)
  | common (o : Nat)
  | ln (r : Reg)
  deriving DecidableEq, Repr

end Sys2Proof.Machine
end

