-- ==== Sys2Proof/Machine/Tlavo.lean ====
section
/-! DEFINITION. Tlavo instruction words: fields, opcodes, costs and legality as admission reads them
(03_instruction_encoding_and_timing.md, R91 to R107). -/

namespace Sys2Proof.Machine

/-- The primary opcode of a word (R91). -/
def opOf (w : Word) : Nat := field w 31 25

/-- The fields of each form (R96). -/
def formA (w : Word) : FormA :=
  { d := w.extractLsb' 21 4, s1 := w.extractLsb' 17 4, s2 := w.extractLsb' 13 4, s3 := w.extractLsb' 9 4, i := w.getLsbD 8,
    imm5 := w.extractLsb' 3 5, z := w.extractLsb' 0 3 }
def formB (w : Word) : FormB :=
  { d := w.extractLsb' 21 4, s1 := w.extractLsb' 17 4, z := w.getLsbD 16, imm := w.extractLsb' 0 16 }
def formC (w : Word) : FormC := { d := w.extractLsb' 21 4, base := w.extractLsb' 17 4, disp := w.extractLsb' 0 17 }
def formT (w : Word) : FormT :=
  { z24 := w.getLsbD 24, q := w.extractLsb' 21 3, base := w.extractLsb' 17 4, z16 := w.getLsbD 16, inp := w.extractLsb' 13 3,
    blk := w.extractLsb' 0 13 }
def formD (w : Word) : FormD := { a := w.extractLsb' 21 4, off := w.extractLsb' 0 21 }
def formE (w : Word) : FormE :=
  { d := w.extractLsb' 21 4, s1 := w.extractLsb' 17 4, s2 := w.extractLsb' 13 4, bit := w.extractLsb' 8 5,
    z := w.extractLsb' 0 8 }
def formG (w : Word) : FormG :=
  { d := w.extractLsb' 21 4, s1 := w.extractLsb' 17 4, s2 := w.extractLsb' 13 4, slot := w.extractLsb' 0 13 }

/-- The words of each form, from the opcode and the fields (R96). -/
def wordA (op : BitVec 7) (f : FormA) : Word := op ++ f.d ++ f.s1 ++ f.s2 ++ f.s3 ++ BitVec.ofBool f.i ++ f.imm5 ++ f.z
def wordB (op : BitVec 7) (f : FormB) : Word := op ++ f.d ++ f.s1 ++ BitVec.ofBool f.z ++ f.imm
def wordC (op : BitVec 7) (f : FormC) : Word := op ++ f.d ++ f.base ++ f.disp
def wordT (op : BitVec 7) (f : FormT) : Word :=
  op ++ BitVec.ofBool f.z24 ++ f.q ++ f.base ++ BitVec.ofBool f.z16 ++ f.inp ++ f.blk
def wordD (op : BitVec 7) (f : FormD) : Word := op ++ f.a ++ f.off
def wordE (op : BitVec 7) (f : FormE) : Word := op ++ f.d ++ f.s1 ++ f.s2 ++ f.bit ++ f.z
def wordG (op : BitVec 7) (f : FormG) : Word := op ++ f.d ++ f.s1 ++ f.s2 ++ f.slot

/-- Whether a word is the one that the mnemonic of an opcode has with the fields given (R91, R96, R102). -/
def isA (op : BitVec 7) (f : FormA) (w : Word) : Bool := w == wordA op f
def isB (op : BitVec 7) (f : FormB) (w : Word) : Bool := w == wordB op f
def isC (op : BitVec 7) (f : FormC) (w : Word) : Bool := w == wordC op f
def isT (op : BitVec 7) (f : FormT) (w : Word) : Bool := w == wordT op f
def isD (op : BitVec 7) (f : FormD) (w : Word) : Bool := w == wordD op f
def isE (op : BitVec 7) (f : FormE) (w : Word) : Bool := w == wordE op f
def isG (op : BitVec 7) (f : FormG) (w : Word) : Bool := w == wordG op f

/-- Whether a word has an opcode. -/
def isOp (op : BitVec 7) (w : Word) : Bool := opOf w == op.toNat

/-- An opcode of the map that no mnemonic has (R94, R102). -/
def opUnassigned (op : Nat) : Bool :=
  op == 0x00 || op == 0x27 || op == 0x2E || op == 0x2F || op == 0x3E || op == 0x3F || op == 0x47 ||
    (0x4D ≤ op && op ≤ 0x4F) || 0x7E ≤ op

/-- The set-up class (R76, R102). -/
def opSetup (op : Nat) : Bool := 0x70 ≤ op && op ≤ 0x7D

/-- The cycle cost of an opcode that timed tasks may use (R103). -/
def opCost (op : Nat) : Nat :=
  if op = 0x08 ∨ op = 0x09 then 2
  else if 0x0A ≤ op ∧ op ≤ 0x0C then 18
  else if op = 0x2D then 2
  else if 0x30 ≤ op ∧ op ≤ 0x32 then 3
  else if op = 0x33 then 14
  else if op = 0x34 then 16
  else if op = 0x3A ∨ op = 0x3B then 2
  else if 0x40 ≤ op ∧ op ≤ 0x46 then 2
  else if 0x50 ≤ op ∧ op ≤ 0x52 then 2
  else if op = 0x53 ∨ op = 0x54 then 3
  else if op = 0x55 then 2
  else if op = 0x57 then 4
  else if 0x59 ≤ op ∧ op ≤ 0x5D then 6
  else if op = 0x6B then 2
  else 1

/-- FCMP's conditions (R101). -/
def fcmpCode (c : BitVec 4) : Bool := decide (c.toNat ≤ 5) || c.toNat == 10 || c.toNat == 11

/-- Whether an instruction word is free of EX_ILLEGAL at decode, TRAP aside (R78, R93, R94, R101, R105, R139, R147). -/
def wordLegal (w : Word) : Bool :=
  let op := opOf w
  let a := formA w
  let b := formB w
  let e := formE w
  let d := formD w
  if opUnassigned op || opSetup op then false
  else if op = 0x07 ∨ op = 0x0D ∨ op = 0x16 ∨ op = 0x1D ∨ op = 0x34 ∨ op = 0x37 ∨ op = 0x38 ∨ op = 0x3A ∨ op = 0x3B ∨ op = 0x60 ∨
      op = 0x67 then legalA2 a
  else if op = 0x17 ∨ op = 0x3C then legalA4 a
  else if (0x18 ≤ op ∧ op ≤ 0x1B) ∨ op = 0x3D then legalShift a
  else if op = 0x1C then legalA4 a && bitField a.s3
  else if op = 0x1E then legalB b && b.s1 == 0
  else if op = 0x20 then legalA4 a && bitField a.d && (intCond a.s3 0 0).isSome
  else if op = 0x21 then legalB b && bitField b.d && (intCond (b.imm.extractLsb' 12 4) 0 0).isSome
  else if op = 0x22 ∨ op = 0x23 then legalE e && e.s2 == 0
  else if op = 0x24 then legalE e && e.bit == 0 && bitField e.d
  else if op = 0x25 then legalE e && e.s2 == 0 && bitField e.d
  else if op = 0x26 then legalE e && bitField e.s2
  else if 0x28 ≤ op ∧ op ≤ 0x2A then legalE e && e.bit == 0 && bitField e.d && bitField e.s1 && bitField e.s2
  else if op = 0x2B ∨ op = 0x2C then legalE e && e.bit == 0 && e.s2 == 0 && bitField e.d && bitField e.s1
  else if op = 0x2D then bitField e.d && bitField e.s1
  else if op = 0x39 then legalA4 a && bitField a.d && fcmpCode a.s3
  else if op = 0x45 ∨ op = 0x4B then bitField a.d
  else if 0x40 ≤ op ∧ op ≤ 0x4C then true
  else if op = 0x50 ∨ op = 0x53 then legalDA d
  else if op = 0x51 ∨ op = 0x52 then bitField d.a
  else if op = 0x54 ∨ op = 0x56 ∨ op = 0x58 then legalD0 d
  else if op = 0x55 then legalLoop d
  else if op = 0x57 then legalJtab d
  else if 0x59 ≤ op ∧ op ≤ 0x5D then legalT (formT w)
  else if op = 0x5E ∨ op = 0x5F then legalA1 a
  else if op = 0x61 then legalB b && bitField b.d && qchkLegal b.imm
  else if op = 0x63 ∨ op = 0x6C ∨ op = 0x6F then legalA0 a
  else if op = 0x64 ∨ op = 0x65 then true
  else if op = 0x68 then legalB b && b.s1 == 0 && decide (b.imm.toNat < 6)
  else if op = 0x69 then legalB b && b.d == 0 && decide (b.imm.toNat < 6)
  else if op = 0x6A then legalB b && b.d == 0
  else if op = 0x6B then legalA3 a && a.d == 0
  else if op = 0x6D then legalA2 a && a.d == 0
  else if op = 0x6E then legalB b && b.d == 0 && b.s1 == 0
  else if op = 0x02 ∨ op = 0x04 ∨ op = 0x11 ∨ op = 0x13 ∨ op = 0x15 ∨ op = 0x1F then legalB b
  else legalA3 a

/-- Marked "refused" for timed tasks, LANEID included (R104). -/
def wordRefused (w : Word) : Bool :=
  let op := opOf w
  opSetup op || (0x63 ≤ op && op ≤ 0x67) || op == 0x6A || op == 0x6C || (op == 0x68 && (formB w).imm == 1)

end Sys2Proof.Machine
end

