-- ==== Sys2Proof/Machine/Ops.lean ====
section
/-! DEFINITION. The shared skeleton of every instruction: which core executes, the fetch, legality, exceptions, retirement
(02_programming_model.md, R60 to R67, R77, R82 to R85, R641; 07, R250). -/

namespace Sys2Proof.Machine

/-- The priority of a task (R64); 15 is the highest. -/
def prioOf (s : State) (p : PairId) (t : TaskId) : Nat := ((taskDecl s p t).map (·.prio)).getD 0

/-- The ready task of the highest priority of a pair; of equal priorities, which admission refuses, the lowest number. -/
def bestReady (s : State) (l : LaneId) (p : PairId) : Option TaskId :=
  (fins 16).foldl (fun best t =>
    if (taskRun s l p t).phase = .ready then
      match best with
      | none => some t
      | some b => if prioOf s p b < prioOf s p t then some t else best
    else best) none

/-- The window of a pair closes (R251): its signature registers are ready to be compared and restart at all ones. A window in which
nothing has retired has nothing to compare. -/
def closeWindow (q : PairSt) : PairSt :=
  if q.retired = 0 then q
  else { q with closed := some (q.leader, q.checker), leader := BitVec.allOnes 64, checker := BitVec.allOnes 64, retired := 0 }

/-- What a comparator reports of two words (R252, R253). -/
def compDiffers (f : CompFault) (a b : BitVec 64) : Bool := f.differ || ((a ^^^ b) &&& ~~~f.deaf) != 0

/-- The drop cause of a closed window (R252): 0x02 where both comparators report a difference, 0x03 where one does; none where both see it
equal. -/
def windowCause (x y : CompFault) (a b : BitVec 64) : Option Nat :=
  if compDiffers x a b && compDiffers y a b then some 0x02
  else if compDiffers x a b || compDiffers y a b then some 0x03
  else none

/-- The test of one comparator with bit `k` (R253): equal on the restarted registers, different with the bit inverted. -/
def compPasses (f : CompFault) (k : Fin 64) : Bool :=
  !compDiffers f (BitVec.allOnes 64) (BitVec.allOnes 64) &&
    compDiffers f (BitVec.allOnes 64) (BitVec.allOnes 64 ^^^ BitVec.ofNat 64 (2 ^ k.val))

/-- The test of both comparators of a pair by injection, with its test count as k, which then advances; a comparator that fails drops the
lane (R253). -/
def testComps (s : State) (l : LaneId) (p : PairId) : State :=
  let q := pair s l p
  let pass := compPasses q.cmpX q.testCnt && compPasses q.cmpY q.testCnt
  let s := modPair s l p fun x => { x with testCnt := x.testCnt + 1 }
  if pass then s else laneFails s l 0x04 p.val 0

/-- The pair takes up its best ready task; a switch of the active bank closes the window and costs 4 cycles, counted to the task that
starts or resumes (R61, R251). The switch that starts an activation tests the comparators (R253). -/
def reschedule (s : State) (l : LaneId) (p : PairId) : State :=
  let best := bestReady s l p
  if best = (pair s l p).active then s
  else
    let s := modPair s l p fun x => { closeWindow x with active := best }
    match best with
    | none => s
    | some t =>
      let starts := (taskRun s l p t).cycles == 0
      let s := modTask s l p t fun x => { x with cycles := x.cycles + 4 }
      if starts then testComps s l p else s

/-- The core that a command names, if it executes now: the active timed task of a joined pair, or a core of a split pair with
an unfinished work item and no access in flight (R254 to R258); derating step 3 suspends untimed work (R541). -/
def coreOf (s : State) (x : Ctx) : Option Core :=
  let q := pair s x.lane x.pair
  if q.split then
    let u := if x.odd then q.odd else q.even
    if isVoting s x.lane && u.active && u.wait.isNone && s.pw.dstep != 3 then some ⟨x, none, u.bank⟩ else none
  else
    match q.active with
    | some t =>
      if runsTimed s x.lane && !x.odd && s.ctl.state == .run && (q.tasks.get t).phase == .ready then
        some ⟨x, some t, (q.tasks.get t).bank⟩
      else none
    | none => none

/-- The bank of the executing core written back. -/
def putBank (s : State) (c : Core) (b : Bank) : State :=
  match c.timed with
  | some t => modTask s c.x.lane c.x.pair t fun r => { r with bank := b }
  | none =>
    modPair s c.x.lane c.x.pair fun q =>
      if c.x.odd then { q with odd := { q.odd with bank := b } } else { q with even := { q.even with bank := b } }

/-- A core of a split pair changed. -/
def modCore (s : State) (x : Ctx) (f : UCore → UCore) : State :=
  modPair s x.lane x.pair fun q => if x.odd then { q with odd := f q.odd } else { q with even := f q.even }

/-- The pair joins once both cores have ended and no split is to resume (R257). -/
def joinIfDone (s : State) (l : LaneId) (p : PairId) : State :=
  let q := pair s l p
  if q.split && !q.even.active && !q.odd.active && !q.resume then modPair s l p fun q => { q with split := false } else s

/-- The end of a work item (R85, R130, R149). -/
def endItem (s : State) (x : Ctx) : State :=
  joinIfDone (modCore s x fun u => { u with active := false, wait := none }) x.lane x.pair

def excNo : ExcCode → Nat
  | .mem => 1
  | .align => 2
  | .access => 3
  | .illegal => 4
  | .arith => 5
  | .overrun => 6
  | .stack => 7

/-- The exception record of R84: an address for codes 1 to 3 only. -/
def excRec (code : ExcCode) (pc addr : Word) (imm : BitVec 16) : ExcRec :=
  { code := code, pc := pc, addr := if excNo code ≤ 3 then addr else 0, imm := imm }

/-- An exception of a core (R82, R84, R85, R110, R248): the timed activation ends with its record posted, its bank unchanged,
and the pair goes on with another ready task; a rejoining lane's rejoin fails; a work item ends and is recorded. -/
def raiseExc (s : State) (c : Core) (cost : Nat) (code : ExcCode) (addr : Word) (imm : BitVec 16) : State :=
  match c.timed with
  | some t =>
    if (lane s c.x.lane).st = .rejoining then rejoinFail s 0x0A
    else
      let s := modTask s c.x.lane c.x.pair t fun r =>
        { r with exc := some (excRec code c.bank.pc addr imm), phase := .ended, cycles := r.cycles + cost }
      reschedule (modPair s c.x.lane c.x.pair closeWindow) c.x.lane c.x.pair
  | none =>
    record (endItem s c.x) 0x0C0B
      (d1 (laneNo c.x.lane) ++ d1 c.x.pair.val ++ d1 (b2n c.x.odd) ++ d1 (excNo code) ++ d4 c.bank.pc.toNat)

/-- What each core's signature register takes in for a retired instruction (R250). -/
def misrWords (c : Core) (b : Bank) (ws : List Word) : List Word :=
  c.bank.pc :: ws ++ [bit b.dz 0 ||| bit b.finv 1, BitVec.ofNat 32 (b.ret.length + 16 * b.loops.length)]

/-- A timed instruction enters the open window of the pair's leader and checker; the 64th closes it (R250, R251). -/
def retire (s : State) (c : Core) (b : Bank) (ws : List Word) : State :=
  modPair s c.x.lane c.x.pair fun q =>
    let q := { q with leader := Config.misr q.leader (misrWords c b ws), checker := Config.misr q.checker (misrWords c b ws),
                      retired := q.retired + 1 }
    if 64 ≤ q.retired then closeWindow q else q

/-- An instruction completes: its bank, its cycles (R103) and, in a timed task, the signature registers. -/
def complete (s : State) (c : Core) (cost : Nat) (b : Bank) (ws : List Word) : State :=
  let s := putBank s c b
  match c.timed with
  | some t => retire (modTask s c.x.lane c.x.pair t fun r => { r with cycles := r.cycles + cost }) c b ws
  | none => s

/-- The end of an activation or of a work item after its last instruction (R129, R130, R149). -/
def finishCore (s : State) (c : Core) : State :=
  match c.timed with
  | some t =>
    let s := modTask s c.x.lane c.x.pair t fun r => { r with phase := .done }
    reschedule (modPair s c.x.lane c.x.pair closeWindow) c.x.lane c.x.pair
  | none => endItem s c.x

/-- EC_ byte offset of a fetch address. -/
def fetchEc (c : Core) (a : Nat) : Nat := if c.timed.isSome then bankBase c.x.pair + a else commonBase + (a - 0x1000000)

/-- What a fetch of the word at an address meets (R77, R641): the exception it raises, if any, and the state after the
read. -/
def fetchCheck (s : State) (c : Core) (a : Nat) (h : Hit) : State × Option ExcCode :=
  match regionOf a with
  | none => (s, some .mem)
  | some r =>
    let ok := match r with
      | .bank o =>
        if (layout s c.x.pair).work ≤ o then none else some (c.timed.isSome && decide (o < (layout s c.x.pair).code))
      | .common _ => some c.timed.isNone
      | _ => some false
    match ok with
    | none => (s, some .mem)
    | some false => (s, some .access)
    | some true =>
      let ea := fetchEc c a / 4 * 4
      let s := modLane s c.x.lane fun y => { y with dmg := dmgMeet y.dmg ea h }
      let r := eccRead s (.lane c.x.lane) ea .pair (dmgFind (lane s c.x.lane).dmg ea)
      (r.1, if r.2 then none else some .mem)

/-- What an outcome does to the state. -/
def applyAct (c : Core) (cost : Nat) : Act → State
  | .raise s code addr imm => raiseExc s c cost code addr imm
  | .stall s => s
  | .go s b ws => complete s c cost b ws
  | .finish s b ws => finishCore (complete s c cost b ws) c

/-- The word at an address that a core may fetch from. -/
def fetchWord (s : State) (c : Core) (a : Nat) : Word := memWord 0 (lane s c.x.lane).sram (fetchEc c a / 4 * 4)

/-- The agent that a core is. -/
def agentOf (x : Ctx) : Agent := .core x.lane x.pair x.odd

/-- An access of a core to a domain: it stalls where the domain is not ready (R35, R531). -/
def reach (s : State) (x : Ctx) (d : Option SlackDom) (k : State → Act) : Act :=
  match d with
  | none => k s
  | some d => if domReady s d then k s else .stall (stallOn s d (agentOf x))

/-- The domain of the word that a core fetches: the lane-common area for an untimed core whose PC lies there (R530). -/
def fetchDom (c : Core) : Option SlackDom :=
  if c.timed.isNone && decide (0x1000000 ≤ c.bank.pc.toNat) && decide (c.bank.pc.toNat < 0x1800000) then some (.common c.x.lane) else none

/-- Whether a core's fetch finds its domain ready. -/
def fetchReady (s : State) (c : Core) : Bool := ((fetchDom c).map (domReady s)).getD true

/-- One instruction on the core that `x` names. Where that core executes nothing now, or the word at its PC is not the
instruction's (`spelt`), nothing happens (assumption log entries 13 and 37). A fetch from a sleeping lane-common area stalls (R35). The order is that of R641: fetch, EX_ILLEGAL, then the
body. A fetch that fails has no instruction word, so it has no cost: DESIGN CHOICE, log entry 37 (R110 names none). -/
def runInstr (x : Ctx) (spelt : Word → Bool) (cost : Nat) (legal : Bool) (body : State → Core → Act) (s : State) : State :=
  match coreOf s x with
  | none => s
  | some c =>
    if !fetchReady s c then stallOn s (.common x.lane) (agentOf x)
    else
      match fetchCheck s c c.bank.pc.toNat x.fetch with
      | (s, some code) => raiseExc s c 0 code c.bank.pc 0
      | (t, none) =>
        if !spelt (fetchWord t c c.bank.pc.toNat) then s
        else if legal then applyAct c cost (body t c)
        else raiseExc t c cost .illegal 0 0

/-- A result in a word register. -/
def giveW (s : State) (b : Bank) (d : BitVec 4) (v : Word) (t : Byte) : Act :=
  .go s (nextPc (wrW b d v t)) (if d = 0 then [] else [v, zext t])

/-- A result in a bit register. -/
def giveB (s : State) (b : Bank) (d : BitVec 4) (v : Bool) (t : Byte) : Act :=
  .go s (nextPc (wrB b d v t)) (if d.setWidth 3 = (0 : BitVec 3) then [] else [bit v 0, zext t])

/-- The system flag FINVTRAP of the running task: TRAP of its TASK; untimed work has none set up (R78). -/
def finvTrap (s : State) (c : Core) : Bool :=
  match c.timed with
  | some t => ((taskDecl s c.x.pair t).map (·.trap)).getD false
  | none => false

end Sys2Proof.Machine
end

