-- ==== Sys2Proof/Machine/LoadStore.lean ====
section
/-! DEFINITION. Loads and stores of the pair-private bank, the lane-common area and LN_: permission, alignment, codes, effect
(R30, R31, R58, R69, R72 to R76, R127, R641, R642). -/

namespace Sys2Proof.Machine

/-- An offset lies in a section of the running task. -/
def inSect (s : State) (p : PairId) (t : TaskId) (k : SectKind) (o : Nat) : Bool :=
  match taskDecl s p t with
  | none => false
  | some d => let r := sectRange (setup s) d k; decide (r.1 ≤ o) && decide (o < r.1 + r.2)

def isTagged : AccClass → Bool
  | .tagLoad => true
  | .tagStore => true
  | _ => false

def isStore : AccClass → Bool
  | .store _ => true
  | .tagStore => true
  | _ => false

/-- What a timed task may do at an offset of its pair's bank (R72). -/
def bankPerm (s : State) (p : PairId) (t : TaskId) (cls : AccClass) (o : Nat) : Bool :=
  let u := layout s p
  if o < u.code then false
  else if o < u.k then !isTagged cls && !isStore cls
  else if o < u.pi then cls == .tagLoad && inSect s p t .pi o
  else if o < u.pq then isTagged cls && inSect s p t .pq o
  else if o < u.ret then inSect s p t .ret o
  else inSect s p t .work o

/-- Where an ordinary access goes, or the exception of its address or class (R30, R31, R37, R40, R69, R72, R76). -/
def place (s : State) (c : Core) (cls : AccClass) (a : Nat) : Except ExcCode Place :=
  match regionOf a with
  | none => .error .mem
  | some (.bank o) =>
    if (layout s c.x.pair).work ≤ o then .error .mem
    else
      match c.timed with
      | some t => if bankPerm s c.x.pair t cls o then .ok (.bank o) else .error .access
      | none => .error .access
  | some (.common o) => if c.timed.isNone && !isTagged cls then .ok (.common o) else .error .access
  | some (.ln _) =>
    match regAt (a / 4 * 4) with
    | none => .error .mem
    | some r => if cls = .load true then .ok (.ln r) else .error .access
  | some (.block _) =>
    match regAt (a / 4 * 4) with
    | none => .error .mem
    | some _ => .error .access
  | some (.quay _) => .error .access
  | some (.corbel _) => .error .access

/-- An ordinary access checked in the order of R641: address, class, alignment to `size`. -/
def access (s : State) (c : Core) (cls : AccClass) (size : Nat) (a : Word) : Except ExcCode Place :=
  match place s c cls a.toNat with
  | .error e => .error e
  | .ok q => if a.toNat % size = 0 then .ok q else .error .align

/-- EC_ byte offset of a place. -/
def ecOf (c : Core) : Place → Nat
  | .bank o => bankBase c.x.pair + o
  | .common o => commonBase + o
  | .ln _ => 0

/-- A pair's read of the word at an EC_ offset: what the code finds (R510, R512, R515). -/
def readWord (s : State) (c : Core) (ea : Nat) (h : Hit) : State × Bool :=
  let wa := ea / 4 * 4
  let s := modLane s c.x.lane fun y => { y with dmg := dmgMeet y.dmg wa h }
  eccRead s (.lane c.x.lane) wa .pair (dmgFind (lane s c.x.lane).dmg wa)

/-- The bytes of the lane's SRAM from an EC_ offset. -/
def sramBytes (s : State) (c : Core) (ea n : Nat) : List Byte := memReadN 0 (lane s c.x.lane).sram ea n

/-- The sleepable domain of a place: the lane-common area (R530). -/
def placeDom (c : Core) : Place → Option SlackDom
  | .common _ => some (.common c.x.lane)
  | _ => none

/-- A load of `n` bytes, 1 to 8, aligned to its size: a bad word raises EX_MEM; else `k` gets the bytes. -/
def loadThen (s : State) (c : Core) (cls : AccClass) (n : Nat) (a : Word) (k : State → List Byte → Act) : Act :=
  match access s c cls n a with
  | .error e => .raise s e a 0
  | .ok (.ln r) => k s (wordBytes (regGet s r))
  | .ok q =>
    let ea := ecOf c q
    reach s c.x (placeDom c q) fun s =>
      match readWord s c ea c.x.data with
      | (s, false) => .raise s .mem a 0
      | (s, true) =>
        if n ≤ 4 then k s (sramBytes s c ea n)
        else
          match readWord s c (ea + 4) .none with
          | (s, false) => .raise s .mem a 0
          | (s, true) => k s (sramBytes s c ea n)

/-- The tag of a loaded value: neutral from the pair's bank, 0x80 from elsewhere (R58). -/
def loadTag (a : Word) : Byte := if a.toNat < 0x200000 then neutral else outside

/-- A store writes a lane's SRAM: fresh check bits cure the word (R642). In the wait phase of a rejoin it is forwarded from the
source lane (R247). -/
def writeSram (s : State) (l : LaneId) (ea : Nat) (w : Word) (be : BitVec 4) : State :=
  let put (x : LaneSt) : LaneSt := { x with sram := memWriteWord 0 x.sram ea w be, dmg := dmgCure x.dmg ea }
  let s := modLane s l put
  match s.rejoin.lane with
  | some r => if s.rejoin.phase = .wait ∧ s.rejoin.src = some l then modLane s r put else s
  | none => s

/-- A store to a word of the running task's RET or WORK section enters its signature (R236). -/
def logWrite (s : State) (c : Core) (q : Place) (w : Word) (be : BitVec 4) : State :=
  match q, c.timed with
  | .bank o, some t =>
    if inSect s c.x.pair t .ret o || inSect s c.x.pair t .work o then
      modTask s c.x.lane c.x.pair t fun r => { r with sigs := .write (BitVec.ofNat 32 o) w be :: r.sigs }
    else s
  | _, _ => s

/-- Bytes that a force on a slot covers: 8 of a tagged slot, 4 of a qualified bit slot. -/
def slotLen (tagged : Bool) : Nat := if tagged then 8 else 4

/-- Whether an RW force holds the slot that bytes `o` to `o + n - 1` of the bank touch: its stores are discarded (R209). -/
def rwForced (s : State) (p : PairId) (t : TaskId) (o n : Nat) : Bool :=
  s.ctl.forces.any fun f =>
    f.under.isSome &&
      match f.item with
      | .slot k p' t' off tagged =>
        (k == .ret || k == .work) && p' == p && t' == t &&
          (match taskDecl s p t with
           | none => false
           | some d =>
             let a := (sectRange (setup s) d k).1 + off
             decide (o < a + slotLen tagged) && decide (a < o + n))
      | _ => false

def storeForced (s : State) (c : Core) (q : Place) (n : Nat) : Bool :=
  match q, c.timed with
  | .bank o, some t => rwForced s c.x.pair t o n
  | _, _ => false

/-- One whole word stored at a place. -/
def storeWord (s : State) (c : Core) (q : Place) (w : Word) : State :=
  logWrite (writeSram s c.x.lane (ecOf c q) w 0xF) c q w 0xF

/-- The place `n` bytes further. -/
def Place.plus (q : Place) (n : Nat) : Place :=
  match q with
  | .bank o => .bank (o + n)
  | .common o => .common (o + n)
  | .ln r => .ln r

/-- Words stored from an address, aligned to `n` bytes: 1 or 2 words (STW, STQ, STT). -/
def storeThen (s : State) (c : Core) (cls : AccClass) (n : Nat) (a : Word) (ws : List Word) (k : State → Act) : Act :=
  match access s c cls n a with
  | .error e => .raise s e a 0
  | .ok q =>
    reach s c.x (placeDom c q) fun s =>
      if storeForced s c q n then k s else k ((ws.zipIdx).foldl (fun s p => storeWord s c (q.plus (4 * p.2)) p.1) s)

/-- A partial store reads the word with correction, merges and writes it back; an uncorrectable word stays so (R515, R642). -/
def storePart (s : State) (c : Core) (q : Place) (w : Word) (n : Nat) : State :=
  let ea := ecOf c q
  let wa := ea / 4 * 4
  let sh := ea % 4
  let be : BitVec 4 := BitVec.ofNat 4 ((2 ^ n - 1) * 2 ^ sh)
  let r := readWord s c ea c.x.data
  let old := dmgFind (lane r.1 c.x.lane).dmg wa
  let s := writeSram r.1 c.x.lane wa (BitVec.shiftLeft w (8 * sh)) be
  let s := if r.2 then s else modLane s c.x.lane fun y => { y with dmg := dmgSet y.dmg wa old }
  let now := memWord 0 (lane s c.x.lane).sram wa
  match q with
  | .bank o => logWrite s c (.bank (o / 4 * 4)) now be
  | _ => s

/-- A store of 1 or 2 bytes (STB, STH). -/
def partThen (s : State) (c : Core) (n : Nat) (a : Word) (w : Word) (k : State → Act) : Act :=
  match access s c (.store false) n a with
  | .error e => .raise s e a 0
  | .ok q => reach s c.x (placeDom c q) fun s => if storeForced s c q n then k s else k (storePart s c q w n)

/-- What a store adds to the signature registers: address, data and byte mask (R250). -/
def storeWords (a : Word) (ws : List Word) (be : Nat) : List Word :=
  (ws.zipIdx).flatMap fun p => [a + BitVec.ofNat 32 (4 * p.2), p.1, BitVec.ofNat 32 be]

/-- A qualified bit slot as a word (R74). -/
def bitSlot (v : Bool) (t : Byte) : Word := bit v 8 ||| zext t

/-- The access of a state block that must lie in the task's own RET or WORK section (R119, R131). -/
def ownBlock (s : State) (c : Core) (n : Nat) (a : Word) : Except ExcCode Nat :=
  match regionOf a.toNat, c.timed with
  | none, _ => .error .mem
  | some (.bank o), some t =>
    if (layout s c.x.pair).work ≤ o then .error .mem
    else if inSect s c.x.pair t .ret o || inSect s c.x.pair t .work o then (if a.toNat % n = 0 then .ok o else .error .align)
    else .error .access
  | some (.bank o), none => if (layout s c.x.pair).work ≤ o then .error .mem else .error .access
  | some (.ln _), _ => if (regAt (a.toNat / 4 * 4)).isNone then .error .mem else .error .access
  | some (.block _), _ => if (regAt (a.toNat / 4 * 4)).isNone then .error .mem else .error .access
  | some _, _ => .error .access

end Sys2Proof.Machine
end

