-- ==== Sys2Proof/Machine/Shared.lean ====
section
/-! DEFINITION. Untimed shared memory (04_instruction_semantics.md, R141 to R146). -/

namespace Sys2Proof.Machine

/-- The four instructions that reach Quay, the device registers and the Corbel window. -/
inductive SharedOp where
  | ldx | stx | cas | xchg
  deriving DecidableEq, Repr

/-- Where a permitted untimed access goes. -/
inductive SharedPlace where
  | quay (o : Nat)
  | reg (r : Reg)
  | corbel (off : Nat)
  deriving DecidableEq, Repr

/-- Where an untimed access goes, or its exception, in the order of R641 (R30, R31, R37, R40, R76, R141). A lane's write that
a register does not permit is refused here. -/
def sharedPlace (s : State) (c : Core) (op : SharedOp) (a : Word) (w : Word) : Except ExcCode SharedPlace :=
  let n := a.toNat
  let go (q : SharedPlace) : Except ExcCode SharedPlace :=
    if c.timed.isSome then .error .access else if n % 4 = 0 then .ok q else .error .align
  match regionOf n with
  | none => .error .mem
  | some (.quay o) => go (.quay o)
  | some (.corbel o) => go (.corbel o)
  | some (.bank o) => if (layout s c.x.pair).work ≤ o then .error .mem else .error .access
  | some (.common _) => .error .access
  | some (.ln _) => if (regAt (n / 4 * 4)).isNone then .error .mem else .error .access
  | some (.block _) =>
    match regAt (n / 4 * 4) with
    | none => .error .mem
    | some r =>
      match op with
      | .ldx => go (.reg r)
      | .stx => if (regSet s (.lane c.x.lane) r w).isSome then go (.reg r) else .error .access
      | _ => .error .access

/-- The core as an owner of lock words and movers. -/
def coreOwner (c : Core) : LockOwner := .core c.x.lane c.x.pair c.x.odd

def coreAgent (c : Core) : Agent := agentOf c.x

/-- The Corbel address of an offset in the outbound window (R33, R460). -/
def corbelAddr (s : State) (off : Nat) : Word := BitVec.ofNat 32 (s.br.wbase.toNat * 0x40000000 + off)

/-- The posting queue holds 16 entries (R472). -/
def queueFull (s : State) : Bool := decide (16 ≤ s.br.queue.length)

/-- An access enters the posting queue with the next posting sequence (R472). -/
def enqueue (s : State) (ag : Agent) (k : AccKind) (off : Nat) : State :=
  let e : Posted := { pseq := s.br.nextSeq, agent := ag, kind := k, addr := corbelAddr s off,
                      win := BitVec.ofNat 4 (off / 0x4000000), orphan := false }
  { s with br := { s.br with queue := s.br.queue ++ [e], nextSeq := s.br.nextSeq + 1,
                             headAt := if s.br.queue.isEmpty then s.up else s.br.headAt } }

/-- A core waits for the access it has just entered; its data goes to Wd (R473). -/
def waitAcc (s : State) (c : Core) (k : AccKind) (off : Nat) (d : BitVec 4) : Act :=
  if queueFull s then .stall s
  else .stall (modCore (enqueue s (coreAgent c) k off) c.x fun u => { u with wait := some ⟨s.br.nextSeq, d⟩ })

/-- A read of a Quay word for an untimed instruction: bad data raises EX_MEM (R146). -/
def quayRead (s : State) (c : Core) (o : Nat) (a : Word) (k : State → Word → Act) : Act :=
  match quayHit s o .untimed c.x.data with
  | (s, false) => .raise s .mem a 0
  | (s, true) => k s (quayWord s o)

/-- LDX (a register of a sleeping domain: R35): one word from Quay, a register or the Corbel window, with tag 0x80 (R141, R146, R473). -/
def execLdx (x : Ctx) (f : FormC) (s : State) : Host.Outcome State Fault Refusal :=
  .next (runInstr x (isC 0x64 f) 0 true (fun s c =>
    let a := addrC c.bank f
    match sharedPlace s c .ldx a 0 with
    | .error e => .raise s e a 0
    | .ok (.quay o) => quayRead s c o a fun s w => giveW s c.bank f.d w outside
    | .ok (.reg r) => reach s c.x (domainOf c.x.lane a.toNat) fun s => let q := regRead s r; giveW q.1 c.bank f.d q.2 outside
    | .ok (.corbel o) => waitAcc s c .load o f.d) s)

/-- STX: one word to Quay, to a register, or posted to the Corbel window (R40, R141, R472). -/
def execStx (x : Ctx) (f : FormC) (s : State) : Host.Outcome State Fault Refusal :=
  .next (runInstr x (isC 0x65 f) 0 true (fun s c =>
    let a := addrC c.bank f
    let v := (rdW c.bank f.d).v
    match sharedPlace s c .stx a v with
    | .error e => .raise s e a 0
    | .ok (.quay o) => .go (quayWrite s o v 0xF (coreOwner c)) (nextPc c.bank) []
    | .ok (.reg r) =>
      reach s c.x (domainOf c.x.lane a.toNat) fun s => .go ((regSet s (.lane c.x.lane) r v).getD s) (nextPc c.bank) []
    | .ok (.corbel o) =>
      if queueFull s then .stall s else .go (enqueue s (coreAgent c) (.store v) o) (nextPc c.bank) []) s)

/-- CAS: writes Wt where the word equals Wd; Wd receives the word read (R142, R143). -/
def execCas (x : Ctx) (f : FormA) (s : State) : Host.Outcome State Fault Refusal :=
  .next (runInstr x (isA 0x66 f) 0 (legalA3 f) (fun s c =>
    let a := (rdW c.bank f.s1).v
    let old := (rdW c.bank f.d).v
    let new := (rdW c.bank f.s2).v
    match sharedPlace s c .cas a new with
    | .error e => .raise s e a 0
    | .ok (.quay o) =>
      quayRead s c o a fun s w =>
        giveW (if w = old then quayWrite s o new 0xF (coreOwner c) else s) c.bank f.d w outside
    | .ok (.reg _) => .raise s .access a 0
    | .ok (.corbel o) => waitAcc s c (.cas old new) o f.d) s)

/-- XCHG: writes Wd and gives Wd the word that stood there (R142, R143). -/
def execXchg (x : Ctx) (f : FormA) (s : State) : Host.Outcome State Fault Refusal :=
  .next (runInstr x (isA 0x67 f) 0 (legalA2 f) (fun s c =>
    let a := (rdW c.bank f.s1).v
    let new := (rdW c.bank f.d).v
    match sharedPlace s c .xchg a new with
    | .error e => .raise s e a 0
    | .ok (.quay o) => quayRead s c o a fun s w => giveW (quayWrite s o new 0xF (coreOwner c)) c.bank f.d w outside
    | .ok (.reg _) => .raise s .access a 0
    | .ok (.corbel o) => waitAcc s c (.xchg new) o f.d) s)

/-- Whether a store, CAS or XCHG of a core still stands in the posting queue. -/
def hasOutstanding (s : State) (ag : Agent) : Bool := s.br.queue.any fun e => e.agent == ag && e.kind != .load

/-- FENCE: waits until every earlier STX, CAS and XCHG of the core has completed (R145); in a timed task it is refused (R76). -/
def execFence (x : Ctx) (f : FormA) (s : State) : Host.Outcome State Fault Refusal :=
  .next (runInstr x (isA 0x63 f) 0 (legalA0 f) (fun s c =>
    if c.timed.isSome then .raise s .access 0 0
    else if hasOutstanding s (coreAgent c) then .stall s
    else .go s (nextPc c.bank) []) s)

end Sys2Proof.Machine
end

