-- ==== Sys2Proof/Machine/BridgeOps.lean ====
section
/-! DEFINITION. The Corbel bridge as master: the posting queue, movers, errors, locks (14_corbel_bridge.md, R459 to R479,
R485 to R489). -/

namespace Sys2Proof.Machine

def modBr (s : State) (f : Bridge → Bridge) : State := { s with br := f s.br }

/-- The bridge takes part in the bus: CBROLE 0b01 or 0b10, awake, and CB_RST_N high (R459, R466). -/
def onBus (s : State) : Bool := awake s && (s.pw.straps.cbrole == 1 || s.pw.straps.cbrole == 2) && !s.br.rstLow

/-- CB_PAR that makes the number of ones over CB_AD, CB_CBE_N and CB_PAR even (R464). -/
def evenPar (ad : Word) (cbe : BitVec 4) : Bool :=
  ((List.range 32).foldl (fun p i => p ^^ ad.getLsbD i) false) ^^ ((List.range 4).foldl (fun p i => p ^^ cbe.getLsbD i) false)

/-- The command codes of the bus, READ and WRITE (R462). -/
def busRead : BitVec 4 := 6
def busWrite : BitVec 4 := 7

/-- 64 µs in ns (R473, R482). -/
def busLimit : Nat := 64000

/-- The module has the bus grant: in the arbiter role it is the one it gives, elsewhere the command stands for CB_GNT_N sampled low with the
bus idle (R467, R468). No inbound transaction is under way. -/
def granted (s : State) : Bool :=
  s.br.claimed.isNone && (!rackArbiter s || (s.br.grant.map Fin.val == some (rackSlot s)))

/-- The bytes of a word in the opposite order. -/
def swapWord (w : Word) : Word := leWord (byteOf w 3) (byteOf w 2) (byteOf w 1) (byteOf w 0)

/-- A lane's word as it travels on CB_AD, and back (R469): value-invariant or address-invariant. -/
def busWord (valueInv : Bool) (w : Word) : Word := if valueInv then w else swapWord w

/-- Byte enables on the bus from those of the lane's bytes, and back: CB_CBE_N[3] stands for byte offset 0 (R461, R469). -/
def busEnables (valueInv : Bool) (be : BitVec 4) : BitVec 4 := if valueInv then be else be.reverse

/-- The attribute of the region of an entry of the posting queue. -/
def regionBo (s : State) (e : Posted) : Bool := s.br.bo.getLsbD e.win.toNat

def isStoreAcc : AccKind → Bool
  | .store _ => true
  | _ => false

def isLocked : AccKind → Bool
  | .cas _ _ => true
  | .xchg _ => true
  | _ => false

/-- Error kinds of BR_PWLI.KIND. -/
inductive BusErr where
  | masterAbort | targetAbort | parity | timeout
  deriving DecidableEq, Repr

def errKind : BusErr → Nat
  | .masterAbort => 1
  | .targetAbort => 2
  | .parity => 3
  | .timeout => 4

/-- Mover error codes (R488). -/
def moverErr : BusErr → Nat
  | .masterAbort => 2
  | .targetAbort => 3
  | .parity => 4
  | .timeout => 5

def agentPair : Agent → Nat
  | .core _ p _ => p.val
  | .steward => 0

def agentCore : Agent → Bool
  | .core _ _ o => o
  | .steward => false

/-- The posted-write log entry of a failed write (R474, BR_PWLI). -/
def pwEntry (e : Posted) (k : BusErr) (onAd : Word) : PwEntry :=
  { valid := true, addr := e.addr, kind := BitVec.ofNat 3 (errKind k), lane := BitVec.ofNat 2 (agentLane e.agent),
    pair := BitVec.ofNat 4 (agentPair e.agent), core := agentCore e.agent, win := e.win, pseq := e.pseq, data := onAd }

/-- A posted write fails: the lowest free log entry, PWERR and event 0x0801, or BR_PWLOST and 0x0802 (R474). -/
def logWriteFail (s : State) (e : Posted) (k : BusErr) (onAd : Word) : State :=
  match (fins 16).find? fun i => !(s.br.log.get i).valid with
  | some i =>
    let s := modBr s fun b => { b with log := b.log.set i (pwEntry e k onAd), pwerr := true }
    record s 0x0801
      (d4 e.addr.toNat ++ d1 (errKind k) ++ d1 (agentLane e.agent) ++ d1 (agentPair e.agent) ++ d1 (b2n (agentCore e.agent)) ++
        d2 e.pseq.toNat)
  | none =>
    let s := modBr s fun b => { b with pwlost := b.pwlost.inc }
    record s 0x0802 (d4 s.br.pwlost.count.toNat)

/-- The core that waits for an entry of the queue: it exists, its lane has not dropped since, and it waits for that entry. A join does not
matter: the core receives the result when it resumes (R255). -/
def waiterOf (s : State) (e : Posted) : Option (Core × BitVec 4) :=
  match e.agent with
  | .steward => none
  | .core l p o =>
    let q := pair s l p
    let u := if o then q.odd else q.even
    match u.wait with
    | some w =>
      if !e.orphan && isVoting s l && u.active && w.pseq == e.pseq then
        some (⟨⟨l, p, o, .none, .none⟩, none, u.bank⟩, w.dest)
      else none
    | none => none

/-- The data of an access returns: Wd gets it with tag 0x80 and the core goes on (R58, R473). Data of a dropped lane's read is
discarded (R475). -/
def completeAcc (s : State) (e : Posted) (v : Word) : State :=
  match waiterOf s e with
  | none => s
  | some (c, d) => modCore (putBank s c (nextPc (wrW c.bank d v outside))) c.x fun u => { u with wait := none }

/-- An access ends in a bus error: EX_MEM at the core that waits (R146, R473). Where the write beat has failed, the record of R85
names it. -/
def failAcc (s : State) (e : Posted) (writeBeat : Bool) : State :=
  match waiterOf s e with
  | none => s
  | some (c, _) =>
    if writeBeat then
      record (endItem s c.x) 0x0C0B
        (d1 (laneNo c.x.lane) ++ d1 c.x.pair.val ++ d1 (b2n c.x.odd) ++ d1 (excNo .mem) ++ d4 c.bank.pc.toNat ++ d1 1)
    else raiseExc s c 0 .mem e.addr 0

/-- The head of the queue leaves it, and its transaction the bus; the next entry is the head from now on (R473). -/
def popQueue (s : State) : State :=
  modBr s fun b => { b with queue := b.queue.drop 1, out := b.out.filter fun t => t.src != .queue, headAt := s.up, idleAt := s.up }

/-- The word on CB_AD of a posted store. -/
def storeOnAd (s : State) (e : Posted) : Word :=
  match e.kind with
  | .store v => busWord (regionBo s e) v
  | .cas _ n => busWord (regionBo s e) n
  | .xchg n => busWord (regionBo s e) n
  | .load => 0

/-- The head of the queue ends in an error (R472 to R474). -/
def failHead (s : State) (k : BusErr) (writeBeat : Bool) : State :=
  match s.br.queue with
  | [] => s
  | e :: _ =>
    let ad := storeOnAd s e
    let s := popQueue s
    if isStoreAcc e.kind then logWriteFail s e k ad else failAcc s e writeBeat

/-- A mover's descriptor (R486). -/
structure Desc where
  own   : Bool
  dir   : Nat
  bo    : Bool
  len   : Nat
  qaddr : Nat
  caddr : Nat
  next  : Word
  bad   : Bool
  deriving DecidableEq, Repr

/-- The descriptor at a Quay offset, with the check of error 0x1. -/
def descAt (s : State) (o : Nat) : Desc :=
  let ctrl := quayWord s o
  let q := quayWord s (o + 4)
  let c := (quayWord s (o + 8)).toNat
  let nx := quayWord s (o + 12)
  let len := field ctrl 23 0
  let dir := field ctrl 30 29
  let bo := ctrl.getLsbD 28
  let qa := field q 22 0
  let bad := dir == 3 || len == 0 || field ctrl 27 24 != 0 || field q 31 23 != 0 || decide (quaySize < qa + len) ||
    (dir == 2 && decide (quaySize < c + len)) || (bo && (qa % 4 != 0 || c % 4 != 0 || len % 4 != 0)) ||
    (nx != 0xFFFFFFFF && nx.toNat % 32 != 0)
  ⟨ctrl.getLsbD 31, dir, bo, len, qa, c, nx, bad⟩

/-- A mover goes idle at the end of its chain (R487). -/
def moverIdle (s : State) (n : Fin 8) : State := modMover s n fun m => { m with busy := false, owner := none }

/-- Bytes of the next piece: up to the 64-byte boundary of the Corbel address (R471). -/
def pieceLen (d : Desc) (moved : Nat) : Nat := min (d.len - moved) (64 - (d.caddr + moved) % 64)

/-- The beats of a piece that starts at Corbel address `a` with bytes `bs`, one for each word it touches: the word on CB_AD and
the enabled bytes. -/
def pieceBeats (bo : Bool) (a : Nat) (bs : List Byte) : List (Word × BitVec 4) :=
  (List.range ((a % 4 + bs.length + 3) / 4)).map fun i =>
    let x := spanWord a bs (a / 4 * 4 + 4 * i)
    (busWord bo x.1, busEnables bo x.2)

/-- The bytes that the words of a read carry for a piece that starts at Corbel address `a`. -/
def pieceBytes (bo : Bool) (a n : Nat) (ws : List Word) : List Byte :=
  (((ws.map (busWord bo)).flatMap wordBytes).drop (a % 4)).take n

/-- A mover stops on an error; a transaction of its own leaves the bus. -/
def moverFails (s : State) (n : Fin 8) (err : Nat) : State :=
  moverError (modBr s fun b => { b with out := b.out.filter fun t => t.src != .mover n }) n err

/-- Reading a mover's source bytes in Quay: bad data anywhere in them makes it fail. -/
def moverSource (s : State) (n : Fin 8) (o len : Nat) (h : Hit) : State × Bool :=
  (List.range ((o % 4 + len + 3) / 4)).foldl (fun r i =>
    if r.2 then quayHit r.1 (o / 4 * 4 + 4 * i) (.mover n) (if i = 0 then h else .none) else r) (s, true)

/-- Owner of what a mover writes. -/
def moverWriter (m : Mover) : LockOwner :=
  match m.owner with
  | some (.lane l) => .core l 0 false
  | _ => .steward

/-- A mover's descriptor before it is run: the chain ends at one without OWN, and stops at an invalid one (R487, R488). -/
def moverReady (s : State) (n : Fin 8) : State × Option Desc :=
  let m := s.br.movers.get n
  if !m.busy then (s, none)
  else
    let d := descAt s m.desc.toNat
    if !d.own then (moverIdle s n, none) else if d.bad then (moverFails s n 1, none) else (s, some d)

/-- A transaction that starts on the bus. -/
def startTx (s : State) (src : OutSrc) (write lock : Bool) (bus : BusTx) : State :=
  modBr s fun b =>
    { b with out := some { src := src, phase := .issued, backoffs := (b.out.map (·.backoffs)).getD 0, write := write, lock := lock,
                           got := (b.out.map (·.got)).getD 0,
                           since := (b.out.map (·.since)).getD (if src = .queue then b.headAt else s.up),
                           ended := (b.out.map (·.ended)).getD s.up },
             lastBus := some bus, errN := false, parked := false }

/-- The head of the posting queue goes onto the bus (R470, R472, R476). -/
def issueHead (s : State) : State :=
  match s.br.queue with
  | [] => s
  | e :: _ =>
    if isStoreAcc e.kind then startTx s .queue true false ⟨true, e.addr, [(storeOnAd s e, 0xF)]⟩
    else startTx s .queue false (isLocked e.kind) ⟨false, e.addr, [(0, 0xF)]⟩

/-- The next piece of a mover goes onto the bus (R471, R507). -/
def issuePiece (s : State) (n : Fin 8) : State :=
  match moverReady s n with
  | (s, none) => s
  | (s, some d) =>
    let m := s.br.movers.get n
    if d.dir = 2 ∨ d.len ≤ m.moved then s
    else
      let a := d.caddr + m.moved
      let k := pieceLen d m.moved
      if d.dir = 0 then
        match moverSource s n (d.qaddr + m.moved) k .none with
        | (s, false) => moverFails s n 7
        | (s, true) =>
          let beats := pieceBeats d.bo a (quayBytes s (d.qaddr + m.moved) k)
          startTx s (.mover n) true false ⟨true, BitVec.ofNat 32 (a / 4 * 4), beats⟩
      else
        startTx s (.mover n) false false
          ⟨false, BitVec.ofNat 32 (a / 4 * 4), (pieceBeats d.bo a (List.replicate k 0)).map fun x => (0, x.2)⟩

/-- Bytes of a piece that `beats` beats carry. -/
def beatBytes (a k beats : Nat) : Nat := min k (4 * beats - a % 4)

/-- A mover's piece has gone over the bus: `k` of its bytes are moved (R487). -/
def pieceDone (s : State) (n : Fin 8) (k : Nat) (ws : List Word) : State :=
  let m := s.br.movers.get n
  let d := descAt s m.desc.toNat
  let s := modBr s fun b => { b with out := none, idleAt := s.up }
  let s :=
    if d.dir = 1 then
      quayWriteBytes s (d.qaddr + m.moved) (pieceBytes d.bo (d.caddr + m.moved) k ws) (moverWriter m)
    else s
  modMover s n fun m => { m with moved := m.moved + k }

/-- The word a read returns to the lane. -/
def gotWord (s : State) (e : Posted) (ws : List Word) : Word := busWord (regionBo s e) (ws.headD 0)

/-- The beat of the head of the queue completes (R472, R476). -/
def headDone (s : State) (t : OutTx) (ws : List Word) : State :=
  match s.br.queue with
  | [] => s
  | e :: _ =>
    let v := gotWord s e ws
    match e.kind with
    | .store _ => popQueue s
    | .load => completeAcc (popQueue s) e v
    | .cas old _ =>
      if t.write then completeAcc (popQueue s) e t.got
      else if v = old then
        modBr s fun b => { b with out := some { t with write := true, got := v },
                                  lastBus := some ⟨true, e.addr, [(storeOnAd s e, 0xF)]⟩ }
      else completeAcc (popQueue s) e v
    | .xchg _ =>
      if t.write then completeAcc (popQueue s) e t.got
      else modBr s fun b => { b with out := some { t with write := true, got := v },
                                     lastBus := some ⟨true, e.addr, [(storeOnAd s e, 0xF)]⟩ }

/-- A transaction ends in an error (R465, R473, R474, R488). -/
def txFails (s : State) (t : OutTx) (k : BusErr) (moved : Nat) (ws : List Word) : State :=
  match t.src with
  | .queue => failHead s k t.write
  | .mover n => moverFails (if moved = 0 then s else pieceDone s n moved ws) n (moverErr k)

/-- A transaction's 64 µs have passed (R473, R487). -/
def overdue (s : State) (t : OutTx) : Bool := decide (t.since + busLimit ≤ s.up)

/-- The lock-abort sequence (R477, R504). -/
def abortLock (s : State) : State :=
  match s.br.out, s.br.queue with
  | some t, e :: _ =>
    if t.lock then
      let s := record s 0x0805 (d1 (agentLane e.agent) ++ d1 (lockPoint t))
      forcedRelease (failHead s .timeout (t.write && t.phase == .issued)) 2 (agentLane e.agent)
    else s
  | _, _ => s

/-- Whether the head of the queue is an access that holds the fabric port: a read, or CAS and XCHG before their lock (R477). -/
def headHolds (s : State) : Bool :=
  match s.br.queue with
  | e :: _ => !isStoreAcc e.kind
  | [] => false

/-- Whether an outbound transaction holds the fabric port (R477): a mover's piece, or the head of the queue, which takes the port as it
reaches the head. -/
def holdsPort (s : State) : Bool :=
  match s.br.out with
  | none => headHolds s
  | some t => if t.src = .queue then headHolds s && !t.lock else true

/-- The requester of the outbound transaction, in records. -/
def outOwner (s : State) (t : OutTx) : Nat :=
  match t.src with
  | .mover n => holderNo (Fin.ofNat 14 (5 + n.val))
  | .queue =>
    match s.br.queue with
    | e :: _ => if agentLane e.agent = 0 then 4 else agentLane e.agent
    | [] => 0

/-- The Corbel address of an outbound transaction: of the head of the queue, or of a mover's next piece. -/
def outAddr (s : State) (t : OutTx) : Nat :=
  match t.src with
  | .queue => ((s.br.queue.head?.map Posted.addr).getD 0).toNat
  | .mover n => (descAt s (s.br.movers.get n).desc.toNat).caddr + (s.br.movers.get n).moved

/-- The outbound transaction that holds the fabric port: the one under way, or the head of the queue that waits for the bus. -/
def portTx (s : State) : OutTx :=
  s.br.out.getD { src := .queue, phase := .backedOff, backoffs := 0, write := false, lock := false, got := 0, since := s.br.headAt, ended := s.up }

/-- The near side backs off (R478); at the 16th back-off the requester gets a bus error (R479). -/
def backOff (s : State) : State :=
  let t := portTx s
  let who := outOwner s t
  let s := modBr s fun b =>
    { b with backoff := b.backoff.inc, out := some { t with phase := .backedOff, backoffs := t.backoffs + 1, ended := s.up } }
  let s := forcedRelease s 1 who
  if t.backoffs + 1 < 16 then s
  else
    let s := record s 0x0804 (d1 who ++ d4 (outAddr s t))
    match t.src with
    | .queue => failHead s .timeout false
    | .mover n => moverFails s n 6

/-- PORT 61 at E (R460); without it master and target are off. -/
def bridgeAtE (s : State) (u : Setup) : State :=
  match u.corbel with
  | some c =>
    modBr s fun b => { b with mt := true, wbase := BitVec.ofNat 2 (field c.w0 31 30), bo := BitVec.ofNat 16 (field c.w0 15 0), iwin := c.w1 }
  | none => modBr s fun b => { b with mt := false, wbase := 0, bo := 0, iwin := 0 }

end Sys2Proof.Machine
end

