-- ==== Sys2Proof/Machine/ParaOps.lean ====
section
/-! DEFINITION. The Parapet's safety functions: conditions, removal and restoring of enables, self-checks, activation at E
(12_safety_functions_parapet.md, R407 to R421). -/

namespace Sys2Proof.Machine

def modPara (s : State) (f : Parapet → Parapet) : State := { s with para := f s.para }

/-- The active word `i` of a function. -/
def act (s : State) (f : Fin 4) (i : Fin 6) : Word := (s.para.funcs.get f).act.get i

/-- The declared functions. -/
def declared (s : State) : List (Fin 4) := (fins 4).filter fun f => (s.para.funcs.get f).decl

/-- The tacho channels CHA and CHB, which every declared function names (R410). -/
def tachoPair (s : State) : Option (Nat × Nat) :=
  (declared s).head?.map fun f => (field (act s f 0) 13 8, field (act s f 0) 5 0)

/-- 16 ms in logic clocks. -/
def restoreClocks : Nat := 256000

/-- Logic clocks in the given number of ms. -/
def msClocks (n : Nat) : Nat := 16000 * n

/-- The condition that keeps a function's enable (R413). -/
def condHolds (s : State) (f : Fin 4) : Bool :=
  let x := s.para.funcs.get f
  if f.val = 0 then decide (speed s x.start ≤ (act s f 1).toNat)
  else if f.val = 1 then decide (s.para.rev.toNat ≤ (act s f 2).toNat)
  else if f.val = 2 then decide ((s.para.pos - s.para.pref).toInt.natAbs ≤ (act s f 1).toNat)
  else s.para.still

/-- The shortest period or elapsed time at which f is at or below f_rst. -/
def slowAge (rst : Nat) : Nat := 1600000000 / (rst + 1) + 1

/-- From when a tacho channel has been slow enough: its last rising edge where the period is long enough, else once the time
since has grown enough. -/
def slowFrom (start rst : Nat) (x : TachoCh) : Nat :=
  let rise := max start (x.rise.getD start)
  let before := max start (rise - x.period.getD rise)
  if slowAge rst ≤ rise - before then rise else rise + slowAge rst

/-- From when the restore condition has held: an instant not after now, or none (R415). -/
def holdsFrom (s : State) (f : Fin 4) : Option Nat :=
  let x := s.para.funcs.get f
  if f.val = 0 then
    let rst := (act s f 2).toNat
    let since := max (slowFrom x.start rst s.para.cha) (slowFrom x.start rst s.para.chb)
    if since ≤ logicNow s then some (min since (x.holdFrom.getD since)) else none
  else if condHolds s f then some (x.holdFrom.getD (logicNow s))
  else none

/-- A function's value in event data: SF_FVAL. -/
def fvalBytes (s : State) (f : Fin 4) : List Byte := d1 f.val ++ d4 (funcValue s f).toNat

/-- A function evaluated at once: a failing condition removes its enable, and the restore condition goes on or breaks
(R415). -/
def evalFunc (s : State) (f : Fin 4) : State :=
  let x := s.para.funcs.get f
  if !x.decl then s
  else
    let s := modFunc s f fun x => { x with holdFrom := holdsFrom s f }
    if x.en && !condHolds s f then
      record (modFunc s f fun x => { x with en := false, trip := x.trip.inc }) 0x0701 (fvalBytes s f)
    else s

/-- Every declared function evaluated, and the outputs driven (R408, R415). -/
def evalFuncs (s : State) : State := refreshDrives (forAll (declared s) s evalFunc)

/-- The enable of every declared function removed. -/
def removeAll (s : State) : State := forAll (declared s) s fun s f => modFunc s f fun x => { x with en := false }

/-- The first fault is kept in CAUSE. -/
def firstCause (old new : ParaCause) : ParaCause := if old = .none then new else old

/-- PARAPET FAULT (R421): latched, with its event at the check that latches it. -/
def parapetFault (s : State) (k : ParaCause) (code : BitVec 16) (data : List Byte) : State :=
  if s.para.pfault then s
  else
    let s := modPara s fun p => { p with pfault := true, cause := firstCause p.cause k }
    refreshDrives (removeAll (record s code data))

/-- TACHO FAULT (R420, R421): its kind is that of CAUSE. -/
def tachoFault (s : State) (k : ParaCause) (ch : Nat) : State :=
  if s.para.tfault then s
  else
    let s := modPara s fun p => { p with tfault := true, cause := firstCause p.cause k }
    refreshDrives (removeAll (record s 0x0706 (d1 (paraCauseNo k) ++ d1 ch)))

/-- The fault bit of a tacho island (R420): while it is set and 16 ms beyond, every function's enable is false. -/
def tachoIsland (s : State) (ch : Nat) (set : Bool) : State :=
  match tachoPair s with
  | none => s
  | some (a, b) =>
    let was := if ch = a then s.para.tachoFltA else s.para.tachoFltB
    if (ch ≠ a ∧ ch ≠ b) ∨ was = set then s
    else
      let s := modPara s fun p => if ch = a then { p with tachoFltA := set } else { p with tachoFltB := set }
      let s := record s 0x0707 (d1 ch ++ d1 (b2n set))
      if set then refreshDrives (removeAll s)
      else if s.para.tachoFltA || s.para.tachoFltB then s
      else modPara s fun p => { p with tachoFltEnd := some (logicNow s) }

/-- Whether anything beside a function's own condition keeps the enables false (R420, R421). -/
def enablesBarred (s : State) : Bool :=
  s.para.pfault || s.para.tfault || s.para.tachoFltA || s.para.tachoFltB ||
    (match s.para.tachoFltEnd with
     | some e => decide (logicNow s < e + restoreClocks)
     | none => false)

/-- A function starts (R416): its enable false, its timers from now, P equal to Pref, the reverse count 0. -/
def startFunc (s : State) (f : Fin 4) : State :=
  let now := logicNow s
  let s := modFunc s f fun x => { x with en := false, start := now, holdFrom := none }
  let s :=
    if f.val = 1 then modPara s fun p => { p with rev := 0 }
    else if f.val = 2 then modPara s fun p => { p with pref := p.pos }
    else if f.val = 3 then modPara s fun p => { p with still := false }
    else s
  modFunc s f fun x => { x with holdFrom := holdsFrom s f }

/-- A rising edge ends a period. -/
def risingEdge (x : TachoCh) (now : Nat) : TachoCh := { x with rise := some now, period := x.rise.map fun r => now - r }

/-- Whether a quadrature edge is in direction A (R410): CHA leads CHB. -/
def edgeInA (chA value other : Bool) : Bool := if chA then value != other else value == other

/-- The quantities that one quadrature edge changes (R412, R414, R420). -/
def edgeStep (s : State) (chA : Bool) (value : Bool) : State :=
  let now := logicNow s
  let p := s.para
  let a := edgeInA chA value (if chA then p.chb.level else p.cha.level)
  let cha := if chA then (let x := if value then risingEdge p.cha now else p.cha; { x with level := value }) else p.cha
  let chb := if chA then p.chb else (let x := if value then risingEdge p.chb now else p.chb; { x with level := value })
  let pos := if a then p.pos + 1 else p.pos - 1
  let against := a == (act s 1 1).getLsbD 0
  let rev := if against then lifeInc p.rev else (if p.rev = 0 then 0 else p.rev - 1)
  let still := p.still && decide ((pos - p.pss).toInt.natAbs ≤ (act s 3 2).toNat)
  let run := if p.lastCh = chA then p.oneRun + 1 else 1
  { s with para := { p with
    cha := cha, chb := chb, pos := pos, rev := if (p.funcs.get 1).decl then rev else p.rev, still := still,
    lastEdge := some now, oneRun := run, lastCh := chA } }

/-- One edge of CHA or CHB, with every function evaluated (R412, R415, R420). An edge within the logic clock of the other channel's last one
is a TACHO FAULT. -/
def tachoEdgeOn (s : State) (chA : Bool) (value : Bool) (ch : Nat) : State :=
  let old := if chA then s.para.cha.level else s.para.chb.level
  if old = value then s
  else
    -- the restore condition up to the edge is settled before the edge changes what it rests on
    let s := forAll (declared s) s fun s f => modFunc s f fun x => { x with holdFrom := holdsFrom s f }
    let both := s.para.lastEdge == some (logicNow s) && s.para.lastCh != chA
    let s := evalFuncs (edgeStep s chA value)
    if both then tachoFault s .tachoBoth ch else if 64 ≤ s.para.oneRun then tachoFault s .tachoOne ch else s

/-- At E the declared functions take their shadow words (R416, R417): a function whose words are new starts, the others go
on; a function no longer declared ceases. -/
def activate (s : State) (decls : List ParapetDecl) (f : Fin 4) : State :=
  if decls.any fun d => d.func = f then
    let x := s.para.funcs.get f
    let fresh := !x.decl || x.act != x.shadow
    let s := modFunc s f fun x => { x with decl := true, act := x.shadow }
    let s := if fresh then startFunc s f else s
    let crc := crc32c (bytesOfWords (x.shadow.toList.take 5))
    let s := if crc = x.shadow.get 5 then s else parapetFault s .limitCrc 0x0704 (d1 f.val ++ d4 crc.toNat)
    record s 0x0708 (d1 f.val ++ d4 (x.shadow.get 5).toNat)
  else modFunc s f fun x => { x with decl := false, en := false, holdFrom := none }

def freshTacho (level : Bool) : TachoCh := { level := level, rise := none, period := none }

/-- What the Parapet knows of its tacho channels at E: no edge is seen there, and new channels begin without edges
(R416, R648). -/
def settleTacho (s : State) (old : Option (Nat × Nat)) : State :=
  match tachoPair s with
  | none => s
  | some (a, b) =>
    let lev (n : Nat) : Bool := (s.chans.get (Fin.ofNat 48 n)).acc
    let flt (n : Nat) : Bool := (s.chans.get (Fin.ofNat 48 n)).fbit
    let s := modPara s fun p => { p with tachoFltA := flt a, tachoFltB := flt b }
    if old = some (a, b) then
      modPara s fun p => { p with cha := { p.cha with level := lev a }, chb := { p.chb with level := lev b } }
    else
      modPara s fun p => { p with
        cha := freshTacho (lev a), chb := freshTacho (lev b), lastEdge := none, oneRun := 0, tachoFltEnd := none }

/-- The Parapet at E. -/
def parapetAtE (s : State) (u : Setup) : State :=
  let old := tachoPair s
  settleTacho (forAll (fins 4) s fun s f => activate s u.parapets f) old

end Sys2Proof.Machine
end

