-- ==== Sys2Proof/Machine/ChanOps.lean ====
section
/-! DEFINITION. The field channels: comparator, filter, wetting, supply, fault bit (13_field_channels.md, R429 to R456, R648). -/

namespace Sys2Proof.Machine

/-- ON and OFF thresholds of a channel in steps of 0.25 V (R431). -/
def thresholds (d : ChanDecl) : Nat × Nat :=
  match d.preset.toNat with
  | 0 => (48, 32)
  | 1 => (36, 26)
  | 2 => (52, 32)
  | 3 => (104, 64)
  | 4 => (156, 96)
  | 5 => (208, 128)
  | 6 => (240, 144)
  | _ => (d.on, d.off)

/-- The comparator reading at a signal voltage in mV, with thresholds in steps of 0.25 V; between them it keeps its last reading (R431). -/
def readAt (t : Nat × Nat) (mv : Nat) (last : Bool) : Bool := if t.1 * 250 < mv then true else if mv < t.2 * 250 then false else last

def reading (d : ChanDecl) (mv : Nat) (last : Bool) : Bool := readAt (thresholds d) mv last

/-- Train time in µs modulo 2^32 (R377). -/
def trainUs (s : State) : Word := BitVec.ofNat 32 (trainNs s / 1000)

def isOutput (d : ChanDecl) : Bool := d.kind == .output
/-- The kinds whose sink draws a wetting current. -/
def wets (d : ChanDecl) : Bool := d.kind == .input || d.kind == .wake

/-- How long a reading must hold, in ns, before the filter can accept it; a counter takes nothing shorter than 10 µs (R434, R437). -/
def holdTime (d : ChanDecl) : Nat := if d.kind = .counter then max 10000 (d.filter * 10000) else d.filter * 10000

/-- The hold from which on a reading is always accepted (R434, R437). -/
def sureTime (d : ChanDecl) : Nat := if d.kind = .counter then max 20000 (d.filter * 10000 + 10000) else d.filter * 10000

/-- A reading accepted by the filter: value, timestamp, count, and the reflex tables on the new value. The count of a silent island stands
(R434 to R438, R451, R452). -/
def accept (s : State) (c : Chan) (d : ChanDecl) : State :=
  let x := s.chans.get c
  let s := modChan s c fun x =>
    { x with acc := x.comp, stamp := x.compStamp, count := if d.kind = .counter ∧ x.comp ∧ !x.acc ∧ !x.silent then x.count + 1 else x.count }
  if x.acc != x.comp && awake s then refreshDrives s else s

/-- A reading that has held long enough is accepted, before it changes again. -/
def settleFilter (s : State) (c : Chan) (d : ChanDecl) : State :=
  let x := s.chans.get c
  if x.comp != x.acc && decide (x.compAt + sureTime d ≤ s.up) then accept s c d else s

/-- The wetting time t_w in 0.1 ms (R433): 16 µC over the current, at most T_max. -/
def wetTime (s : State) (iw : Nat) : Nat := min ((policy s).wetTime * 10) ((160 + iw - 1) / iw)

/-- Event 0x0609: old and new current, and t_w. -/
def wetChange (s : State) (c : Chan) (new : Nat) : State :=
  let old := (s.chans.get c).iw
  record (modChan s c fun x => { x with iw := new }) 0x0609 (d1 c.val ++ d1 old ++ d1 new ++ d2 (wetTime s new))

/-- A fault classed as WETTING lowers the wetting current by 2 mA; a change that would bring it below 2 mA is withheld (R433). -/
def lowerWet (s : State) (c : Chan) : State :=
  let iw := (s.chans.get c).iw
  let s := modChan s c fun x => { x with cwet := x.cwet.inc, clean := 0 }
  if iw < 4 then record s 0x060A (d1 c.val) else wetChange s c (iw - 2)

/-- A comparator change without a shortfall; the 10,000th in a row raises the wetting current by 2 mA (R433). -/
def countClean (s : State) (c : Chan) : State :=
  let x := s.chans.get c
  if x.clean + 1 < 10000 then modChan s c fun x => { x with clean := x.clean + 1 }
  else
    let s := modChan s c fun x => { x with clean := 0 }
    if x.iw < (policy s).wetCur then wetChange s c (min (x.iw + 2) (policy s).wetCur) else s

/-- The row of the channel-supply table that a voltage gives, with 0.5 V of hysteresis above each limit (R429). -/
def nextBand (b : SupplyBand) (mv : Nat) : SupplyBand :=
  let up (limit : Nat) (above : Bool) : Bool := if above then decide (limit ≤ mv) else decide (limit + 500 ≤ mv)
  if up 15000 (b == .full) then .full else if up 12000 (b != .dead) then .low else .dead

/-- Whether an island works at all: it has supply and is not asleep. -/
def alive (x : ChanSt) : Bool := x.supply != .dead && !x.asleep

/-- A pulse or a localisation cut short without judgement. -/
def noPulse (x : ChanSt) : ChanSt := { x with test := .idle, locating := false }

/-- Whether a cause of the fault bit can stand in a channel's kind and state (R454): the supply, a trip, the read-back, a closed input, the
safe state are the island's own; over-temperature and self-check are the environment's. -/
def causeStands (s : State) (c : Chan) (k : FaultCause) : Bool :=
  let x := s.chans.get c
  match k with
  | .supply => x.supply == .low
  | .overload => x.latched
  | .readback => chanKind s c == some .output && readback x != islandDrive x
  | .shortfall => (chanKind s c).any (fun y => y != .output) && x.comp
  | .safeState => x.inSafe || x.starting
  | .temp => true
  | .selfCheck => true

/-- The Parapet sees the fault bit rise: IO_CFAULT, the class, event 0x0601, and the tacho check (R420, R454, R455). -/
def riseBit (s : State) (c : Chan) (k : FaultClass) : State :=
  let s := modChan s c fun x => { x with fbit := true, cfault := x.cfault.inc, cls := k }
  tachoIsland (record s 0x0601 (d1 c.val ++ d1 (classNo k))) c.val true

/-- The fault bit as it stands goes to the tacho check. -/
def tellTacho (s : State) (c : Chan) : State := tachoIsland s c.val (s.chans.get c).fbit

/-- A cause of the fault bit ends, at the island and at the Parapet. -/
def endCause (s : State) (c : Chan) (k : FaultCause) : State := tellTacho (dropCause s c k) c

/-- The class of a rise that needs no pulse and no held sink (R455); none where localisation begins. -/
def classAtRise (d : ChanDecl) (x : ChanSt) : Option FaultClass :=
  if x.stale then some .watchdog
  else if isOutput d then
    (if !x.drv then some (if readback x then .externalFeed else .fieldSide) else if readback x then some .fieldSide else none)
  else if d.kind = .counter then some .fieldSide
  else none

/-- A silent coupler delivers valid frames again (R456). -/
def reportAgain (s : State) (c : Chan) : State :=
  let x := s.chans.get c
  if x.silent then refreshDrives (settleBit (record (modChan s c fun x => { x with silent := false }) 0x0606 (d1 c.val)) c) else s

/-- A channel whose settings change at E (R648): its comparator reading under the new settings is taken as accepted, without an
edge; its timestamp is the time of E; the wetting current starts at the highest of POLICY WETTING. -/
def settleChan (s : State) (old : Option ChanDecl) (c : Chan) : State :=
  let same (a b : Option ChanDecl) : Bool :=
    match a, b with
    | none, none => true
    | some a, some b => a.kind == b.kind && a.preset == b.preset && a.on == b.on && a.off == b.off && a.filter == b.filter
    | _, _ => false
  let new := chanDecl s c
  if same old new then s
  else
    modChan s c fun x =>
      let r := match new with
        | some d => !isOutput d && reading d x.volt x.comp
        | none => false
      { x with comp := r, acc := r, stamp := trainUs s, compStamp := trainUs s, compAt := s.up, iw := (policy s).wetCur, clean := 0, wetting := false }

/-- Every island is given its programmed safe state (R449). -/
def loadSafe (s : State) : State := forAll (fins 48) s fun s c => modIsland s c fun x => { x with prog := safeProg s c }

/-- Every channel at E. -/
def channelsAtE (s : State) (old : List ChanDecl) (oldWet : Nat × Nat) : State :=
  let s := forAll (fins 48) s fun s c => settleChan s (old.find? fun d => d.ch = c) c
  if oldWet = ((policy s).wetCur, (policy s).wetTime) then s
  else forAll (fins 48) s fun s c => modChan s c fun x => { x with iw := (policy s).wetCur, clean := 0 }

end Sys2Proof.Machine
end

