-- ==== Sys2Proof/Machine/BankOps.lean ====
section
/-! DEFINITION. The two banks: settings, the journal, image headers and their checks
(18_boot_update_and_trust.md, R576 to R586, R595). -/

namespace Sys2Proof.Machine

def bankOf (s : State) : BankId → BankSt
  | .a => s.boot.bankA
  | .b => s.boot.bankB

def modBank (s : State) (b : BankId) (f : BankSt → BankSt) : State :=
  match b with
  | .a => { s with boot := { s.boot with bankA := f s.boot.bankA } }
  | .b => { s with boot := { s.boot with bankB := f s.boot.bankB } }

def otherBank : BankId → BankId
  | .a => .b
  | .b => .a

def bankNo : BankId → Nat
  | .a => 0
  | .b => 1

/-- Sizes of the slots (R576). -/
def fwSlot : Nat := 0x2000000
def appSlot : Nat := 0x1800000

def appArea (b : BankSt) (second : Bool) : Memory := if second then b.app1 else b.app0

def setAppArea (b : BankSt) (second : Bool) (m : Memory) : BankSt := if second then { b with app1 := m } else { b with app0 := m }

/-- The number in the header of an image: `n` bytes, little-endian, at a byte offset (R579). Erased flash reads 0xFF. -/
def hdr (m : Memory) (o n : Nat) : Nat := leNat (memReadN 0xFF m o n)

def imgLen (m : Memory) : Nat := hdr m 16 4
def imgSvn (m : Memory) : Byte := BitVec.ofNat 8 (hdr m 11 1)
def imgVersion (m : Memory) : Word := BitVec.ofNat 32 (hdr m 12 4)

def zeros (m : Memory) (o n : Nat) : Bool := (memReadN 0xFF m o n).all fun b => b == 0

/-- Entry `i` of the directory. -/
def dirEntry (m : Memory) (i : Nat) : DirEntry :=
  let o := 128 + 16 * i
  ⟨hdr m o 1, hdr m (o + 1) 1, hdr m (o + 4) 4, hdr m (o + 8) 4⟩

def dirEntries (m : Memory) : List DirEntry := (List.range (min 16 (hdr m 24 1))).map (dirEntry m)

/-- Check 1 of R580. -/
def headerOk (m : Memory) (app : Bool) : Bool :=
  let dirn := hdr m 24 1
  let limit := if app then appSlot else fwSlot
  let vk := hdr m 25 1
  (memReadN 0xFF m 0 4 == [0x53, 0x44, 0x49, 0x4D]) && hdr m 4 2 == 1 && hdr m 6 1 == (if app then 2 else 1) &&
    decide (4096 + imgLen m ≤ limit) && zeros m 26 2 && (zeros m 28 68 || (!app && vk != 0xFF)) && zeros m 96 32 && zeros m 384 128 &&
    zeros m 3332 764 && (!app || zeros m 20 4) && decide (1 ≤ dirn) && decide (dirn ≤ 16) &&
    (List.range 16).all fun i =>
      if i < dirn then
        zeros m (130 + 16 * i) 2 && zeros m (140 + 16 * i) 4 &&
          decide ((dirEntry m i).off + (dirEntry m i).len ≤ imgLen m)
      else zeros m (128 + 16 * i) 16

/-- Check 2: PART and ISALVL. -/
def partOk (m : Memory) (app : Bool) : Bool :=
  let p := hdr m 8 2
  (p == 0x4832 || (app && (p == 0x0804 || p == 0x1616 || p == 0x3224))) && decide (hdr m 10 1 ≤ field lnParamWord 3 0)

/-- The key slot that a header names, if it exists. -/
def keySlot (s : State) (m : Memory) : Option KeySlot :=
  let k := hdr m 7 1
  let n : Fin 4 := Fin.ofNat 4 (k % 16)
  if 3 < k % 16 then none
  else if k / 16 = 0 then some (s.boot.vkeys.get n)
  else if k / 16 = 1 then some (s.boot.okeys.get n)
  else none

def slotActive (k : KeySlot) : Bool := k.prog && !k.revoked

/-- Check 3: the kind of the key, and its slot. -/
def keyOk (s : State) (m : Memory) (app : Bool) : Bool :=
  hdr m 7 1 / 16 == (if app then 1 else 0) && ((keySlot s m).map slotActive).getD false

/-- Check 4: the signature (R581). -/
def sigOk (s : State) (m : Memory) : Bool :=
  match keySlot s m with
  | none => false
  | some k =>
    k.key.take 4 == Config.xmssOid &&
      Config.xmssVerify k.key (memReadN 0xFF m 0 512 ++ memReadN 0xFF m 4096 (imgLen m)) (memReadN 0xFF m 512 2820)

/-- The checks 1 to 5 of R580 in order: 0, or the reason. Check 6 is one of a boot (`bootCheck`). -/
def checkImage (s : State) (m : Memory) (app : Bool) : Byte :=
  if !headerOk m app then 0x83
  else if !partOk m app then 0x81
  else if !keyOk s m app then 0x80
  else if !sigOk s m then 0x80
  else if (imgSvn m).toNat < s.boot.rb then 0x82
  else 0

/-- Device offsets of the areas of a bank (R576). -/
def appStart (second : Bool) : Nat := if second then 0x3800000 else 0x2000000
def halfStart (second : Bool) : Nat := if second then 0x5400000 else 0x5000000
def calStart : Nat := 0x5800000

/-- Whether sector `k` of a device lies, at least in part, in the `n` bytes from `lo` on. -/
def sectorIn (lo n k : Nat) : Bool := decide (lo < 512 * (k + 1)) && decide (512 * k < lo + n)

/-- Bytes programmed anew are no longer uncorrectable (R516). -/
def cureFlash (b : BankSt) (lo n : Nat) : BankSt := { b with bad := b.bad.filter fun k => !sectorIn lo n k }

/-- A sector found uncorrectable; a settings generation in it loses its CRC (R516, R578; assumption log entry 34). -/
def spoilFlash (b : BankSt) (k : Nat) : BankSt :=
  { b with
      bad := if b.bad.contains k then b.bad else k :: b.bad
      half0 := if sectorIn (halfStart false) 0x400000 k then none else b.half0
      half1 := if sectorIn (halfStart true) 0x400000 k then none else b.half1 }

/-- Where an image starts on its device (R576). -/
def imageStart (app second : Bool) : Nat := if app then appStart second else 0

/-- The image in the firmware slot or in an application area. -/
def imageAt (b : BankSt) (app second : Bool) : Memory := if app then appArea b second else b.fw

/-- The checks of R580 at a boot, where check 6 joins the others: 0, or the reason. -/
def bootCheck (s : State) (b : BankId) (app second : Bool) : Byte :=
  let x := bankOf s b
  let m := imageAt x app second
  let r := checkImage s m app
  if r = 0 ∧ (x.bad.any fun k => sectorIn (imageStart app second) (4096 + imgLen m) k) = true then 0x84 else r

/-- The payload bytes of a directory entry. -/
def dirBytes (m : Memory) (e : DirEntry) : List Byte := memReadN 0xFF m (4096 + e.off) e.len

def segOf (m : Memory) (e : DirEntry) : Option Segment :=
  let kind : Option SegKind :=
    if e.typ = 2 then some .code else if e.typ = 3 then some .k else if e.typ = 4 then some .ret
    else if e.typ = 5 then some .work else none
  match kind with
  | none => none
  | some k => if e.pair < 8 then some ⟨k, Fin.ofNat 8 e.pair, dirBytes m e⟩ else none

/-- An application image as the module reads it, with the verdict of its checks. -/
def readApp (s : State) (m : Memory) : AppImage :=
  let es := dirEntries m
  let bytes (t : Nat) : List Byte := ((es.find? fun e => e.typ = t).map (dirBytes m)).getD []
  { words := wordsOfBytes (bytes 1), segs := es.filterMap (segOf m), outdef := Config.outdefTable (bytes 6),
    trust := checkImage s m true, version := imgVersion m, svn := imgSvn m }

/-- Nothing written at the start of an area: no image stands there. -/
def areaEmpty (m : Memory) : Bool := (memReadN 0xFF m 0 4).all fun b => b == 0xFF

/-- Empty settings (R578). -/
def emptySettings : Settings := { fmt := 0, gen := 0, outdef := [], overlay := [], area := false }

/-- The valid generation of a bank with the later number (R578). -/
def validSettings (b : BankSt) : Option Settings :=
  match b.half0, b.half1 with
  | some x, some y => if later y.gen x.gen then some y else some x
  | some x, none => some x
  | none, y => y

def settingsOf (b : BankSt) : Settings := (validSettings b).getD emptySettings

/-- A settings generation written to the half that does not hold the valid one, in the format of the firmware that writes it
(R578). -/
def writeSettings (s : State) (b : BankId) (f : Settings → Settings) : State :=
  modBank s b fun x =>
    let old := settingsOf x
    let g := { f old with gen := old.gen + 1, fmt := BitVec.ofNat 16 (hdr (bankOf s s.boot.bank).fw 20 2) }
    match x.half0, x.half1 with
    | some h0, some h1 => if later h1.gen h0.gen then { x with half0 := some g } else { x with half1 := some g }
    | some _, none => { cureFlash x (halfStart true) 0x400000 with half1 := some g }
    | none, _ => { cureFlash x (halfStart false) 0x400000 with half0 := some g }

/-- The application area in force of a bank. -/
def appInForce (b : BankSt) : Memory := appArea b (settingsOf b).area

/-- A journal write: to the copy that does not hold the later GEN, which counts up (R595). -/
def writeJournal (s : State) (f : Journal → Journal) : State :=
  let old := journalOf s
  let j := { f old with gen := old.gen + 1 }
  let first := match s.boot.copy0, s.boot.copy1 with
    | some a, some b => later b.gen a.gen
    | some _, none => false
    | none, _ => true
  if first then { s with boot := { s.boot with copy0 := some j } } else { s with boot := { s.boot with copy1 := some j } }

/-- The journal to REVERTED with a reason, and its event (R597). -/
def revertJournal (s : State) (reason : Byte) : State :=
  record (writeJournal s fun j => { j with state := .reverted, step := .none, attempt := 0, reason := reason }) 0x0A09
    (d1 reason.toNat)

/-- An image check failed: counted and recorded (R601, R602). -/
def imageFailed (s : State) (b : BankId) (app : Bool) (reason : Byte) : State :=
  record { s with boot := { s.boot with chkFail := s.boot.chkFail.inc } } 0x0A02
    (d1 (bankNo b) ++ d1 (if app then 2 else 1) ++ d1 reason.toNat)

/-- Both calibration mirrors written anew (R573). -/
def cureMirrors (s : State) : State :=
  modBank (modBank s .a fun b => cureFlash b calStart 0x20000) .b fun b => cureFlash b calStart 0x20000

/-- Number of a flash device in an event: F1 or F2. -/
def flashNo : BankId → Nat
  | .a => 1
  | .b => 2

/-- The rewrite of a flash block ends, its contents read back correct (R516). -/
def endRefresh (s : State) : State :=
  match s.boot.refresh with
  | none => s
  | some r => record { s with boot := { s.boot with refresh := none } } 0x0905 (d1 (flashNo r.dev) ++ d2 r.block ++ d1 r.bits)

/-- The target bank: the one that is not ACTIVE (R595). -/
def targetBank (s : State) : BankId := otherBank (journalOf s).active

end Sys2Proof.Machine
end

