-- ==== Sys2Proof/Types/Admit.lean ====
section
/-! DEFINITION. What admission works with: refusals, strided intervals, the outcome of a walk (05, R173 to R188). -/

namespace Sys2Proof

/-- A refusal: code, the task it concerns, and the number of the refused instruction, 0xFFFF for none. -/
structure Refused where
  code  : Byte
  pair  : Nat
  task  : Nat
  index : Nat
  deriving DecidableEq, Repr

/-- The values a word register can take: unbounded, or `lo` + k × `st` for k from 0 to `n`, modulo 2^32 (R178). -/
inductive Ival where
  | top
  | set (lo : Int) (n : Nat) (st : Nat)
  deriving DecidableEq, Repr

/-- What admission knows of a word register at an instruction: its values, and by how much ADDI and SUBI have stepped it
since the body of the innermost open loop began (unbounded: something else has written it). -/
structure RegIv where
  v : Ival
  d : Ival
  deriving DecidableEq, Repr

/-- The longest cycle count to an instruction, and its registers. -/
structure PathSt where
  cost : Nat
  regs : Vector RegIv 16
  deriving DecidableEq, Repr

/-- The outcome of walking a routine or a loop body: how it is left by RET or ENDL, the longest path to a DONE and to a TRAP,
the longest single instruction, whether a SPLIT is met, and tag positions in PI and PQ as bank addresses. -/
structure WalkOut where
  thru  : Option PathSt
  done  : Option Nat
  trap  : Option Nat
  longest : Nat
  split : Bool
  pi    : List Nat
  pq    : List Nat
  deriving DecidableEq, Repr

/-- What the walk needs of a task: its layout, sections, CODE words, loop bodies (first word, ENDL) and JTAB tables
(first word, end). -/
structure PathEnv where
  code   : List Word
  kLo    : Nat
  kHi    : Nat
  pi     : Nat × Nat
  pq     : Nat × Nat
  ret    : Nat × Nat
  work   : Nat × Nat
  bodies : List (Nat × Nat)
  tables : List (Nat × Nat)
  deriving DecidableEq, Repr

/-- Where a walk stands: the ENDL of the innermost open loop of this routine (none outside a loop; one past the code where the
LOOP has no match), the entry addresses of the open routines, and the number of open loops. -/
structure WalkCtx where
  endl  : Option Nat
  calls : List Int
  nest  : Nat
  deriving DecidableEq, Repr

end Sys2Proof
end

