-- ==== Sys2Proof/Machine/Intervals.lean ====
section
/-! DEFINITION. Strided intervals of word registers (05_setup_programs_and_admission.md, R178; assumption log entry 15). -/

namespace Sys2Proof.Machine

def two32 : Nat := 4294967296

/-- From `lo` to `hi` in steps of `st`; a span of 2^32 or more is unbounded. -/
def ivMk (lo hi : Int) (st : Nat) : Ival :=
  if (two32 : Int) ≤ hi - lo then .top
  else if hi ≤ lo then .set lo 0 0
  else .set lo ((hi - lo).toNat / max 1 st) (max 1 st)

def ivConst (v : Int) : Ival := .set v 0 0

def ivHi (lo : Int) (n st : Nat) : Int := lo + (n * st : Nat)

/-- The smallest interval that holds two. -/
def ivJoin : Ival → Ival → Ival
  | .set a n s, .set b m t =>
    if a = b ∧ n = m ∧ s = t then .set a n s
    else ivMk (min a b) (max (ivHi a n s) (ivHi b m t)) (Nat.gcd (Nat.gcd s t) (a - b).natAbs)
  | _, _ => .top

def ivShift (x : Ival) (d : Int) : Ival :=
  match x with
  | .set a n s => .set (a + d) n s
  | .top => .top

def ivAdd : Ival → Ival → Ival
  | .set a n s, .set b m t => ivMk (a + b) (ivHi a n s + ivHi b m t) (Nat.gcd s t)
  | _, _ => .top

def ivSub : Ival → Ival → Ival
  | .set a n s, .set b m t => ivMk (a - ivHi b m t) (ivHi a n s - b) (Nat.gcd s t)
  | _, _ => .top

/-- The interval moved by a multiple of 2^32 so that it lies in the 2^32 values from `base`, if it does; else all of them. -/
def ivFit (base : Int) : Ival → Int × Int × Nat
  | .top => (base, base + two32 - 1, 1)
  | .set a n s =>
    let lo := base + (a - base) % two32
    if ivHi lo n s < base + two32 then (lo, ivHi lo n s, s) else (base, base + two32 - 1, 1)

/-- ANDI: a mask of low ones leaves a smaller value as it is; else the multiples of the lowest mask bit up to the mask. -/
def ivAnd (x : Ival) (imm : Nat) : Ival :=
  let f := ivFit 0 x
  if f.1 = f.2.1 then ivConst (f.1.toNat &&& imm : Nat)
  else if (imm &&& (imm + 1)) = 0 ∧ f.2.1 ≤ imm then ivMk f.1 f.2.1 f.2.2
  else ivMk 0 imm (imm &&& (two32 - imm))

/-- MOVHI. -/
def ivMovhi (x : Ival) (imm : Nat) : Ival :=
  let f := ivFit 0 x
  let top : Int := (imm * 65536 : Nat)
  if f.1 / 65536 = f.2.1 / 65536 then ivMk (top + f.1 % 65536) (top + f.2.1 % 65536) f.2.2
  else
    let g := Nat.gcd f.2.2 65536
    ivMk (top + f.1 % g) (top + 65536 - g + f.1 % g) g

/-- A shift by `n` ≥ 1. -/
def ivShl (x : Ival) (n : Nat) : Ival :=
  let f := ivFit 0 x
  match ivMk (f.1 * 2 ^ n) (f.2.1 * 2 ^ n) (f.2.2 * 2 ^ n) with
  | .top => ivMk 0 (two32 - 2 ^ n) (2 ^ n)
  | y => y

def ivDown (f : Int × Int × Nat) (n : Nat) : Ival :=
  ivMk (f.1 / 2 ^ n) (f.2.1 / 2 ^ n) (if f.2.2 % 2 ^ n = 0 then f.2.2 / 2 ^ n else 1)

def ivRol (x : Ival) (n : Nat) : Ival :=
  let f := ivFit 0 x
  if f.1 = f.2.1 then ivConst (((BitVec.ofInt 32 f.1).rotateLeft n).toNat : Nat)
  else if f.2.1 * 2 ^ n < two32 then ivMk (f.1 * 2 ^ n) (f.2.1 * 2 ^ n) (f.2.2 * 2 ^ n)
  else .top

def sBase : Int := -2147483648

/-- MIN and MAX as signed values. -/
def ivPick (pick : Int → Int → Int) (x y : Ival) : Ival :=
  let a := ivFit sBase x
  let b := ivFit sBase y
  ivMk (pick a.1 b.1) (pick a.2.1 b.2.1) (Nat.gcd (Nat.gcd a.2.2 b.2.2) (a.1 - b.1).natAbs)

def ivLimit (x lo hi : Ival) : Ival := ivPick min (ivPick max x lo) hi

/-- A register by its field: W0 is 0 (R52). -/
def regIv (r : Vector RegIv 16) (n : BitVec 4) : RegIv :=
  if n = 0 then ⟨ivConst 0, ivConst 0⟩ else r.get ⟨n.toNat, n.isLt⟩

/-- The values an instruction gives its destination (R178). -/
def resultIv (w : Word) (r : Vector RegIv 16) : Ival :=
  let op := opOf w
  let a := formA w
  let b := formB w
  let v (n : BitVec 4) : Ival := (regIv r n).v
  if op = 0x1E then ivConst (sext b.imm).toInt
  else if op = 0x1F then ivMovhi (v b.s1) b.imm.toNat
  else if op = 0x02 then ivShift (v b.s1) b.imm.toInt
  else if op = 0x04 then ivShift (v b.s1) (-b.imm.toInt)
  else if op = 0x01 then ivAdd (v a.s1) (v a.s2)
  else if op = 0x03 then ivSub (v a.s1) (v a.s2)
  else if op = 0x11 then ivAnd (v b.s1) b.imm.toNat
  else if 0x18 ≤ op ∧ op ≤ 0x1B then
    let n := a.imm5.toNat
    if !a.i then .top
    else if n = 0 then v a.s1
    else if op = 0x18 then ivShl (v a.s1) n
    else if op = 0x19 then ivDown (ivFit 0 (v a.s1)) n
    else if op = 0x1A then ivDown (ivFit sBase (v a.s1)) n
    else ivRol (v a.s1) n
  else if op = 0x0E then ivPick min (v a.s1) (v a.s2)
  else if op = 0x0F then ivPick max (v a.s1) (v a.s2)
  else if op = 0x17 then ivLimit (v a.s1) (v a.s2) (v a.s3)
  else if op = 0x1D then v a.s1
  else if op = 0x1C then ivJoin (v a.s1) (v a.s2)
  else if op = 0x44 then ivMk 0 255 1
  else if op = 0x42 then ivMk 0 65535 1
  else .top

/-- By how much an instruction has stepped its destination since the loop body began. -/
def resultStep (w : Word) (r : Vector RegIv 16) (d : BitVec 4) : Ival :=
  let op := opOf w
  let b := formB w
  if op = 0x02 ∧ b.s1 = d then ivShift (regIv r d).d b.imm.toInt
  else if op = 0x04 ∧ b.s1 = d then ivShift (regIv r d).d (-b.imm.toInt)
  else if op = 0x1D ∧ (formA w).s1 = d then (regIv r d).d
  else .top

/-- Whether an instruction writes the word register in D. -/
def writesW (op : Nat) : Bool :=
  (decide (1 ≤ op) && decide (op ≤ 0x1F)) || op == 0x22 || op == 0x23 || op == 0x26 ||
    (decide (0x30 ≤ op) && decide (op ≤ 0x3D) && op != 0x39) || (decide (0x40 ≤ op) && decide (op ≤ 0x46) && op != 0x45) ||
    op == 0x5E || op == 0x5F || op == 0x60 || op == 0x62 || op == 0x68

/-- The registers after an instruction that goes on to the next word. -/
def transfer (w : Word) (r : Vector RegIv 16) : Vector RegIv 16 :=
  let d := (formA w).d
  if writesW (opOf w) && d != 0 then r.set d.toNat ⟨resultIv w r, resultStep w r d⟩ d.isLt else r

def regJoin (x y : RegIv) : RegIv := ⟨ivJoin x.v y.v, ivJoin x.d y.d⟩

def regsJoin (x y : Vector RegIv 16) : Vector RegIv 16 := Vector.ofFn fun i => regJoin (x.get i) (y.get i)

def pathJoin (x y : PathSt) : PathSt := ⟨max x.cost y.cost, regsJoin x.regs y.regs⟩

/-- The sum of `lo` to `n` picks from a step interval. -/
def ivTimes (lo n : Nat) : Ival → Ival
  | .top => .top
  | .set a m s =>
    let hi := ivHi a m s
    ivMk (min (lo * a) (n * a)) (max (lo * hi) (n * hi)) (if m = 0 then (if lo = n then 0 else a.natAbs) else Nat.gcd s a.natAbs)

end Sys2Proof.Machine
end

