-- ==== Sys2Proof/Machine/SetupShape.lean ====
section
/-! DEFINITION. The shape of a set-up program, and what its instructions declare
(05_setup_programs_and_admission.md, R161 to R172). -/

namespace Sys2Proof.Machine

/-- The operand count that the instruction's table gives for its ARG; none for an opcode without a mnemonic. A SLOT of CLASS 0b10 or
0b11, and one of PORT 62 with CLASS 0b01, take the count of their PORT, DIR and CLASS bit 0 all the same, so that another count is refused
with 0x83 and not with 0x3B or 0x39: DESIGN CHOICE, log entry 82. -/
def nopsOf (op : Nat) (arg : Word) : Option Nat :=
  if op = 0x70 then some 6
  else if op = 0x71 then
    if field arg 5 4 = 1 then some 5 else if field arg 12 7 = 32 ∧ field arg 6 6 = 1 then some 6 else some 4
  else if op = 0x72 then some (if field arg 15 10 = 63 then 5 else 2)
  else if op = 0x73 then some 1
  else if op = 0x74 then some 1
  else if op = 0x75 then some (if field arg 3 3 = 1 then 1 else 4)
  else if op = 0x76 then some 2
  else if op = 0x77 then some 6
  else if op = 0x78 then some 4
  else if op = 0x79 then some 0
  else if op = 0x7A then some 1
  else if op = 0x7B then some 0
  else if op = 0x7C then some 1
  else if op = 0x7D then some 0
  else none

/-- The instructions of a program up to and including its COMMIT or ABORT, or the number of the malformed one (R161, R184).
`pos` is the number of words before the rest, `fuel` bounds the instructions. -/
def shape : Nat → List Word → Nat → Nat → Except Nat (List SetupInstr)
  | 0, _, _, idx => .error idx
  | _ + 1, [], _, _ => .error 0xFFFF
  | fuel + 1, w :: rest, pos, idx =>
    let op := field w 31 25
    let arg := w &&& 0xFFFF
    let n := field w 24 16
    match nopsOf op arg with
    | none => .error idx
    | some k =>
      if n ≠ k ∨ rest.length < n then .error idx
      else
        let i : SetupInstr := ⟨BitVec.ofNat 7 op, arg.setWidth 16, rest.take n, idx⟩
        if op = 0x7C then (if rest.head? = some (BitVec.ofNat 32 pos) then .ok [i] else .error idx)
        else if op = 0x7D then .ok [i]
        else
          match shape fuel (rest.drop n) (pos + 1 + n) (idx + 1) with
          | .error e => .error e
          | .ok l => .ok (i :: l)

/-- The shape of a whole program. -/
def shapeOf (ws : List Word) : Except Nat (List SetupInstr) := shape (ws.length + 1) ws 0 0

/-- Words up to and including COMMIT or ABORT. -/
def programWords (is : List SetupInstr) : Nat := (is.map fun i => 1 + i.ws.length).foldl (· + ·) 0

/-- Bits of ARG, and an operand word. -/
def ag (i : SetupInstr) (hi lo : Nat) : Nat := field (zext i.arg) hi lo
def wd (i : SetupInstr) (n : Nat) : Word := i.ws.getD n 0

def opIs (i : SetupInstr) (op : Nat) : Bool := i.op.toNat == op

def pairNo (n : Nat) : PairId := Fin.ofNat 8 n
def taskNo (n : Nat) : TaskId := Fin.ofNat 16 n

/-- A binding word; 0xFFFF_FFFF is unbound. -/
def bindingOf (w : Word) : Option Binding :=
  if w = 0xFFFFFFFF then none else some ⟨pairNo (field w 31 29), taskNo (field w 28 25), w.getLsbD 24, field w 23 0⟩

def sectOfWord (w : Word) : Sect := ⟨64 * field w 31 16, 64 * field w 15 0⟩

def layoutOf (i : SetupInstr) : LayoutDecl :=
  ⟨pairNo (ag i 14 12), (wd i 0).toNat, (wd i 1).toNat, (wd i 2).toNat, (wd i 3).toNat, (wd i 4).toNat, (wd i 5).toNat, i.idx⟩

def taskOf (i : SetupInstr) : TaskDecl :=
  { pair := pairNo (ag i 14 12), task := taskNo (ag i 11 8), prio := ag i 7 4, k := ag i 3 0, entry := wd i 0,
    pi := sectOfWord (wd i 1), pq := sectOfWord (wd i 2), ret := sectOfWord (wd i 3), work := sectOfWord (wd i 4),
    trap := (wd i 5).getLsbD 0, idx := i.idx }

/-- CLASS, PORT and DIR of a SLOT. -/
def slotClass (i : SetupInstr) : Nat := ag i 5 4
def slotPort (i : SetupInstr) : Nat := ag i 12 7
def slotRx (i : SetupInstr) : Bool := ag i 6 6 == 1

def slotKind (i : SetupInstr) : SlotKind :=
  if slotClass i = 1 then .rc (wd i 0) (wd i 4) (field (wd i 1) 15 0)
  else if slotPort i = 62 then .route
  else if slotPort i = 32 then .backbone (wd i 4 ++ wd i 5)
  else .tt (field (wd i 0) 31 16) (field (wd i 0) 15 0)

def slotOf (i : SetupInstr) : SlotDecl :=
  let rc := slotClass i = 1
  { kind := slotKind i, mode := ag i 15 13, port := slotPort i, rx := slotRx i, win := ag i 3 0,
    slotId := if rc then 0 else BitVec.ofNat 16 (field (wd i 1) 31 16),
    frame := if rc then field (wd i 1) 31 16 else field (wd i 1) 15 0, bind := bindingOf (wd i 2),
    agelim := field (wd i 3) 31 28, bound := field (wd i 3) 23 0, idx := i.idx }

def portOf (i : SetupInstr) : PortDecl :=
  { port := Fin.ofNat 37 (ag i 15 10), speed := BitVec.ofNat 2 (ag i 9 8), lead := ag i 7 7 == 1, rc := field (wd i 0) 31 16,
    be := field (wd i 0) 15 0, minspd := BitVec.ofNat 2 (field (wd i 1) 1 0), idx := i.idx }

def netOf (i : SetupInstr) : NetDecl :=
  { ethertype := BitVec.ofNat 16 (field (wd i 0) 15 0), dom1 := byteOf (wd i 1) 0, dom2 := byteOf (wd i 1) 1, vip := wd i 2,
    mip := wd i 3, mntPrefix := field (wd i 4) 13 8, vehPrefix := field (wd i 4) 5 0 }

def modeOf (i : SetupInstr) : ModeDecl :=
  { mode := ag i 15 13, init := ag i 12 12 == 1, next := BitVec.ofNat 8 (ag i 7 0), echo := wd i 0, idx := i.idx }

def kindOf (n : Nat) : ChanKind := if n = 0 then .input else if n = 1 then .output else if n = 2 then .counter else .wake

def safeKind (n : Nat) : SafeKind := if n = 1 then .on else if n = 2 then .hold else .off

def chanOf (i : SetupInstr) : ChanDecl :=
  { ch := Fin.ofNat 48 (ag i 15 10), kind := kindOf (ag i 9 8), preset := BitVec.ofNat 4 (ag i 7 4), on := field (wd i 0) 31 16,
    off := field (wd i 0) 15 0, filter := field (wd i 1) 31 16, dark := field (wd i 1) 15 8, light := field (wd i 1) 7 0,
    testper := field (wd i 2) 31 16, safe := safeKind (field (wd i 2) 1 0), bind := bindingOf (wd i 3), idx := i.idx }

def addbOf (i : SetupInstr) : AddbDecl := ⟨Fin.ofNat 48 (ag i 15 10), bindingOf (wd i 0), i.idx⟩

/-- An input of REFLEX: 0x3F is unused. -/
def reflexIn (n : Nat) : Option Chan := if h : n < 48 then some ⟨n, h⟩ else none

def reflexDecl (i : SetupInstr) : ReflexDecl :=
  { table := ag i 15 12, out := Fin.ofNat 48 (ag i 11 6), combine := BitVec.ofNat 2 (ag i 1 0),
    ins := [reflexIn (field (wd i 0) 5 0), reflexIn (field (wd i 0) 13 8), reflexIn (field (wd i 0) 21 16),
            reflexIn (field (wd i 0) 29 24)],
    truth := BitVec.ofNat 16 (field (wd i 1) 15 0),
    stray := decide (47 < ag i 11 6) ||
      [field (wd i 0) 5 0, field (wd i 0) 13 8, field (wd i 0) 21 16, field (wd i 0) 29 24].any fun n => decide (47 < n) && n != 63,
    idx := i.idx }

def parapetOf (i : SetupInstr) : ParapetDecl :=
  ⟨Fin.ofNat 4 (ag i 15 12), #v[wd i 0, wd i 1, wd i 2, wd i 3, wd i 4, wd i 5], i.idx⟩

def connOf (i : SetupInstr) : ConnDecl :=
  { rx := ag i 15 15 == 1, connId := wd i 0, srcId := wd i 1, slotId := BitVec.ofNat 16 (field (wd i 2) 31 16),
    port := field (wd i 2) 5 0, time := (wd i 3).toNat, idx := i.idx }

/-- One POLICY word (R171). -/
def setPolicy (p : Policy) (key : Nat) (w : Word) : Policy :=
  let on := w.getLsbD 0
  if key = 1 then { p with feedReturn := on, feedHold := field w 31 16 }
  else if key = 2 then { p with rejoinLimit := field w 3 0, rejoinWin := field w 31 16 }
  else if key = 3 then { p with ring := on }
  else if key = 4 then { p with claim := on }
  else if key = 5 then { p with derate := field w 7 0 }
  else if key = 6 then { p with sleep := on, sleepQuiet := field w 31 16 }
  else if key = 7 then { p with splitwork := on }
  else if key = 8 then { p with portrate := on }
  else if key = 9 then { p with trim := on }
  else if key = 10 then { p with wetCur := field w 15 8, wetTime := field w 7 0 }
  else if key = 11 then { p with forcekeep := on }
  else if key = 12 then { p with rackslot := some (field w 4 0) }
  else if key = 13 then { p with vtype := some (field w 3 0) }
  else p

/-- MNT as it stands undeclared: 1000BASE-T (R163). -/
def mntDefault : PortDecl := { port := 36, speed := 2, lead := false, rc := 0, be := 0, minspd := 0, idx := 0xFFFF }

/-- The declarations of one instruction added. -/
def declare (u : Setup) (i : SetupInstr) : Setup :=
  let op := i.op.toNat
  if op = 0x70 then
    if ag i 15 15 = 1 then { u with layouts := u.layouts ++ [layoutOf i] } else { u with tasks := u.tasks ++ [taskOf i] }
  else if op = 0x71 then { u with slots := u.slots ++ [slotOf i] }
  else if op = 0x72 then
    if ag i 15 10 = 63 then { u with net := netOf i }
    else if ag i 15 10 = 61 then { u with corbel := some ⟨wd i 0, wd i 1⟩ }
    else { u with ports := u.ports ++ [portOf i] }
  else if op = 0x73 then { u with modes := u.modes ++ [modeOf i] }
  else if op = 0x74 then { u with n := ag i 5 0, bl := field (wd i 0) 15 0 }
  else if op = 0x75 then
    if ag i 3 3 = 1 then { u with addbs := u.addbs ++ [addbOf i] } else { u with chans := u.chans ++ [chanOf i] }
  else if op = 0x76 then { u with reflexes := u.reflexes ++ [reflexDecl i] }
  else if op = 0x77 then { u with parapets := u.parapets ++ [parapetOf i] }
  else if op = 0x78 then { u with conns := u.conns ++ [connOf i] }
  else if op = 0x79 then { u with splitmask := BitVec.ofNat 8 (ag i 15 8), lanes := BitVec.ofNat 2 (ag i 1 0) }
  else if op = 0x7A then { u with policy := setPolicy u.policy (ag i 15 8) (wd i 0) }
  else if op = 0x7B then { u with feed := some (BitVec.ofNat 2 (ag i 1 0)) }
  else u

/-- The set-up that a program declares, with the values of R163 for what it does not declare. -/
def setupOf (is : List SetupInstr) : Setup :=
  let u := is.foldl declare { emptySetup with modes := [] }
  let u := if u.modes.isEmpty then { u with modes := emptySetup.modes } else u
  if u.ports.any fun p => p.port = 36 then u else { u with ports := u.ports ++ [mntDefault] }

end Sys2Proof.Machine
end

