-- ==== Sys2Proof/Machine/SetupCheck.lean ====
section
/-! DEFINITION. The operand checks of admission, in program order: step 2 of R188
(05_setup_programs_and_admission.md; assumption log entry 14 says which checks belong to this step). -/

namespace Sys2Proof.Machine

/-- The first refusal of a list of checks. -/
def firstOf {α : Type} (l : List (Option α)) : Option α := l.findSome? id

/-- A check that refuses with a code when its condition holds. -/
def refuseIf (c : Bool) (code : Byte) : Option Byte := if c then some code else none

/-- ARG and operand bits that must be 0 (R164, R460): masks of ARG and of the operand words. -/
def reservedMasks (i : SetupInstr) : Word × List Word :=
  let op := i.op.toNat
  if op = 0x70 then (if ag i 15 15 = 1 then (0x0FFF, []) else (0, [0, 0, 0, 0, 0, 0xFFFFFFFE]))
  else if op = 0x71 then (0, [0, 0, 0, 0x0F000000])
  else if op = 0x72 then
    (0x7F, if ag i 15 10 = 63 then [0xFFFF0000, 0xFFFF0000, 0, 0, 0xFFFFC0C0]
           else if ag i 15 10 = 61 then [0x3FFF0000, 0x00F003F8] else [0, 0xFFFFFFFC])
  else if op = 0x73 then (0x0F00, [])
  else if op = 0x74 then (0xFFC0, [0xFFFF0000])
  else if op = 0x75 then (0x7, if ag i 3 3 = 1 then [] else [0, 0, 0x0000FFFC])
  else if op = 0x76 then (0x3C, [0xC0C0C0C0, 0xFFFF0000])
  else if op = 0x77 then (0x0FFF, [0xFFFFC0C0, 0, 0, 0, 0xFFFF0000])
  else if op = 0x78 then (0x7FFF, [0, 0, 0x0000FFC0])
  else if op = 0x79 then (0xFC, [])
  else if op = 0x7A then (0xFF, [])
  else if op = 0x7B then (0xFFFC, [])
  else (0xFFFF, [])

def reservedBad (i : SetupInstr) : Bool :=
  let m := reservedMasks i
  (zext i.arg &&& m.1) != 0 || (m.2.zipIdx.any fun p => (wd i p.2 &&& p.1) != 0)

/-- The same declaration earlier in the program. -/
def dup (earlier : List SetupInstr) (op : Nat) (p : SetupInstr → Bool) : Bool := earlier.any fun j => opIs j op && p j

def isLayout (i : SetupInstr) : Bool := ag i 15 15 == 1
def isAddb (i : SetupInstr) : Bool := ag i 3 3 == 1

/-- TASK. -/
def checkTask (earlier : List SetupInstr) (i : SetupInstr) : Option Byte :=
  if isLayout i then refuseIf (dup earlier 0x70 fun j => isLayout j && ag j 14 12 == ag i 14 12) 0x29
  else
    let same (j : SetupInstr) : Bool := !isLayout j && ag j 14 12 == ag i 14 12
    firstOf [
      refuseIf (decide (12 < ag i 3 0) || dup earlier 0x70 (fun j => same j && (ag j 11 8 == ag i 11 8 || ag j 7 4 == ag i 7 4)))
        0x1C,
      refuseIf (decide ((wd i 0).toNat % 4 ≠ 0)) 0x1D]

/-- The routes with a meaning of their own (R291, R335, R534). -/
def specialRoute (w : BitVec 16) : Bool := w == 0xFFFF || w == 0xFFFE || w == 0xFFFD

/-- A binding with TSE, which only inputs, wake inputs and counters may carry (R165, R164), and AGELIM out of range (R644). -/
def slotTse (i : SetupInstr) : Bool := match (slotOf i).bind with | some b => b.tse | none => false
def slotAge (i : SetupInstr) : Bool := let age := field (wd i 3) 31 28; if slotRx i then age == 15 else age != 0

/-- Fields that must be 0 in the form used (R164, R644). -/
def slotZeros (i : SetupInstr) : Bool :=
  (slotPort i == 32 && (wd i 0 != 0 || (!slotRx i && field (wd i 1) 31 16 != 0))) ||
    (slotPort i == 62 && (wd i 0 != 0 || field (wd i 1) 15 0 != 0))

/-- A declared port that is not off. -/
def portOn (u : Setup) (n : Nat) : Bool := u.ports.any fun p => p.port.val == n && p.speed != 0

/-- The transmit SLOT of an internal route. -/
def routeTx (u : Setup) (id : BitVec 16) : Option SlotDecl :=
  u.slots.find? fun d => d.port == 62 && !d.rx && d.slotId == id && d.kind == .route

def checkRc (earlier : List SetupInstr) (i : SetupInstr) : Option Byte :=
  let ds := field (wd i 1) 31 16
  refuseIf (decide (32 ≤ slotPort i) || decide (ds < 1) || decide (1432 < ds) || decide (12 < field (wd i 1) 15 0) ||
    field (wd i 3) 23 0 != ds ||
    dup earlier 0x71 (fun j => slotClass j == 1 && slotRx j == slotRx i && wd j 0 == wd i 0)) 0x3B

/-- An internal route by itself and against those before it: SLOTID once for each direction, and the routes with a meaning of their own
(R169, R291, R335, R534). -/
def checkRoute (earlier : List SetupInstr) (i : SetupInstr) : Option Byte :=
  let d := slotOf i
  let twice := dup earlier 0x71 fun j => slotClass j == 0 && slotPort j == 62 && slotRx j == slotRx i &&
    field (wd j 1) 31 16 == field (wd i 1) 31 16
  let special := specialRoute d.slotId && (d.rx || d.bound != 8)
  refuseIf (twice || special) 0x39

/-- At most 16 windows of one port, mode and direction, each with its own WIN; the backbone's windows are those of PORT 32 (R162). -/
def checkWin (earlier : List SetupInstr) (i : SetupInstr) : Option Byte :=
  let same (j : SetupInstr) : Bool := opIs j 0x71 && slotClass j == 0 && slotPort j == slotPort i && slotRx j == slotRx i &&
    ag j 15 13 == ag i 15 13
  refuseIf (decide (16 ≤ (earlier.filter same).length) || (earlier.any fun j => same j && ag j 3 0 == ag i 3 0)) 0x32

/-- BYTEOFF and the bound length of a TT SLOT or an internal route (R644). -/
def checkBound (i : SetupInstr) : Option Byte :=
  let d := slotOf i
  let off := match d.bind with | some b => decide (b.off % 4 ≠ 0) | none => false
  refuseIf (off || (slotClass i != 1 && decide (d.bound % 4 ≠ 0))) 0x28

/-- SLOT (R168, R169, R326, R644). -/
def checkSlot (earlier : List SetupInstr) (i : SetupInstr) : Option Byte :=
  let p := slotPort i
  firstOf [
    refuseIf (decide (37 ≤ p) && p != 62) 0x30,
    refuseIf (p == 36 || (decide (33 ≤ p) && decide (p ≤ 35))) 0x37,
    refuseIf (p == 62 && (ag i 15 13 != 0 || slotClass i != 0)) 0x39,
    refuseIf (decide (2 ≤ slotClass i)) 0x3B,
    refuseIf (slotTse i || slotAge i) 0x83,
    if slotClass i = 1 then checkRc earlier i else refuseIf (slotZeros i) 0x83,
    if p = 62 then checkRoute earlier i else none,
    if p ≤ 32 ∧ slotClass i = 0 then checkWin earlier i else none,
    checkBound i]

/-- PORT (R163, R460, R645). `role` is CBROLE. -/
def checkPort (role : BitVec 2) (earlier : List SetupInstr) (i : SetupInstr) : Option Byte :=
  let p := ag i 15 10
  let speed := ag i 9 8
  let lead := ag i 7 7 == 1
  let min := field (wd i 1) 1 0
  let twice := dup earlier 0x72 fun j => ag j 15 10 == p
  if p = 63 then
    let et := field (wd i 0) 15 0
    let d1 := field (wd i 1) 7 0
    let d2 := field (wd i 1) 15 8
    firstOf [
      refuseIf (twice || speed != 0) 0x30, refuseIf lead 0x31,
      refuseIf (decide (et < 0x600) || et == 0x800 || et == 0x806 || et == 0x88F7 || decide (127 < d1) || decide (127 < d2) ||
        d1 == d2) 0x3D]
  else if p = 61 then firstOf [refuseIf (twice || speed != 1 || role == 0 || role == 3) 0x30, refuseIf lead 0x31]
  else
    firstOf [
      refuseIf (decide (36 < p) || twice || speed == 3 || (decide (32 ≤ p) && decide (p ≤ 35) && speed != 2) ||
        (p == 36 && speed == 1)) 0x30,
      refuseIf ((lead && decide (32 ≤ p)) || decide (1 < min) || (min == 1 && (decide (32 ≤ p) || speed != 2))) 0x31]

/-- CHAN (R650). KIND and PRESET of a CHAN with ADDB = 1 are not read: DESIGN CHOICE, log entry 82. -/
def checkChan (earlier : List SetupInstr) (i : SetupInstr) : Option Byte :=
  let ch := ag i 15 10
  let out := ag i 9 8 == 1
  let pre := ag i 7 4
  let on := field (wd i 0) 31 16
  let off := field (wd i 0) 15 0
  let filter := field (wd i 1) 31 16
  let dark := field (wd i 1) 15 8
  let light := field (wd i 1) 7 0
  let per := field (wd i 2) 31 16
  let safe := field (wd i 2) 1 0
  if 47 < ch then some 0x40
  else if isAddb i then none
  else
    firstOf [
      refuseIf (dup earlier 0x75 fun j => !isAddb j && ag j 15 10 == ch) 0x40,
      refuseIf ((decide (6 < pre) && pre != 15) || (out && pre != 0)) 0x41,
      if pre = 15 then
        refuseIf (decide (on < 8) || decide (400 < on) || decide (off < 8) || decide (400 < off) || decide (on < off + 2)) 0x42
      else refuseIf (wd i 0 != 0) 0x83,
      refuseIf (decide (3200 < filter) || (out && filter != 0)) 0x43,
      refuseIf (decide (30 < dark) || decide (10 < light) || decide (6000 < per) || ((dark != 0 || light != 0) && (!out || per == 0)))
        0x44,
      refuseIf (safe == 3 || (!out && safe != 0)) 0x45]

/-- REFLEX by itself and against those before it (R651): COMBINE, a table repeated, two tables on one output. -/
def checkReflex (earlier : List SetupInstr) (i : SetupInstr) : Option Byte :=
  firstOf [
    refuseIf (ag i 1 0 == 3) 0x47,
    refuseIf (dup earlier 0x76 fun j => ag j 15 12 == ag i 15 12 || ag j 11 6 == ag i 11 6) 0x46]

/-- CONN: its own operands (R383, R460). -/
def checkConn (earlier : List SetupInstr) (i : SetupInstr) : Option Byte :=
  let rx := ag i 15 15 == 1
  let t := (wd i 3).toNat
  firstOf [
    refuseIf (decide (128 ≤ (earlier.filter fun j => opIs j 0x78).length)) 0x64,
    refuseIf (wd i 0 == 0 || dup earlier 0x78 fun j => wd j 0 == wd i 0) 0x60,
    refuseIf (wd i 1 == 0 || (!rx && dup earlier 0x78 fun j => ag j 15 15 == 0 && wd j 1 != wd i 1)) 0x63,
    refuseIf (!rx && t != 0) 0x83,
    refuseIf (rx && (decide (t < 250) || decide (1024000 < t))) 0x62,
    refuseIf (field (wd i 2) 5 0 == 61) 0x30]

/-- The bits of w0 that a POLICY key names, and whether the value is out of range (R171). -/
def policyMask (k : Nat) : Option Word :=
  if k = 1 then some 0xFFFF0001 else if k = 2 then some 0xFFFF000F else if k = 3 ∨ k = 4 then some 1
  else if k = 5 then some 0xFF else if k = 6 then some 0xFFFF0001 else if k = 7 ∨ k = 8 ∨ k = 9 then some 1
  else if k = 10 then some 0xFFFF else if k = 11 then some 1 else if k = 12 then some 0x1F else if k = 13 then some 0xF else none

def policyBad (k : Nat) (w : Word) : Bool :=
  let hi := field w 31 16
  let outside (v lo up : Nat) : Bool := decide (v < lo) || decide (up < v)
  if k = 1 then w.getLsbD 0 && outside hi 1 3600
  else if k = 2 then outside hi 1 1000
  else if k = 5 then outside (field w 7 0) 40 70
  else if k = 6 then outside hi 10 3600
  else if k = 10 then outside (field w 15 8) 2 8 || outside (field w 7 0) 2 20
  else false

def checkPolicy (earlier : List SetupInstr) (i : SetupInstr) : Option Byte :=
  let k := ag i 15 8
  match policyMask k with
  | none => some 0x70
  | some m =>
    firstOf [refuseIf (dup earlier 0x7A fun j => ag j 15 8 == k) 0x70, refuseIf ((wd i 0 &&& ~~~m) != 0) 0x83,
      refuseIf (policyBad k (wd i 0)) 0x71]

/-- One instruction, after its reserved bits. -/
def checkInstr (role : BitVec 2) (earlier : List SetupInstr) (i : SetupInstr) : Option Byte :=
  let op := i.op.toNat
  if reservedBad i then some 0x83
  else if op = 0x70 then checkTask earlier i
  else if op = 0x71 then checkSlot earlier i
  else if op = 0x72 then checkPort role earlier i
  else if op = 0x73 then refuseIf (dup earlier 0x73 fun j => ag j 15 13 == ag i 15 13) 0x38
  else if op = 0x74 then
    let bl := field (wd i 0) 15 0
    refuseIf (dup earlier 0x74 (fun _ => true) || decide (62 < ag i 5 0) || decide (bl < 10) || decide (35 < bl)) 0x3A
  else if op = 0x75 then checkChan earlier i
  else if op = 0x76 then checkReflex earlier i
  else if op = 0x78 then checkConn earlier i
  else if op = 0x79 then refuseIf (dup earlier 0x79 fun _ => true) 0x50
  else if op = 0x7A then checkPolicy earlier i
  else if op = 0x7B then refuseIf (dup earlier 0x7B fun _ => true) 0x72
  else none

/-- The pair and task that a refusal of an instruction concerns: those of a timed TASK, and of a SLOT's binding. -/
def concerns (i : SetupInstr) (code : Byte) : Nat × Nat :=
  if opIs i 0x70 && !isLayout i && (code == 0x1C || code == 0x1D) then (ag i 14 12, ag i 11 8)
  else if opIs i 0x71 && code == 0x28 then
    match (slotOf i).bind with | some b => (b.pair.val, b.task.val) | none => (0, 0)
  else (0, 0)

/-- Step 2 of R188 over the program; `earlier` are the instructions already checked. -/
def checkOperands (role : BitVec 2) : List SetupInstr → List SetupInstr → Option Refused
  | _, [] => none
  | earlier, i :: rest =>
    match checkInstr role earlier i with
    | some c => some ⟨c, (concerns i c).1, (concerns i c).2, i.idx⟩
    | none => checkOperands role (earlier ++ [i]) rest

end Sys2Proof.Machine
end

