-- ==== Sys2Proof/Machine/SetupLayout.lean ====
section
/-! DEFINITION. Layouts, sections, images and bindings: step 3 of R188
(05_setup_programs_and_admission.md, R68 to R71, R165, R166, R176). -/

namespace Sys2Proof.Machine

/-- A refusal that concerns a task, and one that concerns a pair. -/
def refuseTask (c : Bool) (code : Byte) (t : TaskDecl) : Option Refused :=
  if c then some ⟨code, t.pair.val, t.task.val, t.idx⟩ else none

def refusePair (c : Bool) (code : Byte) (d : LayoutDecl) : Option Refused :=
  if c then some ⟨code, d.pair.val, 0, d.idx⟩ else none

def refuseAt (c : Bool) (code : Byte) (idx : Nat) : Option Refused := if c then some ⟨code, 0, 0, idx⟩ else none

/-- The boundaries of a layout in rising order, multiples of 4 KiB, no higher than 0x0020_0000 (R68). -/
def boundsOk (d : LayoutDecl) : Bool :=
  let l := [d.code, d.k, d.pi, d.pq, d.ret, d.work]
  (l.all fun x => decide (x % 4096 = 0) && decide (x ≤ 0x200000)) && decide (d.code ≤ d.k) && decide (d.k ≤ d.pi) &&
    decide (d.pi ≤ d.pq) && decide (d.pq ≤ d.ret) && decide (d.ret ≤ d.work)

/-- Length of the space that holds the sections of a kind. -/
def spaceLen (d : LayoutDecl) : SectKind → Nat
  | .pi => d.pi - d.k
  | .pq => d.pq - d.pi
  | .ret => d.ret - d.pq
  | .work => d.work - d.ret

/-- Two ranges overlap. -/
def overlaps (a la b lb : Nat) : Bool := decide (a < b + lb) && decide (b < a + la)

/-- A section leaves its space or overlaps that of another task of the pair. -/
def sectBad (u : Setup) (t : TaskDecl) (k : SectKind) : Bool :=
  let x := sectOf t k
  x.len != 0 && (decide (spaceLen (layoutIn u t.pair) k < x.start + x.len) ||
    u.tasks.any fun v => v.pair == t.pair && v.task != t.task && (sectOf v k).len != 0 &&
      overlaps x.start x.len (sectOf v k).start (sectOf v k).len)

def sectTotal (u : Setup) (p : PairId) (k : SectKind) : Nat :=
  ((u.tasks.filter fun t => t.pair == p).map fun t => (sectOf t k).len).foldl (· + ·) 0

def segLen (segs : List Segment) (kind : SegKind) (p : PairId) : Nat :=
  ((segs.filter fun x => x.kind == kind && x.pair == p).map fun x => x.bytes.length).foldl max 0

/-- The checks of one layout. -/
def checkLayout (u : Setup) (segs : List Segment) (d : LayoutDecl) : Option Refused :=
  let mine := (fins 16).filterMap fun t => taskIn u d.pair t
  firstOf [
    if boundsOk d then none else some ⟨0x20, 0, 0, d.idx⟩,
    mine.findSome? fun t => refuseTask (sectBad u t .pi || sectBad u t .pq || sectBad u t .ret || sectBad u t .work) 0x21 t,
    refusePair (decide (65536 < sectTotal u d.pair .ret)) 0x22 d,
    refusePair (decide (d.code < segLen segs .code d.pair) || decide (d.k - d.code < segLen segs .k d.pair)) 0x23 d,
    refusePair (decide (15616 < sectTotal u d.pair .pi) || decide (15616 < sectTotal u d.pair .pq)) 0x27 d]

/-- An image for a pair that has no layout is larger than its space. -/
def strayImage (u : Setup) (segs : List Segment) : Option Refused :=
  (segs.find? fun x => (x.kind == .code || x.kind == .k) && !x.bytes.isEmpty && !(u.layouts.any fun d => d.pair == x.pair)).map
    fun x => ⟨0x23, x.pair.val, 0, 0xFFFF⟩

/-- Where a binding places its values: section kind, offset, size and alignment; `role` 0 for a binding in PI, 1 for an output
channel, 2 for a transmit SLOT. -/
abbrev Bound := Nat × Binding × SectKind × Nat × Nat × Nat

/-- The binding of an input, wake input or counter (R165). With TSE = 1 the 16 bytes from BYTEOFF count as covered, bytes +4 to +7 of an
input among them: DESIGN CHOICE, log entry 82. -/
def piBound (idx : Nat) (k : ChanKind) (b : Binding) : Bound :=
  let counter := k == .counter
  (idx, b, .pi, if b.tse then 16 else if counter then 8 else 4, if b.tse || counter then 8 else 4, 0)

def chanBounds (d : ChanDecl) : List Bound :=
  match d.bind with
  | none => []
  | some b => if d.kind = .output then [(d.idx, b, .pq, 4, 4, 1)] else [piBound d.idx d.kind b]

def addbBounds (u : Setup) (d : AddbDecl) : List Bound :=
  match d.bind, u.chans.find? fun c => c.ch = d.ch with
  | some b, some c => [piBound d.idx c.kind b]
  | _, _ => []

def slotBounds (d : SlotDecl) : List Bound :=
  match d.bind with
  | none => []
  | some b => if d.rx then [(d.idx, b, .pi, d.bound, 4, 0)] else [(d.idx, b, .pq, d.bound, 4, 2)]

/-- All bindings, in program order. -/
def boundsOf (u : Setup) : List Bound :=
  (u.chans.flatMap chanBounds ++ u.addbs.flatMap (addbBounds u) ++ u.slots.flatMap slotBounds).mergeSort fun a b => a.1 ≤ b.1

/-- A binding is outside its section or misaligned, or an output carries TSE (R165). -/
def boundBad (u : Setup) (x : Bound) : Bool :=
  let b := x.2.1
  match taskIn u b.pair b.task with
  | none => true
  | some t => decide (b.off % x.2.2.2.2.1 ≠ 0) || decide ((sectOf t x.2.2.1).len < b.off + x.2.2.2.1) || (x.2.2.2.2.2 == 1 && b.tse)

/-- Two bindings meet where R166 forbids it. A binding of length 0 covers no byte and meets none. -/
def boundClash (x y : Bound) : Bool :=
  x.2.2.2.2.2 == y.2.2.2.2.2 && x.2.2.2.2.2 != 2 && x.2.1.pair == y.2.1.pair && x.2.1.task == y.2.1.task &&
    x.2.2.2.1 != 0 && y.2.2.2.1 != 0 && overlaps x.2.1.off x.2.2.2.1 y.2.1.off y.2.2.2.1

def checkBounds (u : Setup) : List Bound → List Bound → Option Refused
  | _, [] => none
  | earlier, x :: rest =>
    if boundBad u x || earlier.any (boundClash x) then some ⟨0x28, x.2.1.pair.val, x.2.1.task.val, x.1⟩
    else checkBounds u (x :: earlier) rest

/-- A TASK for a pair without a layout (code 0x29). -/
def noLayout (u : Setup) : Option Refused :=
  u.tasks.findSome? fun t => refuseAt (!(u.layouts.any fun d => d.pair == t.pair)) 0x29 t.idx

/-- Step 3 of R188. -/
def checkLayouts (u : Setup) (segs : List Segment) : Option Refused :=
  firstOf [noLayout u, u.layouts.findSome? (checkLayout u segs), strayImage u segs, checkBounds u [] (boundsOf u)]

end Sys2Proof.Machine
end

