-- ==== Sys2Proof/Machine/Paths.lean ====
section
/-! DEFINITION. Walking the code of a timed task: the structural checks, the worst path, the address checks, the tag map.
Step 4 of R188 (03, R106, R112 to R114; 05, R178; 08, R279; assumption log entry 15). -/

namespace Sys2Proof.Machine

/-- The CODE word at an address; beyond the image it is 0. -/
def codeAt (e : PathEnv) (a : Nat) : Word := e.code.getD (a / 4) 0

/-- Exclusive end of CODE. -/
def codeEnd (e : PathEnv) : Nat := 4 * e.code.length

/-- Whether a word is a LOOP, an ENDL or a JTAB: its opcode says so, be it legal or not (R102, R105, R106). -/
def isLoop (w : Word) : Bool := opOf w == 0x55
def isEndl (w : Word) : Bool := opOf w == 0x56
def isJtab (w : Word) : Bool := opOf w == 0x57

/-- COUNT and N. -/
def countOf (w : Word) : Nat := field w 15 0

/-- The address of the ENDL that matches a LOOP, from the words that follow it (R106). -/
def matchEndl : Nat → List Word → Nat → Nat → Option Nat
  | 0, _, _, _ => none
  | _ + 1, [], _, _ => none
  | fuel + 1, w :: r, a, depth =>
    if isLoop w then matchEndl fuel r (a + 4) (depth + 1)
    else if isEndl w then (if depth = 0 then some a else matchEndl fuel r (a + 4) (depth - 1))
    else if isJtab w then matchEndl fuel (r.drop (countOf w)) (a + 4 + 4 * countOf w) depth
    else matchEndl fuel r (a + 4) depth

/-- The loop bodies of CODE in address order, JTAB tables skipped: first word and ENDL. Which words of CODE are tables and bodies is
read from address 0 upwards, words that no path reaches included: DESIGN CHOICE, log entry 15. -/
def findBodies : Nat → List Word → Nat → List (Nat × Nat)
  | 0, _, _ => []
  | _ + 1, [], _ => []
  | fuel + 1, w :: r, a =>
    if isJtab w then findBodies fuel (r.drop (countOf w)) (a + 4 + 4 * countOf w)
    else if isLoop w then
      match matchEndl (r.length + 1) r (a + 4) 0 with
      | some e => (a + 4, e) :: findBodies fuel r (a + 4)
      | none => findBodies fuel r (a + 4)
    else findBodies fuel r (a + 4)

/-- The JTAB tables of CODE: first word and end, read from address 0 upwards: DESIGN CHOICE, log entry 15. -/
def findTables : Nat → List Word → Nat → List (Nat × Nat)
  | 0, _, _ => []
  | _ + 1, [], _ => []
  | fuel + 1, w :: r, a =>
    if isJtab w then (a + 4, a + 4 + 4 * countOf w) :: findTables fuel (r.drop (countOf w)) (a + 4 + 4 * countOf w)
    else findTables fuel r (a + 4)

/-- The CODE words of a pair: its image, then cleared memory. -/
def codeWords (u : Setup) (segs : List Segment) (p : PairId) : List Word :=
  let b := ((segs.find? fun x => x.kind == .code && x.pair == p).map (·.bytes)).getD []
  let ws := wordsOfBytes b
  let n := (layoutIn u p).code / 4
  (ws ++ List.replicate (n - ws.length) 0).take n

def pathEnv (u : Setup) (segs : List Segment) (t : TaskDecl) : PathEnv :=
  let d := layoutIn u t.pair
  let c := codeWords u segs t.pair
  let sec (k : SectKind) : Nat × Nat := let r := sectRange u t k; (r.1, r.1 + r.2)
  { code := c, kLo := d.code, kHi := d.k, pi := sec .pi, pq := sec .pq, ret := sec .ret, work := sec .work,
    bodies := findBodies (c.length + 1) c 0, tables := findTables (c.length + 1) c 0 }

/-- The bodies that hold an address. -/
def bodiesAt (e : PathEnv) (a : Nat) : List (Nat × Nat) := e.bodies.filter fun b => decide (b.1 ≤ a) && decide (a ≤ b.2)

def inTable (e : PathEnv) (a : Nat) : Bool := e.tables.any fun t => decide (t.1 ≤ a) && decide (a < t.2)

/-- The target of a branch or JTAB entry `off` words from an instruction (R112). -/
def branchTo (e : PathEnv) (a : Nat) (off : Int) : Except Byte Nat :=
  if off ≤ 0 then .error 0x12
  else
    let t := a + 4 * off.toNat
    if codeEnd e ≤ t then .error 0x1D
    else if inTable e t then .error 0x16
    else if bodiesAt e t = bodiesAt e a then .ok t
    else .error 0x17

/-- The address base, displacement, alignment, and permitted ranges of an access (R36, R72, R75, R97, R98, R131); none for an
instruction that forms no address. -/
def accessOf (e : PathEnv) (w : Word) : Option (BitVec 4 × Int × Nat × List (Nat × Nat)) :=
  let op := opOf w
  let c := formC w
  let k := [(e.kLo, e.kHi)]
  let own := [e.ret, e.work]
  let ln := [(0x40000000, 0x41000000)]
  let mem (al : Nat) (r : List (Nat × Nat)) := some (c.base, c.disp.toInt, al, r)
  if op = 0x40 then mem 4 (k ++ own ++ ln)
  else if op = 0x41 ∨ op = 0x42 then mem 2 (k ++ own)
  else if op = 0x43 ∨ op = 0x44 then mem 1 (k ++ own)
  else if op = 0x45 then mem 4 ([e.pi, e.pq] ++ own)
  else if op = 0x46 then mem 8 ([e.pi, e.pq] ++ own)
  else if op = 0x48 then mem 4 (own ++ ln)
  else if op = 0x49 then mem 2 own
  else if op = 0x4A then mem 1 own
  else if op = 0x4B then mem 4 (e.pq :: own)
  else if op = 0x4C then mem 8 (e.pq :: own)
  else if op = 0x2D then let g := formG w; some (g.s2, (4 * g.slot.toNat : Nat), 4, own)
  else if 0x59 ≤ op ∧ op ≤ 0x5D then let t := formT w; some (t.base, (16 * t.blk.toNat : Nat), 16, own)
  else none

/-- The parts of an interval in [0, 2^32): lowest value, values after it, step. -/
def ivParts (lo : Int) (n st : Nat) : List (Nat × Nat × Nat) :=
  let a := (lo % two32).toNat
  let m := if st = 0 then 0 else (two32 - 1 - a) / st
  if n ≤ m then [(a, n, st)] else [(a, m, st), (a + (m + 1) * st - two32, n - m - 1, st)]

/-- How many values of a part lie in a range. -/
def inRange (x : Nat × Nat × Nat) (r : Nat × Nat) : Nat :=
  let (a, n, st) := x
  if st = 0 then (if r.1 ≤ a ∧ a < r.2 then 1 else 0)
  else
    let first := if r.1 ≤ a then 0 else (r.1 - a + st - 1) / st
    let stop := if r.2 ≤ a then 0 else min (n + 1) ((r.2 - a + st - 1) / st)
    stop - first

/-- The ranges that are not marked timed (R30, R32). -/
def untimedRanges : List (Nat × Nat) :=
  [(0x1000000, 0x1800000), (0x20000000, 0x20800000), (0x41000000, 0x4A000000), (0x80000000, 0xC0000000)]

/-- The addresses of the parts that lie in a range. -/
def hitsIn (ps : List (Nat × Nat × Nat)) (r : Nat × Nat) : List Nat :=
  ps.flatMap fun p => ((List.range (p.2.1 + 1)).map fun i => p.1 + i * p.2.2).filter fun a => decide (r.1 ≤ a) && decide (a < r.2)

/-- The address check of an instruction (R178), with the tag positions it adds in PI and in PQ (R279). -/
def checkAccess (e : PathEnv) (w : Word) (r : Vector RegIv 16) : Except Byte (List Nat × List Nat) :=
  match accessOf e w with
  | none => .ok ([], [])
  | some (base, disp, al, ranges) =>
    match ivShift (regIv r base).v disp with
    | .top => .error 0x24
    | .set lo n st =>
      let ps := ivParts lo n st
      let count (r : Nat × Nat) : Nat := (ps.map fun p => inRange p r).foldl (· + ·) 0
      if (untimedRanges.any fun r => count r != 0) then .error 0x1E
      else if (ranges.map count).foldl (· + ·) 0 ≠ n + 1 then .error 0x25
      else if lo % al ≠ 0 ∨ (n ≠ 0 ∧ st % al ≠ 0) then .error 0x26
      else
        let op := opOf w
        .ok (if op = 0x46 then (hitsIn ps e.pi).map (· + 4) else if op = 0x45 then hitsIn ps e.pi else [],
             if op = 0x4C then (hitsIn ps e.pq).map (· + 4) else if op = 0x4B then hitsIn ps e.pq else [])

def maxOpt : Option Nat → Option Nat → Option Nat
  | some a, some b => some (max a b)
  | some a, none => some a
  | none, b => b

def joinThru : Option PathSt → Option PathSt → Option PathSt
  | some a, some b => some (pathJoin a b)
  | some a, none => some a
  | none, b => b

def emptyOut : WalkOut := { thru := none, done := none, trap := none, longest := 0, split := false, pi := [], pq := [] }

/-- Two outcomes together. -/
def outJoin (x y : WalkOut) : WalkOut :=
  { thru := joinThru x.thru y.thru, done := maxOpt x.done y.done, trap := maxOpt x.trap y.trap, longest := max x.longest y.longest,
    split := x.split || y.split, pi := x.pi ++ y.pi, pq := x.pq ++ y.pq }

/-- Places still to be walked, in rising address order; paths that meet are joined. -/
def insertWork (a : Nat) (p : PathSt) : List (Nat × PathSt) → List (Nat × PathSt)
  | [] => [(a, p)]
  | (b, q) :: r => if a < b then (a, p) :: (b, q) :: r else if a = b then (a, pathJoin p q) :: r else (b, q) :: insertWork a p r

/-- A loop body is entered with fresh step counts. -/
def freshSteps (p : Vector RegIv 16) : Vector RegIv 16 := p.map fun x => { x with d := ivConst 0 }

/-- The registers at the start of any run of a loop body, from those at its entry, at its start as assumed, and at its end: a
register that only ADDI and SUBI step is widened by COUNT steps, any other takes the values it has at either end. -/
def widen (count : Nat) (entry assumed after : Vector RegIv 16) : Vector RegIv 16 :=
  Vector.ofFn fun i =>
    match (after.get i).d with
    | .top => ⟨ivJoin (assumed.get i).v (after.get i).v, ivConst 0⟩
    | d => ⟨ivAdd (entry.get i).v (ivTimes 0 (count - 1) d), ivConst 0⟩

/-- A register that still changes is unbounded. -/
def giveUp (x y : Vector RegIv 16) : Vector RegIv 16 :=
  Vector.ofFn fun i => if x.get i = y.get i then x.get i else ⟨.top, ivConst 0⟩

/-- The registers after a loop: their values after its last run, and the steps of all its runs. -/
def afterLoop (count : Nat) (before after : Vector RegIv 16) : Vector RegIv 16 :=
  Vector.ofFn fun i => ⟨(after.get i).v, ivAdd (before.get i).d (ivTimes count count (after.get i).d)⟩

/-- The body walked until its registers no longer change; `passes` bounds the runs that are followed one by one:
every run of a COUNT of 21 or less. -/
def loopPass (body : Vector RegIv 16 → Except Byte WalkOut) (count : Nat) (entry : Vector RegIv 16) :
    Nat → Vector RegIv 16 → Except Byte WalkOut
  | 0, assumed => body assumed
  | passes + 1, assumed =>
    match body assumed with
    | .error c => .error c
    | .ok o =>
      match o.thru with
      | none => .ok o
      | some t =>
        if count = 1 then .ok o
        else
          let next := widen count entry assumed t.regs
          if next = assumed ∨ (passes = 0 ∧ count ≤ 21) then .ok o
          else loopPass body count entry passes (if passes = 0 then giveUp assumed next else next)

/-- The walk of a routine or loop body in address order. Every step and every nested walk uses fuel. A JTAB whose table runs past the
end of CODE is refused with 0x19: DESIGN CHOICE, log entry 15. -/
def walk (e : PathEnv) : Nat → WalkCtx → List (Nat × PathSt) → WalkOut → Except Byte WalkOut
  | 0, _, _, _ => .error 0x19
  | _ + 1, _, [], out => .ok out
  | fuel + 1, c, (a, p) :: rest, out =>
    if codeEnd e ≤ a then .error 0x19
    else
      let w := codeAt e a
      let op := opOf w
      if wordRefused w then .error 0x1A
      else if opUnassigned op || !wordLegal w then .error 0x1B
      else
        match checkAccess e w p.regs with
        | .error code => .error code
        | .ok tags =>
          let cost := p.cost + opCost op
          let out := { out with longest := max out.longest (opCost op), pi := out.pi ++ tags.1, pq := out.pq ++ tags.2 }
          let on (l : List (Nat × PathSt)) (out : WalkOut) := walk e fuel c (l.foldl (fun r x => insertWork x.1 x.2 r) rest) out
          let here : PathSt := ⟨cost, p.regs⟩
          if op = 0x58 then
            if c.nest ≠ 0 then .error 0x18 else on [] { out with done := maxOpt out.done (some cost) }
          else if op = 0x54 then
            if c.endl.isSome then .error 0x18
            else if c.calls.length ≤ 1 then .error 0x1F
            else on [] { out with thru := joinThru out.thru (some here) }
          else if op = 0x6E then on [] { out with trap := maxOpt out.trap (some cost) }
          else if op = 0x56 then
            if c.endl = some a then on [] { out with thru := joinThru out.thru (some here) } else .error 0x1F
          else if op = 0x50 then
            match branchTo e a (formD w).off.toInt with
            | .error x => .error x
            | .ok t => on [(t, here)] out
          else if op = 0x51 ∨ op = 0x52 then
            match branchTo e a (formD w).off.toInt with
            | .error x => .error x
            | .ok t => on [(t, here), (a + 4, here)] out
          else if op = 0x57 then
            let n := countOf w
            if codeEnd e < a + 4 + 4 * n then .error 0x19
            else
              match (List.range n).mapM fun i => branchTo e a (codeAt e (a + 4 + 4 * i)).toInt with
              | .error x => .error x
              | .ok ts => on (ts.map fun t => (t, here)) out
          else if op = 0x53 then
            let t : Int := (a : Int) + 4 * (formD w).off.toInt
            if t < 0 ∨ (codeEnd e : Int) ≤ t then .error 0x1D
            else if inTable e t.toNat then .error 0x16
            else if (bodiesAt e t.toNat) ≠ [] then .error 0x17
            else if c.calls.contains t then .error 0x13
            else if 9 ≤ c.calls.length then .error 0x14
            else
              match walk e fuel ⟨none, t :: c.calls, c.nest⟩ [(t.toNat, here)] emptyOut with
              | .error x => .error x
              | .ok o =>
                match o.thru with
                | none => on [] (outJoin out { o with thru := none })
                | some q => on [(a + 4, q)] (outJoin out { o with thru := none })
          else if op = 0x55 then
            if 4 ≤ c.nest then .error 0x15
            else
              let n := countOf w
              let e? := matchEndl (e.code.length + 1) (e.code.drop (a / 4 + 1)) (a + 4) 0
              let stop := e?.getD (codeEnd e)
              let body (r : Vector RegIv 16) : Except Byte WalkOut :=
                walk e fuel ⟨some stop, c.calls, c.nest + 1⟩ [(a + 4, ⟨0, r⟩)] emptyOut
              let entry := freshSteps p.regs
              match loopPass body n entry (min (n - 1) 20 + 1) entry with
              | .error x => .error x
              | .ok o =>
                let run := (o.thru.map (·.cost)).getD 0
                let o' := { o with thru := none, done := none, trap := o.trap.map fun x => cost + (n - 1) * run + x }
                match o.thru with
                | none => on [] (outJoin out o')
                | some q => on [(stop + 4, ⟨cost + n * q.cost, afterLoop n p.regs q.regs⟩)] (outJoin out o')
          else
            on [(a + 4, ⟨cost, transfer w p.regs⟩)] { out with split := out.split || op == 0x6B }

/-- What admission finds of a task: its worst path, or a refusal code. -/
def analyse (u : Setup) (segs : List Segment) (t : TaskDecl) : Except Byte (Nat × WalkOut) :=
  let e := pathEnv u segs t
  let a := t.entry.toNat
  if codeEnd e ≤ a then .error 0x1D
  else if bodiesAt e a ≠ [] then .error 0x17
  else
    let zero : Vector RegIv 16 := Vector.replicate 16 ⟨ivConst 0, ivConst 0⟩
    match walk e (20 * (e.code.length + 2)) ⟨none, [(a : Int)], 0⟩ [(a, ⟨0, zero⟩)] emptyOut with
    | .error c => .error c
    | .ok o =>
      match o.done with
      | none => .error 0x19
      | some d => .ok (4 + max d (o.trap.getD 0), o)

/-- Tasks pair by pair and task by task. -/
def tasksInOrder (u : Setup) : List TaskDecl := (fins 8).flatMap fun p => (fins 16).filterMap fun t => taskIn u p t

/-- Step 4 of R188: the first refusal, or what is found of every task. -/
def checkPaths (u : Setup) (segs : List Segment) : Except Refused (List (TaskDecl × Nat × WalkOut)) :=
  (tasksInOrder u).mapM fun t =>
    match analyse u segs t with
    | .error c => .error ⟨c, t.pair.val, t.task.val, t.idx⟩
    | .ok r => .ok (t, r)

/-- The tag map of a task, as offsets in its sections (R279). -/
def tagMapOf (u : Setup) (x : TaskDecl × Nat × WalkOut) : TagMap :=
  let t := x.1
  let o := x.2.2
  let off (k : SectKind) (l : List Nat) : List Nat := (l.eraseDups).map fun a => a - (sectRange u t k).1
  { pair := t.pair, task := t.task, pi := off .pi o.pi, pq := off .pq o.pq }

end Sys2Proof.Machine
end

