-- ==== Sys2Proof/Machine/AdmitChecks.lean ====
section
/-! DEFINITION. Response times, network slots and modes, channels, Parapet, connections, policy and voting: steps 5 to 10 of
R188 (05, R170 to R183; 11, R381; 12, R410 to R413). -/

namespace Sys2Proof.Machine

def ceilDiv (a b : Nat) : Nat := (a + b - 1) / b

/-- The period of a task in ns, and its budget D in cycles (R173). -/
def periodNs (t : TaskDecl) : Nat := 250000 * 2 ^ t.k
def budget (t : TaskDecl) : Nat := periodNs t - 4000 - ceilDiv (periodNs t) 8192

/-- The response-time iteration of R175: `base` is C + B, `higher` the period and C of each higher task. -/
def respond (d base : Nat) (higher : List (Nat × Nat)) : Nat → Nat → Option Nat
  | 0, _ => none
  | fuel + 1, r =>
    let i := (higher.map fun h => ceilDiv r h.1 * (h.2 + 4) - 4).foldl (· + ·) 0
    let rn := base + i
    if d < rn then none else if rn = r then some r else respond d base higher fuel rn

/-- One task against the others of its pair (R174, R175). -/
def checkTime (all : List (TaskDecl × Nat × WalkOut)) (x : TaskDecl × Nat × WalkOut) : Option Refused :=
  let t := x.1
  let same := all.filter fun y => y.1.pair == t.pair
  let higher := (same.filter fun y => decide (t.prio < y.1.prio)).map fun y => (periodNs y.1, y.2.1)
  let lower := same.filter fun y => decide (y.1.prio < t.prio)
  let b := ((lower.map fun y => y.2.2.longest).foldl max 0) - 1
  if budget t < x.2.1 then some ⟨0x10, t.pair.val, t.task.val, t.idx⟩
  else
    match respond (budget t) (x.2.1 + b) higher (budget t + 2) (x.2.1 + b) with
    | some _ => none
    | none => some ⟨0x11, t.pair.val, t.task.val, t.idx⟩

/-- Step 5: the tasks of each pair, highest priority first. -/
def checkTimes (all : List (TaskDecl × Nat × WalkOut)) : Option Refused :=
  (all.mergeSort fun a b => decide (a.1.pair.val < b.1.pair.val) || (a.1.pair == b.1.pair && decide (b.1.prio ≤ a.1.prio))).findSome?
    (checkTime all)

/-- The SLOT that a connection names: a TT SLOT of its direction on a vehicle port or the backbone (R381, R382). Where SLOTs of several
modes carry its PORT and SLOTID, it is the first declared: DESIGN CHOICE, log entry 83. -/
def connSlot (u : Setup) (c : ConnDecl) : Option SlotDecl :=
  u.slots.find? fun d =>
    d.rx == c.rx && d.port == c.port && d.slotId == c.slotId &&
      match d.kind with
      | .tt _ _ => true
      | .backbone _ => true
      | _ => false

/-- Whether a SLOT is named by a CONN, so that its frames carry an Ashlar trailer (R180, R403). -/
def hasTrailer (u : Setup) (d : SlotDecl) : Bool := u.conns.any fun c => (connSlot u c).map (·.idx) == some d.idx

def portIn (u : Setup) (n : Nat) : Option PortDecl := u.ports.find? fun p => p.port.val = n

/-- The wire time of a frame, with `b` ns for a bit (R179). -/
def frameNs (frame b : Nat) : Nat := (frame + 20) * 8 * b + 400

/-- The slower of the speeds a port may run at: ns for a bit. -/
def bitNs (p : PortDecl) : Nat := if p.speed = 1 ∨ p.minspd = 1 then 10 else 1

/-- The window of a TT SLOT, against those declared before it (R179). -/
def checkWindow (u : Setup) (earlier : List SlotDecl) (d : SlotDecl) : Option Refused :=
  match d.kind with
  | .tt o l =>
    let clash (x : SlotDecl) : Bool := match x.kind with
      | .tt o' l' => x.port == d.port && x.mode == d.mode && x.rx == d.rx && overlaps o l o' l'
      | _ => false
    firstOf [
      refuseAt (decide (2500 < o + l)) 0x33 d.idx,
      refuseAt (earlier.any clash) 0x34 d.idx,
      refuseAt (decide (l * 100 < frameNs d.frame (((portIn u d.port).map bitNs).getD 1))) 0x35 d.idx]
  | _ => none

/-- FRAME (R180, R182). -/
def checkFrame (u : Setup) (d : SlotDecl) : Option Refused :=
  let bad := decide (d.frame < 64) || decide (1522 < d.frame) ||
    decide (d.frame < 26 + d.bound + (if hasTrailer u d then 24 else 0))
  match d.kind with
  | .tt _ _ => refuseAt bad 0x36 d.idx
  | .backbone _ =>
    firstOf [refuseAt bad 0x36 d.idx, refuseAt (!d.rx && decide (u.bl * 100 < frameNs d.frame 1)) 0x3A d.idx]
  | _ => none

/-- A SLOT on a port that is off, or on a backbone with all four ports off (R644). -/
def slotPortOff (u : Setup) (d : SlotDecl) : Bool :=
  if d.port = 32 then !((List.range 4).any fun n => portOn u (32 + n)) else decide (d.port < 32) && !portOn u d.port

/-- A receiving internal route without a transmit of its length (code 0x39). -/
def unmatched (u : Setup) (d : SlotDecl) : Bool := d.kind == .route && d.rx && ((routeTx u d.slotId).map (·.bound)) != some d.bound

/-- The SLOTs in program order. An internal route carries MODE 0 and so uses M0: where only other modes are declared it is refused with
0x38, DESIGN CHOICE, log entry 83 (R169, R183). -/
def checkNetSlots (u : Setup) : List SlotDecl → List SlotDecl → Option Refused
  | _, [] => none
  | earlier, d :: rest =>
    match firstOf [refuseAt (!(u.modes.any fun m => m.mode == d.mode)) 0x38 d.idx, refuseAt (slotPortOff u d) 0x37 d.idx,
      refuseAt (unmatched u d) 0x39 d.idx, checkWindow u earlier d, checkFrame u d] with
    | some r => some r
    | none => checkNetSlots u (d :: earlier) rest

/-- The modes: NEXT names declared ones, and exactly one carries INIT (R183). -/
def checkModes (u : Setup) : Option Refused :=
  let inits := u.modes.filter (·.init)
  firstOf [
    u.modes.findSome? fun m =>
      refuseAt ((List.range 8).any fun n => m.next.getLsbD n && !(u.modes.any fun x => x.mode == n)) 0x38 m.idx,
    match inits with
    | [] => some ⟨0x38, 0, 0, 0xFFFF⟩
    | [_] => none
    | _ :: m :: _ => some ⟨0x38, 0, 0, m.idx⟩]

/-- The RC ingress limit of a port in every mode (R181). A port declared off has no rate and is not checked: DESIGN CHOICE, log
entry 83. -/
def checkCapacity (u : Setup) (p : PortDecl) : Option Refused :=
  let rate := if p.speed = 0 then 0 else 1000 / bitNs p
  let closed (m : Nat) : Nat := (u.slots.map fun d => match d.kind with
    | .tt _ l => if d.rx && d.port == p.port.val && d.mode == m then l * 100 else 0
    | _ => 0).foldl (· + ·) 0
  refuseAt (p.speed != 0 && u.modes.any fun m => decide (rate * (250000 - closed m.mode) < p.rc * 250000)) 0x3C p.idx

/-- Step 6. -/
def checkNetwork (u : Setup) : Option Refused :=
  firstOf [checkNetSlots u [] u.slots, checkModes u, u.ports.findSome? (checkCapacity u)]

/-- Reflexes and bindings of outputs (R651 and the COMBINE list). -/
def checkOutput (u : Setup) (d : ChanDecl) : Option Refused :=
  let r := u.reflexes.find? fun x => x.out = d.ch
  let only := (r.map (·.combine)) == some 2
  refuseAt (d.kind == .output && (if d.bind.isSome then only else !only)) 0x47 d.idx

/-- The limits of a Parapet function (R413). -/
def limitsBad (f : Nat) (w1 w2 : Nat) : Bool :=
  let outside (v lo hi : Nat) : Bool := decide (v < lo) || decide (hi < v)
  if f = 0 then outside w1 100 2500000 || outside w2 50 (w1 - 50)
  else if f = 1 then outside w1 0 1 || outside w2 1 65535
  else if f = 2 then outside w1 1 1000000 || outside w2 10 2000
  else outside w1 10 2000 || outside w2 0 3

def wordOf (d : ParapetDecl) (n : Nat) : Word := d.ws.toList.getD n 0

/-- CHA and CHB of a PARAPET. -/
def chaOf (d : ParapetDecl) : Nat := field (wordOf d 0) 13 8
def chbOf (d : ParapetDecl) : Nat := field (wordOf d 0) 5 0

/-- One PARAPET in the order of R170; `func` is FUNC as written, `earlier` the functions and channels before it. `readBack`
is the environment's: the six words read back differently. -/
def checkParapet (u : Setup) (readBack : Bool) (earlier : List (Nat × ParapetDecl)) (func : Nat) (d : ParapetDecl) :
    Option Refused :=
  let kind (n : Nat) : Option ChanKind := (u.chans.find? fun c => c.ch.val == n).map (·.kind)
  let filter (n : Nat) : Nat := ((u.chans.find? fun c => c.ch.val == n).map (·.filter)).getD 0
  let a := chaOf d
  let b := chbOf d
  let named (c : ChanDecl) : Bool := if c.ch.val < 32 then (wordOf d 3).getLsbD c.ch.val else (wordOf d 4).getLsbD (c.ch.val - 32)
  let maskBits := (List.range 48).filter fun n => if n < 32 then (wordOf d 3).getLsbD n else (wordOf d 4).getLsbD (n - 32)
  let okMask := maskBits.all fun n => u.chans.any fun c => c.ch.val == n && c.kind == .output && named c
  firstOf [
    refuseAt (decide (3 < func) || (earlier.any fun x => x.1 == func) || kind a != some .counter || kind b != some .counter ||
      a == b || (earlier.any fun x => chaOf x.2 != a || chbOf x.2 != b) || !okMask) 0x4A d.idx,
    refuseAt (decide (10 < filter a) || decide (10 < filter b) || limitsBad func (wordOf d 1).toNat (wordOf d 2).toNat) 0x4B d.idx,
    refuseAt (crc32c (bytesOfWords [wordOf d 0, wordOf d 1, wordOf d 2, wordOf d 3, wordOf d 4]) != (wordOf d 5)) 0x48 d.idx,
    refuseAt readBack 0x49 d.idx]

/-- FUNC of a PARAPET as its ARG spells it. -/
def funcsOf (is : List SetupInstr) : List Nat := (is.filter fun i => opIs i 0x77).map fun i => ag i 15 12

def checkParapets (u : Setup) (readBack : Bool) : List (Nat × ParapetDecl) → List (Nat × ParapetDecl) → Option Refused
  | _, [] => none
  | earlier, x :: rest =>
    match checkParapet u readBack earlier x.1 x.2 with
    | some r => some r
    | none => checkParapets u readBack (x :: earlier) rest

/-- A CHAN with ADDB = 1 for a channel that is not declared as input, counter or wake input (code 0x41). -/
def checkAddb (u : Setup) (d : AddbDecl) : Option Refused :=
  refuseAt (!(u.chans.any fun c => c.ch == d.ch && c.kind != .output)) 0x41 d.idx

/-- The channels that a REFLEX names (code 0x46, R451). -/
def checkReflexChans (u : Setup) (r : ReflexDecl) : Option Refused :=
  let kind (n : Chan) : Option ChanKind := (u.chans.find? fun d => d.ch = n).map (·.kind)
  refuseAt (kind r.out != some .output ||
    (r.ins.any fun x => x.any fun c => kind c != some .input && kind c != some .wake) || r.stray) 0x46 r.idx

/-- The channels and reflexes of step 7, before the PARAPETs. -/
def checkChanDecls (u : Setup) : Option Refused :=
  firstOf [u.addbs.findSome? (checkAddb u), u.chans.findSome? (checkOutput u), u.reflexes.findSome? (checkReflexChans u)]

/-- Step 7. -/
def checkChannels (u : Setup) (is : List SetupInstr) (readBack : Bool) : Option Refused :=
  firstOf [checkChanDecls u, checkParapets u readBack [] ((funcsOf is).zip u.parapets)]

/-- Step 8: every connection names a TT SLOT of its direction, and no other names the same (R381). -/
def checkConns (u : Setup) : List ConnDecl → List ConnDecl → Option Refused
  | _, [] => none
  | earlier, c :: rest =>
    if (connSlot u c).isNone || (earlier.any fun x => (connSlot u x).map (·.idx) == (connSlot u c).map (·.idx)) then
      some ⟨0x61, 0, 0, c.idx⟩
    else checkConns u (c :: earlier) rest

/-- The number of a POLICY instruction of a key. -/
def policyIdx (is : List SetupInstr) (k : Nat) : Nat :=
  ((is.find? fun i => opIs i 0x7A && ag i 15 8 == k).map (·.idx)).getD 0xFFFF

/-- Step 9 (codes 0x72 and 0x73). -/
def checkPolicies (u : Setup) (x : Straps) (is : List SetupInstr) : Option Refused :=
  let pref := u.feed.getD x.feedcfg
  let wake := u.chans.any fun d => d.kind == .wake
  let baPort (n : Nat) : Bool := portOn u n
  firstOf [
    refuseAt ((pref == 2 || pref == 3) && u.policy.feedReturn) 0x72 (policyIdx is 1),
    refuseAt (u.policy.sleep && !wake && !baPort 32 && !baPort 33) 0x73 (policyIdx is 6)]

/-- Step 10: VOTE LANES against LMODE (R172), and SPLIT against SPLITMASK. -/
def checkVoting (u : Setup) (x : Straps) (is : List SetupInstr) (all : List (TaskDecl × Nat × WalkOut)) : Option Refused :=
  let vote := ((is.find? fun i => opIs i 0x79).map (·.idx)).getD 0xFFFF
  let fits := u.lanes == 0 || (u.lanes == 1 && x.lmode == 0) || (u.lanes == 2 && x.lmode == 1)
  firstOf [
    refuseAt (x.lmode == 3) 0x50 0xFFFF,
    refuseAt (!fits) 0x50 vote,
    all.findSome? fun y => refuseTask (y.2.2.split && !u.splitmask.getLsbD y.1.pair.val) 0x52 y.1]

end Sys2Proof.Machine
end

