-- ==== Sys2Proof/Machine/NetOps.lean ====
section
/-! DEFINITION. Frames, the egress vote, queues and forwarding, the guardians (08_vehicle_network.md, R265 to R288, R304, R305;
07_lanes_voting_and_lockstep.md, R231 to R235). -/

namespace Sys2Proof.Machine

def modNet (s : State) (f : Net → Net) : State := { s with net := f s.net }

def isVehicle (p : Port) : Bool := decide (p.val < 32)
def isBackbone (p : Port) : Bool := decide (32 ≤ p.val) && decide (p.val < 36)
def mntPort : Port := 36

/-- The module's own address: six bytes from UID, with its first byte (R269). -/
def ownMac (s : State) (first : Byte) : List Byte := first :: beBytes 5 (s.boot.uid.toNat % 2 ^ 40)
def vehicleMac (s : State) : List Byte := ownMac s 0x02
def mntMac (s : State) : List Byte := ownMac s 0x06

/-- FCS as it stands in a frame: least significant byte first. -/
def fcsBytes (body : List Byte) : List Byte := leBytes 4 (crc32 body).toNat
def badFcsBytes (body : List Byte) : List Byte := leBytes 4 (~~~ (crc32 body)).toNat

/-- A frame with its FCS. -/
def withFcs (body : List Byte) : List Byte := body ++ fcsBytes body

/-- The frame without FCS, and whether the FCS is right. -/
def bodyOf (f : List Byte) : List Byte := f.take (f.length - 4)
def fcsOk (f : List Byte) : Bool := decide (18 ≤ f.length) && f.drop (f.length - 4) == fcsBytes (bodyOf f)

def dstMac (f : List Byte) : List Byte := f.take 6
def srcMac (f : List Byte) : List Byte := (f.drop 6).take 6
def beAt (f : List Byte) (o n : Nat) : Nat := beNat ((f.drop o).take n)
def etherType (f : List Byte) : Nat := beAt f 12 2

/-- A group address. -/
def isGroup (mac : List Byte) : Bool := (mac.headD 0).getLsbD 0

/-- The shortest Ethernet frame, without FCS. -/
def padFrame (f : List Byte) : List Byte := f ++ List.replicate (60 - f.length) 0

/-- The 32-bit word `i` that a slice presents of its copy; none where it is silent (R231). -/
def copyWord (ws : List Word) (x : SliceFault) (i : Nat) : Option Word :=
  match x with
  | .none => ws[i]?
  | .flip w v => if i = w then ws[i]?.map fun y => y ^^^ v else ws[i]?
  | .silentFrom w => if w ≤ i then none else ws[i]?

/-- The value that two present copies agree on. -/
def agreed (l : List (Option Word)) : Option Word :=
  (l.filterMap id).find? fun v => decide (2 ≤ (l.filter fun x => x == some v).length)

/-- The vote of a frame of `n` words, word by word: the words sent, and whether the frame was cut off (R231, R232). -/
def voteWords (copies : List (List Word × SliceFault)) : Nat → Nat → List Word × Bool
  | 0, _ => ([], false)
  | n + 1, i =>
    match agreed (copies.map fun c => copyWord c.1 c.2 i) with
    | none => ([], true)
    | some w => let r := voteWords copies n (i + 1); (w :: r.1, r.2)

/-- A copy is in the minority or silent somewhere among the words sent, or silent at the word at which the frame is cut off (R231,
R232, R241). -/
def inMinority (c : List Word × SliceFault) (sent : List Word) (cut : Bool) : Bool :=
  (sent.zipIdx.any fun p => copyWord c.1 c.2 p.2 != some p.1) || (cut && (copyWord c.1 c.2 sent.length).isNone)

/-- Train time as PTP carries it: 48 bits of seconds, 32 bits of nanoseconds. -/
def ptpTime (ns : Int) : List Byte := beBytes 6 (ns.toNat / 1000000000) ++ beBytes 4 (ns.toNat % 1000000000)

/-- ns added to the correctionField, in units of 2^-16 ns. -/
def addCorr (body : List Byte) (ns : Int) : List Byte :=
  putBytes body 22 (beBytes 8 (BitVec.ofNat 64 (beAt body 22 8) + BitVec.ofInt 64 (ns * 65536)).toNat)

/-- What is written into a voted frame that leaves with its egress timestamp at `t` (R233, R330, R365, R367). -/
def stampBody (st : Stamp) (t : Int) (body : List Byte) : List Byte :=
  match st with
  | .plain => body
  | .asIs => body
  | .hop h => putBytes body 34 (beBytes 1 h)
  | .origin d => putBytes body 48 (ptpTime (t + d))
  | .turn rx => addCorr body (t - rx)
  | .residence d => addCorr body d

/-- A voted frame closed with its FCS: with the complement of the right one where it is cut off (R232, R233). -/
def closeFrame (st : Stamp) (t : Int) (body : List Byte) (cut : Bool) : TxFrame :=
  let b := stampBody st t body
  if cut then ⟨b ++ badFcsBytes b, true⟩ else if st = .asIs then ⟨b, false⟩ else ⟨withFcs b, false⟩

/-- What an egress voter makes of a frame: the frame that leaves, none where no slice may present it, and the lanes in the minority. -/
structure Egress where
  frame : Option TxFrame
  minor : List LaneId
  deriving DecidableEq, Repr

/-- The egress vote over the copies of the unmasked slices, for an egress timestamp at `t` (R231 to R235). A TT, RC or ring frame of the
module's own needs two slices; transit and best effort pass through one alone. -/
def egressAt (s : State) (f : QFrame) (sl : Lanes SliceFault) (t : Int) : Egress :=
  let vs := voters s
  match vs with
  | [] => ⟨none, []⟩
  | [l] =>
    if !f.lone then ⟨none, []⟩
    else
      let b := f.copies.get l
      let ws := wordsOfBytes b
      let got := (List.range ws.length).map fun i => copyWord ws (sl.get l) i
      let sent := got.takeWhile (·.isSome)
      let body := bytesOfWords (sent.filterMap id)
      if sent.length = ws.length then ⟨some (closeFrame f.stamp t (body.take b.length) false), []⟩
      else ⟨some (closeFrame f.stamp t body true), []⟩
  | _ =>
    let copies := vs.map fun l => (l, (wordsOfBytes (f.copies.get l), sl.get l))
    let len := (vs.map fun l => (f.copies.get l).length).foldl max 0
    let r := voteWords (copies.map (·.2)) ((len + 3) / 4) 0
    let minor := (copies.filter fun c => inMinority c.2 r.1 r.2).map (·.1)
    let body := bytesOfWords r.1
    ⟨some (closeFrame f.stamp t (if r.2 then body else body.take len) r.2), minor⟩

/-- The egress vote of a frame that carries no time. -/
def egress (s : State) (f : QFrame) (sl : Lanes SliceFault) : Egress := egressAt s f sl 0

/-- A stop at the next commit instant (R235, R239); one that stands already stays. -/
def stopNextCommit (s : State) : State :=
  if s.ctl.state == .run && s.ctl.pendStop.isNone then
    { s with ctl := { s.ctl with pendStop := some ⟨s.tide + 1, none, false⟩ } }
  else s

/-- A slice in the minority at an egress vote or a verdict: counted, and judged at the end of the tide (R240, R241). -/
def egressMinor (s : State) (l : LaneId) : State := modLane s l fun x => { x with egMin := x.egMin.inc, egBad := true }

/-- A frame leaves a port with its egress timestamp at `t`: the minorities are counted, an aborted frame is counted, and with two lanes an
aborted frame of the module's own stops the controller at the next commit (R232, R235, R241). -/
def sendAt (s : State) (p : Port) (f : QFrame) (sl : Lanes SliceFault) (t : Int) : State :=
  let e := egressAt s f sl t
  match e.frame with
  | none => s
  | some x =>
    let two := (voters s).length == 2
    let s := forAll e.minor s egressMinor
    let s := if x.aborted then { s with rejoin := { s.rejoin with egAbort := s.rejoin.egAbort.inc } } else s
    let s := if x.aborted && f.own && two then stopNextCommit s else s
    modPort s p fun y => { y with tx := some x }

/-- A frame that carries no time leaves a port. -/
def sendFrame (s : State) (p : Port) (f : QFrame) (sl : Lanes SliceFault) : State := sendAt s p f sl 0

/-- A frame in transit, which every slice presents alike. -/
def common (f : List Byte) : QFrame := ⟨⟨f, f, f⟩, false, true, .plain⟩

/-- A frame in transit as it arrived: a bad one leaves with its bad FCS (assumption log entry 87). -/
def transit (f : List Byte) (st : Stamp) : QFrame :=
  if fcsOk f then ⟨⟨bodyOf f, bodyOf f, bodyOf f⟩, false, true, st⟩ else ⟨⟨f, f, f⟩, false, true, .asIs⟩

/-- A best-effort frame of the steward. -/
def stewardFrame (f : List Byte) : QFrame := ⟨⟨f, f, f⟩, true, true, .plain⟩

/-- A frame enters a full queue in the place of its oldest (R276); `n` is the queue's size. -/
def enq {α : Type} (n : Nat) (q : List α) (f : α) : List α × Bool := if n ≤ q.length then (q.drop 1 ++ [f], true) else (q ++ [f], false)

def enqRc (s : State) (p : Port) (f : QFrame) : State :=
  modPort s p fun x => let r := enq 16 x.qRc f; { x with qRc := r.1, ppolice := if r.2 then x.ppolice.inc else x.ppolice }

def enqBe (s : State) (p : Port) (f : QFrame) : State :=
  modPort s p fun x => let r := enq 64 x.qBe f; { x with qBe := r.1, ppolice := if r.2 then x.ppolice.inc else x.ppolice }

def enqPtp (s : State) (p : Port) (f : QFrame) : State :=
  modPort s p fun x => let r := enq 4 x.qPtp f; { x with qPtp := r.1, ppolice := if r.2 then x.ppolice.inc else x.ppolice }

/-- The vehicle ports. -/
def vehiclePorts : List Port := (fins 37).filter isVehicle

/-- A port that forwarding may reach: link and ADMITTED (R271). -/
def reachable (s : State) (p : Port) : Bool := (port s p).link && (port s p).guard == .admitted

/-- The egress ports of a frame by destination address (R271): those it reaches besides the local stack. -/
def destPorts (s : State) (ingress : Option Port) (dst : List Byte) : List Port :=
  let others := vehiclePorts.filter fun p => some p != ingress && reachable s p
  if isGroup dst then others
  else if dst = vehicleMac s then []
  else
    match vehiclePorts.find? fun p => (port s p).mac == some dst with
    | some p => if some p = ingress then [] else [p]
    | none => others

/-- The module's address on an interface (R305; RFC 3927 for MNT address 0, R633). -/
def ownIp (s : State) : Iface → Word
  | .vehicle => (setup s).net.vip
  | .mnt => if s.pw.mntForced || (setup s).net.mip == 0 then Config.linkLocal else (setup s).net.mip

/-- A best-effort frame of the steward: EtherType and payload to an address of an interface. -/
def sendLocal (s : State) (i : Iface) (dst : List Byte) (ethertype : Nat) (payload : List Byte) : State :=
  match i with
  | .mnt => enqBe s mntPort (stewardFrame (padFrame (dst ++ mntMac s ++ beBytes 2 ethertype ++ payload)))
  | .vehicle =>
    let f := stewardFrame (padFrame (dst ++ vehicleMac s ++ beBytes 2 ethertype ++ payload))
    forAll (destPorts s none dst) s fun s p => enqBe s p f

/-- The one's-complement checksum of IPv4, ICMP and UDP over bytes. -/
def onesSum : List Byte → Nat
  | [] => 0
  | [a] => a.toNat * 256
  | a :: b :: r => a.toNat * 256 + b.toNat + onesSum r

def foldOnes (n : Nat) : Nat :=
  let n := n / 65536 + n % 65536
  n / 65536 + n % 65536

def inetSum (l : List Byte) : Nat := 65535 - foldOnes (foldOnes (onesSum l))

/-- An IPv4 header as the module sends it: TTL 64, DF, no options (R304). The identification, which has no use without fragments,
is 0. -/
def ipv4 (proto : Nat) (src dst : Word) (payload : List Byte) : List Byte :=
  let h (sum : Nat) : List Byte :=
    [0x45, 0] ++ beBytes 2 (20 + payload.length) ++ [0, 0, 0x40, 0, 64] ++ beBytes 1 proto ++ beBytes 2 sum ++
      beBytes 4 src.toNat ++ beBytes 4 dst.toNat
  h (inetSum (h 0)) ++ payload

/-- A UDP datagram without checksum. -/
def udp (sport dport : Nat) (payload : List Byte) : List Byte :=
  beBytes 2 sport ++ beBytes 2 dport ++ beBytes 2 (8 + payload.length) ++ [0, 0] ++ payload

/-- The payload of an IPv4 datagram that the module accepts (R304): its protocol, source, destination and payload. -/
def parseIpv4 (f : List Byte) : Option (Nat × Word × Word × List Byte) :=
  let h := (f.drop 14).take 20
  let len := beAt f 16 2
  if etherType f = 0x0800 ∧ h.length = 20 ∧ h.headD 0 = 0x45 ∧ inetSum h = 0 ∧ 20 ≤ len ∧ beAt f 20 2 % 16384 = 0 ∧
      14 + len ≤ f.length then
    some (beAt f 23 1, BitVec.ofNat 32 (beAt f 26 4), BitVec.ofNat 32 (beAt f 30 4), (f.drop 34).take (len - 20))
  else none

/-- The ports and payload of a UDP datagram whose checksum is 0 or right. -/
def parseUdp (src dst : Word) (d : List Byte) : Option (Nat × Nat × List Byte) :=
  let len := beAt d 4 2
  let pseudo := beBytes 4 src.toNat ++ beBytes 4 dst.toNat ++ [0, 17] ++ beBytes 2 len
  if 8 ≤ len ∧ len ≤ d.length ∧ (beAt d 6 2 = 0 ∨ inetSum (pseudo ++ d.take len) = 0) then
    some (beAt d 0 2, beAt d 2 2, (d.take len).drop 8)
  else none

/-- An entry of the ARP cache holds for 300 s (R305). -/
def arpHolds (s : State) (e : ArpEntry) : Bool := decide (s.up < e.at_ + 300000000000)

/-- The MAC address of a destination, if it needs no request or the cache holds it (R305). -/
def resolve (s : State) (i : Iface) (ip : Word) : Option (List Byte) :=
  if ip = 0xFFFFFFFF then some (List.replicate 6 0xFF)
  else if field ip 31 28 = 14 then some ([0x01, 0x00, 0x5E] ++ beBytes 3 (ip.toNat % 2 ^ 23))
  else (s.net.arp.find? fun e => e.iface == i && e.ip == ip && arpHolds s e).map (·.mac)

/-- An ARP packet: operation, target hardware address, target. -/
def arpPacket (s : State) (i : Iface) (op : Nat) (tmac : List Byte) (tip : Word) : List Byte :=
  let own := match i with | .vehicle => vehicleMac s | .mnt => mntMac s
  [0, 1, 8, 0, 6, 4] ++ beBytes 2 op ++ own ++ beBytes 4 (ownIp s i).toNat ++ tmac ++ beBytes 4 tip.toNat

def sendArpRequest (s : State) (i : Iface) (ip : Word) : State :=
  sendLocal s i (List.replicate 6 0xFF) 0x0806 (arpPacket s i 1 (List.replicate 6 0) ip)

/-- The first request for a destination not in the cache, where none is under way (R305). -/
def startArp (s : State) (i : Iface) (ip : Word) : State :=
  if s.net.arpWait.any fun w => w.iface = i ∧ w.ip = ip then s
  else
    sendArpRequest (modNet s fun n => { n with arpWait := n.arpWait ++ [{ iface := i, ip := ip, tries := 1, at_ := s.up }] }) i ip

/-- Breakwater violation codes (R285). -/
inductive Viol where
  | outside | late | overrun | length | extra | intrude | srcmac | jabber
  deriving DecidableEq, Repr

def violNo : Viol → Nat
  | .outside => 1
  | .late => 2
  | .overrun => 3
  | .length => 4
  | .extra => 5
  | .intrude => 6
  | .srcmac => 7
  | .jabber => 8

/-- A port becomes ISOLATED for 4,000 × 2^e tides (R287). -/
def isolate (s : State) (p : Port) (e : Nat) : State :=
  let n := 4000 * 2 ^ e
  let s := modPort s p fun x => { x with guard := .isolated, exp := e, isoEnd := s.tideUp + n, viols := [], piso := x.piso.inc }
  record s 0x0303 (d1 p.val ++ d1 (port s p).lastv.toNat ++ d4 n)

/-- A violation counted, and what the guardian does (R285, R287). -/
def violate (s : State) (p : Port) (v : Viol) : State :=
  let s := modPort s p fun x =>
    { x with pviol := x.pviol.inc, lastv := BitVec.ofNat 4 (violNo v), cleanFrom := s.tideUp,
             viols := s.tideUp :: x.viols.filter fun t => decide (s.tideUp < t + 16) }
  let x := port s p
  match x.guard with
  | .admitted => if 8 ≤ x.viols.length ∨ v = .jabber then isolate s p x.exp else s
  | .probation => isolate s p (min 6 (x.exp + 1))
  | .isolated => s

/-- The windows of a mode on a port: SLOT, W0 and W1 in ns (R282). -/
def ttWindowsIn (s : State) (m : Nat) (p : Port) (rx : Bool) : List (SlotDecl × Nat × Nat) :=
  (setup s).slots.filterMap fun d =>
    match d.kind with
    | .tt o l => if d.port = p.val ∧ d.rx = rx ∧ d.mode = m then some (d, 100 * o, 100 * (o + l)) else none
    | _ => none

/-- The windows of the mode in force. -/
def ttWindows (s : State) (p : Port) (rx : Bool) : List (SlotDecl × Nat × Nat) := ttWindowsIn s s.net.mode.cur.toNat p rx

/-- The mode in force in the next tide: a MODEGO tide is the last of its mode (R295). -/
def nextMode (s : State) : Nat := if s.net.mode.go then s.net.mode.rq.toNat else s.net.mode.cur.toNat

/-- The windows of the next tide, in ns from the start of this one. -/
def ttNext (s : State) (p : Port) (rx : Bool) : List (SlotDecl × Nat × Nat) :=
  (ttWindowsIn s (nextMode s) p rx).map fun w => (w.1, w.2.1 + 250000, w.2.2 + 250000)

/-- The first good frame after link gives the learned address (R270). -/
def learn (s : State) (p : Port) (f : List Byte) : State :=
  modPort s p fun x => if x.mac.isNone then { x with mac := some (srcMac f) } else x

/-- The source address differs from the learned one. -/
def wrongSource (s : State) (p : Port) (f : List Byte) : Bool :=
  match (port s p).mac with
  | some m => srcMac f != m
  | none => false

/-- The longest arrival that is no JABBER. -/
def jabberLen : Nat := 1542

/-- An FCS failure counts for the derating trigger too (R308, R310). -/
def fcsFail (s : State) (p : Port) : State :=
  modPort s p fun x =>
    { x with prej := x.prej.inc, fcsFails := s.tideUp :: x.fcsFails.filter fun t => decide (s.tideUp < t + 4000) }

def rejectFrame (s : State) (p : Port) : State := modPort s p fun x => { x with prej := x.prej.inc }

/-- The instant, in ns since power-on, at an offset in the present tide. -/
def atOffset (s : State) (o : Nat) : Nat := s.up - (trainNs s - s.tide * 250000) + o

/-- Duration of a bit on a port in ns. -/
def portBit (s : State) (p : Port) : Nat := if (port s p).speed = 1 then 10 else 1

/-- The local time at an offset in the present tide. -/
def tideNs (s : State) (now : Nat) : Int := (s.tide * 250000 + now : Nat)

/-- The egress timestamp of a frame that starts at an offset in the present tide: the first bit after its start-of-frame delimiter, eight
bytes later (R368). -/
def egressNs (s : State) (p : Port) (now : Nat) : Int := tideNs s (now + 64 * portBit s p)

/-- The depth of a token bucket in millibits (R286). -/
def bucketDepth : Nat := 3044 * 8 * 1000

/-- The tokens of a bucket with a limit in Mb/s after some ns. -/
def refill (tok limit dt : Nat) : Nat := min bucketDepth (tok + limit * dt)

/-- Policing of an arriving frame (R286): the state, and whether it passes. -/
def police (s : State) (p : Port) (rc : Bool) (len now : Nat) : State × Bool :=
  let d := (portDecl s p)
  let rcL := (d.map (·.rc)).getD 0
  let beL := (d.map (·.be)).getD 0
  let x := port s p
  let rcT := refill x.rcTok rcL (now - x.tokAt)
  let beT := refill x.beTok beL (now - x.tokAt)
  let need := len * 8 * 1000
  let have_ := if rc then rcT else beT
  let limit := if rc then rcL else beL
  let pass := decide (need ≤ have_) && limit != 0
  let take := if pass then need else 0
  (modPort s p fun x =>
    { x with rcTok := if rc then rcT - take else rcT, beTok := if rc then beT else beT - take, tokAt := max now x.tokAt,
             ppolice := if pass then x.ppolice else x.ppolice.inc }, pass)

/-- A port's settings at E (R185, R309): a changed speed or LEAD loses link and trains again; derating ends. No PORT declares the speed or
the PHY role of a backbone port (R313). -/
def portAtE (s : State) (u : Setup) (p : Port) : State :=
  let d := u.ports.find? fun x => x.port = p
  let speed := (d.map (·.speed)).getD 0
  let lead := (d.map (·.lead)).getD false
  let x := port s p
  let s := modPort s p fun x => { x with rcTok := bucketDepth, beTok := bucketDepth, tokAt := s.up }
  if isBackbone p ∨ (x.speed = speed ∧ x.lead = lead ∧ !x.derated) then s
  else
    let s := modPort s p fun x =>
      { x with speed := speed, lead := lead, derated := false, derSaid := false, link := false, sqi := 0, mac := none, losses := [],
               sqiLow := none }
    if x.link then record s 0x0302 (d1 p.val) else s

end Sys2Proof.Machine
end

