-- ==== Sys2Proof/Machine/TtOps.lean ====
section
/-! DEFINITION. TT frames and Ashlar trailers as the module forms them, and the check of received ones
(08_vehicle_network.md, R277 to R283; 11_ashlar_safe_layer.md, R384 to R388). -/

namespace Sys2Proof.Machine

/-- The release record of a task. -/
def relOf (s : State) (p : PairId) (t : TaskId) : Rel := (s.ctl.rel.get p).get t

/-- Bytes of the committed PQ image of a task in a lane. -/
def comBytes (s : State) (l : LaneId) (b : Binding) (n : Nat) : List Byte :=
  (((taskRun s l b.pair b.task).com.getD []).drop b.off).take n

/-- The tag positions of a task, as admission has derived them (R279). -/
def tagMap (s : State) (p : PairId) (t : TaskId) : Option TagMap :=
  s.adm.cur.bind fun c => c.tags.find? fun m => m.pair = p ∧ m.task = t

/-- The PQ tag positions of a task: its map, and those of PQ forces in the table (R279). -/
def pqTags (s : State) (p : PairId) (t : TaskId) : List Nat :=
  ((tagMap s p t).map (·.pq)).getD [] ++ s.ctl.forces.filterMap fun f =>
    match f.item with
    | .slot .pq p' t' off tagged => if p' = p ∧ t' = t then some (off + (if tagged then 4 else 0)) else none
    | _ => none

/-- FORCED stands in some tag of bytes that lie at an offset of the task's PQ section (R281). -/
def forcedIn (s : State) (b : Binding) (bytes : List Byte) : Bool :=
  (pqTags s b.pair b.task).any fun a => decide (b.off ≤ a) && ((bytes[a - b.off]?).map fun t => t.getLsbD 6).getD false

/-- The connection of a SLOT, with its number (R381, R405). -/
def connOfSlot (u : Setup) (d : SlotDecl) (rx : Bool) : Option (Nat × ConnDecl) :=
  (u.conns.zipIdx.find? fun p => p.1.rx == rx && (connSlot u p.1).map (·.idx) == some d.idx).map fun p => (p.2, p.1)

def connSt (s : State) (n : Nat) : AshSt := s.net.conns.getD n resetAsh

def modConn (s : State) (n : Nat) (f : AshSt → AshSt) : State := modNet s fun x => { x with conns := x.conns.modify n f }

/-- Trailer bytes 0 to 15, and the whole trailer over a payload (R384, R385). -/
def trailerHead (c : ConnDecl) (a : AshSt) : List Byte :=
  beBytes 4 c.connId.toNat ++ beBytes 4 c.srcId.toNat ++ beBytes 4 a.seq.toNat ++ beBytes 4 a.time.toNat

def trailer (c : ConnDecl) (a : AshSt) (payload : List Byte) : List Byte :=
  let m := payload ++ trailerHead c a
  trailerHead c a ++ beBytes 4 (crc32c m).toNat ++ beBytes 4 (crc32k m).toNat

/-- The TT header (R277). -/
def ttHeader (s : State) (slotId : BitVec 16) (fpres atr : Bool) (age : Nat) : List Byte :=
  let m := s.net.mode
  let flags : Byte :=
    BitVec.ofNat 8 (128 * b2n m.req + 64 * b2n m.go + 32 * b2n fpres + 16 * b2n atr + (if m.req then 2 * m.rq.toNat else 0))
  [0x01, m.cur.setWidth 8] ++ beBytes 2 slotId.toNat ++ beBytes 2 (s.tide % 65536) ++ [flags, BitVec.ofNat 8 (min 15 age)]

/-- A TT frame without FCS, from its header on: payload, trailer, padding to FRAME - 4 (R277). -/
def ttBody (s : State) (d : SlotDecl) (b : Binding) (conn : Option (Nat × ConnDecl)) (l : LaneId) : List Byte :=
  let payload := comBytes s l b d.bound
  let r := relOf s b.pair b.task
  let hd := ttHeader s d.slotId (forcedIn s b payload) conn.isSome (s.tide - r.comAt)
  let tr := match conn with
    | some c => trailer c.2 (connSt s c.1) payload
    | none => []
  let f := List.replicate 6 0xFF ++ vehicleMac s ++ beBytes 2 (setup s).net.ethertype.toNat ++ hd ++ payload ++ tr
  f ++ List.replicate (d.frame - 4 - f.length) 0

/-- The copies of a TT frame, one for each lane's image. -/
def ttCopies (s : State) (d : SlotDecl) (b : Binding) : QFrame :=
  let conn := connOfSlot (setup s) d false
  ⟨⟨ttBody s d b conn .a, ttBody s d b conn .b, ttBody s d b conn .c⟩, true, false, .plain⟩

/-- What a receive check of a TT frame's header asks (R278); the CYCLE is that of the present tide. -/
def ttHeaderOk (s : State) (d : SlotDecl) (mode : Option (BitVec 3)) (f : List Byte) : Bool :=
  let b15 := f.getD 15 0
  let b20 := f.getD 20 0
  let b21 := f.getD 21 0
  f.getD 14 0 == 0x01 && b15.toNat / 8 == 0 && !b20.getLsbD 0 && b21.toNat / 16 == 0 &&
    (match mode with | some m => b15.setWidth 3 == m | none => true) && beAt f 16 2 == d.slotId.toNat &&
    beAt f 18 2 == s.tide % 65536 && b20.getLsbD 4 == (connOfSlot (setup s) d true).isSome

def setRx (s : State) (i : Nat) (f : RxSt → RxSt) : State := modNet s fun n => { n with rx := n.rx.modify i f }

/-- The position of a SLOT in the admitted set-up. -/
def slotPos (u : Setup) (d : SlotDecl) : Nat := (u.slots.findIdx? fun x => x.idx = d.idx).getD 0

/-- The binding of a transmit internal route with one of the reserved SLOTIDs (R291, R335, R534). -/
def routeOf (u : Setup) (id : BitVec 16) : Option Binding :=
  (u.slots.find? fun d => (match d.kind with | .route => true | _ => false) && d.slotId == id && !d.rx).bind (·.bind)

/-- A lane's copy of one of the two words of a reserved route; none where the lane has no committed image. -/
def routeCopy (s : State) (b : Binding) (l : LaneId) (i : Nat) : Option Word :=
  if (taskRun s l b.pair b.task).com.isSome then some (wordAt (comBytes s l b 8) (4 * i)) else none

/-- The vote of one word of a reserved route, as an egress voter takes it (R231, R291). -/
def routeWord (s : State) (b : Binding) (i : Nat) : Option Word := agreed ((voters s).map fun l => routeCopy s b l i)

/-- The two words of a reserved route, voted as a frame of the module's own: value and tag; none where the lanes agree on none
(R291, R335, R534). -/
def votedRoute (s : State) (b : Binding) : Option (Word × Byte) :=
  match routeWord s b 0, routeWord s b 1 with
  | some v, some t => some (v, t.setWidth 8)
  | _, _ => none

/-- A lane's copy of a reserved route is silent, or differs from a word that two copies agree on (R231, R241). -/
def routeOdd (s : State) (b : Binding) (l : LaneId) (i : Nat) : Bool :=
  match routeWord s b i with
  | some w => routeCopy s b l i != some w
  | none => (routeCopy s b l i).isNone

/-- The lanes whose copy of a reserved route is in the minority or silent. -/
def routeMinor (s : State) (b : Binding) : List LaneId := (voters s).filter fun l => routeOdd s b l 0 || routeOdd s b l 1

end Sys2Proof.Machine
end

