-- ==== Sys2Proof/Machine/Ashlar.lean ====
section
/-! DEFINITION. The receiver checks of Ashlar and the reception of an instance (11_ashlar_safe_layer.md, R389 to R395;
06_cyclic_execution.md, R196). -/

namespace Sys2Proof.Machine

/-- NOW of a release at the boundary just passed (R133). -/
def releaseNow (s : State) : Word := BitVec.ofNat 32 (s.tide * 250)

/-- The boundary at which what arrives in this tide is frozen for a task of period 2^k tides (R190, R196). -/
def nextFreeze (s : State) (k : Nat) : Nat := (s.tide / 2 ^ k + 1) * 2 ^ k

/-- A trailer's fields: CONNID, SRCID, SEQ, TIME, CODE1, CODE2 (R384). -/
def trailerField (i : RxInst) (n : Nat) : Word := BitVec.ofNat 32 (beNat ((i.trailer.drop (4 * n)).take 4))

/-- The reference of a connection has aged beyond TE at a release instant `r` in µs (R392). -/
def lapses (a : AshSt) (c : ConnDecl) (r : Word) : Bool := a.st == .up && decide (c.time < (r - a.time).toNat)

/-- The sequence check, in the state in which an instance frozen at `r` is checked (R391, R392). -/
def seqPasses (a : AshSt) (c : ConnDecl) (i : RxInst) (r : Word) : Bool :=
  a.st != .up || lapses a c r || later (trailerField i 2) a.seq || (trailerField i 2 == a.seq && trailerField i 4 == a.code1)

/-- d of R390 for a release instant `r`. -/
def delayAt (i : RxInst) (r : Word) : Word := r - trailerField i 3

/-- The receiver checks in the order of R390, for an instance frozen at `r`: the error code of the first that fails, 0 when all pass. -/
def ashCheck (a : AshSt) (c : ConnDecl) (i : RxInst) (r : Word) : Nat :=
  let m := i.payload ++ i.trailer.take 16
  if trailerField i 4 != crc32c m then 1
  else if trailerField i 5 != crc32k m then 2
  else if trailerField i 0 != c.connId then 3
  else if trailerField i 1 != c.srcId then 4
  else if !seqPasses a c i r then 5
  else if 2 ^ 31 ≤ (delayAt i r).toNat then 6
  else if c.time < (delayAt i r).toNat then 7
  else 0

/-- The code that two rejecting slices agree on, else that of the first. -/
def rejectCode (codes : List Nat) : Nat :=
  ((codes.find? fun c => decide (2 ≤ (codes.filter fun x => x == c).length)).or codes.head?).getD 0

/-- The voted verdict of the slices (R389): 0 for good or the error code, none where two differ; and the lane in the minority. -/
def votedVerdict (s : State) (code : Nat) (v : Lanes SliceVerdict) : Option Nat × Option LaneId :=
  let vs := voters s
  let gives (l : LaneId) : Nat := ((v.get l).map (·.toNat)).getD code
  let yes := vs.filter fun l => gives l == 0
  let no := vs.filter fun l => gives l != 0
  let why := rejectCode (no.map gives)
  if vs.isEmpty then (none, none)
  else if no.isEmpty then (some 0, none)
  else if yes.isEmpty then (some why, none)
  else if vs.length ≤ 2 then (none, none)
  else if no.length < yes.length then (some 0, no.head?)
  else (some why, yes.head?)

/-- The event of a rejection (R404, R406). -/
def recordReject (s : State) (a : AshSt) (c : ConnDecl) (i : RxInst) (r : Word) (code : Nat) : State :=
  let id := d4 c.connId.toNat
  if code ≤ 2 then record s 0x0713 (id ++ d1 code)
  else if code ≤ 4 then record s 0x0714 (id ++ d4 (trailerField i 0).toNat ++ d4 (trailerField i 1).toNat)
  else if code = 5 then record s 0x0715 (id ++ d4 a.seq.toNat ++ d4 (trailerField i 2).toNat)
  else record s 0x0716 (id ++ d4 (delayAt i r).toNat ++ d1 code)

/-- An instance missed on a vehicle port is counted there (R310, R390). -/
def missInst (s : State) (c : ConnDecl) : State :=
  match (fins 37).find? fun p => p.val == c.port && decide (p.val ≤ 31) with
  | some p => modPort s p fun x => { x with pmiss := x.pmiss.inc }
  | none => s

/-- An instance rejected (R390). -/
def rejectInst (s : State) (n : Nat) (c : ConnDecl) (i : RxInst) (r : Word) (code : Nat) : State :=
  let s := recordReject s (connSt s n) c i r code
  missInst (modConn s n fun a => { a with err := a.err.inc, lastErr := BitVec.ofNat 4 code }) c

/-- An instance that passed every check is frozen: it becomes the reference, and the connection is UP (R391, R392). -/
def acceptInst (s : State) (n : Nat) (c : ConnDecl) (i : RxInst) : State :=
  let a := connSt s n
  let d := delayAt i (releaseNow s)
  let s := if a.st = .up then s else record s 0x0711 (d4 c.connId.toNat ++ d4 (trailerField i 2).toNat ++ d4 d.toNat)
  modConn s n fun a =>
    { a with st := .up, seq := trailerField i 2, time := trailerField i 3, code1 := trailerField i 4, d := d,
             resync := if a.st = .up then a.resync else a.resync.inc }

/-- Slices that differ: event 0x0717 (R389, R404); lane 0 where two differ and none is in the minority. -/
def differ (s : State) (c : ConnDecl) (minor : Option LaneId) : State :=
  let s := record s 0x0717 (d4 c.connId.toNat ++ d1 ((minor.map laneNo).getD 0))
  match minor with
  | some l => egressMinor s l
  | none => s

/-- The check of an instance on its connection as it arrives, with the voted verdict of the slices (R389, R390): the state, and whether it
is good. -/
def checkInst (s : State) (n : Nat) (c : ConnDecl) (i : RxInst) (r : Word) (v : Lanes SliceVerdict) : State × Bool :=
  match votedVerdict s (ashCheck (connSt s n) c i r) v with
  | (none, _) => (missInst (differ s c none) c, false)
  | (some code, minor) =>
    let s := if minor.isSome then differ s c minor else s
    if code = 0 then (s, true) else (rejectInst s n c i r code, false)

/-- A frame of a SLOT has been received: a good one becomes the latest instance, which the next release of its task freezes; one that fails an
Ashlar check is missed, and so is what stood before it (R196, R390). -/
def receive (s : State) (d : SlotDecl) (f : List Byte) (v : Lanes SliceVerdict) : State × Bool :=
  let n := d.bound
  let i : RxInst := ⟨(f.drop 22).take n, (f.drop (22 + n)).take 24⟩
  let k := ((d.bind.bind fun b => taskDecl s b.pair b.task).map (·.k)).getD 0
  let r := match connOfSlot (setup s) d true with
    | some c => checkInst s c.1 c.2 i (BitVec.ofNat 32 (nextFreeze s k * 250)) v
    | none => (s, true)
  (setRx r.1 (slotPos (setup s) d) fun x => { x with pend := if r.2 then some i else none, pendAge := 0 }, r.2)

end Sys2Proof.Machine
end

