-- ==== Sys2Proof/Machine/RingOps.lean ====
section
/-! DEFINITION. The ring as a node sees it: sides, legs, frames of the ring, the slot table, merges
(09_train_backbone.md, R312 to R352). -/

namespace Sys2Proof.Machine

def modRing (s : State) (f : Ring → Ring) : State := { s with ring := f s.ring }

/-- The backbone ports by number: BAF, BAR, BBF, BBR. -/
def bbPort (i : Fin 4) : Port := ⟨32 + i.val, by omega⟩

/-- The port of a side on a line (R312). -/
def spanPort : SideId → Line → Fin 4
  | .f, .a => 0
  | .r, .a => 1
  | .f, .b => 2
  | .r, .b => 3

def sideOfPort (i : Fin 4) : SideId := if i.val % 2 = 0 then .f else .r
def lineOfPort (i : Fin 4) : Line := if i.val < 2 then .a else .b

def sideIdNo : SideId → Nat
  | .f => 0
  | .r => 1

def otherLine : Line → Line
  | .a => .b
  | .b => .a

/-- Ring operation runs (R314). -/
def ringRuns (s : State) : Bool := awake s && s.ring.on

def outwardOf (s : State) : SideId := otherSide (inwardOf s)

/-- The line on which a leg crosses a span in a side state (R320). -/
def legLine (st : SideSt) (leg : Line) : Option Line :=
  match st with
  | .linked => some leg
  | .crossA => some .b
  | .crossB => some .a
  | .end_ => none

/-- The port that a leg uses on a side. -/
def legPort (s : State) (sd : SideId) (leg : Line) : Option (Fin 4) := (legLine (sideOf s sd) leg).map (spanPort sd)

/-- Ingress and egress of the legs (R316, R343). -/
def ingressA (s : State) : Option (Fin 4) := legPort s (inwardOf s) .a
def egressA (s : State) : Option (Fin 4) := legPort s (outwardOf s) .a
def ingressB (s : State) : Option (Fin 4) := legPort s (outwardOf s) .b
def egressB (s : State) : Option (Fin 4) := legPort s (inwardOf s) .b

/-- Where a frame of the node itself, or one from the A leg, leaves: at the far end on the B leg (R316, R322). -/
def outEgress (s : State) : Option (Fin 4) := if sideOf s (outwardOf s) = .end_ then egressB s else egressA s

def setSide (s : State) (sd : SideId) (x : SideSt) : State :=
  modRing s fun r => match sd with
    | .f => { r with sideF := x }
    | .r => { r with sideR := x }

/-- A side changes state: event 0x0404 (R357). -/
def changeSide (s : State) (sd : SideId) (x : SideSt) (p : Fin 4) : State :=
  record (setSide s sd x) 0x0404 (d1 (sideIdNo sd) ++ d1 (sideNo (sideOf s sd)) ++ d1 (sideNo x) ++ d1 (32 + p.val))

def bbLink (s : State) (sd : SideId) (l : Line) : Bool := (port s (bbPort (spanPort sd l))).link

/-- The state of a side whose lines are up as they are now (R320). -/
def sideByLinks (s : State) (sd : SideId) : SideSt :=
  match bbLink s sd .a, bbLink s sd .b with
  | true, true => .linked
  | false, true => .crossA
  | true, false => .crossB
  | false, false => .end_

def ownUid (s : State) : BitVec 64 := s.boot.uid

/-- SLOTS of the slot table (R324). -/
def slotCount (s : State) : Nat := s.ring.roster.length

/-- The fit rule (R324). -/
def fits (slots bl nodes : Nat) : Bool := decide (6800 + slots * bl * 100 + 1600 * (nodes - 1) ≤ 248000)

def freeEntry : RosterEntry := { uid := 0, st := .free, quiet := 0 }

/-- `n` FREE slots appended, as many as the fit rule and the limit of 63 allow (R324, R341). -/
def appendSlots (r : Ring) : Nat → Ring
  | 0 => r
  | n + 1 =>
    if r.roster.length < 63 && fits (r.roster.length + 1) r.bl r.nodes then
      appendSlots { r with roster := r.roster ++ [freeEntry] } n
    else r

/-- The lowest FREE slot; slots count from 1. -/
def lowestFree (r : Ring) : Option Nat := (r.roster.findIdx? fun e => e.st = .free).map (· + 1)

def slotHeld (r : Ring) (uid : BitVec 64) : Option Nat := (r.roster.findIdx? fun e => e.st ≠ .free ∧ e.uid = uid).map (· + 1)

def setEntry (r : Ring) (k : Nat) (e : RosterEntry) : Ring := { r with roster := r.roster.set (k - 1) e }

def countSt (r : Ring) (x : SlotState) : Nat := (r.roster.filter fun e => e.st = x).length

/-- A tide index from its low 32 bits: the next such index from the present tide on. -/
def tideFrom (s : State) (w : Word) : Nat := s.tide + (w - BitVec.ofNat 32 s.tide).toNat

/-- ACT in a frame: 0 for none. -/
def actWord (a : Option Nat) : Word := BitVec.ofNat 32 (a.getD 0)

/-- The header of a backbone frame from byte 0 to byte 21 (R277, R327). -/
def ringHead (s : State) (slotId : Nat) (fpres atr flip cab : Bool) (age : Nat) : List Byte :=
  let flags : Byte := BitVec.ofNat 8 (32 * b2n fpres + 16 * b2n atr + 2 * b2n flip + b2n cab)
  List.replicate 6 0xFF ++ vehicleMac s ++ beBytes 2 (setup s).net.ethertype.toNat ++ [0x01, 0x00] ++ beBytes 2 slotId ++
    beBytes 2 (s.tide % 65536) ++ [flags, BitVec.ofNat 8 (min 15 age)]

/-- A frame of the module's own that every slice presents alike. -/
def ownFrame (f : List Byte) : QFrame := ⟨⟨f, f, f⟩, true, false, .plain⟩

def slotStNo : SlotState → Nat
  | .free => 1
  | .active => 2
  | .lost => 3

def slotStOf (b : Byte) : Option SlotState :=
  if b = 1 then some .free else if b = 2 then some .active else if b = 3 then some .lost else none

/-- The beacon without FCS (R329). -/
def beaconBytes (s : State) (b : Beacon) : List Byte :=
  let entry (x : BitVec 64 × SlotState) : List Byte := beBytes 8 x.1.toNat ++ beBytes 1 (slotStNo x.2)
  let roster := (b.roster.map entry).flatten
  let flags := 128 * b2n b.merge + 64 * b2n b.handover + 32 * b2n b.slew
  ringHead s 0 false false false false 0 ++ beBytes 4 b.epoch.toNat ++ beBytes 8 b.muid.toNat ++
    beBytes 1 b.hop ++ beBytes 1 b.nodes ++ beBytes 1 b.slots ++ beBytes 1 b.bl ++ beBytes 1 b.cabslot ++ beBytes 1 flags ++
    [b.gresult] ++ beBytes 1 b.gslot ++ beBytes 8 b.guid.toNat ++ beBytes 4 b.act.toNat ++
    roster ++ List.replicate (567 - roster.length) 0

/-- The fields of a beacon frame (R329). -/
def parseBeacon (f : List Byte) : Beacon :=
  let slots := beAt f 36 1
  let fl := f.getD 39 0
  { epoch := BitVec.ofNat 32 (beAt f 22 4), muid := BitVec.ofNat 64 (beAt f 26 8), hop := beAt f 34 1, nodes := beAt f 35 1,
    slots := slots, bl := beAt f 37 1, cabslot := beAt f 38 1, merge := fl.getLsbD 7, handover := fl.getLsbD 6,
    slew := fl.getLsbD 5, gresult := f.getD 40 0, gslot := beAt f 41 1, guid := BitVec.ofNat 64 (beAt f 42 8),
    act := BitVec.ofNat 32 (beAt f 50 4),
    roster := (List.range slots).map fun i =>
      (BitVec.ofNat 64 (beAt f (54 + 9 * i) 8), (slotStOf (f.getD (62 + 9 * i) 0)).getD .free) }

/-- VERSION and the bits that a backbone header shows as 0 (R278, R327). -/
def ringHeaderOk (f : List Byte) : Bool :=
  let b20 := f.getD 20 0
  f.getD 14 0 == 0x01 && f.getD 15 0 == 0x00 && !b20.getLsbD 7 && !b20.getLsbD 6 && !b20.getLsbD 3 && !b20.getLsbD 2 &&
    (f.getD 21 0).toNat / 16 == 0

def isRingFrame (s : State) (f : List Byte) : Bool := etherType f == (setup s).net.ethertype.toNat
def ringSlotId (f : List Byte) : Nat := beAt f 16 2

/-- A good beacon (R329). -/
def beaconOk (s : State) (f : List Byte) : Bool :=
  isRingFrame s f && fcsOk f && ringHeaderOk f && ringSlotId f == 0 && f.length == 625 && decide (1 ≤ beAt f 36 1) && decide (beAt f 36 1 ≤ 63)

/-- A claim frame without FCS (R331). -/
def claimBytes (s : State) (c : Claim) : List Byte :=
  let f := ringHead s 0xFE false false false false 0 ++ beBytes 8 c.uid.toNat ++ [c.kind] ++ beBytes 1 c.n ++ beBytes 2 c.frame
  f ++ List.replicate (60 - f.length) 0

def parseClaim (f : List Byte) : Claim :=
  { uid := BitVec.ofNat 64 (beAt f 22 8), kind := f.getD 30 0, n := beAt f 31 1, frame := beAt f 32 2 }

def claimOk (s : State) (f : List Byte) : Bool := isRingFrame s f && fcsOk f && ringHeaderOk f && ringSlotId f == 0xFE && f.length == 64

/-- A probe frame without FCS (R331). -/
def probeBytes (s : State) (p : Probe) : List Byte :=
  let f := ringHead s 0xFF false false false false 0 ++ [p.kind] ++ beBytes 1 (128 * b2n p.cab + 64 * b2n p.slew) ++
    beBytes 4 p.epoch.toNat ++ beBytes 8 p.muid.toNat ++ beBytes 1 p.nodes ++ beBytes 1 p.slots ++ beBytes 1 p.free ++
    beBytes 1 p.bl ++ beBytes 4 p.act.toNat ++ beBytes 1 p.lost
  f ++ List.replicate (60 - f.length) 0

/-- The probe that this node fills from its ring (R349). -/
def ownProbe (s : State) (kind : Byte) (act : Option Nat) : Probe :=
  let r := s.ring
  { kind := kind, cab := r.cabslot != 0, slew := r.slew, epoch := r.epoch, muid := r.muid, nodes := r.nodes,
    slots := slotCount s, free := countSt r .free, bl := r.bl, act := actWord act, lost := countSt r .lost,
    cycle := BitVec.ofNat 16 s.tide }

/-- The end of the claim mini-slot at this node, in ns from the start of the tide (R321). -/
def freeFrom (s : State) : Nat := s.ring.p0 + 6800 + slotCount s * s.ring.bl * 100

/-- The free region at a port (R321, R326): no pattern runs on a span that the ring does not cross. -/
def ringFree (s : State) (i : Fin 4) (now : Nat) : Bool :=
  s.ring.st == .alone || sideOf s (sideOfPort i) == .end_ || (decide (freeFrom s ≤ now) && decide (now < s.ring.p0 + 250000))

/-- A frame leaves a backbone port with its egress timestamp at `t`, where the port has link. -/
def sendRingAt (s : State) (p : Option (Fin 4)) (f : QFrame) (sl : Lanes SliceFault) (t : Int) : State :=
  match p with
  | some i => if (port s (bbPort i)).link then sendAt s (bbPort i) f sl t else s
  | none => s

/-- A frame that carries no time leaves a backbone port. -/
def sendRing (s : State) (p : Option (Fin 4)) (f : QFrame) (sl : Lanes SliceFault) : State := sendRingAt s p f sl 0

/-- A frame that this node passes on, with what is written into it after the vote (R231, R233, R234, R316). -/
def passOn (s : State) (p : Option (Fin 4)) (f : List Byte) (st : Stamp) (sl : Lanes SliceFault) : State :=
  sendRing s p (transit f st) sl

/-- The ring has an active cab and this node is nearer its far end: FLIP (R337). -/
def flipNow (s : State) : Bool := s.ring.cabOwn && decide (s.ring.nodes + 1 < 2 * s.ring.node)

/-- The CLAIM of this node (R339). -/
def ownClaim (s : State) : Claim :=
  let u := setup s
  let frame := ((u.slots.find? fun d => match d.kind with | .backbone _ => !d.rx | _ => false).map (·.frame)).getD 0
  { uid := ownUid s, kind := 1, n := u.n, frame := frame }

/-- The master decides a claim (R341): its ring with result fields set, and the event. -/
def decideClaim (s : State) (c : Claim) : State :=
  let r := s.ring
  let refuse (why : Byte) : State :=
    record (modRing s fun r => { r with gresult := why, gslot := 0, guid := c.uid }) 0x0403 (d8 c.uid.toNat ++ [why])
  let grant (k : Nat) (r' : Ring) : State :=
    record { s with ring := { r' with gresult := 1, gslot := k, guid := c.uid } } 0x0402 (d1 k ++ d8 c.uid.toNat)
  match slotHeld r c.uid with
  | some k => grant k r
  | none =>
    match lowestFree r with
    | none => refuse 2
    | some k =>
      if r.bl * 100 < (c.frame + 20) * 8 + 400 then refuse 3
      else grant k (appendSlots (setEntry r k { uid := c.uid, st := .active, quiet := 0 }) c.n)

/-- Side `sd` has the ring's keeper: the rule of R350 over the two probes. -/
def keeps (mine theirs : Probe) : Bool :=
  if mine.cab != theirs.cab then mine.cab
  else if mine.nodes ≠ theirs.nodes then decide (theirs.nodes < mine.nodes)
  else decide (mine.muid.toNat < theirs.muid.toNat)

/-- The refusal reason of a merge; 0 for none (R351, reasons 0x1 to 0x4). -/
def refusal (keeper joiner : Probe) : Nat :=
  if keeper.cab && joiner.cab then 1
  else if 63 < keeper.nodes + joiner.nodes then 2
  else if keeper.free + keeper.lost < joiner.nodes then 3
  else if !fits keeper.slots keeper.bl (keeper.nodes + joiner.nodes) then 4
  else 0

/-- What a side's last merge was refused on. -/
def refusedOf (s : State) : SideId → Option (Probe × Probe)
  | .f => s.ring.refusedF
  | .r => s.ring.refusedR

def setRefused (r : Ring) (sd : SideId) (x : Option (Probe × Probe)) : Ring :=
  match sd with
  | .f => { r with refusedF := x }
  | .r => { r with refusedR := x }

/-- A merge at a side is refused (R351, R355, R357): no MERGE follows it, and the slew towards the keeper ends. -/
def refuseMerge (s : State) (sd : SideId) (why : Nat) (mine theirs : Probe) : State :=
  let s := modRing s fun r =>
    setRefused { r with dec := none, mergeLast := 3, mergeWhy := BitVec.ofNat 4 why, notice := none,
                        merge := if r.st = .master then false else r.merge,
                        act := if r.st = .master ∧ r.merge then none else r.act,
                        slew := if r.st = .master then false else r.slew } sd (some (mine, theirs))
  let s := { s with time := { s.time with phi := none, relab := 0 } }
  record s 0x0408 (d1 why ++ d8 theirs.muid.toNat)

/-- Nothing that lifts a refusal has changed in a probe (R351). -/
def sameProbe (a b : Probe) : Bool := a.nodes == b.nodes && a.free == b.free && a.cab == b.cab

def probeOf (s : State) : SideId → Option Probe
  | .f => s.ring.probeF
  | .r => s.ring.probeR

/-- What the end of a tide does to a node's counts of slots, FLIP and cabs (R336 to R338). -/
def ringBoundary (s : State) : State :=
  modRing s fun r =>
    let count (p : RosterEntry × Nat) : RosterEntry :=
      if r.slotSeen.contains (p.2 + 1) then { p.1 with quiet := 0 } else { p.1 with quiet := p.1.quiet + 1 }
    { r with roster := r.roster.zipIdx.map count, slotSeen := [], slotGood := [], flips := if r.flipSeen then r.flips + 1 else 0, flipSeen := false,
             cabSeen := if r.st = .master then r.cabSeen else [] }

/-- The slot table of a master without one: 1 + N slots of its SPARE (R324). -/
def freshTable (s : State) (r : Ring) : Ring :=
  if r.hasTable then r
  else
    { r with roster := List.replicate (1 + (setup s).n) freeEntry, bl := (setup s).bl, hasTable := true, cabslot := 0 }

/-- A master's own slot (R332). -/
def ownSlot (s : State) (r : Ring) : Ring :=
  match slotHeld r (ownUid s) with
  | some k => { r with slot := k }
  | none =>
    let r := if (lowestFree r).isNone then appendSlots r 1 else r
    match lowestFree r with
    | some k => { setEntry r k { uid := ownUid s, st := .active, quiet := 0 } with slot := k }
    | none => { r with slot := 0 }

/-- The node becomes master (R332, R337, R329): EPOCH rises, the table is kept or made, and event 0x0401 is recorded. -/
def becomeMaster (s : State) (sd : SideId) : State :=
  let s := modRing s fun r =>
    let alone := sideOf s (otherSide sd) == .end_
    let r := { r with inward := some sd, nodes := if alone || r.nodes == 0 then 1 else r.nodes }
    let r := ownSlot s (freshTable s r)
    { r with st := .master, node := 1, epoch := r.epoch + 1, muid := ownUid s, miss := 0, flips := 0, answer := none, gresult := 0,
             gslot := 0, guid := 0, sent := false, handover := false, merge := false, act := none, slew := false,
             p0 := 0, masterAt := s.tideUp }
  record s 0x0401 (d4 s.ring.epoch.toNat ++ d1 (slotCount s) ++ d1 s.ring.bl)

/-- The node leaves its slot and waits for a grant. -/
def becomeJoining (r : Ring) : Ring := { r with st := .joining, slot := 0, sent := false, answer := none, notice := none }

end Sys2Proof.Machine
end

