-- ==== Sys2Proof/Machine/ServiceOps.lean ====
section
/-! DEFINITION. The engineering service protocol: messages, sessions, replies, the change log
(17_engineering_service.md, R549 to R571). -/

namespace Sys2Proof.Machine

/-- The bytes of a customization string. -/
def strBytes (x : String) : List Byte := x.toList.map fun c => BitVec.ofNat 8 c.toNat

/-- Whether something serves the protocol: the steward firmware, or the ROM recovery service (R590). -/
def serving (s : State) : Bool := awake s && (s.boot.booted || s.boot.romSvc)

/-- Bytes 0 to 31 + LEN of a request as it arrived (R551). -/
def requestBytes (e : Env) (cmd : Nat) : List Byte :=
  [e.version, e.type] ++ beBytes 2 cmd ++ beBytes 8 e.target.toNat ++ beBytes 8 e.origin.toNat ++ beBytes 4 e.session.toNat ++
    beBytes 4 e.seq.toNat ++ beBytes 2 e.status.toNat ++ beBytes 2 e.body.length ++ e.body

/-- The TAG of bytes under a session key (R556). -/
def tagOf (ks bytes : List Byte) : List Byte := Config.kmac256 ks bytes 32 (strBytes "SAHDAL MSG")

def zeroTag : List Byte := List.replicate 32 0

def session? (s : State) (id : Word) : Option Session := s.svc.sessions.find? fun x => x.id = id

def setSession (s : State) (id : Word) (f : Session → Session) : State :=
  { s with svc := { s.svc with sessions := s.svc.sessions.map fun x => if x.id = id then f x else x } }

/-- The UDP port of the protocol (R549). -/
def svcPort : Nat := 50420

/-- The address of the module on an interface of the protocol: on the backbone there is none, and its datagrams are limited broadcasts
(R549, R561). -/
def svcIp (s : State) : SvcIface → Word
  | .mnt => ownIp s .mnt
  | .vehicle => ownIp s .vehicle
  | .backbone => 0

/-- The addresses of a datagram that the module sends to a peer (R269, R304, R550, R561). -/
def replyHead (s : State) (i : SvcIface) (peer : List Byte) : ReplyHead :=
  { smac := if i = .mnt then mntMac s else vehicleMac s, dmac := if i = .backbone then List.replicate 6 0xFF else peer, src := svcIp s i,
    sport := BitVec.ofNat 16 svcPort, ttl := 64, df := true }

/-- An IPv4 datagram that the module takes on an interface of the protocol (R304, R549, R561): a header of 20 bytes with a correct
checksum, no options and no fragment, UDP, from the peer, to the module's address or the limited broadcast of the backbone, to the
protocol's port. -/
def ipTaken (s : State) (e : Env) : Bool :=
  let h := e.net.hdr
  h.length == 20 && h.headD 0 == 0x45 && inetSum h == 0 && beAt h 6 2 % 16384 == 0 && beAt h 9 1 == 17 &&
    beAt h 12 4 == e.ip.toNat && beAt h 16 4 == (if e.iface = .backbone then (0xFFFFFFFF : Word) else svcIp s e.iface).toNat &&
    beAt e.net.udp 0 2 == e.port.toNat && beAt e.net.udp 2 2 == svcPort

/-- A reply to a request (R551). The peer's hardware address is that of the cache, or else the one its frame came from. -/
def mkReply (s : State) (e : Env) (cmd : Nat) (session : Word) (status : Nat) (b : ReplyBody) (keyed : Bool) : Reply :=
  { head := replyHead s e.iface ((resolve s .mnt e.ip).getD e.net.mac), ip := if e.iface = .backbone then 0xFFFFFFFF else e.ip, port := e.port, iface := e.iface, cmd := BitVec.ofNat 16 cmd, origin := s.boot.uid, session := session, seq := e.seq,
    status := BitVec.ofNat 16 status, body := b, keyed := keyed }

def send (s : State) (r : Reply) : State := { s with svc := { s.svc with last := some r } }

/-- A reply outside a session, with a zero TAG (R556). -/
def sendBare (s : State) (e : Env) (cmd status : Nat) (b : ReplyBody) : State :=
  send s (mkReply s e cmd e.session status b false)

/-- A datagram discarded without reply (R552). -/
def rejectDatagram (s : State) : State := { s with svc := { s.svc with svcRej := s.svc.svcRej.inc } }

/-- VERSION, TYPE and the length (R552). -/
def wellFormed (e : Env) : Bool := e.version == 1 && e.type == 1 && e.lenOk

def ifaceNo : SvcIface → Nat
  | .mnt => 1
  | .backbone => 2
  | .vehicle => 0

/-- The instant of a session's next idle end restarts (R559). -/
def stay (s : State) (x : Session) : Session := { x with idleFrom := s.up }

/-- An open load or update sequence of a session is abandoned (R569). Causes as those of 0x0B02 (assumption log entry 9). -/
def abandonSeq (s : State) (id : Word) (cause : Nat) : State :=
  match s.boot.seq with
  | none => s
  | some q =>
    if q.session = id then
      let s := { s with boot := { s.boot with seq := none } }
      match q.kind with
      | .app => record s 0x0B0A (d4 q.length ++ d1 cause)
      | .upd k => record s 0x0B0B (d1 k.toNat ++ d4 q.length ++ d1 cause)
    else s

/-- The calibration working copy of a session is discarded (R572). -/
def discardCal (s : State) (id : Word) (cause : Nat) : State :=
  match s.svc.calWork with
  | none => s
  | some w =>
    if w.1 = id then record { s with svc := { s.svc with calWork := none } } 0x0B09 (d1 cause) else s

/-- A session closes: cause 1 LOGOUT, 2 idle time, 3 PASSWD, 4 reset or loss of power (R559; assumption log entry 9). -/
def closeSession (s : State) (id : Word) (cause : Nat) : State :=
  match session? s id with
  | none => s
  | some x =>
    let s := abandonSeq s id cause
    let s := discardCal s id cause
    let s := { s with svc := { s.svc with sessions := s.svc.sessions.filter fun y => y.id ≠ id } }
    record s 0x0B02 (d1 (roleNo x.role) ++ d1 cause)

/-- An entry of the configuration change log, which holds 65,536 (R570); its details take seven words (assumption log entry 28). -/
def logChange (s : State) (peer : Option (Role × SvcIface × Word)) (cmd status : Nat) (details : List Word) : State :=
  let flag : BitVec 64 := if convBit s then BitVec.ofNat 64 (2 ^ 63) else 0
  let l : LogEntry :=
    { index := s.svc.nextLog, opsec := s.pw.opsec, pcyc := s.pw.pcyc, ttime := flag ||| BitVec.ofNat 64 (trainNs s % 2 ^ 63),
      peer := peer, cmd := BitVec.ofNat 16 cmd, status := BitVec.ofNat 16 status, details := details.take 7 }
  let old := if 65536 ≤ s.svc.log.length then s.svc.log.drop 1 else s.svc.log
  { s with svc := { s.svc with log := old ++ [l], nextLog := s.svc.nextLog + 1 } }

/-- The peer of a session, for the log. -/
def peerOf (e : Env) (x : Session) : Option (Role × SvcIface × Word) :=
  some (x.role, e.iface, if e.iface = .backbone then 0 else e.ip)

/-- A datagram of the protocol sent over the backbone (R326, R561): a best-effort ring frame that leaves as the node's own frames do. -/
def sendBackbone (s : State) (payload : List Byte) : State :=
  match outEgress s with
  | none => s
  | some i =>
    enqBe s (bbPort i) (stewardFrame (padFrame (List.replicate 6 0xFF ++ vehicleMac s ++ beBytes 2 0x0800 ++
      ipv4 17 0 0xFFFFFFFF (udp svcPort svcPort payload))))

/-- The relay of a request that names another module (R560): it goes over the backbone unchanged. The recovery service relays nothing (R590). -/
def relayRequest (s : State) (e : Env) (cmd : Nat) : State :=
  if s.boot.romSvc then s
  else if 8 ≤ s.svc.relays.length then record (sendBare s e cmd 0x0011 .empty) 0x0B0C (d8 e.target.toNat)
  else
    let r : Relay :=
      { mac := e.net.mac, ip := e.ip, port := e.port, target := e.target, seq := e.seq, cmd := BitVec.ofNat 16 cmd, sess := e.session, since := s.up }
    let m := requestBytes e cmd ++ e.tag
    sendBackbone { s with svc := { s.svc with relays := s.svc.relays ++ [r], relayed := some m } } m

/-- A datagram that is well formed and meant for this module goes on; another is rejected, relayed or discarded
(R552, R560, R561); one that arrives on a vehicle port is rejected (R549). What R304 does not accept is no datagram to the module. -/
def admitDatagram (s : State) (e : Env) (cmd : Nat) (go : State → State) : State :=
  if !serving s || !ipTaken s e then s
  else if !wellFormed e || e.iface == .vehicle then rejectDatagram s
  else if e.iface = .mnt then (if e.target = 0 ∨ e.target = s.boot.uid then go s else relayRequest s e cmd)
  else if e.target = s.boot.uid then go s
  else s

/-- The outcome of a command: no reply yet, or a status and a body. -/
abbrev SvcOut := State × Option (Nat × ReplyBody)

def okReply (s : State) (b : ReplyBody) : SvcOut := (s, some (0, b))
def reject (s : State) (status : Nat) : SvcOut := (s, some (status, .empty))

/-- What a session of the factory password may run (R554). -/
def factoryMay (cmd : Nat) : Bool := cmd == 0x0003 || cmd == 0x0004 || cmd == 0x0010

/-- What the ROM recovery service implements (R590). -/
def romMay (cmd : Nat) : Bool :=
  cmd == 0x0001 || cmd == 0x0002 || cmd == 0x0003 || cmd == 0x0010 || (decide (0x0060 ≤ cmd) && decide (cmd ≤ 0x0063)) || cmd == 0x0044

/-- A request in an open session (R554, R558, R559, R563; assumption log entry 17): the TAG, SEQ, the role and the controller
state, then the command. -/
def inSession (s : State) (e : Env) (cmd : Nat) (role : Role) (states : CtlState → Bool) (body : State → Session → SvcOut) : State :=
  match session? s e.session with
  | none => sendBare s e cmd 0x0006 .empty
  | some x =>
    if e.tag = zeroTag ∨ e.tag ≠ tagOf x.key (requestBytes e cmd) then
      record { s with svc := { s.svc with macFail := s.svc.macFail.inc } } 0x0B05 (d4 x.id.toNat ++ d1 (ifaceNo e.iface))
    else if x.last = some e.seq then (match x.reply with | some r => send s r | none => s)
    else if (x.last.map fun l => later e.seq l).getD true then
      let out : SvcOut :=
        if x.factory && !factoryMay cmd then reject s 0x0009
        else if roleNo x.role < roleNo role then reject s 0x0001
        else if !states s.ctl.state then reject s 0x0002
        else body s x
      let r := out.2.map fun y => mkReply out.1 e cmd x.id y.1 y.2 true
      let s := setSession out.1 x.id fun y => { stay s y with last := some e.seq, reply := r }
      match r with
      | some r => send s r
      | none => s
    else send s (mkReply s e cmd x.id 0x000C .empty true)

/-- A command of the protocol as it arrives (R549 to R563). -/
def serve (s : State) (e : Env) (cmd : Nat) (role : Role) (states : CtlState → Bool) (body : State → Session → SvcOut) : State :=
  admitDatagram s e cmd fun s =>
    if s.boot.romSvc && !romMay cmd then s
    else inSession s e cmd role (fun c => states c || s.boot.romSvc) body

def anyState : CtlState → Bool := fun _ => true
def stoppedOrService (c : CtlState) : Bool := c == .stopped || c == .service

/-- The effect tide of an acceptance (R203). -/
def effectTide (s : State) : Nat := tideNow s + 3

/-- SV_ADMIT. -/
def admitWord (s : State) : Word := regGet s .svAdmit

/-- The reply to an APPEND, once admission has ended (R568): OK with E, or REFUSED. -/
def replyAppend (s : State) (status : Nat) (e : Option Nat) : State :=
  match s.svc.appendBy with
  | none => s
  | some p =>
    let r := mkReply s p.2 0x0052 p.1 status (.admission (admitWord s) e) true
    let s := setSession { s with svc := { s.svc with appendBy := none } } p.1 fun y => { y with reply := some r }
    send s r

end Sys2Proof.Machine
end

