-- ==== Sys2Proof/Machine/Ptp.lean ====
section
/-! DEFINITION. The PTP messages that the module sends (10_network_time.md, R362 to R369; the layout of IEEE 1588-2019, assumption log
entry 88). -/

namespace Sys2Proof.Machine

def modTime (s : State) (f : TimeSt → TimeSt) : State := { s with time := f s.time }

/-- The clockIdentity: 0xFF, 0xFE after the third byte of the module's address (R364). -/
def identityBytes (s : State) : List Byte := (vehicleMac s).take 3 ++ [0xFF, 0xFE] ++ (vehicleMac s).drop 3
def ownIdentity (s : State) : BitVec 64 := BitVec.ofNat 64 (beNat (identityBytes s))

/-- portNumber of a port (R364). -/
def ptpPortNo (p : Port) : Nat := p.val + 1

/-- The next sequenceId of a message type, port and domain (R364). -/
def seqIdOf (s : State) (ty : BitVec 4) (p : Port) (dom : Byte) : BitVec 16 := (lookup? s.time.seqIds (ty, p, dom)).getD 0

def countSeq (s : State) (ty : BitVec 4) (p : Port) (dom : Byte) : State :=
  modTime s fun t => { t with seqIds := insertKey t.seqIds (ty, p, dom) (seqIdOf s ty p dom + 1) }

/-- The fields of a message that its kind gives: messageType, length, logMessageInterval, correctionField in ns. -/
structure PtpKind where
  ty    : BitVec 4
  len   : Nat
  logIv : Int
  corr  : Int
  deriving DecidableEq, Repr

/-- The PTP header (R364). -/
def ptpHeader (s : State) (k : PtpKind) (p : Port) (dom : Byte) : List Byte :=
  [k.ty.setWidth 8, 0x12] ++ beBytes 2 k.len ++ [dom, 0, 0, 0] ++ beBytes 8 (BitVec.ofInt 64 (k.corr * 65536)).toNat ++ List.replicate 4 0 ++
    identityBytes s ++ beBytes 2 (ptpPortNo p) ++ beBytes 2 (seqIdOf s k.ty p dom).toNat ++ [if k.ty = 0 then 0 else 5, BitVec.ofInt 8 k.logIv]

/-- The Ethernet frame of a message, without FCS (R269, R362). -/
def ptpFrame (s : State) (k : PtpKind) (p : Port) (dom : Byte) (body : List Byte) : List Byte :=
  let src := if p = mntPort then mntMac s else vehicleMac s
  padFrame ([0x01, 0x80, 0xC2, 0x00, 0x00, 0x0E] ++ src ++ [0x88, 0xF7] ++ ptpHeader s k p dom ++ body)

/-- A message of the module's own: the copies of the slices are alike (R231). -/
def ptpMessage (s : State) (k : PtpKind) (p : Port) (dom : Byte) (body : List Byte) (st : Stamp) : QFrame :=
  let f := ptpFrame s k p dom body
  ⟨⟨f, f, f⟩, true, false, st⟩

/-- A one-step Sync: originTimestamp is the egress time plus `d` ns (R362, R369). -/
def syncMessage (s : State) (p : Port) (dom : Byte) (logIv d : Int) : QFrame :=
  ptpMessage s ⟨0, 44, logIv, 0⟩ p dom (List.replicate 10 0) (.origin d)

/-- A Pdelay_Req (R366). -/
def pdelayReq (s : State) (p : Port) : QFrame :=
  ptpMessage s ⟨2, 54, -6, 0⟩ p (setup s).net.dom1 (List.replicate 20 0) (.origin 0)

/-- A one-step Pdelay_Resp to a request that arrived at `rx`: requestReceiptTimestamp 0, the turnaround in correctionField (R365). -/
def pdelayResp (s : State) (p : Port) (m : PtpMsg) (rx : Int) : QFrame :=
  ptpMessage s ⟨3, 54, 0x7F, m.corr⟩ p m.domain (List.replicate 10 0 ++ beBytes 10 m.sender.toNat) (.turn rx)

/-- The grandmasterIdentity of the active domain; its own without one. -/
def grandmaster (s : State) : BitVec 64 :=
  match s.time.act with
  | .none => ownIdentity s
  | .first => s.time.dom1.gm
  | .second => s.time.dom2.gm

/-- An Announce (R364). -/
def announce (s : State) (p : Port) : QFrame :=
  let body := List.replicate 10 0 ++ [0, 0, 0, 128, 248, 0xFE, 0xFF, 0xFF, 128] ++ beBytes 8 (grandmaster s).toNat ++
    beBytes 2 s.time.hops.toNat ++ [0xA0]
  ptpMessage s ⟨0xB, 64, 0, 0⟩ p (setup s).net.dom1 body (.origin 0)

/-- A PTP message that waits in a queue is a Pdelay_Resp. -/
def isResp (f : QFrame) : Bool := (f.copies.a.getD 14 0).toNat % 16 == 3

end Sys2Proof.Machine
end

