-- ==== Sys2Proof/Machine/TimeOps.lean ====
section
/-! DEFINITION. Network time: rate correction, domains, peer delays, the whole-tide relabel (10_network_time.md, R358 to R376). -/

namespace Sys2Proof.Machine

/-- Rate corrections in units of 2^-32 ns per tick of 8 ns: 100 ppm, 1 ppm, 0.5 ppm and 0.05 ppm (R359, R372, R547). -/
def corr100 : Nat := 3435973
def corr1 : Nat := 34359
def corrHalf : Nat := 17179
def corrStep : Nat := 1718

/-- The rate correction set; since when it exceeds 0.5 ppm is kept (R547). -/
def setCorr (s : State) (c : Int) : State :=
  modTime s fun t =>
    { t with clock := { t.clock with corr := BitVec.ofInt 24 c },
             overFrom := if corrHalf < c.natAbs then some (t.overFrom.getD s.up) else none }

/-- The steady correction after a Sync: a free value within 1 ppm (R372; assumption log entry 21). -/
def steadyCorr (s : State) : Int :=
  let c := (Config.trackCorr s.fresh).toInt
  if c.natAbs ≤ corr1 then c else 0

/-- The offset that the clock slews away: for a joiner's master the phase to the keeper, else that of the active domain
(R372, R374). -/
def slewOfs (s : State) : Int := if s.ring.notice.isSome then s.time.phi.getD 0 else activeOfs s

/-- The clock slews at 100 ppm towards the offset, or follows with a steady correction (R372). -/
def steer (s : State) : State :=
  if s.time.slewing then setCorr s (if 0 ≤ slewOfs s then (corr100 : Int) else -(corr100 : Int))
  else setCorr { s with fresh := s.fresh + 1 } (steadyCorr s)

/-- The clock starts to slew; one that slews already goes on. -/
def startSlew (s : State) : State :=
  steer (modTime s fun t => { t with slewing := true, slewFrom := if t.slewing then t.slewFrom else s.tideUp })

/-- After a change of the active domain: slewing until the offset is 10 ns or less (R372). -/
def slewAfterChange (s : State) : State := if 10 < (slewOfs s).natAbs then startSlew s else steer s

/-- The peer delay of a backbone port; none where the port is not used for time (R366). -/
def peerDelay (s : State) (i : Fin 4) : Option Nat :=
  match s.time.delays.get i with
  | [] => none
  | l => let m := l.foldl (· + ·) 0 / l.length; if m ≤ 300 then some m else none

/-- CONV rises or falls from one state to the next: its rise is timed, and its fall recorded with the tides that it lasted, which are those
of the slew (R373, R380). -/
def convEdge (s t : State) : State :=
  if convBit s then (if convBit t then t else record t 0x0503 (d4 (t.tideUp - t.time.convFrom)))
  else if convBit t then modTime t fun x => { x with convFrom := t.tideUp } else t

/-- A message passes the rules of R363 that do not ask for its sequenceId. -/
def ptpOk (s : State) (m : PtpMsg) : Bool :=
  m.version == 2 && (m.domain == (setup s).net.dom1 || m.domain == (setup s).net.dom2) && !(m.msgType == 0 && m.twoStep)

def ptpReject (s : State) : State := modTime s fun t => { t with ptpRej := t.ptpRej.inc }

/-- The sequenceId is later than that of the last Sync accepted from the sender in the domain (R363). -/
def seqOk (d : DomainSt) (m : PtpMsg) : Bool :=
  match lookup? d.seqs m.sender with
  | some o => later m.seq o
  | none => true

/-- Offset of a Sync that arrives at an offset in the tide over a port of known peer delay (R367, R368, R371). -/
def syncOfs (s : State) (m : PtpMsg) (delay now : Nat) : Int := m.origin + m.corr + (delay : Int) - tideNs s now

/-- The domain has delivered a good Sync within `n` tides. -/
def heardWithin (s : State) (d : DomainSt) (n : Nat) : Bool :=
  match d.lastGood with
  | some t => decide (s.tideUp ≤ t + n)
  | none => false

/-- The grandmaster that a Sync names: the clock that sent it, since a Sync is only forwarded (R367). -/
def syncGm (m : PtpMsg) : BitVec 64 := (m.sender >>> 16).setWidth 64

/-- A good Sync enters its domain (R371). -/
def trackSync (s : State) (d : DomainSt) (m : PtpMsg) (o : Int) : DomainSt :=
  { ofs := some o, lastGood := some s.tideUp, runStart := if heardWithin s d 16 then d.runStart else s.tideUp, gm := syncGm m,
    seqs := insertKey d.seqs m.sender m.seq }

/-- The whole tides and the phase of an offset (R374). -/
def splitOfs (o : Int) : Int × Int :=
  let k := Int.fdiv (o + 125000) 250000
  (k, o - k * 250000)

/-- The joiner's offset to its keeper, as measured; its master slews the phase away, with SLEW in its beacons until 10 ns or less are left
(R374). -/
def measureKeeper (s : State) (o : Int) : State :=
  let kp := splitOfs o
  let s := modTime s fun t => { t with relab := kp.1, phi := some kp.2 }
  if s.ring.notice.isSome then
    let slews := decide (10 < kp.2.natAbs)
    let s := modRing s fun r => { r with slew := slews }
    if slews then startSlew s else s
  else s

/-- HOPS: spans to the active grandmaster (R378, R379). -/
def hopsOf (s : State) : BitVec 6 :=
  match s.time.act with
  | .none => 0
  | .first => BitVec.ofNat 6 (s.ring.node - 1)
  | .second => BitVec.ofNat 6 (s.ring.nodes - s.ring.node)

def setHops (s : State) : State := modTime s fun t => { t with hops := hopsOf s }

/-- At a tide boundary: a Sync interval of the active domain has passed without a good Sync (R379). -/
def timeBoundary (s : State) : State :=
  let miss (d : DomainSt) : State :=
    if heardWithin s d 8 then s else modTime s fun t => { t with syncMiss := t.syncMiss.inc }
  if s.ring.st = .master then s
  else
    match s.time.act with
    | .none => s
    | .first => if s.tide % 8 = 0 then miss s.time.dom1 else s
    | .second => if s.tide % 8 = 4 then miss s.time.dom2 else s

/-- The clock set to a time in ns (R361); the tide index follows. -/
def setClock (s : State) (ns : Nat) : State :=
  let s := modTime s fun t =>
    { t with set := true,
             clock := { t.clock with sec := BitVec.ofNat 48 (ns / 1000000000), ns := BitVec.ofNat 30 (ns % 1000000000), frac := 0, ext := 0 } }
  { s with tide := ns / 250000 }

/-- The k of a relabel that a joiner node finds in the second domain, over which the keeper's time reaches it (R374). -/
def wholeTides (s : State) : Option Int := (s.time.dom2.ofs).map fun o => (splitOfs o).1

/-- A master is grandmaster of the first domain and follows itself, once its clock is set (R361, R369, R376, R379). -/
def ownDomain (s : State) : State :=
  modTime s fun t =>
    { t with act := if t.set then .first else .none, hold := false, hops := 0,
             dom1 := { t.dom1 with ofs := some 0, lastGood := some s.tideUp, gm := ownIdentity s } }

/-- A tide index moved by a relabel. -/
def moveTide (k : Int) (t : Nat) : Nat := ((t : Int) + k).toNat

/-- A number of tides as µs modulo 2^32. -/
def tidesUs (k : Int) : Word := BitVec.ofInt 32 (k * 250)

/-- TIME in a trailer moved by a relabel (R384, R394). -/
def moveTrailer (k : Int) (t : List Byte) : List Byte :=
  if t.length < 16 then t else putBytes t 12 (beBytes 4 (BitVec.ofNat 32 (beAt t 12 4) + tidesUs k).toNat)

/-- A pending effect tide at a relabel: two tides after ACT (R375). `now` is the tide before, `act` the tide after it. -/
def moveEffect (k : Int) (now act t : Nat) : Nat := if now < t then act + 2 else moveTide k t

/-- The whole-tide relabel (R374, R375, R394). -/
def relabel (s : State) (k : Int) : State :=
  let now := s.tide
  let act := moveTide k now
  let s := discardSome s (namedAhead s)
  let eff := moveEffect k now act
  let moveRel (r : Rel) : Rel := { r with endTide := moveTide k r.endTide, comAt := moveTide k r.comAt }
  let c := s.ctl
  let c := { c with rel := c.rel.map fun v => v.map moveRel, runTide := moveTide k c.runTide,
                    forces := c.forces.map fun f => { f with eff := eff f.eff, endAt := f.endAt.map eff },
                    olcs := c.olcs.map fun r => { r with tide := r.tide + BitVec.ofInt 32 k },
                    cmds := c.cmds.map fun x => (x.1, eff x.2),
                    pendStop := c.pendStop.map fun p => { p with tide := if p.cmd then eff p.tide else moveTide k p.tide } }
  let rxDecl (i : Nat) : Bool := (((setup s).conns[i]?).map (·.rx)).getD false
  let moveConn (x : AshSt × Nat) : AshSt := if rxDecl x.2 then { x.1 with time := x.1.time + tidesUs k } else x.1
  let n := s.net
  let n := { n with conns := n.conns.zipIdx.map moveConn,
                    rx := n.rx.map fun r => { r with pend := r.pend.map fun p => { p with trailer := moveTrailer k p.trailer } } }
  let ns := ((trainNs s : Int) + k * 250000).toNat
  let t := s.time
  let t := { t with rel := true, clock := { t.clock with sec := BitVec.ofNat 48 (ns / 1000000000), ns := BitVec.ofNat 30 (ns % 1000000000) } }
  let s := { s with ctl := c, net := n, time := t, tide := act, adm := { s.adm with effect := s.adm.effect.map (moveTide k) },
                    rejoin := { s.rejoin with shadowStart := moveTide k s.rejoin.shadowStart },
                    ring := { s.ring with restoreF := s.ring.restoreF.map (moveTide k), restoreR := s.ring.restoreR.map (moveTide k) } }
  record s 0x0507 (di k ++ d4 act)

end Sys2Proof.Machine
end

