-- ==== Sys2Proof/Machine/PowerOps.lean ====
section
/-! DEFINITION. Module reset, loss of power, feeds, wake and NEAP entry (16_power_and_clocks.md, R519 to R540;
01_module_architecture.md, R44 to R50). -/

namespace Sys2Proof.Machine

def modPower (s : State) (f : Power → Power) : State := { s with pw := f s.pw }

/-- A statistical counter through a reset: it keeps its value while its domain keeps its power (R48). -/
def keepStat (lost : Bool) (c : Stat) : Stat := if lost then Stat.zero else c

/-- A lane through a module reset: ABSENT until its supply is ready. Hard faults of its memory stay. -/
def laneAfter (lost : Bool) (x : LaneSt) : LaneSt :=
  { resetLane with egMin := keepStat lost x.egMin, chMin := keepStat lost x.chMin,
                   dmg := x.dmg.filter fun p => match p.2 with | .hard _ => true | _ => false }

def portAfter (lost : Bool) (x : PortSt) : PortSt :=
  { resetPort with pviol := keepStat lost x.pviol, ppolice := keepStat lost x.ppolice, piso := keepStat lost x.piso,
                   pmiss := keepStat lost x.pmiss, prej := keepStat lost x.prej }

/-- A connection through a module reset: its counters (R44, R405). -/
def connAfter (lost : Bool) (a : AshSt) : AshSt := { resetAsh with err := keepStat lost a.err, resync := keepStat lost a.resync }

/-- A channel through a module reset: its supply and its signal are the environment's. A reset with power leaves the island as it is, and its
count goes on (R438). Where the Parapet loses its power, an island with a supply of its own drives its programmed safe state (R449, R527); one
that starts or sleeps holds its switch open (R440, R649). -/
def chanAfter (lost : Bool) (x : ChanSt) : ChanSt :=
  let y := { resetChan with supply := x.supply, sv := x.sv, volt := x.volt, comp := x.comp, compAt := x.compAt, rbAt := x.rbAt, prog := x.prog,
                            drvAcc := x.drvAcc, cfault := keepStat lost x.cfault,
                            ctfail := keepStat lost x.ctfail, ctaban := keepStat lost x.ctaban, cwet := keepStat lost x.cwet }
  if !lost then
    { y with count := x.count, acc := x.acc, stamp := x.stamp, closed := x.closed, latched := x.latched,
             causes := x.causes, fbit := x.fbit, inSafe := x.inSafe, stale := x.stale, starting := x.starting, silent := x.silent }
  else if x.asleep || x.starting || x.supply == .dead then { y with starting := true, causes := [.safeState] }
  else
    let z := { y with latched := x.latched, inSafe := true, stale := true,
                      causes := if x.supply = SupplyBand.low then [.supply, .safeState] else [.safeState] }
    { z with closed := switchOf z }

def eccAfter (lost : Bool) (e : EccSet) : EccSet := if lost then resetEcc else e

def paraAfter (lost : Bool) (p : Parapet) : Parapet :=
  { resetPara with funcs := p.funcs.map fun f => { resetFunc with trip := keepStat lost f.trip },
                   cha := ⟨p.cha.level, none, none⟩, chb := ⟨p.chb.level, none, none⟩ }

def bridgeAfter (lost : Bool) (b : Bridge) : Bridge :=
  { resetBridge with backoff := keepStat lost b.backoff, retry := keepStat lost b.retry, pwlost := keepStat lost b.pwlost,
                     inerr := keepStat lost b.inerr, arbidle := keepStat lost b.arbidle }

/-- The controller: COLD. Retain buffers and the copies of STOPCAUSE and STOPPC stand in MRAM (R81, R207); that a set-up has been admitted
since power-on stays known while power stays (R200). -/
def ctlAfter (lost : Bool) (c : Ctl) : Ctl :=
  let r := c.retain
  { resetCtl with everCommit := !lost && c.everCommit, retain := { r with busy := false, full := false, src := none, caps := [] }, stopcause := r.stopcause, stoppc := r.stoppc }

def svcAfter (lost : Bool) (v : Service) : Service :=
  { resetSvc with recs := v.recs, facPw := v.facPw, log := v.log, nextLog := v.nextLog, calMirA := v.calMirA, calMirB := v.calMirB,
                  sessCnt := keepStat lost v.sessCnt, authFail := keepStat lost v.authFail, macFail := keepStat lost v.macFail,
                  svcRej := keepStat lost v.svcRej, arpDrop := keepStat lost v.arpDrop }

/-- Boot: banks, journal and fuses stay. -/
def bootAfter (lost : Bool) (b : Boot) : Boot :=
  { resetBoot with bankA := b.bankA, bankB := b.bankB, copy0 := b.copy0, copy1 := b.copy1, uid := b.uid, vkeys := b.vkeys,
                   okeys := b.okeys, rb := b.rb, chkFail := keepStat lost b.chkFail }

/-- The recorder: the areas, the staging buffers in MRAM and the FRAM buffer stay. -/
def recorderAfter (lost : Bool) (r : Recorder) : Recorder :=
  { r with buckets := [], supp := keepStat lost r.supp, foundLost := keepStat lost r.foundLost, torn := keepStat lost r.torn }

/-- The Headland is not reset; REFFLT, the LED test and the forced MNT end with the module reset (R546, R633). -/
def powerAfter (p : Power) : Power :=
  { p with refflt := false, ledTest := false, pattern := 0, litUntil := 0, mntForced := false, asleep := [], waking := [], pllLost := [],
           laneHot := ⟨false, false, false⟩, ksHot := false, ppHot := false, dstep := 0 }

/-- At a reset with power every owner of a lock word is masked, so each held word of Quay is marked broken (R498, R502). -/
def breakAll (s : State) : State := forAll (fins 32) s breakLock

/-- Every domain but the Headland reset. `lost` tells that the domains have lost their power (R48, R527, R536). -/
def moduleReset (s : State) (lost : Bool) : State :=
  let s := if lost then s else breakAll s
  let s := forAll (s.svc.sessions.map (·.id)) s fun s id => closeSession s id 4
  let z := keepStat lost
  let r := s.ring
  { s with
    tide := 0
    lanes := s.lanes.map fun _ x => laneAfter lost x
    rejoin := { resetRejoin with egAbort := z s.rejoin.egAbort }
    ctl := ctlAfter lost s.ctl
    adm := { resetAdm with last := s.adm.last }
    net := { resetNet with ports := s.net.ports.map (portAfter lost), conns := s.net.conns.map (connAfter lost) }
    ring := { resetRing with heal := z r.heal, bmiss := z r.bmiss, rclaim := z r.rclaim }
    time := { resetTime with syncMiss := z s.time.syncMiss, ptpRej := z s.time.ptpRej }
    chans := s.chans.map (chanAfter lost)
    para := paraAfter lost s.para
    br := bridgeAfter lost s.br
    fab := { resetFabric with frel := z s.fab.frel }
    ecc := { lanes := s.ecc.lanes.map fun _ e => eccAfter lost e, quay := eccAfter lost s.ecc.quay, mram := eccAfter lost s.ecc.mram,
             f1 := eccAfter lost s.ecc.f1, f2 := eccAfter lost s.ecc.f2 }
    quay := if lost then [] else s.quay
    quayDmg := if lost then s.quayDmg.filter (fun p => match p.2 with | .hard _ => true | _ => false) else s.quayDmg
    pw := powerAfter s.pw
    svc := svcAfter lost s.svc
    boot := bootAfter lost s.boot
    rc := recorderAfter lost s.rc }

/-- FEEDCFG as a preference (R520, R627). -/
def feedCfg (s : State) : BitVec 2 := s.pw.straps.feedcfg

/-- The preferred feed (R520, R524). -/
def preferred (s : State) : FeedId := if s.pw.pref.getLsbD 0 then .feedB else .feedA

def otherFeed : FeedId → FeedId
  | .feedA => .feedB
  | .feedB => .feedA

def setFeed (s : State) (f : FeedId) (g : FeedSt → FeedSt) : State :=
  modPower s fun p => match f with
    | .feedA => { p with feedA := g p.feedA }
    | .feedB => { p with feedB := g p.feedB }

/-- A voltage in mV as PM_FEED holds it. -/
def centi (mv : Nat) : BitVec 16 := BitVec.ofNat 16 (min 65535 (mv / 10))

/-- Trigger numbers of 0x0101: 1 the active feed out of limits. -/
def feedData (f : FeedId) : List Byte := d1 (match f with | .feedA => 1 | .feedB => 2)

/-- The Keystone starts its boot and the Headland powers the domains: COLD, the Parapet refreshes the islands (R587, R591). -/
def startDomains (s : State) : State :=
  let s := modPower s fun p => { p with state := .run, pref := feedCfg s }
  refreshDrives { s with ring := { s.ring with relay := true }, br := { s.br with rstLow := s.pw.straps.cbrole == 2, bootAt := s.up } }

/-- A module reset with the domains under power (R597, R600): the boot ROM starts again. -/
def resetModule (s : State) : State := startDomains (moduleReset s false)

/-- The straps of a power-on or a wake (R628). -/
def takeStraps (s : State) (x : Straps) (unstable : Bool) : State :=
  modPower s fun p => { p with straps := x, chg := false, unstable := unstable }

/-- The module sends on BAF and BAR as it wakes, with the bypass relays open as the Headland has held them (R314, R354; assumption log
entry 93). -/
def sendAwake (s : State) : State :=
  modPort (modPort { s with ring := { s.ring with relay := false } } 32 fun x => { x with speed := 2 }) 33 fun x => { x with speed := 2 }

/-- A wake from NEAP (R354, R439, R537 to R539). -/
def wakeUp (s : State) (src : WakeSrc) (straps : Straps) (unstable : Bool) : State :=
  let s := takeStraps s straps unstable
  let latched := !s.pw.latch.isEmpty
  let from_ := match s.pw.latch with
    | x :: _ => x.1
    | [] => src
  let s := modPower s fun p =>
    { p with wakeSrc := from_, latched := latched, nlatch := BitVec.ofNat 5 p.latch.length, lastWake := s.up, lastTry := s.up,
             reflast := 0xF000 }
  let s := sendAwake (startDomains s)
  let ch := match from_ with
    | .channel c => c.val
    | _ => 0
  let s := record s 0x010B (d1 (srcNo from_) ++ d1 ch)
  match from_ with
  | .channel c => record s 0x060C (d1 c.val)
  | _ => s

/-- The quiet time of NEAP attempts in ns (R171, R535). -/
def quietNs (s : State) : Nat := (policy s).sleepQuiet * 1000000000

/-- A wake channel reads ON (R535). -/
def wakeChanOn (s : State) : Bool :=
  (List.finRange 48).any fun c => decide ((chanDecl s c).map (·.kind) = some .wake) && (s.chans.get c).acc

/-- The refusers in order with their reasons (R535). A wake channel refuses where it reads ON now, or where the input tells that it has done
so within the quiet time. -/
def refusers (s : State) (i : NeapInputs) : List (Nat × Nat) :=
  let on (b : Bool) (n r : Nat) : List (Nat × Nat) := if b then [(n, r)] else []
  let wake := if i.wakeN then on true 2 0x21 else if i.wakeChan || wakeChanOn s then on true 2 0x22 else on i.button 2 0x23
  let svc := if !s.svc.sessions.isEmpty then on true 3 0x31 else on (port s mntPort).link 3 0x32
  let j := journalOf s
  let staging := j.slip || j.state == .staged || j.state == .trialBoot || j.state == .trialRun || j.fusepend
  let store := if staging then on true 4 0x41 else on i.otherWrite 4 0x42
  let switched := match s.pw.lastSwitch with
    | some t => decide (s.up < t + 10000000000)
    | none => false
  let feed := if !s.pw.full then on true 5 0x51 else on switched 5 0x52
  let ctl := if s.ctl.state = .setup then on true 6 0x61 else on (!s.ctl.cmds.isEmpty) 6 0x62
  on (!(policy s).sleep) 0 0x01 ++ (appRefuser s).map (fun r => (1, r)) ++ wake ++ svc ++ store ++ feed ++ ctl
where
  /-- The refuser APP: the voted word of the sleep route (R534, R535). -/
  appRefuser (s : State) : List Nat :=
    match routeOf (setup s) 0xFFFD with
    | none => []
    | some b =>
      match votedRoute s b with
      | none => [0x12]
      | some w => if !tagValid w.2 then [0x12] else if w.1 ≠ 1 then [0x11] else []

/-- Refusers counted, and the last of them written to PM_REFLAST with the point (R535, R536). -/
def chargeRefusers (s : State) (rs : List (Nat × Nat)) (point : Nat) : State :=
  forAll rs s fun s r =>
    modPower s fun p =>
      { p with nref := vmod p.nref (Fin.ofNat 7 r.1) Stat.inc, reflast := BitVec.ofNat 16 (r.1 * 4096 + r.2 * 16 + point) }

/-- A wake event after E1 that makes WAKE, SERVICE, APP or CONTROLLER refuse (R536). -/
def abortCause (rs : List (Nat × Nat)) : Option (Nat × Nat) := rs.find? fun r => r.1 = 1 ∨ r.1 = 2 ∨ r.1 = 3 ∨ r.1 = 6

end Sys2Proof.Machine
end

