-- ==== Sys2Proof/Machine/RetainOps.lean ====
section
/-! DEFINITION. Slots in sections, the retain image (02_programming_model.md, R73, R74; 06_cyclic_execution.md, R204 to R214). -/

namespace Sys2Proof.Machine

/-- The bytes of a slot: a tagged word slot or a qualified bit slot (R73, R74). -/
def slotBytes (tagged : Bool) (v : Word) (t : Byte) : List Byte :=
  if tagged then wordBytes v ++ wordBytes (zext t) else wordBytes (bitSlot (v.getLsbD 0) t)

/-- Value and tag of a slot at a byte offset of a section's bytes. -/
def slotAt (tagged : Bool) (b : List Byte) (off : Nat) : Word × Byte :=
  if tagged then (wordAt b off, (wordAt b (off + 4)).setWidth 8)
  else let w := wordAt b off; (bit (w.getLsbD 8) 0, w.setWidth 8)

/-- The RET section of a task as the retain image captures it: the underlying values of forced slots (R205, R214). -/
def retCapture (s : State) (l : LaneId) (d : TaskDecl) : List Byte :=
  s.ctl.forces.foldl (fun b f =>
    match f.item, f.under with
    | .slot .ret p t off tagged, some u => if p = d.pair ∧ t = d.task then putBytes b off (slotBytes tagged u.1 u.2) else b
    | _, _ => b) (sectRead s l d .ret)

def committed (b : RetBuf) : Bool := b.mark == 0xC3 && !b.bad

/-- The buffer that does not hold the latest committed generation (R206): true for buffer 1. -/
def retTarget (r : Retain) : Bool :=
  match committed r.buf0, committed r.buf1 with
  | true, true => later r.buf0.gen r.buf1.gen
  | true, false => true
  | _, _ => false

def setBuf (r : Retain) (second : Bool) (b : RetBuf) : Retain := if second then { r with buf1 := b } else { r with buf0 := b }
def bufOf (r : Retain) (second : Bool) : RetBuf := if second then r.buf1 else r.buf0

/-- GEN of the next commit: one more than the previous committed generation (R206). -/
def nextGen (r : Retain) : Word := r.lastGen + 1

/-- The RET sections of a pair in the body of a retain buffer, in task-number order, with zeros in every unused byte of its 64 KiB
(R206 step 2). -/
def pairBody (b : RetBuf) (p : PairId) : List Byte :=
  let l := (fins 16).flatMap fun t => ((b.body.find? fun c => c.1 = p ∧ c.2.1 = t).map fun c => c.2.2).getD []
  l ++ List.replicate (0x10000 - l.length) 0

/-- The 512 KiB body of a retain buffer: pair p's RET sections from offset p × 64 KiB (R206 step 2). -/
def retBody (b : RetBuf) : List Byte := (fins 8).flatMap (pairBody b)

/-- Bytes 0 to 11 of a commit record: GEN and DIGEST. -/
def recordHead (b : RetBuf) : List Byte := leBytes 4 b.gen.toNat ++ leBytes 8 b.digest.toNat

/-- CRC of a commit record: CRC-32C over the body followed by bytes 0 to 11. -/
def retCrc (b : RetBuf) : Word := crc32c (retBody b ++ recordHead b)

/-- The 64 bytes of a commit record as they stand in MRAM (06, table Commit record). -/
def commitRecord (b : RetBuf) : List Byte := recordHead b ++ leBytes 4 (retCrc b).toNat ++ List.replicate 47 0 ++ [b.mark]

/-- MRAM addresses of the two bodies and of the two commit records (06, table MRAM retain area). -/
def bodyAddr (second : Bool) : Nat := if second then 0x80000 else 0
def commitAddr (second : Bool) : Nat := if second then 0x100040 else 0x100000

def setRetain (s : State) (r : Retain) : State := { s with ctl := { s.ctl with retain := r } }

/-- Steps 1 to 3 of R206: MARK 0x00, the body, GEN and DIGEST. -/
def writeBody (s : State) (caps : List (PairId × TaskId × List Byte)) : State :=
  let r := s.ctl.retain
  setRetain s (setBuf r (retTarget r) { body := caps, gen := nextGen r, digest := curDigest s, mark := 0, bad := false })

/-- MARK written as 0xC3 (R206 step 4): the buffer's generation is the one last committed. -/
def markBuf (s : State) (second : Bool) : State :=
  let r := setBuf s.ctl.retain second { bufOf s.ctl.retain second with mark := 0xC3 }
  setRetain s { r with lastGen := (bufOf r second).gen }

/-- The final retain cycle of a NEAP entry: every RET section as it stands (R536, E4). -/
def finalRetain (s : State) : State :=
  match leadLane s with
  | none => s
  | some l =>
    let target := retTarget s.ctl.retain
    let caps := (setup s).tasks.map fun d => (d.pair, d.task, retCapture s l d)
    markBuf (writeBody s caps) target

end Sys2Proof.Machine
end

