-- ==== Sys2Proof/Machine/Restart.lean ====
section
/-! DEFINITION. The restart of the controller, and its other changes of state (06_cyclic_execution.md, R200 to R208, R215;
07, R224; 11, R392; 08, R290). -/

namespace Sys2Proof.Machine

/-- Bytes as a memory whose unlisted bytes read 0. -/
def memOfBytes (a : Nat) (b : List Byte) : Memory := (b.zipIdx.filter fun x => x.1 != 0).map fun x => (a + x.2, x.1)

/-- A range of a lane's SRAM filled with bytes, zeros after them; the writes cure its words, but for hard faults. -/
def fillRange (x : LaneSt) (ea n : Nat) (b : List Byte) : LaneSt :=
  { x with sram := memTake x.sram (memOfBytes ea (b.take n)) ea (ea + n),
           dmg := x.dmg.filter fun q =>
             decide (q.1 < ea) || decide (ea + n ≤ q.1) || (match q.2 with | .hard _ => true | _ => false) }

/-- The initial image of a space in an application image. -/
def segBytes (im : AppImage) (k : SegKind) (p : PairId) : List Byte :=
  ((im.segs.find? fun g => g.kind = k ∧ g.pair = p).map (·.bytes)).getD []

/-- The K image of a pair with the overlay of the booted bank's settings (R208 step 5, R222). -/
def kBytes (s : State) (im : AppImage) (d : LayoutDecl) : List Byte :=
  let n := d.k - d.code
  let b := segBytes im .k d.pair
  let b := b ++ List.replicate (n - b.length) 0
  (settingsOf (bankOf s s.boot.bank)).overlay.foldr
    (fun o b => if o.1 = d.pair then putBytes b o.2.1 (wordBytes o.2.2) else b) b

/-- One pair's bank of one lane loaded (R185, R208 steps 2 to 5): CODE, K, zeros in PI and PQ, RET and WORK from the image. -/
def loadBank (s : State) (im : AppImage) (d : LayoutDecl) (x : LaneSt) : LaneSt :=
  let o := bankBase d.pair
  let x := fillRange x o d.code (segBytes im .code d.pair)
  let x := fillRange x (o + d.code) (d.k - d.code) (kBytes s im d)
  let x := fillRange x (o + d.k) (d.pq - d.k) []
  let x := fillRange x (o + d.pq) (d.ret - d.pq) (segBytes im .ret d.pair)
  fillRange x (o + d.ret) (d.work - d.ret) (segBytes im .work d.pair)

/-- The lanes with power: every lane but those that are ABSENT. -/
def poweredLanes (s : State) : List LaneId := laneList.filter fun l => (lane s l).st != .absent

/-- The banks of every lane loaded from the image in force (R185); an ABSENT lane has no memory to load. -/
def loadBanks (s : State) : State :=
  match s.adm.cur with
  | none => s
  | some c => forAll (poweredLanes s) s fun s l => forAll c.setup.layouts s fun s d => modLane s l (loadBank s c.image d)

/-- The RET sections of a retain buffer restored (R208 step 2). -/
def restoreRet (s : State) (b : RetBuf) : State :=
  forAll b.body s fun s c =>
    match taskDecl s c.1 c.2.1 with
    | some d => forAll (voters s) s fun s l => sectWrite s l d .ret c.2.2
    | none => s

/-- Step 1 of a restart and entry into SETUP: dropped lanes whose self-test has passed vote again (R223, R224). -/
def reviveLanes (s : State) : State :=
  { s with lanes := s.lanes.map fun _ x => if x.st = .dropped ∧ x.selfTest = some true ∧ !x.dbg then { x with st := .voting } else x }

/-- Retain buffers whose body or record the restart reads uncorrectable (R207, R515). -/
def spoilBuffers (s : State) (bad : BitVec 2) : State :=
  let r := s.ctl.retain
  setRetain s { r with buf0 := { r.buf0 with bad := r.buf0.bad || bad.getLsbD 0 },
                       buf1 := { r.buf1 with bad := r.buf1.bad || bad.getLsbD 1 } }

/-- A cold restart writes MARK of both commit records as 0x00. -/
def unmark (s : State) : State :=
  let r := s.ctl.retain
  setRetain s { r with buf0 := { r.buf0 with mark := 0 }, buf1 := { r.buf1 with mark := 0 } }

/-- The force table through a restart (R208 step 6, R215). A kept RW force takes its underlying value anew. -/
def keepForces (s : State) (warm : Bool) : State :=
  let fs := if warm && (policy s).forcekeep then (s.ctl.forces.filter fun f => !f.ended).map fun f => { f with under := none } else []
  { s with ctl := { s.ctl with forces := fs } }

/-- A receive SLOT that has received nothing (R208 step 9). -/
def freshRx : RxSt := { pend := none, pendAge := 0, good := none, m := 0 }

/-- A connection at entry into RUN: NOREF; its counters stay (R392, R405). -/
def freshConn (a : AshSt) : AshSt := { resetAsh with err := a.err, resync := a.resync }

/-- The schedule mode at entry into RUN (R290). -/
def initMode (s : State) : BitVec 3 := BitVec.ofNat 3 ((((setup s).modes.find? fun m => m.init).map fun m => m.mode).getD 0)

/-- What the network holds at entry into RUN: the counters of connections that the set-up does not declare stay, too (R44). -/
def netAtRun (s : State) : State :=
  let n := s.net
  let conns := (List.range (max n.conns.length (setup s).conns.length)).map fun i => freshConn (n.conns.getD i resetAsh)
  { s with ring := { s.ring with cabOwn := false },
           net := { n with pushAt := none, rx := (setup s).slots.map fun _ => freshRx, conns := conns,
                           trdpSeq := (setup s).slots.map fun _ => 0, trdpRx := (setup s).slots.map fun _ => none,
                           mode := { resetMode with cur := initMode s, lastout := n.mode.lastout } } }

/-- A task at entry into RUN, in one lane: no activation and no committed image. -/
def bareTask (t : TaskRun) : TaskRun := { endTask t with com := none }

def bareTasks (x : LaneSt) : LaneSt :=
  { x with pairs := x.pairs.map fun q => { q with tasks := q.tasks.map bareTask, active := none }, sig := none }

def bareRel : Rel := { now := 0, tide := 0, endTide := 0, live := false, comAt := 0, committed := false }

/-- The tasks at entry into RUN: none has committed, none is released, and no output has been given a value. -/
def tasksAtRun (s : State) : State :=
  { s with lanes := s.lanes.map fun _ x => bareTasks x,
           ctl := { s.ctl with rel := Vector.replicate 8 (Vector.replicate 16 bareRel) },
           chans := s.chans.map fun x => { x with everCom := false, force := none } }

/-- STOPCAUSE and STOPPC through a restart (R81, R208 step 8): a warm restart holds them, a cold one resets them and what the MRAM keeps
of them. -/
def stopRegs (s : State) (warm : Bool) : State :=
  let r := s.ctl.retain
  if warm then { s with ctl := { s.ctl with stopcause := r.stopcause, stoppc := r.stoppc } }
  else { s with ctl := { s.ctl with stopcause := 0, stoppc := 0, retain := { r with stopcause := 0, stoppc := 0 } } }

/-- The restart steps of R208, in order, and the entry into RUN. `retBad` names the retain buffers that read bad. -/
def restart (s : State) (warm : Bool) (source : Nat) (retBad : BitVec 2) : State :=
  let s := reviveLanes s
  let s := if warm then spoilBuffers s retBad else unmark s
  let pick := if warm then latestBuf s else none
  let fallback := warm && pick.isNone
  let s := if fallback then unmark (record s 0x0C08 []) else s
  let hot := warm && pick.isSome
  let s := loadBanks s
  let s := match pick with
    | some second => restoreRet s (bufOf s.ctl.retain second)
    | none => s
  let s := discardOlcs (keepForces s hot)
  let s := stopRegs s hot
  let s := tasksAtRun (netAtRun s)
  let s := record s (if hot then 0x0C03 else 0x0C04) (d1 source)
  let s := abandonRetain s
  let s := { s with ctl := { s.ctl with warm := hot, fallback := fallback, source := BitVec.ofNat 2 source, runTide := s.tide, pendStop := none },
                    time := { s.time with rel := false }, rejoin := { s.rejoin with withheld := false } }
  refreshDrives (setCtl s .run)

/-- An entry into STOPPED from SETUP or COLD (R81, R89, R159): every output keeps the state it had. -/
def settleStopped (s : State) : State :=
  let s := setCtl s .stopped
  { s with ctl := { s.ctl with stopcause := stopOther, retain := { s.ctl.retain with stopcause := stopOther, stoppc := s.ctl.stoppc } } }

/-- A controller command at its effect tide (R202, R203). -/
def ctlEffect (s : State) (c : CtlCmd) (retBad : BitVec 2) : State :=
  match c, s.ctl.state with
  | .stop, .run => enterStopped s none
  | .restart warm, .stopped => if s.time.set && s.adm.cur.isSome then checkVoters (restart s warm 2 retBad) else s
  | .service, .stopped => applyForces (setCtl s .service) fun _ => true
  | .leave, .service => enterStopped s none
  | _, _ => s

/-- COMMAND_EFFECT_TIDE (R203). -/
def execCommandEffectTide (retBad : BitVec 2) (s : State) : Host.Outcome State Fault Refusal :=
  if awake s then
    let due := s.ctl.cmds.filter fun c => decide (c.2 ≤ s.tide)
    let s := { s with ctl := { s.ctl with cmds := s.ctl.cmds.filter fun c => !decide (c.2 ≤ s.tide) } }
    .next (forAll due s fun s c => ctlEffect s c.1 retBad)
  else .next s

end Sys2Proof.Machine
end

