-- ==== Sys2Proof/Machine/Admission.lean ====
section
/-! DEFINITION. Admission: entry into SETUP, the lanes' checks, the vote, the effect boundary
(05_setup_programs_and_admission.md, R152 to R160, R182 to R188, R643). -/

namespace Sys2Proof.Machine

/-- A refusal that names no task and no instruction. -/
def bareRefusal (code : Byte) : Refused := ⟨code, 0, 0, 0xFFFF⟩

/-- Steps 2 to 6 of R188: the paths, or the first refusal. -/
def checkFirst (s : State) (im : AppImage) (u : Setup) (is : List SetupInstr) :
    Except Refused (List (TaskDecl × Nat × WalkOut)) :=
  match checkOperands s.pw.straps.cbrole [] is with
  | some r => .error r
  | none =>
    match checkLayouts u im.segs with
    | some r => .error r
    | none =>
      match checkPaths u im.segs with
      | .error r => .error r
      | .ok all =>
        match checkTimes all with
        | some r => .error r
        | none =>
          match checkNetwork u with
          | some r => .error r
          | none => .ok all

/-- Steps 7 to 10 of R188. -/
def checkLast (s : State) (u : Setup) (is : List SetupInstr) (all : List (TaskDecl × Nat × WalkOut)) (readBack : Bool) : Option Refused :=
  firstOf [checkChannels u is readBack, checkConns u [] u.conns, checkPolicies u s.pw.straps is, checkVoting u s.pw.straps is all]

/-- What one lane finds of an image: its refusal code with where it points, the set-up with its tag maps where it is admitted, and the
PARAPETs that admission writes into the shadow registers (R154, R170, R188, R643). -/
structure Finding where
  res    : Refused
  good   : Option (Setup × List TagMap)
  shadow : List ParapetDecl
  deriving DecidableEq, Repr

/-- The PARAPETs that pass the first three checks of R170, up to the first that does not. -/
def parapetsWritten (u : Setup) : List (Nat × ParapetDecl) → List (Nat × ParapetDecl) → List ParapetDecl
  | _, [] => []
  | earlier, x :: rest =>
    if (checkParapet u false earlier x.1 x.2).isSome then [] else x.2 :: parapetsWritten u (x :: earlier) rest

/-- One lane's check (R154, R155, R188). -/
def admitCheck (s : State) (im : AppImage) (readBack : Bool) : Finding :=
  if im.trust ≠ 0 then ⟨bareRefusal im.trust, none, []⟩
  else
    match shapeOf im.words with
    | .error i => ⟨⟨0x83, 0, 0, i⟩, none, []⟩
    | .ok is =>
      match is.getLast? with
      | none => ⟨bareRefusal 0x83, none, []⟩
      | some last =>
        if opIs last 0x7D then ⟨⟨0xFD, 0, 0, last.idx⟩, none, []⟩
        else
          let u := setupOf is
          match checkFirst s im u is with
          | .error r => ⟨r, none, []⟩
          | .ok all =>
            let reached := (checkChanDecls u).isNone
            let shadow := if reached then parapetsWritten u [] ((funcsOf is).zip u.parapets) else []
            match checkLast s u is all readBack with
            | some r => ⟨r, none, shadow⟩
            | none => ⟨⟨0, 0, 0, 0xFFFF⟩, some (u, all.map (tagMapOf u)), shadow⟩

/-- The words of a set-up program up to its COMMIT or ABORT; all of them where there is none. -/
def programOf (im : AppImage) : List Word :=
  match shapeOf im.words with
  | .ok is => im.words.take (programWords is)
  | .error _ => im.words

/-- The CODE and K images of an application, pair by pair, in whatever order the image lists them; an empty image counts as none. -/
def codeAndK (im : AppImage) : List Segment :=
  (fins 8).flatMap fun p => [SegKind.code, SegKind.k].filterMap fun k =>
    im.segs.find? fun g => g.kind == k && g.pair == p && !g.bytes.isEmpty

/-- The admission digest (R155; assumption log entry 5). -/
def admitDigest (im : AppImage) : BitVec 64 :=
  Config.digest (programOf im ++ (codeAndK im).flatMap fun g =>
    [(if g.kind = .code then 2 else 3), BitVec.ofNat 32 g.pair.val, BitVec.ofNat 32 g.bytes.length] ++ wordsOfBytes g.bytes)

/-- The result that a lane posts; `flip` is what a fault of the lane has changed of its digest. -/
def resultOf (f : Finding) (digest flip : BitVec 64) : AdmResult :=
  { code := f.res.code, pair := BitVec.ofNat 3 f.res.pair, task := BitVec.ofNat 4 f.res.task, index := BitVec.ofNat 16 f.res.index,
    digest := digest ^^^ flip }

/-- The Parapet's shadow limits as admission writes them (R170). -/
def writeShadows (s : State) (ps : List ParapetDecl) : State :=
  forAll ps s fun s d => modFunc s d.func fun x => { x with shadow := d.ws }

/-- A refusal discards the shadow limits (R170). -/
def dropShadows (s : State) : State := { s with para := { s.para with funcs := s.para.funcs.map fun x => { x with shadow := x.act } } }

/-- The lanes' results: each voting lane reads the image and checks it (R154, R155). -/
def lanesCheck (s : State) (flip : Lanes (BitVec 64)) (readBack : Bool) : State :=
  match s.adm.image with
  | none => s
  | some im =>
    let f := admitCheck s im readBack
    let d := admitDigest im
    let results : Lanes (Option AdmResult) := s.lanes.map fun l x => if x.st = .voting then some (resultOf f d (flip.get l)) else none
    writeShadows { s with adm := { s.adm with results := results } } f.shadow

/-- A lane that enters VOTING while SETUP runs checks the image too. -/
def lateCheck (s : State) (l : LaneId) : State :=
  match s.adm.image with
  | none => s
  | some im =>
    if s.ctl.state = .setup ∧ s.adm.code = 0xFE then
      { s with adm := { s.adm with results := s.adm.results.set l (some (resultOf (admitCheck s im false) (admitDigest im) 0)) } }
    else s

/-- SETUP_ENTRY (R153, R154, R223): from COLD at boot, from STOPPED or SERVICE under an application load. -/
def execSetupEntry (flip : Lanes (BitVec 64)) (readBack : Bool) (s : State) : Host.Outcome State Fault Refusal :=
  if stewardRuns s && s.adm.image.isSome && (s.ctl.state == .cold || s.ctl.state == .stopped || s.ctl.state == .service) then
    let s := reviveLanes s
    let s := setCtl { s with ctl := { s.ctl with from_ := s.ctl.state } } .setup
    let s := { s with adm := { s.adm with code := 0xFE, pair := 0, task := 0, lanedis := false, index := 0xFFFF, next := none, effect := none } }
    .next (lanesCheck s flip readBack)
  else .next s

/-- Two results agree (R155). -/
def sameResult (a b : AdmResult) : Bool := a.code == b.code && a.digest == b.digest

/-- The outcome of the vote (R156): the result that counts, and the lanes that drop. With LMODE 0b10 and lane A not voting the set-up is
refused with 0x53: DESIGN CHOICE, log entry 84. -/
def admissionVote (s : State) : AdmResult × List LaneId :=
  let none_ (c : Byte) : AdmResult := { code := c, pair := 0, task := 0, index := 0xFFFF, digest := 0 }
  let rs := (voters s).filterMap fun l => (s.adm.results.get l).map fun r => (l, r)
  if benchMode s then
    match rs.find? fun x => x.1 = .a with
    | some x => (x.2, [])
    | none => (none_ 0x53, [])
  else if rs.length < 2 then (none_ 0x53, [])
  else
    match rs.find? fun x => decide (2 ≤ (rs.filter fun y => sameResult x.2 y.2).length) with
    | some x => (x.2, (rs.filter fun y => !sameResult x.2 y.2).map (·.1))
    | none => (none_ 0x51, [])

/-- The session peer behind an APPEND; none at boot. -/
def appendPeer (s : State) : Option (Role × SvcIface × Word) :=
  s.svc.appendBy.bind fun a => (session? s a.1).bind fun x => peerOf a.2 x

/-- The change-log entry of an admission result (R570): CMD 0 at boot. -/
def logAdmission (s : State) : State :=
  logChange s (appendPeer s) (if s.adm.append then 0x0052 else 0) (if s.adm.code = 0 then 0 else 0x000D) [admitWord s]

/-- SV_ADMIT takes a result. -/
def putResult (s : State) (r : AdmResult) (differ : Bool) : State :=
  { s with adm := { s.adm with code := r.code, pair := r.pair, task := r.task, index := r.index, lanedis := differ,
                               results := ⟨none, none, none⟩ } }

/-- The end of SETUP without an admitted set-up (R159, R643): the controller returns, and a trial of a staged image fails (R596). -/
def endRefused (s : State) (twoDiffer : Bool) : State :=
  let code := s.adm.code
  let s := record s (if code = 0xFD then 0x0C0F else 0x0C02) (d4 (admitWord s).toNat)
  let s := dropShadows (logAdmission s)
  let s := { s with adm := { s.adm with image := none } }
  let s := if s.ctl.from_ = .service && !twoDiffer then setCtl s .service else settleStopped s
  let s := replyAppend s 0x000D none
  if (journalOf s).state = .trialBoot then resetModule (revertJournal s code) else s

/-- The set-up is admitted: event 0x0C01, the settings of the booted bank (R577, R578), and the load begins. -/
def admitted (s : State) (im : AppImage) (u : Setup) (tags : List TagMap) (digest : BitVec 64) : State :=
  let s := logAdmission (record s 0x0C01 (d4 (admitWord s).toNat))
  let old := settingsOf (bankOf s s.boot.bank)
  let append := s.adm.append
  let s := if append || old.outdef != im.outdef then
      writeSettings s s.boot.bank fun g => { g with outdef := im.outdef, area := if append then !g.area else g.area }
    else s
  { s with adm := { s.adm with next := some { setup := u, image := im, digest := digest, tags := tags, append := append } } }

/-- ADMISSION_VOTE (R155, R156, R159, R160). -/
def execAdmissionVote (s : State) : Host.Outcome State Fault Refusal :=
  match s.adm.image with
  | none => .next s
  | some im =>
    if s.ctl.state = .setup ∧ s.adm.code = 0xFE then
      let v := admissionVote s
      let two := v.1.code == 0x51 && (voters s).length == 2
      let s := putResult s v.1 (!v.2.isEmpty)
      let s := forAll v.2 s fun s l => dropLane s l 0x06 0 0
      if v.1.code = 0 then
        match (admitCheck s im false).good with
        | some g => .next (admitted s im g.1 g.2 v.1.digest)
        | none => .next s
      else .next (endRefused s two)
    else .next s

/-- BANK_LOAD_DONE (R185): CODE and K stand in the banks; E is the third boundary after the tide of completion. -/
def execBankLoadDone (s : State) : Host.Outcome State Fault Refusal :=
  if s.ctl.state = .setup ∧ s.adm.next.isSome ∧ s.adm.effect.isNone then
    let e := tideNow s + 3
    .next (replyAppend { s with adm := { s.adm with effect := some e } } 0 (some e))
  else .next s

/-- The K overlay of the booted bank discarded (R222). -/
def dropOverlay (s : State) : State :=
  if (settingsOf (bankOf s s.boot.bank)).overlay.isEmpty then s
  else writeSettings s s.boot.bank fun g => { g with overlay := [] }

/-- A port's settings at E; an MNT that the button has forced up stays as it is (R633). -/
def portsAtE (s : State) (u : Setup) : State :=
  forAll (fins 37) s fun s p => if p.val = 36 ∧ s.pw.mntForced then s else portAtE s u p

/-- The rejoin limit, its window and the feed preference at E (R171, R246, R520). -/
def policiesAtE (s : State) : State :=
  let p := policy s
  { s with rejoin := { s.rejoin with limit := BitVec.ofNat 4 p.rejoinLimit, window := BitVec.ofNat 16 p.rejoinWin },
           pw := { s.pw with pref := (setup s).feed.getD s.pw.straps.feedcfg } }

/-- The trial run of a staged image begins at E (R596). -/
def trialRunAtE (s : State) : State :=
  if (journalOf s).state = .trialBoot then
    record (writeJournal s fun j => { j with state := .trialRun, step := .none }) 0x0A08 (d4 s.tide)
  else s

/-- E: everything that an admitted set-up changes (R185), and the entry into RUN (R187). -/
def takeEffect (s : State) (n : Loaded) (retBad : BitVec 2) : State :=
  let words := programOf n.image
  let segs := codeAndK n.image
  let sameSegs := (s.adm.last.map (·.2)) == some segs
  let warm := sameSegs && (s.adm.last.map (·.1)) == some words
  let oldChans := (setup s).chans
  let oldWet := ((policy s).wetCur, (policy s).wetTime)
  let s := if sameSegs then s else dropOverlay s
  let s := { s with adm := { s.adm with cur := some n, last := some (words, segs), next := none, effect := none, image := none } }
  let s := { s with ctl := { s.ctl with everCommit := true } }
  let s := if n.append then { s with boot := { s.boot with appVer := n.image.version, appSvn := n.image.svn } } else s
  let s := policiesAtE (bridgeAtE (portsAtE s n.setup) n.setup)
  let s := loadSafe (parapetAtE (channelsAtE s oldChans oldWet) n.setup)
  let s := trialRunAtE s
  checkVoters (restart s warm (if n.append then 0 else 1) retBad)

/-- EFFECT_BOUNDARY (R185, R187, R361): E has come and the clock is set. -/
def execEffectBoundary (retBad : BitVec 2) (s : State) : Host.Outcome State Fault Refusal :=
  match s.adm.next, s.adm.effect with
  | some n, some e => .next (if awake s && s.ctl.state == .setup && s.time.set && decide (e ≤ s.tide) then takeEffect s n retBad else s)
  | _, _ => .next s

end Sys2Proof.Machine
end

