-- ==== Sys2Proof/Machine/BitOps.lean ====
section
/-! DEFINITION. The bit instructions (04_instruction_semantics.md, R118, R119). -/

namespace Sys2Proof.Machine

/-- A word with one bit replaced. -/
def setBitW (w : Word) (i : Nat) (b : Bool) : Word := if b then w ||| BitVec.ofNat 32 (2 ^ i) else w &&& ~~~(BitVec.ofNat 32 (2 ^ i))

/-- A bit result of two bit registers, with the combination of their tags. -/
def binB (f : FormE) (op : Bool → Bool → Bool) (s : State) (c : Core) : Act :=
  let a := rdB c.bank f.s1
  let b := rdB c.bank f.s2
  giveB s c.bank f.d (op a.v b.v) (comb a.t b.t)

/-- Legality of BAND, BOR, BXOR: three bit registers, BIT 0. -/
def legalB3 (f : FormE) : Bool := legalE f && f.bit == 0 && bitField f.d && bitField f.s1 && bitField f.s2
/-- Legality of BNOT and BMOV: two bit registers. -/
def legalB2 (f : FormE) : Bool := legalE f && f.bit == 0 && f.s2 == 0 && bitField f.d && bitField f.s1

/-- BSET: the operand with bit BIT set. -/
def execBset (x : Ctx) (f : FormE) (s : State) : Host.Outcome State Fault Refusal :=
  .next (runInstr x (isE 0x22 f) 1 (legalE f && f.s2 == 0) (fun s c => let a := rdW c.bank f.s1; giveW s c.bank f.d (setBitW a.v f.bit.toNat true) a.t) s)

/-- BCLR: the operand with bit BIT cleared. -/
def execBclr (x : Ctx) (f : FormE) (s : State) : Host.Outcome State Fault Refusal :=
  .next (runInstr x (isE 0x23 f) 1 (legalE f && f.s2 == 0) (fun s c => let a := rdW c.bank f.s1; giveW s c.bank f.d (setBitW a.v f.bit.toNat false) a.t) s)

/-- BTST: the bit that Wn[4:0] names. -/
def execBtst (x : Ctx) (f : FormE) (s : State) : Host.Outcome State Fault Refusal :=
  .next (runInstr x (isE 0x24 f) 1 (legalE f && f.bit == 0 && bitField f.d) (fun s c => let a := rdW c.bank f.s1; let n := rdW c.bank f.s2; giveB s c.bank f.d (a.v.getLsbD (n.v.toNat % 32)) (comb a.t n.t)) s)

/-- BLD: bit BIT of the operand. -/
def execBld (x : Ctx) (f : FormE) (s : State) : Host.Outcome State Fault Refusal :=
  .next (runInstr x (isE 0x25 f) 1 (legalE f && f.s2 == 0 && bitField f.d) (fun s c => let a := rdW c.bank f.s1; giveB s c.bank f.d (a.v.getLsbD f.bit.toNat) a.t) s)

/-- BST: the operand with bit BIT replaced by a bit register. -/
def execBst (x : Ctx) (f : FormE) (s : State) : Host.Outcome State Fault Refusal :=
  .next (runInstr x (isE 0x26 f) 1 (legalE f && bitField f.s2) (fun s c => let a := rdW c.bank f.s1; let b := rdB c.bank f.s2; giveW s c.bank f.d (setBitW a.v f.bit.toNat b.v) (comb a.t b.t)) s)

/-- BAND. -/
def execBand (x : Ctx) (f : FormE) (s : State) : Host.Outcome State Fault Refusal :=
  .next (runInstr x (isE 0x28 f) 1 (legalB3 f) (binB f fun a b => a && b) s)

/-- BOR. -/
def execBor (x : Ctx) (f : FormE) (s : State) : Host.Outcome State Fault Refusal :=
  .next (runInstr x (isE 0x29 f) 1 (legalB3 f) (binB f fun a b => a || b) s)

/-- BXOR. -/
def execBxor (x : Ctx) (f : FormE) (s : State) : Host.Outcome State Fault Refusal :=
  .next (runInstr x (isE 0x2A f) 1 (legalB3 f) (binB f fun a b => xor a b) s)

/-- BNOT. -/
def execBnot (x : Ctx) (f : FormE) (s : State) : Host.Outcome State Fault Refusal :=
  .next (runInstr x (isE 0x2B f) 1 (legalB2 f) (fun s c => let a := rdB c.bank f.s1; giveB s c.bank f.d (!a.v) a.t) s)

/-- BMOV. -/
def execBmov (x : Ctx) (f : FormE) (s : State) : Host.Outcome State Fault Refusal :=
  .next (runInstr x (isE 0x2C f) 1 (legalB2 f) (fun s c => let a := rdB c.bank f.s1; giveB s c.bank f.d a.v a.t) s)

/-- The body of EDGE (R119): rising edge against the slot, whose tag is combined; then the slot takes the input. -/
def edgeBody (f : FormG) (s : State) (c : Core) : Act :=
  let a := addrG c.bank f
  let b := rdB c.bank f.s1
  match ownBlock s c 4 a with
  | .error e => .raise s e a 0
  | .ok o =>
    let ea := ecOf c (.bank o)
    match readWord s c ea c.x.data with
    | (s, false) => .raise s .mem a 0
    | (s, true) =>
      let w := memWord 0 (lane s c.x.lane).sram ea
      let prev := w.getLsbD 8
      let t := comb b.t (w.setWidth 8)
      let d := b.v && !prev
      let slot := bitSlot b.v b.t
      let s := if rwForced s c.x.pair (c.timed.getD 0) o 4 then s else storeWord s c (.bank o) slot
      let reg := if f.d.setWidth 3 = (0 : BitVec 3) then [] else [bit d 0, zext t]
      .go s (nextPc (wrB c.bank f.d d t)) (reg ++ storeWords a [slot] 0xF)

/-- EDGE: 1 on a rising edge of Bs, with its state in a slot (R119). -/
def execEdge (x : Ctx) (f : FormG) (s : State) : Host.Outcome State Fault Refusal :=
  .next (runInstr x (isG 0x2D f) 2 (bitField f.d && bitField f.s1) (edgeBody f) s)

end Sys2Proof.Machine
end

