-- ==== Sys2Proof/Machine/Boot.lean ====
section
/-! DEFINITION. The boot ROM, the trial of a staged image, the fuses, and what the steward does as it starts
(18_boot_update_and_trust.md, R576 to R602; 19_event_recorder.md, R612, R613; 17, R573; 16, R537). -/

namespace Sys2Proof.Machine

/-- A vendor slot as events name it: the KEY field of a header (assumption log entry 9). -/
def slotState (k : KeySlot) : Nat := if k.revoked then 2 else if k.prog then 1 else 0

/-- Event 0x0A0C: slot, operation (1 install, 2 revoke, 3 NEWVKEY), the slot's state after it (assumption log entry 9). -/
def recordKey (s : State) (slot op result : Nat) : State := record s 0x0A0C (d1 slot ++ d1 op ++ d1 result)

/-- NEWVKEY of a firmware image, with the vendor slot it names (R579, R585). -/
def newVKey (m : Memory) : Option (Fin 4 × List Byte) :=
  let v := hdr m 25 1
  if v < 4 then some (Fin.ofNat 4 v, memReadN 0xFF m 28 68) else none

/-- The anti-rollback fuses burnt up to a count (R586). -/
def burnRb (s : State) (n : Nat) : State :=
  if s.boot.rb < n then
    let old := s.boot.rb
    record { s with boot := { s.boot with rb := min 64 n } } 0x0A0B (d1 old ++ d1 (min 64 n))
  else s

/-- NEWVKEY burnt into the empty vendor slot that it names (R585). -/
def burnKey (s : State) : State :=
  match newVKey (bankOf s (journalOf s).active).fw with
  | none => s
  | some (n, key) =>
    if slotState (s.boot.vkeys.get n) = 0 then
      recordKey { s with boot := { s.boot with vkeys := s.boot.vkeys.set n { key := key, prog := true, revoked := false } } } n.val 3 1
    else s

/-- The pending fuses burnt, and FUSEPEND 0 (R597, R598). -/
def burnPending (s : State) : State :=
  let s := burnKey (burnRb s (journalOf s).tsvn.toNat)
  writeJournal s fun j => { j with fusepend := false }

/-- A firmware image checked under R580; a failure is counted and recorded. -/
def tryFirmware (s : State) (b : BankId) : State × Byte :=
  let r := bootCheck s b false false
  (if r = 0 then s else imageFailed s b false r, r)

/-- An application of a bank checked under R580. -/
def tryApp (s : State) (b : BankId) (second : Bool) : State × Byte :=
  let r := bootCheck s b true second
  (if r = 0 then s else imageFailed s b true r, r)

/-- Event 0x0A0D: store 1 journal, 2 settings (assumption log entry 9). -/
def recordStore (s : State) (store : Nat) : State := record s 0x0A0D (d1 store)

/-- Straps as the boot reads them. -/
def bootsel (s : State) : Nat := s.pw.straps.bootsel.toNat

/-- The ROM recovery service (R590). -/
def romService (s : State) : State :=
  let s := modPort s (36 : Fin 37) fun x => { x with speed := 2 }
  record { s with boot := { s.boot with romSvc := true } } 0x0A04 []

/-- What the ROM decides: a bank to start, and how it was chosen; none for the recovery service; a reset where a trial has failed. -/
inductive BootPick where
  | start (b : BankId) (src : BootSrc)
  | service
  | again
  deriving DecidableEq, Repr

/-- A trial boot: the target firmware is checked, and its application too where the trial goes on after VERIFY; a failure reverts and
the module resets (R588, R596, R597). -/
def pickTrial (s : State) (step : JStep) (attempt : BitVec 2) : State × BootPick :=
  let s := writeJournal s fun j => { j with state := .trialBoot, step := step, attempt := attempt }
  let s := record s 0x0A06 (d1 (jstepNo step) ++ d1 attempt.toNat)
  let b := targetBank s
  let t := tryFirmware s b
  if t.2 ≠ 0 then (revertJournal t.1 t.2, .again)
  else if step = .verify then (t.1, .start b .journal)
  else
    let u := tryApp t.1 b false
    if u.2 = 0 then (u.1, .start b .journal) else (revertJournal u.1 u.2, .again)

/-- The ACTIVE bank, or the fall-back (R589). -/
def pickActive (s : State) : State × BootPick :=
  let j := journalOf s
  let t := tryFirmware s j.active
  if t.2 = 0 then (t.1, .start j.active .journal)
  else if j.otherval then
    let o := otherBank j.active
    let u := tryFirmware t.1 o
    if u.2 = 0 then
      let s := writeJournal u.1 fun j =>
        { j with state := .reverted, step := .none, attempt := 0, reason := 0x05, active := o, otherval := false }
      (record (record s 0x0A09 (d1 5)) 0x0A03 (d1 (bankNo o)), .start o .fallback)
    else (u.1, .service)
  else (t.1, .service)

/-- No journal copy is usable (R588): the bank that BOOTSEL prefers, then the other, and a fresh journal. -/
def pickFresh (s : State) : State × BootPick :=
  let first : BankId := if bootsel s = 1 then .b else .a
  let fresh (s : State) (b : BankId) : State × BootPick :=
    (recordStore (writeJournal s fun _ => { freshJournal with active := b }) 1, .start b .bootsel)
  let t := tryFirmware s first
  if t.2 = 0 then fresh t.1 first
  else
    let u := tryFirmware t.1 (otherBank first)
    if u.2 = 0 then fresh u.1 (otherBank first) else (u.1, .service)

/-- The journal at boot (R597). -/
def pickJournal (s : State) : State × BootPick :=
  let j := journalOf s
  if bootsel s = 2 then
    pickActive (if j.state = .trialBoot ∨ j.state = .trialRun then revertJournal s 0x04 else s)
  else
    match j.state with
    | .confirmed => pickActive (if j.fusepend then burnPending s else s)
    | .staged => pickTrial s .verify 1
    | .trialBoot => if j.attempt = 3 then pickActive (revertJournal s 0x01) else pickTrial s j.step (j.attempt + 1)
    | .trialRun => pickActive (revertJournal s 0x02)
    | .reverted => pickActive s

/-- The Headland's records moved into Cairn, and the events it lost (R613). -/
def replayHeadland (s : State) : State :=
  let rs := s.rc.fbuf
  let lost := s.rc.fbufLost
  let move (rc : Recorder) (r : Record) : Recorder := stage rc { r with index := rc.next }
  let s := { s with rc := { rs.foldl move s.rc with fbuf := [], fbufLost := 0 } }
  if lost = 0 then s else record s 0x0004 (d4 lost.toNat)

/-- The recorder starts (R612): the next index and the staged records recovered. -/
def startRecorder (s : State) : State := record s 0x0001 (d4 s.rc.next.toNat ++ d4 s.rc.staging.length)

/-- The latched wake events replayed to the steward (R537). -/
def replayLatch (s : State) : State :=
  let l := s.pw.latch
  let s := forAll l s fun s x => record s 0x010C (d1 (srcNo x.1) ++ d1 (srcChan x.1) ++ d4 x.2.toNat)
  modPower s fun p => { p with latch := [] }

/-- Whether the calibration mirror of a device can be read (R573, R576). -/
def mirrorOk (b : BankSt) : Bool := !b.bad.any fun k => sectorIn calStart 0x20000 k

/-- The calibration mirror of the later generation that can be read, written to the other too (R573). -/
def takeCal (s : State) : State :=
  let v := s.svc
  let okA := mirrorOk s.boot.bankA
  let okB := mirrorOk s.boot.bankB
  let c := if okB && (!okA || later v.calMirB.gen v.calMirA.gen) then v.calMirB else v.calMirA
  if okA || okB then cureMirrors { s with svc := { v with cal := c, calMirA := c, calMirB := c } } else s

/-- The set-up of an application goes to SETUP. -/
def offerApp (s : State) (b : BankId) : State :=
  let m := appInForce (bankOf s b)
  let s := { s with boot := { s.boot with appVer := imgVersion m, appSvn := imgSvn m } }
  { s with adm := { s.adm with image := some (readApp s m), append := false } }

/-- The application at boot (R202, R583, R588): found and good, it goes to SETUP; else the controller goes to STOPPED. In a trial it
waits for the step ADMIT (R596). -/
def bootApp (s : State) (b : BankId) : State :=
  let j := journalOf s
  if s.boot.recov then settleStopped s
  else if j.state = .trialBoot then (if j.step = .admission then offerApp s b else s)
  else if areaEmpty (appInForce (bankOf s b)) then settleStopped s
  else
    let t := tryApp s b (settingsOf (bankOf s b)).area
    if t.2 = 0 then offerApp t.1 b else settleStopped t.1

/-- The ports whose link the steward brings up at boot: backbone and MNT (R163, R314, R591; assumption log entry 26). -/
def bootPorts (s : State) : State :=
  forAll [32, 33, 34, 35, 36] s fun s (p : Fin 37) => modPort s p fun x => { x with speed := 2 }

/-- The steward firmware starts (R591). -/
def startSteward (s : State) (b : BankId) (src : BootSrc) : State :=
  let fw := (bankOf s b).fw
  let s := record s 0x0A01 (d1 (bankNo b) ++ d1 (match src with | .journal => 0 | .bootsel => 1 | .fallback => 2) ++ d1 (jstateNo (journalOf s).state))
  let s := { s with boot := { s.boot with bank := b, src := src, recov := bootsel s == 2, booted := true, fwVer := imgVersion fw, fwSvn := imgSvn fw },
                    ring := { s.ring with on := true, relay := false } }
  let s := replayLatch (replayHeadland (startRecorder s))
  let s := if bootsel s = 3 then record s 0x0A0E [] else s
  let s := if s.pw.straps.cbrole = 3 then record s 0x0808 [] else s
  let s := if (validSettings (bankOf s b)).isNone then recordStore s 2 else s
  bootApp (refreshDrives (takeCal (bootPorts s))) b

/-- BOOT_BANK_SELECT (R516, R588 to R591, R597): an unfinished rewrite of a flash block is completed first. In factory test the Keystone does not boot (R630). -/
def execBootBankSelect (s : State) : Host.Outcome State Fault Refusal :=
  if !awake s || s.boot.booted || s.boot.romSvc || !s.pw.straps.ftestN then .next s
  else
    let s := endRefresh s
    let r := if s.boot.copy0.isNone && s.boot.copy1.isNone then pickFresh s else pickJournal s
    match r.2 with
    | .start b src => .next (startSteward r.1 b src)
    | .service => .next (romService r.1)
    | .again => .next (resetModule r.1)

/-- A trial step fails: REVERTED, and the module resets (R596). -/
def failTrial (s : State) (reason : Byte) : State := resetModule (revertJournal s reason)

/-- A trial step begins: the journal, and event 0x0A06 (R596). -/
def beginStep (s : State) (st : JStep) : State :=
  record (writeJournal s fun j => { j with step := st }) 0x0A06 (d1 (jstepNo st) ++ d1 (journalOf s).attempt.toNat)

/-- MIGRATE (R578, R596): one generation in the format of the staged firmware, from the settings of the ACTIVE bank; application area 0 is
in force where UPDEND has written it (R593). -/
def migrate (s : State) : State × Bool :=
  let b := targetBank s
  let fw := (bankOf s b).fw
  let old := settingsOf (bankOf s (journalOf s).active)
  let empty := (validSettings (bankOf s (journalOf s).active)).isNone
  if !empty && old.fmt.toNat < hdr fw 22 2 then (s, false)
  else
    let new : Settings := { old with fmt := BitVec.ofNat 16 (hdr fw 20 2), gen := 1, area := false }
    let s := modBank s b fun x => { cureFlash x (halfStart false) 0x800000 with half0 := some new, half1 := none }
    (record s 0x0A07 (d2 old.fmt.toNat ++ d2 new.fmt.toNat), true)

/-- TRIAL_STEP (R593, R596): the step that the journal shows is carried out, and the next one begins. The target application is the one
in area 0, where UPDEND leaves it. -/
def execTrialStep (s : State) : Host.Outcome State Fault Refusal :=
  let j := journalOf s
  if stewardRuns s && j.state == .trialBoot && s.ctl.state == .cold then
    match j.step with
    | .verify =>
      let b := targetBank s
      let t := tryFirmware s b
      if t.2 ≠ 0 then .next (failTrial t.1 t.2)
      else
        let u := tryApp t.1 b false
        if u.2 ≠ 0 then .next (failTrial u.1 u.2) else .next (beginStep u.1 .migrate)
    | .migrate =>
      let m := migrate s
      if m.2 then .next (offerApp (beginStep m.1 .admission) (targetBank s)) else .next (failTrial m.1 0x03)
    | _ => .next s
  else .next s

/-- FUSE_BURN_DONE (R598): the last fuse is burnt, and CONFIRM is answered. -/
def execFuseBurnDone (s : State) : Host.Outcome State Fault Refusal :=
  if stewardRuns s && (journalOf s).fusepend then
    let s := burnPending s
    match s.svc.confirmBy with
    | none => .next s
    | some w =>
      let r := mkReply s w.2 0x0064 w.1 0 .empty true
      let s := setSession { s with svc := { s.svc with confirmBy := none } } w.1 fun y => { y with reply := some r }
      .next (send s r)
  else .next s

/-- CAIRN_SECTOR_PROGRAM (R608 to R612): the waiting buffer is programmed and read back; `ok` is the outcome of the read-back. A
sector that reads back wrong is left unused, and the buffer waits on. -/
def execCairnSectorProgram (ok : Bool) (s : State) : Host.Outcome State Fault Refusal :=
  match s.rc.waiting with
  | none => .next s
  | some w =>
    if !stewardRuns s then .next s
    else
    let s := wake s .flash
    if ok then .next (sayFull { s with rc := { programBuffer s.rc w s.rc.staging with waiting := none } })
    else
      let s := { s with rc := { s.rc with circ := programSector s.rc.circ none, block := programBlock s.rc, torn := s.rc.torn.inc } }
      .next (record s 0x0005 (d4 ((w.head?.map fun r => r.index.toNat).getD 0)))

/-- CAIRN_TOKEN_REFILL (R614): one token for every code at each boundary whose index is a multiple of 16,000. -/
def execCairnTokenRefill (s : State) : Host.Outcome State Fault Refusal :=
  if stewardRuns s && s.tide % 16000 == 0 then
    .next { s with rc := { s.rc with buckets := s.rc.buckets.map fun b => { b with tokens := min 16 (b.tokens + 1) } } }
  else .next s

/-- SUPPRESSED_REPORT_TIMEOUT (R615): 10 s after the first suppressed event of a code. -/
def execSuppressedReportTimeout (code : BitVec 16) (s : State) : Host.Outcome State Fault Refusal :=
  let b := bucketOf s.rc code
  .next (if stewardRuns s && b.supp != 0 && decide (b.first + 10000000000 ≤ s.up) then reportSuppressed s b else s)

/-- HEADLAND_EVENT_BUFFER (R613): an event while the steward does not run. -/
def execHeadlandEventBuffer (code : BitVec 16) (data : List Byte) (s : State) : Host.Outcome State Fault Refusal :=
  .next (if s.pw.state != .off && !stewardRuns s then headlandRecord s code data else s)

end Sys2Proof.Machine
end

