-- ==== Sys2Proof/Machine/Channels.lean ====
section
/-! DEFINITION. The commands of the field channels (13_field_channels.md). -/

namespace Sys2Proof.Machine

/-- The comparator of a wake island in NEAP (R439): its thresholds, its filter, no wetting current. -/
def wakeChange (s : State) (ch : Chan) (w : WakeCfg) (mv : Nat) : State :=
  let x := s.chans.get ch
  let r := readAt (w.on, w.off) mv x.comp
  if !alive x || r == x.comp then s
  else modChan s ch fun x => { x with comp := r, compAt := s.up, acc := if w.filter = 0 then r else x.acc }

/-- A comparator reading changes (R433, R434, R437, R455): the wetting current starts, but not while the sink is held for a localisation;
with FILTER 0 the reading is accepted as it occurs. -/
def inputChange (s : State) (ch : Chan) (d : ChanDecl) (mv : Nat) : State :=
  let x := s.chans.get ch
  let r := reading d mv x.comp
  if isOutput d || !alive x || r == x.comp then s
  else
    let s := settleFilter s ch d
    let wet := wets d && awake s && x.supply == .full && !x.inSafe && !x.starting && !x.locating && !x.causes.contains .temp
    let s := modChan s ch fun x => { x with comp := r, compStamp := trainUs s, compAt := s.up, wetting := wet }
    let s := if wet then countClean s ch else s
    if d.filter = 0 ∧ d.kind ≠ .counter then accept s ch d else s

/-- COMPARATOR_CHANGE (R431, R433, R434, R439): the signal voltage is `mv`. -/
def execComparatorChange (ch : Chan) (mv : Nat) (s : State) : Host.Outcome State Fault Refusal :=
  let s := modIsland s ch fun x => { x with volt := mv }
  match (s.chans.get ch).wcfg, chanDecl s ch with
  | some w, _ => .next (wakeChange s ch w mv)
  | none, some d => .next (inputChange s ch d mv)
  | none, none => .next s

/-- FILTER_ACCEPT (R434, R437, R439): the reading that has held for the filter time is accepted. A counter's pulses and gaps between its two
limits are counted where this command comes. -/
def execFilterAccept (ch : Chan) (s : State) : Host.Outcome State Fault Refusal :=
  let x := s.chans.get ch
  let held (n : Nat) : Bool := decide (x.compAt + n ≤ s.up)
  if !alive x || x.comp == x.acc then .next s
  else
    match x.wcfg, chanDecl s ch with
    | some w, _ => .next (if held (w.filter * 10000) then modChan s ch fun x => { x with acc := x.comp } else s)
    | none, some d => .next (if !isOutput d && held (holdTime d) then accept s ch d else s)
    | none, none => .next s

/-- WETTING_END (R433): the sink returns to the holding current after the wetting time. -/
def execWettingEnd (ch : Chan) (s : State) : Host.Outcome State Fault Refusal :=
  let x := s.chans.get ch
  .next (if decide (x.compAt + wetTime s x.iw * 100000 ≤ s.up) then modChan s ch fun x => { x with wetting := false } else s)

/-- CHANNEL_SUPPLY_CHANGE (R429): the channel supply is `mv`. Below 15.0 V the switch and the sink are off and the fault bit
has its cause; below 12.0 V the island stops; an island whose supply returns from there starts (R649). -/
def execChannelSupplyChange (ch : Chan) (mv : Nat) (s : State) : Host.Outcome State Fault Refusal :=
  let old := (s.chans.get ch).supply
  let new := nextBand old mv
  let s := modIsland s ch fun x => { x with sv := mv }
  if new = old then .next s
  else
    let s := modChan s ch fun x => { x with supply := new, wetting := x.wetting && new == .full }
    let s :=
      match new with
      | .dead => modChan s ch fun x => { noPulse x with causes := [], latched := false, inSafe := false, starting := false }
      | .low => modChan s ch fun x => addCause x .supply
      | .full => endCause s ch .supply
    let s := if old = .dead then modChan s ch fun x => { x with starting := true } else s
    .next (settleSwitch s ch)

/-- ISLAND_START (R649, R436): the first upstream frame of an island that starts. -/
def execIslandStart (ch : Chan) (s : State) : Host.Outcome State Fault Refusal :=
  let x := s.chans.get ch
  if !alive x then .next s
  else
    let s := reportAgain s ch
    let s := modChan s ch fun x =>
      { noPulse x with
        starting := true, inSafe := false, stale := false, latched := false, wetting := false, comp := false, acc := false, stamp := trainUs s,
        compAt := s.up, causes := if x.supply = .low then [.supply, .safeState] else [.safeState] }
    .next (refreshDrives (riseBit s ch .fieldSide))

/-- An island's programmed safe state, as event 0x0603 holds it: off, on, hold (R449). -/
def safeNo (x : ChanSt) : Nat :=
  match x.prog with
  | some false => 0
  | some true => 1
  | none => 2

/-- An island that has accepted no refresh: it drives its safe state and its sink holds (R446, R449). Whether the Parapet has sent any is
what a localisation asks (R455). -/
def loseRefresh (s : State) (ch : Chan) (sent : Bool) : State :=
  let x := s.chans.get ch
  if !alive x || x.inSafe || x.starting then s
  else
    let s := demand s ch
    let s := modIsland s ch fun x => addCause { x with inSafe := true, stale := !sent, wetting := false } .safeState
    settleSwitch (record s 0x0603 (d1 ch.val ++ d1 (safeNo x))) ch

/-- ISLAND_WATCHDOG_EXPIRE (R448, R449): no refresh accepted for 32 µs: none came, or none whose CRC and enable code were right. -/
def execIslandWatchdogExpire (e : WatchExpiry) (s : State) : Host.Outcome State Fault Refusal :=
  .next (if awake s then loseRefresh s e.ch e.sent else s)

/-- ISLAND_REFRESH_RESUME (R450, R649): after 64 accepted refreshes the island follows its drive and clears the fault bit it
set. -/
def execIslandRefreshResume (ch : Chan) (s : State) : Host.Outcome State Fault Refusal :=
  let x := s.chans.get ch
  if !awake s || !alive x || !(x.inSafe || x.starting) || s.pw.pllLost.contains .parapet then .next s
  else
    let s := modIsland s ch fun x => { x with inSafe := false, stale := false, starting := false }
    let s := if x.inSafe then record s 0x0604 (d1 ch.val) else s
    .next (settleSwitch (takeDrive (endCause s ch .safeState) ch) ch)

/-- OVERLOAD_TRIP (R442): a closed switch over current opens. -/
def execOverloadTrip (ch : Chan) (s : State) : Host.Outcome State Fault Refusal :=
  if (s.chans.get ch).closed then
    .next (settleSwitch (modChan s ch fun x => addCause { x with latched := true } .overload) ch)
  else .next s

/-- READBACK_MISMATCH (R443): outside a test pulse the read-back has differed from the drive for more than 500 µs. -/
def execReadbackMismatch (ch : Chan) (s : State) : Host.Outcome State Fault Refusal :=
  let x := s.chans.get ch
  if causeStands s ch .readback ∧ alive x ∧ x.test = .idle ∧ x.rbAt + 500000 < s.up then .next (modChan s ch fun x => addCause x .readback)
  else .next s

/-- The Parapet sees a fault bit rise and localises (R455): a test pulse under way ends without judgement; an output's pulse releases an
overload latch; an input's or wake channel's sink is held at the holding current. -/
def localise (s : State) (ch : Chan) : State :=
  let x := s.chans.get ch
  match chanDecl s ch with
  | none => riseBit s ch (if x.stale then .watchdog else .fieldSide)
  | some d =>
    match classAtRise d x with
    | some k => riseBit s ch k
    | none =>
      let s := riseBit s ch .unlocalised
      if isOutput d then
        let s := modChan s ch fun x => { x with test := .localise, locating := true, pulseAt := s.up }
        settleSwitch (releaseTrip s ch) ch
      else modChan s ch fun x => { x with locating := true, wetting := false, pulseAt := s.up }

/-- FAULT_BIT_RISE (R454, R455): a cause stands, with the signal voltage `mv`; where the bit was clear and the island reports, the Parapet
sees it rise. -/
def execFaultBitRise (ch : Chan) (cause : FaultCause) (mv : Nat) (s : State) : Host.Outcome State Fault Refusal :=
  let s := modIsland s ch fun x => { x with volt := mv }
  let x := s.chans.get ch
  if !alive x || !causeStands s ch cause then .next s
  else
    let s := modChan s ch fun x =>
      { addCause x cause with clean := if cause = .shortfall then 0 else x.clean, wetting := x.wetting && cause != .temp }
    let s := settleSwitch s ch
    .next (if x.fbit || x.silent then s else localise s ch)

/-- LOCALISATION_END (R455): what the pulse or the held sink showed gives the class. -/
def execLocalisationEnd (ch : Chan) (obs : LocObs) (s : State) : Host.Outcome State Fault Refusal :=
  let x := s.chans.get ch
  match chanDecl s ch with
  | none => .next s
  | some d =>
    let due := x.pulseAt + (if isOutput d then 20000 else 1000000)
    if !x.locating || decide (s.up < due) then .next s
    else
      let fin (s : State) (k : FaultClass) : State :=
        settleSwitch (modChan s ch fun x => { x with test := .idle, locating := false, rbAt := s.up, cls := k }) ch
      let clear (s : State) : State :=
        tellTacho (settleBit (modChan s ch fun x => { x with causes := [] }) ch) ch
      if isOutput d then
        match obs with
        | .cleared => .next (fin (clear s) .overloadCleared)
        | .clearedThenRose =>
          let s := clear s
          let s := modChan s ch fun x => addCause { x with latched := true } .overload
          .next (fin (riseBit s ch .overload) .overload)
        | .stayed => .next (fin s .fieldSide)
      else
        match obs with
        | .stayed => .next (fin s .fieldSide)
        | _ => .next (lowerWet (fin (clear s) .wetting) ch)

/-- COUPLER_SILENT (R456, R451): its input reads 0 in every reflex table. -/
def execCouplerSilent (ch : Chan) (s : State) : Host.Outcome State Fault Refusal :=
  let x := s.chans.get ch
  if !awake s || x.silent || x.asleep then .next s
  else
    let s := modChan s ch fun x => { noPulse x with silent := true }
    .next (refreshDrives (record s 0x0605 (d1 ch.val)))

/-- The test period of a channel in which the present train time lies, with the ns that have passed of it since the instant of its test
(R444). -/
def testPhase (s : State) (ch : Chan) (d : ChanDecl) : Nat × Nat :=
  let per := d.testper * 10000000
  let t := trainNs s + per - (ch.val * 1000000 + 100000) % per
  (t / per, t % per)

/-- TEST_PULSE_START (R444): once in a test period, at its instant, which is met within 1 µs (assumption log entry 95): a dark pulse with
the drive on, a light pulse with the drive off; a length of 0 runs no test. A dark pulse is an off drive for an overload latch (R442). -/
def execTestPulseStart (ch : Chan) (s : State) : Host.Outcome State Fault Refusal :=
  let x := s.chans.get ch
  match chanDecl s ch with
  | none => .next s
  | some d =>
    let at_ := testPhase s ch d
    let able := isOutput d && alive x && follows x && !x.silent && x.test == .idle && !x.locating && d.testper != 0 && awake s &&
      decide (at_.2 < 1000) && x.testAt != some at_.1
    let len := if x.drv then d.dark else d.light
    if !able || len == 0 then .next s
    else
      let s := modChan s ch fun x => { x with test := if x.drv then .dark else .light, pulseAt := s.up, testAt := some at_.1 }
      .next (settleSwitch (if x.drv then releaseTrip s ch else s) ch)

/-- A judged test (R445, R447): the second failed test of a kind in a row sets its TESTFAIL class, which stays until one passes. -/
def judge (s : State) (ch : Chan) (dark pass rb : Bool) : State :=
  let x := s.chans.get ch
  let cl : FaultClass := if dark then .testfailDark else .testfailLight
  let was := if dark then x.failDark else x.failLight
  let fails := if pass then 0 else was + 1
  let s := modChan s ch fun x =>
    { x with test := .idle, rbAt := s.up, aban := 0, abanSaid := false, ctfail := if pass then x.ctfail else x.ctfail.inc,
             failDark := if dark then fails else x.failDark, failLight := if dark then x.failLight else fails }
  let s := if pass then s else record s 0x0607 (d1 ch.val ++ d1 (b2n !dark) ++ d1 (b2n rb))
  if fails = 2 then record s 0x060B (d1 ch.val ++ d1 (classNo cl))
  else if pass ∧ 2 ≤ was then record s 0x060B (d1 ch.val ++ d1 0)
  else s

/-- TEST_PULSE_END (R444, R445): the read-back at the last µs of the pulse, where the signal voltage is `mv`, judges the test. A
localisation pulse ends after 20 µs without judgement. -/
def execTestPulseEnd (ch : Chan) (mv : Nat) (s : State) : Host.Outcome State Fault Refusal :=
  let s := modIsland s ch fun x => { x with volt := mv }
  let x := s.chans.get ch
  let rb := readback x
  let past (n : Nat) : Bool := decide (x.pulseAt + n ≤ s.up + 1000)
  match x.test, chanDecl s ch with
  | .localise, _ => .next (if past 21000 then settleSwitch (modChan s ch fun x => { x with test := .idle, rbAt := s.up }) ch else s)
  | .dark, some d => .next (if past (d.dark * 10000) then settleSwitch (judge s ch true (!rb) rb) ch else s)
  | .light, some d => .next (if past (d.light * 10000) then settleSwitch (judge s ch false rb rb) ch else s)
  | _, _ => .next s

/-- FAULT_BIT_CLEAR (R454, R456): a cause has ended. An overload ends with an off drive, a supply fault with the supply, a read-back
fault when drive and read-back agree, the safe state with the refresh; the others as the environment says. -/
def execFaultBitClear (ch : Chan) (cause : FaultCause) (s : State) : Host.Outcome State Fault Refusal :=
  let x := s.chans.get ch
  let ends := cause == .temp || cause == .selfCheck || cause == .shortfall || !causeStands s ch cause
  if !alive x || !ends then .next s else .next (settleSwitch (endCause s ch cause) ch)

/-- ISLAND_REPORTING_AGAIN (R456). -/
def execIslandReportingAgain (ch : Chan) (s : State) : Host.Outcome State Fault Refusal :=
  if alive (s.chans.get ch) then .next (reportAgain s ch) else .next s

end Sys2Proof.Machine
end

