-- ==== Sys2Proof/Machine/Tick.lean ====
section
/-! DEFINITION. The 8 ns tick of the local clock (10_network_time.md, R359). -/

namespace Sys2Proof.Machine

/-- The clock in units of 2^-32 ns, its extension included. -/
def clockUnits (c : Clock) : Nat := (((c.sec.toNat * 1000000000 + c.ns.toNat) * 65536 + c.frac.toNat) * 65536) + c.ext.toNat

/-- The clock that reads a number of units of 2^-32 ns. -/
def clockOf (c : Clock) (v : Nat) : Clock :=
  let ns := v / 4294967296
  { c with sec := BitVec.ofNat 48 (ns / 1000000000), ns := BitVec.ofNat 30 (ns % 1000000000), frac := BitVec.ofNat 16 (v / 65536),
           ext := BitVec.ofNat 16 v }

/-- What one tick adds to the clock, in units of 2^-32 ns (R359). -/
def tickUnits (c : Clock) : Nat := (8 * 4294967296 + c.corr.toInt).toNat

/-- The ticks until the clock reaches a time in ns; none where it has passed it already. -/
def ticksTo (c : Clock) (ns : Nat) : Nat := (ns * 4294967296 - clockUnits c + tickUnits c - 1) / tickUnits c

/-- `n` ticks of the local clock at its present rate correction (R359). -/
def clockRun (c : Clock) (n : Nat) : Clock := clockOf c (clockUnits c + n * tickUnits c)

/-- One tick of the local clock: 8 ns and the signed rate correction, carried through the extension and FRAC into NS and SEC (R358,
R359). -/
def clockTick (c : Clock) : Clock := clockRun c 1

/-- What the block does on an empty queue: with its time clock running, it takes one tick of 8 ns; without, and in NEAP, only the Headland counts on
(R533, R544; assumption log entry 11). -/
def tick (s : State) : State :=
  if awake s then { s with up := s.up + 8, time := { s.time with clock := clockTick s.time.clock } }
  else if s.pw.state == .off then s else { s with up := s.up + 8 }

end Sys2Proof.Machine
end

