-- ==== Sys2Proof/Machine/Vehicle.lean ====
section
/-! DEFINITION. The commands of the vehicle network (08_vehicle_network.md). -/

namespace Sys2Proof.Machine

/-- The backbone port of a port number. -/
def bbOf (p : Port) : Fin 4 := Fin.ofNat 4 p.val

/-- Link on a backbone port: before the node has met a ring its side takes the lines that are up (R320, R333); a lost line counts
its tides from here on (R347); a merge refused at this span is evaluated again (R351); a Pdelay_Req is due (R366). -/
def bbLinkUp (s : State) (i : Fin 4) : State :=
  let sd := sideOfPort i
  let s := modRing s fun r =>
    setRefused { r with regain := vmod r.regain i fun _ => some s.tideUp, ringSaid := r.ringSaid.filter fun x => x ≠ i } sd none
  let s := modTime s fun t => { t with pdNext := vmod t.pdNext i fun _ => s.tideUp, pdSent := vmod t.pdSent i fun _ => none }
  let x := sideByLinks s sd
  if s.ring.st = .alone ∧ !s.ring.everHeard ∧ x ≠ sideOf s sd then changeSide s sd x i else s

/-- Loss of link on a backbone port: the restore of its side is off (R347), and a merge at a span without link is refused with reason 0x6
(R351). -/
def bbLinkLoss (s : State) (i : Fin 4) : State :=
  let sd := sideOfPort i
  let s := modRing s fun r =>
    { r with regain := vmod r.regain i fun _ => none, restoreF := if sd = .f then none else r.restoreF,
             restoreR := if sd = .r then none else r.restoreR }
  match s.ring.dec, probeOf s sd with
  | some d, some p =>
    if d.side = sd ∧ !bbLink s sd .a ∧ !bbLink s sd .b then refuseMerge s sd 6 (ownProbe s 2 none) p else s
  | _, _ => s

/-- LINK_UP (R267, R344): a port that is on, and not forced down, reaches link. -/
def execLinkUp (p : Port) (s : State) : Host.Outcome State Fault Refusal :=
  let x := port s p
  if !awake s || x.link || x.speed == 0 || (isBackbone p && s.ring.forced.any fun f => f.1 == bbOf p) then .next s
  else
    let s := modPort s p fun x => { x with link := true, mac := none }
    .next (if isBackbone p then bbLinkUp s (bbOf p) else record s 0x0301 (d1 p.val ++ d1 x.speed.toNat))

/-- LINK_LOSS (R267, R289, R308, R647): the learned address goes, and SQI is 0. -/
def execLinkLoss (p : Port) (s : State) : Host.Outcome State Fault Refusal :=
  let x := port s p
  if !x.link then .next s
  else
    let s := modPort s p fun x =>
      { x with link := false, mac := none, sqi := 0, sqiLow := some (x.sqiLow.getD s.up), losses := s.up :: x.losses.filter fun t => decide (s.up < t + 60000000000) }
    .next (if isBackbone p then bbLinkLoss s (bbOf p) else record s 0x0302 (d1 p.val))

/-- TT_WINDOW_TX (R283, R298, R186, R199): a transmit window of the mode in force, once in a tide, in RUN, on a port with link, with a
committed image; a copy that is not ready in time is given up. -/
def execTtWindowTx (p : Port) (win : Nat) (sl : Lanes SliceFault) (ready : Bool) (s : State) : Host.Outcome State Fault Refusal :=
  match (ttWindows s p false).find? fun w => w.1.win = win with
  | none => .next s
  | some (d, _, _) =>
    match d.bind with
    | none => .next s
    | some b =>
      if !awake s || s.ctl.state != .run || !(port s p).link || (port s p).sent.contains win || !(relOf s b.pair b.task).committed then .next s
      else
        let s := modPort s p fun x => { x with sent := win :: x.sent }
        .next (if ready then sendFrame s p (ttCopies s d b) sl else s)

/-- The window in which a TT frame starts, and the first Breakwater check that it fails (R285). -/
def ttViolation (s : State) (p : Port) (a : Arrival) : Option Viol × Option SlotDecl :=
  let w := (ttWindows s p true).find? fun w => decide (w.2.1 ≤ a.start) && decide (a.start < w.2.2)
  if jabberLen < a.bytes.length then (some .jabber, none)
  else if wrongSource s p a.bytes then (some .srcmac, none)
  else
    match w with
    | none => (some .outside, none)
    | some (d, w0, w1) =>
      if w0 + 400 < a.start then (some .late, none)
      else if w1 < a.stop then (some .overrun, none)
      else if a.bytes.length ≠ d.frame then (some .length, none)
      else if (port s p).accepted.contains d.win then (some .extra, none)
      else (none, some d)

/-- An accepted TT frame that echoes the mode request (R294). -/
def echoes (s : State) (f : List Byte) : Bool :=
  let b := f.getD 20 0
  s.net.mode.req && b.getLsbD 7 && (b.toNat / 2) % 8 == s.net.mode.rq.toNat

/-- TT_FRAME_RECEIVE (R270, R278, R285, R288): the guardian's checks, then the header's. -/
def execTtFrameReceive (p : Port) (arr : Arrival) (verdict : Lanes SliceVerdict) (s : State) : Host.Outcome State Fault Refusal :=
  let x := port s p
  if !awake s || !isVehicle p || !x.link || x.guard == .isolated || etherType arr.bytes ≠ (setup s).net.ethertype.toNat then .next s
  else
    match ttViolation s p arr with
    | (some v, _) => .next (violate s p v)
    | (none, none) => .next s
    | (none, some d) =>
      if !fcsOk arr.bytes then .next (fcsFail s p)
      else
        let s := learn s p arr.bytes
        if !ttHeaderOk s d (some s.net.mode.cur) arr.bytes then .next (rejectFrame s p)
        else if x.guard = .probation then .next s
        else
          let s := modPort s p fun x => { x with accepted := d.win :: x.accepted }
          let s := if echoes s arr.bytes then modNet s fun n => { n with mode := { n.mode with heard := p.val :: n.mode.heard } } else s
          .next (receive s d arr.bytes verdict).1

/-- ISOLATION_END (R287). -/
def execIsolationEnd (p : Port) (s : State) : Host.Outcome State Fault Refusal :=
  let x := port s p
  if x.guard = .isolated ∧ x.isoEnd ≤ s.tideUp then
    .next (record (modPort s p fun x => { x with guard := .probation, cleanFrom := s.tideUp, viols := [] }) 0x0304 (d1 p.val))
  else .next s

/-- PROBATION_END (R287). -/
def execProbationEnd (p : Port) (s : State) : Host.Outcome State Fault Refusal :=
  let x := port s p
  if x.guard = .probation ∧ x.cleanFrom + 256 ≤ s.tideUp then
    .next (record (modPort s p fun x => { x with guard := .admitted, viols := [] }) 0x0305 (d1 p.val))
  else .next s

/-- GUARDIAN_EXP_RESET (R287). -/
def execGuardianExpReset (p : Port) (s : State) : Host.Outcome State Fault Refusal :=
  let x := port s p
  if x.guard = .admitted ∧ x.cleanFrom + 240000 ≤ s.tideUp then .next (modPort s p fun x => { x with exp := 0 }) else .next s

/-- A non-TT frame starts inside a receive window or still arrives at its W0 + 400 ns, be it a window of the next tide (R285). -/
def intrudes (s : State) (p : Port) (a : Arrival) : Bool :=
  (ttWindows s p true ++ ttNext s p true).any fun w =>
    (decide (w.2.1 ≤ a.start) && decide (a.start < w.2.2)) || (decide (a.start ≤ w.2.1 + 400) && decide (w.2.1 + 400 < a.stop))

/-- A frame is of the RC class (R274): the UDP header follows the IPv4 header and its options. -/
def isRc (f : List Byte) : Bool :=
  let ihl := beAt f 14 1 % 16
  etherType f == 0x0800 && beAt f 14 1 / 16 == 4 && beAt f 23 1 == 17 && beAt f (16 + 4 * ihl) 2 == 17224

/-- FRAME_FORWARD (R270 to R276, R285 to R288): a frame that is no TT frame has arrived at a vehicle port. It is queued at every port that
has not carried it on cut-through. -/
def execFrameForward (p : Port) (arr : Arrival) (s : State) : Host.Outcome State Fault Refusal :=
  let x := port s p
  let s := modPort s p fun x => { x with cutTo := [] }
  if !awake s || !isVehicle p || !x.link || x.guard == .isolated || etherType arr.bytes == (setup s).net.ethertype.toNat then .next s
  else if jabberLen < arr.bytes.length then .next (violate s p .jabber)
  else if wrongSource s p arr.bytes then .next (violate s p .srcmac)
  else if intrudes s p arr then .next (violate s p .intrude)
  else if !fcsOk arr.bytes then .next (fcsFail s p)
  else
    let s := learn s p arr.bytes
    if etherType arr.bytes = 0x88F7 then .next s
    else
      let rc := isRc arr.bytes
      match police s p rc arr.bytes.length (atOffset s arr.start) with
      | (s, false) => .next s
      | (s, true) =>
        if x.guard = .probation then .next s
        else
          let f := common (bodyOf arr.bytes)
          let to_ := (destPorts s (some p) (dstMac arr.bytes)).filter fun q => !x.cutTo.contains q
          .next (forAll to_ s fun s q => if rc then enqRc s q f else enqBe s q f)

/-- Where the next transmit window of a port starts, in this tide or the next, from an offset in the tide on; none inside a window. -/
def nextWindow (s : State) (p : Port) (now : Nat) : Option Nat :=
  let ws := ttWindows s p false
  if ws.any fun w => decide (w.2.1 ≤ now) && decide (now < w.2.2) then none
  else
    let starts := ((ws ++ ttNext s p false).map fun w => w.2.1).filter fun w => decide (now ≤ w)
    some (starts.foldl min 1000000)

/-- The highest-priority frame of a port leaves its queue (R275). -/
def takeQueued (x : PortSt) : Option (QFrame × PortSt) :=
  match x.qRc, x.qBe with
  | f :: r, _ => some (f, { x with qRc := r })
  | [], f :: r => some (f, { x with qBe := r })
  | [], [] => none

/-- Where a frame of some bytes that starts at `now` ends on the wire, its preamble included. -/
def endsAt (s : State) (p : Port) (bytes now : Nat) : Nat := now + (bytes + 8) * 8 * portBit s p

/-- A frame of a queue, with its FCS. -/
def frameLen (f : QFrame) : Nat := f.copies.a.length + 4

/-- A frame still arriving on another port may be carried on cut-through by this one (R272, R274 to R276, R285, R286, R288): Breakwater
passes it, its destination is this port, and no frame of its class or a higher one waits here (assumption log entry 92). -/
def cutsThrough (s : State) (p q : Port) (a : Arrival) (now : Nat) : Bool :=
  let x := port s p
  let rc := isRc a.bytes
  isVehicle p && isVehicle q && (port s q).link && (port s q).guard == .admitted && decide (x.speed.toNat ≤ (port s q).speed.toNat) &&
    decide (a.start ≤ now) && decide (now < a.stop) && decide (a.bytes.length ≤ jabberLen) && !wrongSource s q a.bytes && !intrudes s q a &&
    etherType a.bytes != (setup s).net.ethertype.toNat && etherType a.bytes != 0x88F7 && !(port s q).cutTo.contains p &&
    (destPorts s (some q) (dstMac a.bytes)).contains p && (police s q rc a.bytes.length (atOffset s a.start)).2 && x.qPtp.isEmpty &&
    x.qRc.isEmpty && (rc || x.qBe.isEmpty)

/-- What a vehicle port or MNT starts at `now`, with its next transmit window at `w` (R274, R275): the frame of highest priority that waits,
if it ends 96 ns before that window; else a frame that is still arriving, measured as 1,522 bytes. -/
def startNonTt (s : State) (p : Port) (now w : Nat) (cut : Option (Port × Arrival)) (sl : Lanes SliceFault) : State :=
  let x := port s p
  let fits (bytes : Nat) : Bool := decide (endsAt s p bytes now + 96 ≤ w)
  let carry := match cut with
    | some (q, a) => if cutsThrough s p q a now && fits 1522 then some (q, a) else none
    | none => none
  match carry with
  | some (q, a) => sendFrame (modPort s q fun y => { y with cutTo := p :: y.cutTo }) p (transit a.bytes .plain) sl
  | none =>
    match x.qPtp with
    | m :: r => if fits (frameLen m) then sendAt (modPort s p fun x => { x with qPtp := r }) p m sl (egressNs s p now) else s
    | [] =>
      match takeQueued x with
      | none => s
      | some (f, y) => if fits (frameLen f) then sendFrame (modPort s p fun _ => y) p f sl else s

/-- A best-effort frame may start on a backbone port (R326, R370): in the free region, to end 400 ns before the pattern does, and in tides 0
and 4 modulo 8 after the Sync of that tide or 2 µs. -/
def beMayStart (s : State) (i : Fin 4) (bytes now : Nat) : Bool :=
  ringFree s i now && decide (endsAt s (bbPort i) bytes now + 400 ≤ s.ring.p0 + 250000) &&
    (s.tide % 4 != 0 || s.ring.syncOut.get i == some s.tideUp || decide (freeFrom s + 2000 ≤ now))

/-- What a backbone port starts at `now` (R326, R365, R370). -/
def startBackbone (s : State) (i : Fin 4) (now : Nat) (sl : Lanes SliceFault) : State :=
  let p := bbPort i
  match (port s p).qPtp, (port s p).qBe with
  | m :: r, _ =>
    if ringFree s i now then sendAt (modPort s p fun x => { x with qPtp := r }) p m sl (egressNs s p now) else s
  | [], f :: r => if beMayStart s i (frameLen f) now then sendFrame (modPort s p fun x => { x with qBe := r }) p f sl else s
  | [], [] => s

/-- NON_TT_EGRESS_START (R272, R274, R275, R326, R370): outside its transmit windows a port that is not busy starts a frame. -/
def execNonTtEgressStart (p : Port) (e : EgressStart) (sl : Lanes SliceFault) (s : State) : Host.Outcome State Fault Refusal :=
  if !awake s || !(port s p).link || e.busy then .next s
  else if isBackbone p then .next (startBackbone s (bbOf p) e.now sl)
  else
    match nextWindow s p e.now with
    | none => .next s
    | some w => .next (startNonTt s p e.now w e.cut sl)

/-- The header of a telegram as sent (R299). -/
def trdpHeader (seq : Word) (comId : Word) (len : Nat) : List Byte :=
  let h := beBytes 4 seq.toNat ++ [0x01, 0x00, 0x50, 0x64] ++ beBytes 4 comId.toNat ++ List.replicate 8 0 ++ beBytes 4 len ++
    List.replicate 12 0
  h ++ beBytes 4 (crc32 h).toNat

/-- A telegram without FCS from a lane's image (R299, R300). -/
def telegram (s : State) (d : SlotDecl) (b : Binding) (comId ip : Word) (seq : Word) (mac : List Byte) (l : LaneId) : List Byte :=
  let data := comBytes s l b d.bound
  padFrame (mac ++ vehicleMac s ++ [0x08, 0x00] ++
    ipv4 17 (setup s).net.vip ip (udp 17224 17224 (trdpHeader seq comId d.frame ++ data)))

/-- One push (R300, R305): a destination that is not resolved discards it and is asked for. -/
def push (s : State) (d : SlotDecl) (i : Nat) : State :=
  match d.kind, d.bind with
  | .rc comId ip k, some b =>
    if d.rx || s.tide % 2 ^ k ≠ 0 || !(relOf s b.pair b.task).committed then s
    else
      let seq := s.net.trdpSeq.getD i 0
      let s := modNet s fun n => { n with trdpSeq := n.trdpSeq.modify i fun x => x + 1 }
      match resolve s .vehicle ip with
      | none => startArp { s with svc := { s.svc with arpDrop := s.svc.arpDrop.inc } } .vehicle ip
      | some mac =>
        let f (l : LaneId) : List Byte := telegram s d b comId ip seq mac l
        enqRc s (Fin.ofNat 37 d.port) ⟨⟨f .a, f .b, f .c⟩, true, false, .plain⟩
  | _, _ => s

/-- TRDP_PUSH (R300): at the start of a tide, once, in RUN, with a vehicle-network address. -/
def execTrdpPush (s : State) : Host.Outcome State Fault Refusal :=
  if awake s && s.ctl.state == .run && (setup s).net.vip != 0 && s.net.pushAt != some s.tideUp then
    let s := modNet s fun n => { n with pushAt := some s.tideUp }
    .next (forAll (setup s).slots.zipIdx s fun s p => push s p.1 p.2)
  else .next s

/-- The UDP payload of a frame, with source address and destination port, where the module takes the datagram (R304). -/
def udpOf (f : List Byte) : Option (Word × Nat × List Byte) :=
  match parseIpv4 f with
  | some (17, src, dst, d) => (parseUdp src dst d).map fun u => (src, u.2.1, u.2.2)
  | _ => none

/-- A telegram passes the checks of R301 that do not depend on the SLOT. -/
def trdpOk (t : List Byte) : Bool :=
  beAt t 6 2 == 0x5064 && t.getD 4 0 == 0x01 && beAt t 36 4 == (crc32 (t.take 36)).toNat

/-- A port passes frames on: link and ADMITTED. -/
def listens (s : State) (p : Port) : Bool := awake s && (port s p).link && (port s p).guard == .admitted

/-- TRDP_RECEIVE (R301, R308): a telegram for an RC receive SLOT. -/
def execTrdpReceive (p : Port) (frame : List Byte) (s : State) : Host.Outcome State Fault Refusal :=
  if !listens s p then .next s
  else if !fcsOk frame then .next (fcsFail s p)
  else
    match udpOf frame with
    | none => .next (rejectFrame s p)
    | some (src, dport, t) =>
      let comId := BitVec.ofNat 32 (beAt t 8 4)
      let seq := BitVec.ofNat 32 (beAt t 0 4)
      let want (d : SlotDecl) : Bool :=
        match d.kind with
        | .rc c ip _ => d.rx && d.port == p.val && c == comId && (ip == 0 || ip == src) && beAt t 20 4 == d.frame
        | _ => false
      match (setup s).slots.zipIdx.find? fun x => want x.1 with
      | none => .next (rejectFrame s p)
      | some (d, i) =>
        let fresh := seq == 0 || (match s.net.trdpRx.getD i none with | some o => later seq o | none => true)
        if dport != 17224 || !trdpOk t || !fresh then .next (rejectFrame s p)
        else
          let s := modNet s fun n => { n with trdpRx := n.trdpRx.modify i fun _ => some seq }
          .next (setRx s i fun r => { r with pend := some ⟨(t.drop 40).take d.bound, []⟩, pendAge := 0 })

/-- TRDP_PULL_REJECT (R302): counted, without a reply. -/
def execTrdpPullReject (p : Port) (_frame : List Byte) (s : State) : Host.Outcome State Fault Refusal :=
  .next (if listens s p then rejectFrame s p else s)

/-- An interface that the steward serves. -/
def ifaceUp (s : State) : Bool := stewardRuns s

/-- ARP_REQUEST_RECEIVE (R305): the module answers for its own address. -/
def execArpRequestReceive (i : Iface) (target ip : Word) (mac : List Byte) (s : State) : Host.Outcome State Fault Refusal :=
  .next (if ifaceUp s && target == ownIp s i && target != 0 then sendLocal s i mac 0x0806 (arpPacket s i 2 mac ip) else s)

/-- ARP_RETRY (R305): a further request 1 s after the last, up to three; after the third the destination is given up. -/
def execArpRetry (i : Iface) (ip : Word) (s : State) : Host.Outcome State Fault Refusal :=
  match s.net.arpWait.find? fun w => w.iface = i ∧ w.ip = ip with
  | none => .next s
  | some w =>
    let others := s.net.arpWait.filter fun w => !(w.iface == i && w.ip == ip)
    if s.up < w.at_ + 1000000000 then .next s
    else if 3 ≤ w.tries then .next (modNet s fun n => { n with arpWait := others })
    else .next (sendArpRequest (modNet s fun n => { n with arpWait := others ++ [{ w with tries := w.tries + 1, at_ := s.up }] }) i ip)

/-- ARP_ENTRY_EXPIRE (R305): 300 s after the last confirmation. -/
def execArpEntryExpire (i : Iface) (ip : Word) (s : State) : Host.Outcome State Fault Refusal :=
  .next (modNet s fun n =>
    { n with arp := n.arp.filter fun e => !(e.iface == i && e.ip == ip && decide (e.at_ + 300000000000 ≤ s.up)) })

/-- ARP_REPLY (R305): the answer to a request enters the cache of 64 entries, or confirms its entry. A full cache gives up its
oldest entry (assumption log entry 20). -/
def execArpReply (i : Iface) (ip : Word) (mac : List Byte) (s : State) : Host.Outcome State Fault Refusal :=
  let asked := s.net.arpWait.any fun w => w.iface = i ∧ w.ip = ip
  let held := s.net.arp.any fun e => e.iface = i ∧ e.ip = ip
  if !ifaceUp s || !(asked || held) then .next s
  else
    let others := s.net.arp.filter fun e => !(e.iface == i && e.ip == ip)
    let kept := if 64 ≤ others.length then others.drop 1 else others
    .next (modNet s fun n =>
      { n with arp := kept ++ [{ iface := i, ip := ip, mac := mac, at_ := s.up }],
               arpWait := n.arpWait.filter fun w => !(w.iface == i && w.ip == ip) })

def ifaceIdx : Iface → Fin 2
  | .vehicle => 0
  | .mnt => 1

/-- ADDRESS_CONFLICT (R306): recorded once a minute at most. -/
def execAddressConflict (i : Iface) (mac : List Byte) (s : State) : Host.Outcome State Fault Refusal :=
  let recent := match s.net.conflict.get (ifaceIdx i) with
    | some t => decide (s.up < t + 60000000000)
    | none => false
  if !ifaceUp s || recent then .next s
  else
    let s := modNet s fun n => { n with conflict := n.conflict.set (ifaceIdx i) (some s.up) }
    .next (record s 0x030D (d1 (ifaceIdx i).val ++ mac.take 6))

/-- The echo request of a frame without FCS, with its sender's address: an IPv4 datagram that the module accepts, to its own address, with type 8, code
0, a right checksum and at most 1,472 bytes of data after identifier and sequence number (R304, R307). -/
def echoRequest (s : State) (i : Iface) (f : List Byte) : Option (Word × List Byte) :=
  match parseIpv4 f with
  | some (1, src, dst, d) =>
    if dst = ownIp s i ∧ dst ≠ 0 ∧ beAt d 0 2 = 0x0800 ∧ inetSum d = 0 ∧ 8 ≤ d.length ∧ d.length ≤ 1480 then some (src, d.drop 4) else none
  | _ => none

/-- ICMP_ECHO (R307): a datagram of its IPv4 header and ICMP message, in a good frame from a MAC address, is answered within 100 replies a
second, to the address in the cache or else to the sender's. -/
def execIcmpEcho (i : Iface) (mac hdr msg : List Byte) (s : State) : Host.Outcome State Fault Refusal :=
  let frame := List.replicate 6 0 ++ mac ++ [0x08, 0x00] ++ hdr ++ msg
  let x := s.net.icmp.get (ifaceIdx i)
  let sec := s.up / 1000000000
  let n := if x.1 = sec then x.2 else 0
  match echoRequest s i frame with
  | none => .next s
  | some (src, rest) =>
    if !ifaceUp s || decide (100 ≤ n) then .next s
    else
      let t := modNet s fun y => { y with icmp := y.icmp.set (ifaceIdx i) (sec, n + 1) }
      let reply (sum : Nat) : List Byte := [0, 0] ++ beBytes 2 sum ++ rest
      .next (sendLocal t i ((resolve s i src).getD mac) 0x0800 (ipv4 1 (ownIp s i) src (reply (inetSum (reply 0)))))

/-- The echo mask of the mode in force. -/
def modeDecl (s : State) (m : BitVec 3) : Option ModeDecl := (setup s).modes.find? fun d => d.mode = m.toNat

def echoPorts (s : State) : List Nat :=
  match modeDecl s s.net.mode.cur with
  | some d => (List.range 32).filter fun i => d.echo.getLsbD i
  | none => []

def modMode (s : State) (f : ModeSt → ModeSt) : State := modNet s fun n => { n with mode := f n.mode }

/-- MODE_ECHO_TIDE (R294, R295): the end of a request tide, before its boundary. -/
def execModeEchoTide (s : State) : Host.Outcome State Fault Refusal :=
  let m := s.net.mode
  if !m.req || m.go || (m.echoAt.any fun e => e.1 == s.tideUp) then .next s
  else
    let s := modMode s fun m => { m with echoAt := some (s.tideUp, m.rtide) }
    let all := (echoPorts s).all fun p => m.heard.contains p
    let echo : BitVec 2 := if all then m.echo + 1 else 0
    if echo = 2 then .next (modMode s fun m => { m with echo := 2, go := true, heard := [] })
    else if 64 ≤ m.rtide then .next (modMode s fun m => { m with echo := echo })
    else .next (modMode s fun m => { m with echo := echo, rtide := m.rtide + 1, heard := [] })

/-- MODE_SWITCH (R295): the boundary that ends the MODEGO tide, the one after the second echoed tide, has passed. -/
def execModeSwitch (s : State) : Host.Outcome State Fault Refusal :=
  let m := s.net.mode
  if m.req && m.go && m.echoAt.any fun e => decide (e.1 + 2 ≤ s.tideUp) then
    let s := modMode s fun m => { m with cur := m.rq, req := false, rq := 0, go := false, echo := 0, rtide := 0, lastout := 1, heard := [] }
    .next (record s 0x0307 (d1 m.cur.toNat ++ d1 m.rq.toNat ++ d4 s.tide))
  else .next s

/-- MODE_REQUEST_LAPSE (R296): request tide 64 has ended without a decision. -/
def execModeRequestLapse (s : State) : Host.Outcome State Fault Refusal :=
  let m := s.net.mode
  if m.req && !m.go && m.echoAt.any fun e => decide (64 ≤ e.2) then
    let silent := (echoPorts s).filter fun p => !m.heard.contains p
    let mask := (silent.map fun p => 2 ^ p).foldl (· + ·) 0
    let s := modMode s fun m => { m with req := false, rq := 0, echo := 0, rtide := 0, lastout := 2, dead := true, heard := [] }
    .next (record s 0x0308 (d1 m.rq.toNat ++ d4 mask))
  else .next s

/-- SQI from a margin in 0.01 dB (R647). -/
def sqiOf (m : Int) : BitVec 3 :=
  if 900 ≤ m then 7 else if 700 ≤ m then 6 else if 500 ≤ m then 5 else if 400 ≤ m then 4 else if 300 ≤ m then 3
  else if 200 ≤ m then 2 else if 100 ≤ m then 1 else 0

/-- SQI_UPDATE (R647): `snr` in 0.01 dB. -/
def execSqiUpdate (p : Port) (snr : Int) (s : State) : Host.Outcome State Fault Refusal :=
  let x := port s p
  if !x.link then .next s
  else
    let need : Int := if x.speed = 1 then 1500 else 1800
    let q := sqiOf (snr - need)
    .next (modPort s p fun x =>
      { x with sqi := q, sqiLow := if q.toNat ≤ 2 then some (x.sqiLow.getD s.up) else none })

/-- The derating trigger that a port meets: 1 SQI, 2 losses of link, 3 FCS failures (R308; assumption log entry 9). -/
def derTrigger (s : State) (x : PortSt) : Option Nat :=
  let low := match x.sqiLow with
    | some t => decide (t + 1000000000 ≤ s.up)
    | none => false
  if low then some 1
  else if 3 ≤ (x.losses.filter fun t => decide (s.up < t + 60000000000)).length then some 2
  else if 16 ≤ (x.fcsFails.filter fun t => decide (s.tideUp < t + 4000)).length then some 3
  else none

/-- PORT_DERATE (R308, R28): the port trains at 100BASE-T1, or the derating is withheld and recorded once. -/
def execPortDerate (p : Port) (s : State) : Host.Outcome State Fault Refusal :=
  let x := port s p
  let may := ((portDecl s p).map fun d => d.minspd == 1).getD false && isVehicle p && x.speed == 2
  match derTrigger s x with
  | none => .next s
  | some k =>
    if !may then .next s
    else if (policy s).portrate then
      let s := modPort s p fun x => { x with speed := 1, derated := true, link := false, sqi := 0, sqiLow := none, mac := none, losses := [], fcsFails := [] }
      let s := record s 0x030B (d1 p.val ++ d1 k)
      .next (if x.link then record s 0x0302 (d1 p.val) else s)
    else if x.derSaid then .next s
    else .next (record (modPort s p fun x => { x with derSaid := true }) 0x030C (d1 p.val ++ d1 k))

end Sys2Proof.Machine
end

