-- ==== Sys2Proof/Machine/Votes.lean ====
section
/-! DEFINITION. The output window, the classification of exceptions, the Parapet's vote and the lane signature
(01, R24; 02, R86 to R89; 06, R193 to R195, R209; 07, R229, R230, R236, R237). -/

namespace Sys2Proof.Machine

/-- The activations whose period ends at a boundary (R191, R193). -/
def committing (s : State) (t : Nat) : List TaskDecl :=
  (tasksInOrder (setup s)).filter fun d => let r := relOf s d.pair d.task; r.live && r.endTide == t

/-- The lifted copy of a PQ section with the PQ forces of its task (R209). -/
def pqForced (s : State) (d : TaskDecl) (b : List Byte) : List Byte :=
  s.ctl.forces.foldl (fun b f =>
    match f.item with
    | .slot .pq p t off tagged =>
      if inForce s f ∧ p = d.pair ∧ t = d.task then putBytes b off (slotBytes tagged f.value forcedTag) else b
    | _ => b) b

/-- A read of a range of a lane's SRAM outside its pairs: every damaged word in it is met (R512, R515). -/
def readRange (s : State) (l : LaneId) (lo n : Nat) (r : Reader) : State × Bool :=
  ((lane s l).dmg.filter fun q => decide (lo ≤ q.1) && decide (q.1 < lo + n)).foldl
    (fun x q => let y := eccRead x.1 (.lane l) q.1 r q.2; (y.1, x.2 && y.2)) (s, true)

/-- The tide movers lift a task's PQ image from one lane (R194). `bad`: the first word of the section reads uncorrectable. -/
def liftOne (s : State) (bad : Bool) (d : TaskDecl) (l : LaneId) : State :=
  if (taskRun s l d.pair d.task).phase ≠ .done then s
  else
    let r := sectRange (setup s) d .pq
    let ea := bankBase d.pair + r.1
    let s := if bad && r.2 != 0 then modLane s l fun x => { x with dmg := dmgMeet x.dmg ea .bad } else s
    let q := readRange s l ea r.2 .tideMover
    let img := if q.2 then some (pqForced q.1 d (sectRead q.1 l d .pq)) else none
    modTask q.1 l d.pair d.task fun x => { x with lifted := img }

/-- The PQ images of every task whose period ends at the coming boundary (R193). -/
def liftAll (s : State) (bad : Lanes Bool) : State :=
  forAll (committing s (s.tide + 1)) s fun s d => forAll (timedLanes s) s fun s l => liftOne s (bad.get l) d l

/-- Two records match (R87). -/
def sameRecord (a b : ExcRec) : Bool := a == b || (a.code == .overrun && b.code == .overrun)

/-- STOPCAUSE of a program fault (R89). -/
def faultCause (p : PairId) (t : TaskId) (r : ExcRec) : Word :=
  0xC0000000 ||| put (excNo r.code) 24 4 ||| put p.val 20 4 ||| put t.val 16 4

/-- A stop at a commit instant (R199): an earlier one that stands stays, and so does a program fault at the same instant. -/
def pendStopAt (s : State) (t : Nat) (f : Option (Word × Word)) : State :=
  let new : PendStop := ⟨t, f, false⟩
  let keep := match s.ctl.pendStop with
    | none => new
    | some o => if o.tide < t ∨ (o.tide = t ∧ o.fault.isSome) then o else new
  { s with ctl := { s.ctl with pendStop := some keep } }

/-- A STOP command asks for a stop at its effect tide (R203): an earlier stop, or one at that boundary, stays. -/
def stopAt (s : State) (t : Nat) : State :=
  let keep := match s.ctl.pendStop with
    | none => ⟨t, none, true⟩
    | some o => if o.tide ≤ t then o else ⟨t, none, true⟩
  { s with ctl := { s.ctl with pendStop := some keep } }

/-- A program fault (R88, R89): event 0x0C05, with the lane that posted no record after it, and the stop. -/
def programFault (s : State) (p : PairId) (t : TaskId) (r : ExcRec) (third : Option LaneId) : State :=
  let cause := faultCause p t r
  let named := match third with | some l => d1 (laneNo l) | none => []
  pendStopAt (record s 0x0C05 (d4 cause.toNat ++ d4 r.pc.toNat ++ named)) (relOf s p t).endTide (some (cause, r.pc))

/-- The records of one activation in the voting lanes. -/
def recordsFor (s : State) (p : PairId) (t : TaskId) : List (LaneId × ExcRec) :=
  (voters s).filterMap fun l => ((taskRun s l p t).exc).map fun r => (l, r)

/-- The classification of R88. The records are used up. -/
def classify (s : State) (p : PairId) (t : TaskId) : State :=
  let vs := voters s
  let recs := recordsFor s p t
  let clear (s : State) : State := forAll vs s fun s l => modTask s l p t fun x => { x with exc := none }
  match recs with
  | [] => s
  | (l, r) :: rest =>
    let same := rest.all fun x => sameRecord r x.2
    let s := clear s
    if vs.length = 1 then programFault s p t r none
    else if rest.isEmpty then dropLane s l 0x01 p.val t.val
    else if same then programFault s p t r ((vs.filter fun x => !(recs.any fun y => y.1 == x)).head?)
    else pendStopAt s (relOf s p t).endTide none

/-- A lane's output image stands for a commit: every committing activation that it completed has been lifted (R515). -/
def imageWhole (s : State) (ds : List TaskDecl) (l : LaneId) : Bool :=
  ds.all fun d => let x := taskRun s l d.pair d.task; x.phase != .done || x.lifted.isSome

/-- The output channels that a commit gives a value. -/
def outsOf (s : State) (ds : List TaskDecl) : List (ChanDecl × Binding) :=
  (setup s).chans.filterMap fun c =>
    match c.kind, c.bind with
    | .output, some b => if ds.any fun d => d.pair == b.pair && d.task == b.task then some (c, b) else none
    | _, _ => none

/-- The value bit of a channel's qualified bit slot in a lane's image (R195). -/
def imageBit (s : State) (l : LaneId) (b : Binding) : Option Bool :=
  ((taskRun s l b.pair b.task).lifted).map fun i => (wordAt i b.off).getLsbD 8

/-- The copies of a channel that are present. -/
def copiesOf (s : State) (present : LaneId → Bool) (b : Binding) : List Bool :=
  (voters s).filterMap fun l => if present l then imageBit s l b else none

/-- A lane's force bit or forced value of a channel differs from the vote (R210, R230). -/
def forceMinor (s : State) (present : LaneId → Bool) (l : LaneId) (c : Chan) : Bool :=
  let imgs := ((voters s).filter present).map fun l => imageForce s l c
  let off (v : Option Bool) (b : Bool) : Bool := match v with | some x => x != b | none => false
  off (voteBit (imgs.map (·.1))) (imageForce s l c).1 || off (voteBit (imgs.map (·.2))) (imageForce s l c).2

/-- The lanes in the minority or silent at a commit (R230, R241). -/
def chMinors (s : State) (present : LaneId → Bool) (outs : List (ChanDecl × Binding)) : List LaneId :=
  (voters s).filter fun l =>
    !present l || outs.any fun o =>
      (match voteBit (copiesOf s present o.2) with
       | some v => imageBit s l o.2 != some v
       | none => false) || forceMinor s present l o.1.ch

/-- What an activation adds to its signature while it executes (R236). -/
def sigWords : SigEv → List Word
  | .write a v be => [1, a, v, be.setWidth 32]
  | .sig v t => [2, v, zext t]

/-- The activation signature (R236). -/
def actSignature (s : State) (l : LaneId) (d : TaskDecl) : BitVec 64 :=
  let x := taskRun s l d.pair d.task
  crc64Words ([(relOf s d.pair d.task).tide, BitVec.ofNat 32 (d.pair.val * 16 + d.task.val)] ++
    x.sigs.reverse.flatMap sigWords ++ wordsOfBytes (x.lifted.getD []))

/-- A 64-bit signature as two words, the lower first (assumption log entry 25). -/
def sigPair (x : BitVec 64) : List Word := [x.setWidth 32, (x >>> 32).setWidth 32]

/-- The lane signature at the boundary just passed; none where an activation did not complete or was not lifted
(R237, R515, R646). -/
def laneSignature (s : State) (ds : List TaskDecl) (l : LaneId) : Option (BitVec 64) :=
  if ds.all fun d => let x := taskRun s l d.pair d.task; x.phase == .done && x.lifted.isSome then
    some (crc64Words ([BitVec.ofNat 32 s.tide, BitVec.ofNat 32 ds.length] ++ ds.flatMap fun d => sigPair (actSignature s l d)))
  else none

end Sys2Proof.Machine
end

