-- ==== Sys2Proof/Machine/Commit.lean ====
section
/-! DEFINITION. The commit instant: outputs, images, signatures, routes, missed windows
(01, R25, R26; 07, R229, R230, R240, R241; 08, R291 to R293, R296, R297; 09, R335; 11, R386). -/

namespace Sys2Proof.Machine

/-- The mode that a request word names: 0 to 7 with VALID, other than the mode in force (R292). -/
def namedMode (s : State) (w : Option (Word × Byte)) : Option Nat :=
  match w with
  | some (v, t) => if v.toNat < 8 && tagValid t && v.toNat != s.net.mode.cur.toNat then some v.toNat else none
  | none => none

/-- The NEXT mask of the mode in force has a mode. -/
def nextAllows (s : State) (m : Nat) : Bool :=
  ((setup s).modes.find? fun d => d.mode = s.net.mode.cur.toNat).any fun d => d.next.getLsbD m

/-- Request tide 1 of a request for a mode (R293): event 0x0306. -/
def startRequest (s : State) (m : Nat) : State :=
  let old := s.net.mode.cur.toNat
  let s := modMode s fun x => { x with req := true, rq := BitVec.ofNat 3 m, echo := 0, rtide := 1, echoAt := none, heard := [] }
  record s 0x0306 (d1 old ++ d1 m)

/-- The mode-request word of a commit (R291 to R293, R296, R297). Once a switch is decided, the word is ignored. -/
def modeCommit (s : State) (w : Option (Word × Byte)) : State :=
  let m := s.net.mode
  if m.go then s
  else
    let changed := (w.map fun x => x.1) != (m.word.map fun x => x.1)
    let dead := m.dead && !changed
    let named := namedMode s w
    let said := m.said && !changed
    let outside := named.any fun n => !nextAllows s n
    let s := modMode s fun x => { x with word := w, dead := dead, said := said || outside }
    let s := if outside && !said then record s 0x030A (d1 m.cur.toNat ++ d4 (wordVal w)) else s
    let want := match named with
      | some n => if dead || !nextAllows s n then none else some n
      | none => none
    if m.req then
      if want = some m.rq.toNat then s
      else
        match want with
        | none => endRequest s w
        | some n => startRequest (endRequest s w) n
    else
      match want with
      | none => s
      | some n => startRequest s n

/-- The vote of a reserved route, as an egress vote (R231, R232, R235, R241, R291): lanes in the minority or silent are charged; a vote
without agreement is counted in SV_EGABORT, and with two lanes stops the controller at the next commit. -/
def routeVote (s : State) (b : Binding) : State :=
  let s := forAll (routeMinor s b) s egressMinor
  if (votedRoute s b).isNone && decide (2 ≤ (voters s).length) then
    let s := { s with rejoin := { s.rejoin with egAbort := s.rejoin.egAbort.inc } }
    if (voters s).length = 2 then stopNextCommit s else s
  else s

/-- The task of a binding is among those that commit. -/
def boundIn (ds : List TaskDecl) (b : Binding) : Bool := ds.any fun d => d.pair == b.pair && d.task == b.task

/-- A reserved route whose task commits, with its effect. -/
def routeCommit (s : State) (ds : List TaskDecl) (id : BitVec 16) (f : State → Option (Word × Byte) → State) : State :=
  match routeOf (setup s) id with
  | none => s
  | some b => if boundIn ds b then f (routeVote s b) (votedRoute s b) else s

/-- The cab route (R335). -/
def cabCommit (s : State) (w : Option (Word × Byte)) : State :=
  modRing s fun r => { r with cabOwn := w.any fun x => x.1 == 1 && tagValid x.2 }

/-- The mode-request, cab and sleep routes at a commit (R291, R335, R534). -/
def routesCommit (s : State) (ds : List TaskDecl) : State :=
  let s := routeCommit s ds 0xFFFF modeCommit
  let s := routeCommit s ds 0xFFFE cabCommit
  routeCommit s ds 0xFFFD fun s _ => s

/-- A send connection at a commit of its task (R386). -/
def sendCommit (s : State) (ds : List TaskDecl) : State :=
  modNet s fun n =>
    { n with conns := n.conns.zipIdx.map fun p =>
        match (setup s).conns[p.2]? with
        | none => p.1
        | some c =>
          let bound := ((connSlot (setup s) c).bind (·.bind)).any (boundIn ds)
          if c.rx || !bound then p.1
          else { p.1 with st := .up, seq := if p.1.st = .up then p.1.seq + 1 else 1, time := BitVec.ofNat 32 (s.tide * 250) } }

/-- A committed activation in one lane: its lifted image is the one committed, and the task is idle (R25, R194). -/
def settleTask (x : TaskRun) : TaskRun :=
  { x with com := x.lifted, lifted := none, phase := .idle, sigs := [], exc := none }

/-- A boundary of the shadow run at which signatures are to be compared (R247): S + 1 tide to S + 16 tides. -/
def dueShadow (s : State) : State :=
  let r := s.rejoin
  if r.phase == .shadow && decide (r.shadowStart < s.tide) && decide (s.tide ≤ r.shadowStart + 16) &&
      (voters s).any fun l => (lane s l).sig.isSome then
    { s with rejoin := { r with due := r.due + 1 } }
  else s

/-- The lane signatures formed, and every committed activation settled (R26, R237). -/
def settleCommit (s : State) (ds : List TaskDecl) : State :=
  let s := forAll (timedLanes s) s fun s l => let g := laneSignature s ds l; modLane s l fun x => { x with sig := g }
  let s := dueShadow s
  forAll ds s fun s d =>
    let some_ := (voters s).any fun l => (taskRun s l d.pair d.task).lifted.isSome
    let s := forAll laneList s fun s l => modTask s l d.pair d.task settleTask
    let settle (r : Rel) : Rel :=
      if some_ then { r with live := false, comAt := s.tide, committed := true } else { r with live := false }
    { s with ctl := { s.ctl with rel := vmod s.ctl.rel d.pair fun v => vmod v d.task settle } }

/-- The voted values given to their channels, the outputs driven, and what hold keeps (R195, R201, R209): the value that this commit gives a
channel, by its task or by a CHOUT force that begins, stands or ends at it. -/
def giveOutputs (s : State) (present : LaneId → Bool) (outs : List (ChanDecl × Binding)) : State :=
  let forced := (fins 48).filter fun c => (s.chans.get c).force.isSome
  let s := forAll outs s fun s o =>
    match voteBit (copiesOf s present o.2) with
    | some v => modChan s o.1.ch fun x => { x with voted := v, everCom := true }
    | none => s
  let s := applyForces s present
  let given (c : Chan) : Bool := (outs.any fun o => o.1.ch == c) || forced.contains c || (s.chans.get c).force.isSome
  forAll (fins 48) s fun s c => if given c then modChan s c fun x => { x with held := x.base } else s

/-- The vote at a commit cannot be made (R230): fewer than two copies, or two that differ. -/
def voteFails (s : State) (present : LaneId → Bool) (outs : List (ChanDecl × Binding)) : Bool :=
  decide (((voters s).filter present).length < 2) || outs.any fun o => (voteBit (copiesOf s present o.2)).isNone

/-- A commit instant in RUN at the boundary just passed (R25, R229, R230, R240, R241). `silent`: the lanes whose link frame is
silent. -/
def commitRun (s : State) (silent : Lanes Bool) : State :=
  let ds := committing s s.tide
  if ds.isEmpty then s
  else
    let here := (voters s).filter fun l => !silent.get l && imageWhole s ds l
    let present (l : LaneId) : Bool := here.contains l
    let outs := outsOf s ds
    if benchMode s then routesCommit (sendCommit (settleCommit s ds) ds) ds
    else
      let fails := voteFails s present outs
      let minors := if fails then (voters s).filter fun l => !present l else chMinors s present outs
      let s := forAll minors s fun s l => modLane s l fun x => { x with chMin := x.chMin.inc, chBad := true }
      if fails then enterStopped (settleCommit s ds) none
      else routesCommit (sendCommit (settleCommit (giveOutputs s present outs) ds) ds) ds

/-- The receive windows of the tide that ends in which no frame was accepted (R267, R278, R288); its windows are done. -/
def missWindows (s : State) : State :=
  forAll vehiclePorts s fun s p =>
    let missed := ((ttWindows s p true).filter fun w => !(port s p).accepted.contains w.1.win).length
    modPort s p fun x => { x with pmiss := x.pmiss.addN missed, accepted := [], sent := [] }

/-- A boundary passes for the received values (R197). -/
def ageReceived (s : State) : State :=
  modNet s fun n => { n with rx := n.rx.map fun r => { r with pendAge := r.pendAge + 1, m := r.m + 1 } }

/-- The next tide boundary is reached (R189, R360): the clock has taken the ticks that were left until then, at its rate correction; no tide
is skipped. -/
def toBoundary (s : State) : State :=
  let t := s.tide + 1
  let n := ticksTo s.time.clock (t * 250000)
  { s with up := s.up + 8 * n, tide := t, tideUp := s.tideUp + 1, time := { s.time with clock := clockRun s.time.clock n } }

/-- The signatures of the last boundary are done with; a boundary at which nothing commits forms none, nor one at which a classified fault stops
the controller (R237, R646). -/
def noSignatures (s : State) : State := { s with lanes := s.lanes.map fun _ x => { x with sig := none } }

/-- In RUN: the stop that is due, or the commit. -/
def runCommit (s : State) (silent : Lanes Bool) : State :=
  match s.ctl.pendStop with
  | some p => if p.tide ≤ s.tide then enterStopped s p.fault else commitRun s silent
  | none => commitRun s silent

/-- The tide boundary. -/
def commitInstant (s : State) (silent : Lanes Bool) : State :=
  let s := noSignatures (ageReceived (missWindows (toBoundary s)))
  let s := match s.ctl.state with
    | .run => runCommit s silent
    | .service => applyForces s fun l => !silent.get l
    | _ => s
  timeBoundary (ringBoundary s)

end Sys2Proof.Machine
end

