-- ==== Sys2Proof/Machine/Release.lean ====
section
/-! DEFINITION. What a release does before the tasks are ready: the forced join, forces, online change, the retain capture
(06_cyclic_execution.md, R190, R204, R205, R209, R214, R217 to R222; 07_lanes_voting_and_lockstep.md, R255, R257). -/

namespace Sys2Proof.Machine

/-- The tasks released at the boundary just passed, but for those released at it already (R190). -/
def releasing (s : State) : List TaskDecl :=
  (tasksInOrder (setup s)).filter fun d =>
    let r := relOf s d.pair d.task
    s.tide % 2 ^ d.k == 0 && decide (s.ctl.runTide ≤ s.tide) && !(r.live && r.endTide == s.tide + 2 ^ d.k)

/-- The discard of an unfinished work item at the release after a JOIN: event 0x0C09 (R257). -/
def dropItems (s : State) (l : LaneId) (p : PairId) : State :=
  let drop (s : State) (odd : Bool) : State :=
    let u := if odd then (pair s l p).odd else (pair s l p).even
    if u.active then
      record (modCore s { lane := l, pair := p, odd := odd, fetch := .none, data := .none } fun u => { u with active := false, wait := none })
        0x0C09 (d1 (laneNo l) ++ d1 p.val ++ d1 (b2n odd))
    else s
  drop (drop s false) true

/-- A timed release on a split pair forces a join (R255); the cores keep their banks and accesses where the pair is to split
again (R256), else their work items are discarded (R257). -/
def forceJoin (s : State) (l : LaneId) (p : PairId) : State :=
  let q := pair s l p
  if q.split then
    let s := modPair s l p fun q => { q with split := false }
    if q.resume then s else dropItems s l p
  else s

/-- Bytes written to a section of a task in every lane that the tide movers serve. -/
def putServed (s : State) (d : TaskDecl) (k : SectKind) (off : Nat) (b : List Byte) : State :=
  let a := (sectRange (setup s) d k).1 + off
  forAll (servedLanes s) s fun s l => bankWrite s l d.pair a b

/-- The slot of a task's section as the lead lane holds it. -/
def slotNow (s : State) (d : TaskDecl) (k : SectKind) (off : Nat) (tagged : Bool) : Word × Byte :=
  match leadLane s with
  | none => (0, 0)
  | some l => slotAt tagged (sectRead s l d k) off

/-- An RW force at a release of its task: the slot receives the forced value and the underlying value is kept, or, after the
force has ended, the slot receives the underlying value (R209, R214). -/
def applyRw (s : State) (d : TaskDecl) (f : Force) : State × Option Force :=
  match f.item with
  | .slot k p t off tagged =>
    if (k = .ret ∨ k = .work) ∧ p = d.pair ∧ t = d.task ∧ f.active then
      if f.ended then
        match f.under with
        | some u => (putServed s d k off (slotBytes tagged u.1 u.2), none)
        | none => (s, none)
      else
        let u := f.under.getD (slotNow s d k off tagged)
        (putServed s d k off (slotBytes tagged f.value forcedTag), some { f with under := some u })
    else (s, some f)
  | _ => (s, some f)

/-- The RW forces of a released task. -/
def rwForces (s : State) (d : TaskDecl) : State :=
  let r := s.ctl.forces.foldl (fun x f =>
    let y := applyRw x.1 d f
    (y.1, x.2 ++ y.2.toList)) (s, [])
  { r.1 with ctl := { r.1.ctl with forces := r.2 } }

/-- The bytes that an item writes (R217). -/
def itemBytes (i : OlcItem) : List Byte :=
  match i.target with
  | .kWord _ _ => wordBytes i.value
  | .word _ _ _ _ => wordBytes i.value
  | .tagged _ _ _ _ => slotBytes true i.value 0x90
  | .bit _ _ _ _ => slotBytes false i.value 0x90

/-- Section, pair, task and byte offset of an item in RET or WORK. -/
def itemPlace (i : OlcItem) : Option (SectKind × PairId × TaskId × Nat) :=
  match i.target with
  | .kWord _ _ => none
  | .word k p t o => some (k, p, t, o)
  | .tagged k p t o => some (k, p, t, o)
  | .bit k p t o => some (k, p, t, o)

/-- The bytes of a forced slot that `n` bytes at `off` of the same section meet. -/
def meets (off n foff : Nat) (tagged : Bool) : Bool := decide (off < foff + (if tagged then 8 else 4)) && decide (foff < off + n)

/-- An RW force in effect on a slot that an item meets (R220). -/
def masking (k : SectKind) (p : PairId) (t : TaskId) (off n : Nat) (f : Force) : Bool :=
  match f.item with
  | .slot k' p' t' foff tagged => k' == k && p' == p && t' == t && f.under.isSome && meets off n foff tagged
  | _ => false

/-- The underlying value of a forced slot with the bytes that an item gives it (R220). -/
def underWith (off : Nat) (b : List Byte) (f : Force) : Force :=
  match f.item, f.under with
  | .slot _ _ _ foff tagged, some u =>
    let img := List.replicate off 0 ++ b
    let old := slotBytes tagged u.1 u.2
    let new := old.zipIdx.map fun x =>
      let a := foff + x.2
      if off ≤ a ∧ a < off + b.length then img.getD a 0 else x.1
    { f with under := some (slotAt tagged new 0) }
  | _, _ => f

/-- An item in RET or WORK takes effect: forced slots stay and their underlying values change (R219, R220). -/
def effectItem (s : State) (d : TaskDecl) (k : SectKind) (off : Nat) (b : List Byte) : State × Bool :=
  let hit := s.ctl.forces.filter (masking k d.pair d.task off b.length)
  let old := match leadLane s with
    | some l => bankRead s l d.pair ((sectRange (setup s) d k).1 + off) b.length
    | none => b
  let bytes := (b.zip old).zipIdx.map fun x =>
    let a := off + x.2
    if hit.any fun f => match f.item with | .slot _ _ _ foff tagged => meets a 1 foff tagged | _ => false then x.1.2 else x.1.1
  let s := if hit.isEmpty then putServed s d k off b
    else if bytes = old then s else putServed s d k off bytes
  let fs := s.ctl.forces.map fun f => if masking k d.pair d.task off b.length f then underWith off b f else f
  ({ s with ctl := { s.ctl with forces := fs } }, !hit.isEmpty)

/-- The named tide of a request has come (R219, compared under R49). -/
def tideCome (s : State) (named : Word) : Bool :=
  let now := BitVec.ofNat 32 s.tide
  now == named || later now named

/-- Every task of a pair is released at this instant (R219). -/
def wholePair (s : State) (ds : List TaskDecl) (p : PairId) : Bool :=
  (setup s).tasks.all fun d => d.pair != p || ds.any fun x => x.pair == d.pair && x.task == d.task

/-- A K item takes effect in every served lane (R219). -/
def effectK (s : State) (p : PairId) (off : Nat) (v : Word) : State :=
  forAll (servedLanes s) s fun s l => bankWrite s l p ((layout s p).code + off) (wordBytes v)

/-- The K word at an offset, as the lead lane holds it. -/
def kNow (s : State) (p : PairId) (off : Nat) : Word :=
  match leadLane s with
  | none => 0
  | some l => wordAt (bankRead s l p ((layout s p).code + off) 4) 0

/-- The value at a place of RET or WORK: the underlying one of a forced slot, else what the lead lane holds. -/
def valueNow (s : State) (d : TaskDecl) (k : SectKind) (off n : Nat) : Word :=
  match (s.ctl.forces.find? (masking k d.pair d.task off n)).bind (·.under), leadLane s with
  | some u, _ => u.1
  | none, some l => wordAt (bankRead s l d.pair ((sectRange (setup s) d k).1 + off) 4) 0
  | none, none => 0

/-- The change-log entry of an item (R570): request, item, old and new value. -/
def logItem (s : State) (r : OlcReq) (i : Nat) (old new : Word) (o : OlcOutcome) : State :=
  logChange s (some (r.role, r.iface, r.ip)) 0x0030 (outcomeNo o) [r.num, BitVec.ofNat 32 i, old, new]

/-- An item of a request whose tide has come, at a release of `ds` (R219 to R222). -/
def reachItem (s : State) (ds : List TaskDecl) (r : OlcReq) (n : Nat) (i : OlcItem) : State × OlcItem :=
  if i.outcome ≠ .pending then (s, i)
  else
    match i.target with
    | .kWord p off => if wholePair s ds p then (effectK s p off i.value, { i with old := kNow s p off, outcome := .inEffect }) else (s, i)
    | _ =>
      match itemPlace i with
      | none => (s, i)
      | some (k, p, t, off) =>
        match ds.find? fun d => d.pair = p ∧ d.task = t with
        | none => (s, i)
        | some d =>
          let was := valueNow s d k off (itemBytes i).length
          let e := effectItem s d k off (itemBytes i)
          let o : OlcOutcome := if e.2 then .masked else .applied
          (logItem (recordItem e.1 r.num n o) r n was i.value o, { i with old := was, outcome := o })

/-- The items of one request at a release. -/
def reachReq (s : State) (ds : List TaskDecl) (r : OlcReq) : State × OlcReq :=
  if tideCome s r.tide then
    let x := r.items.zipIdx.foldl (fun x p =>
      let y := reachItem x.1 ds r p.2 p.1
      (y.1, x.2 ++ [y.2])) (s, [])
    (x.1, { r with items := x.2 })
  else (s, r)

/-- The requests at a release; one with no item left pending has taken effect (R219, SV_OLC). -/
def reachOlcs (s : State) (ds : List TaskDecl) : State :=
  let x := s.ctl.olcs.foldl (fun x r =>
    let y := reachReq x.1 ds r
    (y.1, x.2 ++ [y.2])) (s, [])
  let whole (r : OlcReq) : Bool := r.items.all fun i => i.outcome != .pending
  let done := x.2.filter whole
  let s := { x.1 with ctl := { x.1.ctl with olcs := x.2.filter fun r => !whole r, olcDone := x.1.ctl.olcDone ++ done } }
  match done.getLast? with
  | none => s
  | some r => { s with ctl := { s.ctl with olcLast := 2, olcMasked := r.items.any fun i => i.outcome == .masked } }

/-- The retain capture of a released task: its first release in the cycle (R204, R205). -/
def captureTask (s : State) (d : TaskDecl) : State :=
  let r := s.ctl.retain
  match r.src with
  | some l =>
    if r.busy && !r.full && !(r.caps.any fun c => c.1 == d.pair && c.2.1 == d.task) then
      setRetain s { r with caps := r.caps ++ [(d.pair, d.task, retCapture s l d)] }
    else s
  | none => s

end Sys2Proof.Machine
end

