-- ==== Sys2Proof/Machine/Freeze.lean ====
section
/-! DEFINITION. The freeze and the process input images (06_cyclic_execution.md, R192, R193, R196 to R198, R209;
08_vehicle_network.md, R279, R280; 11_ashlar_safe_layer.md, R389 to R393; 13_field_channels.md, R435 to R438). -/

namespace Sys2Proof.Machine

/-- The lapse row of R392, before the instance of the release is checked. -/
def lapse (s : State) (n : Nat) (c : ConnDecl) : State :=
  let a := connSt s n
  if lapses a c (releaseNow s) then
    record (modConn s n fun a => { a with st := .lapsed }) 0x0712 (d4 c.connId.toNat ++ d4 a.seq.toNat)
  else s

/-- PI tag positions of a task, within a bound payload (R279). -/
def boundTags (s : State) (b : Binding) (n : Nat) : List Nat :=
  (((tagMap s b.pair b.task).map (·.pi)).getD []).filterMap fun a => if b.off ≤ a ∧ a < b.off + n then some (a - b.off) else none

/-- Bytes with the tags at some positions changed. -/
def mapTags (pos : List Nat) (f : Byte → Byte) (b : List Byte) : List Byte :=
  b.zipIdx.map fun x => if pos.contains x.2 then f x.1 else x.1

/-- A tag without SAFE. -/
def noSafe (t : Byte) : Byte := t &&& 0xEF

/-- An instance becomes the latest good one (R197, R280, R303, R393): SAFE stays only on a connection, and outside holdover. -/
def keepGood (s : State) (pos : Nat) (b : Binding) (conn : Bool) (i : RxInst) : State :=
  let p := if conn && !s.time.hold then i.payload else mapTags (boundTags s b i.payload.length) noSafe i.payload
  setRx s pos fun r => { r with good := some p, m := r.pendAge - 1 }

/-- A receive SLOT at a release of its task (R196, R392): the lapse row, then the instance frozen, which has passed its checks as it
arrived. -/
def freezeSlot (s : State) (d : SlotDecl) (b : Binding) : State :=
  let pos := slotPos (setup s) d
  let conn := connOfSlot (setup s) d true
  let s := match conn with
    | some c => lapse s c.1 c.2
    | none => s
  match (s.net.rx[pos]?).bind (·.pend) with
  | none => s
  | some i =>
    let s := match conn with
      | some c => acceptInst s c.1 c.2 i
      | none => s
    setRx (keepGood s pos b conn.isSome i) pos fun r => { r with pend := none }

/-- The receive SLOTs, route or frame, of the released tasks. -/
def receiving (s : State) (ds : List TaskDecl) : List (SlotDecl × Binding) :=
  (setup s).slots.filterMap fun d =>
    match d.bind with
    | some b => if d.rx && ds.any (fun x => x.pair == b.pair && x.task == b.task) then some (d, b) else none
    | none => none

def isRoute (d : SlotDecl) : Bool := match d.kind with | .route => true | _ => false

/-- The freeze of the received values (R22, R196). -/
def freezeAll (s : State) (ds : List TaskDecl) : State :=
  forAll (receiving s ds) s fun s x => if isRoute x.1 then s else freezeSlot s x.1 x.2

/-- A delivered tag (R197): age raised by m, VALID beyond AGELIM, SAFE beyond the time expectation. -/
def deliverTag (agelim m : Nat) (te : Option Nat) (f : Byte) : Byte :=
  let age := min 15 ((tagAge f).toNat + m)
  let safe := tagSafe f && (match te with | some e => decide (m * 250 ≤ e) | none => true)
  mkTag (tagValid f && decide (age ≤ agelim)) (tagForced f) (tagSubst f) safe age

/-- A value never received (R197, R198): zeros with tag 0x0F. -/
def neverGood (pos : List Nat) (n : Nat) : List Byte := mapTags pos (fun _ => 0x0F) (List.replicate n 0)

/-- The bytes of a receive SLOT as they are delivered (R197). -/
def slotBytesAt (s : State) (d : SlotDecl) (b : Binding) : List Byte :=
  let tags := boundTags s b d.bound
  match s.net.rx[slotPos (setup s) d]? with
  | none => neverGood tags d.bound
  | some r =>
    match r.good with
    | none => neverGood tags d.bound
    | some p => mapTags tags (deliverTag d.agelim r.m ((connOfSlot (setup s) d true).map fun c => c.2.time)) p

/-- The image of a route that the lanes last committed: the one of two lanes that agree, else of the first that has one. -/
def routeImage (s : State) (b : Binding) (n : Nat) : Option (List Byte) :=
  let imgs := (voters s).filterMap fun l => if (taskRun s l b.pair b.task).com.isSome then some (comBytes s l b n) else none
  ((imgs.find? fun x => decide (2 ≤ (imgs.filter fun y => y == x).length)).or imgs.head?)

/-- The bytes of an internal route as they are delivered (R169, R198). -/
def routeBytesAt (s : State) (d : SlotDecl) (b : Binding) : List Byte :=
  let tags := boundTags s b d.bound
  let src := ((setup s).slots.find? fun x => isRoute x && !x.rx && x.slotId == d.slotId).bind (·.bind)
  match src with
  | none => neverGood tags d.bound
  | some f =>
    if (relOf s f.pair f.task).committed then
      match routeImage s f d.bound with
      | some p => mapTags tags (deliverTag d.agelim 0 none) p
      | none => neverGood tags d.bound
    else neverGood tags d.bound

/-- The CHIN force of a channel. -/
def chinForce (s : State) (c : Chan) : Option Word :=
  (lastForce s (.chin c)).map (·.value)

/-- What a channel delivers (R209, R435, R437, R438): a bit or a count with its tag. -/
def channelBytes (s : State) (kind : ChanKind) (c : Chan) : List Byte :=
  let x := s.chans.get c
  let counter := kind == .counter
  match chinForce s c with
  | some v => slotBytes counter v forcedTag
  | none => if counter then slotBytes true x.count 0x90 else slotBytes false (bit (x.acc && !x.silent) 0) 0x90

/-- The timestamp slot of a channel (R209, R373, R436); a force holds its last value. -/
def stampBytes (s : State) (c : Chan) (old : Word) : List Byte :=
  let x := s.chans.get c
  match chinForce s c with
  | some _ => slotBytes true old forcedTag
  | none => slotBytes true (if x.silent then 0 else x.stamp) (if convBit s then 0x80 else 0x90)

/-- One piece of a PI image: where it goes, its bytes, and the set-up instruction that binds it. -/
structure Piece where
  off   : Nat
  bytes : List Byte
  idx   : Nat
  deriving DecidableEq, Repr

/-- The pieces that a channel binding gives a task. -/
def chanPieces (s : State) (d : TaskDecl) (old : List Byte) (kind : ChanKind) (c : Chan) (b : Option Binding) (idx : Nat) : List Piece :=
  match b with
  | some b =>
    if b.pair = d.pair ∧ b.task = d.task ∧ kind ≠ .output then
      ⟨b.off, channelBytes s kind c, idx⟩ :: (if b.tse then [⟨b.off + 8, stampBytes s c (wordAt old (b.off + 8)), idx⟩] else [])
    else []
  | none => []

/-- The frozen inputs of a task. -/
def pieces (s : State) (d : TaskDecl) (old : List Byte) : List Piece :=
  let u := setup s
  (u.chans.flatMap fun c => chanPieces s d old c.kind c.ch c.bind c.idx) ++
    (u.addbs.flatMap fun a =>
      match chanKind s a.ch with
      | some k => chanPieces s d old k a.ch a.bind a.idx
      | none => []) ++
    (receiving s [d]).map fun x => ⟨x.2.off, if isRoute x.1 then routeBytesAt s x.1 x.2 else slotBytesAt s x.1 x.2, x.1.idx⟩

/-- A piece whose value reads uncorrectable in Quay arrives as zeros with tag 0x00 (R515). -/
def spoil (bad : List Nat) (x : Piece) : Piece := if bad.contains x.idx then { x with bytes := x.bytes.map fun _ => 0 } else x

/-- The PI forces of a task over its image (R209). -/
def piForced (s : State) (d : TaskDecl) (b : List Byte) : List Byte :=
  s.ctl.forces.foldl (fun b f =>
    match f.item with
    | .slot .pi p t off tagged =>
      if inForce s f && p == d.pair && t == d.task then putBytes b off (slotBytes tagged f.value forcedTag) else b
    | _ => b) b

/-- The process input image of a released task, one for every lane (R193). -/
def piImage (s : State) (d : TaskDecl) (bad : List Nat) : List Byte :=
  let n := (sectRange (setup s) d .pi).2
  let old := match leadLane s with
    | some l => sectRead s l d .pi
    | none => []
  piForced s d (((pieces s d old).map (spoil bad)).foldl (fun b x => putBytes b x.off x.bytes) (List.replicate n 0))

/-- An activation as its release leaves it in a lane (R53, R61). -/
def freshRun (d : TaskDecl) (x : TaskRun) : TaskRun :=
  { x with bank := resetBank d.entry, phase := .released, exc := none, sigs := [], cycles := 0, lifted := none }

/-- The release of a task: its image written, its activation begun (R22, R23). -/
def startTask (s : State) (d : TaskDecl) (img : List Byte) : State :=
  let s := forAll (servedLanes s) s fun s l => sectWrite s l d .pi img
  let s := forAll (timedLanes s) s fun s l =>
    modPair (modTask s l d.pair d.task (freshRun d)) l d.pair fun q =>
      { q with active := if q.active = some d.task then none else q.active }
  let begin (r : Rel) : Rel :=
    { r with now := releaseNow s, tide := BitVec.ofNat 32 s.tide, endTide := s.tide + 2 ^ d.k, live := true }
  { s with ctl := { s.ctl with rel := vmod s.ctl.rel d.pair fun v => vmod v d.task begin } }

/-- The tide movers meet an uncorrectable value in Quay's system area (R515, assumption log entry 22). -/
def meetBad (s : State) (ds : List TaskDecl) (bad : List Nat) : State :=
  let used := ds.flatMap fun d => (pieces s d []).map (·.idx)
  forAll (used.eraseDups.filter fun i => bad.contains i) s fun s i => eccBad s .quay (Config.systemArea i) .tideMover

/-- A release instant (R22, R190 to R193). -/
def release (s : State) (bad : List Nat) : State :=
  let ds := releasing s
  if ds.isEmpty then s
  else
    let ps := (ds.map (·.pair)).eraseDups
    let s := forAll ps s fun s p => forAll laneList s fun s l => forceJoin (wake s (.cores l p)) l p
    let s := forAll ds s rwForces
    let s := reachOlcs s ds
    let s := forAll ds s captureTask
    let s := freezeAll s ds
    let s := meetBad s ds bad
    let imgs := ds.map fun d => (d, piImage s d bad)
    forAll imgs s fun s x => startTask s x.1 x.2

end Sys2Proof.Machine
end

