-- ==== Sys2Proof/Machine/Cyclic.lean ====
section
/-! DEFINITION. The commands of a tide: deadline, classification, lift, commit, release, signatures, judgement, forces
(01, R22 to R26; 02, R83, R86 to R89; 06; 07, R229 to R241, R250 to R253). -/

namespace Sys2Proof.Machine

/-- No error-correcting code is met. -/
def cleanCtx (l : LaneId) (p : PairId) : Ctx := { lane := l, pair := p, odd := false, fetch := .none, data := .none }

/-- DEADLINE_OVERRUN (R83): an activation that has not completed DONE when the output window opens raises EX_OVERRUN. -/
def execDeadlineOverrun (l : LaneId) (p : PairId) (t : TaskId) (s : State) : Host.Outcome State Fault Refusal :=
  let x := taskRun s l p t
  let r := relOf s p t
  if s.ctl.state == .run && runsTimed s l && r.live && decide (r.endTide ≤ s.tide + 1) && (x.phase == .released || x.phase == .ready) then
    .next (raiseExc s ⟨cleanCtx l p, some t, x.bank⟩ 0 .overrun 0 0)
  else .next s

/-- EXCEPTION_CLASSIFY (R86 to R89, R646): once every voting lane has posted its record, or at the commit instant. -/
def execExceptionClassify (p : PairId) (t : TaskId) (atCommit : Bool) (s : State) : Host.Outcome State Fault Refusal :=
  let r := relOf s p t
  let due := if atCommit then decide (r.endTide ≤ s.tide + 1) else (voters s).all fun l => (taskRun s l p t).exc.isSome
  .next (if s.ctl.state == .run && r.live && due then classify s p t else s)

/-- OUTPUT_WINDOW (R24, R193, R194). -/
def execOutputWindow (bad : Lanes Bool) (s : State) : Host.Outcome State Fault Refusal :=
  .next (if awake s && s.ctl.state == .run then liftAll s bad else s)

/-- COMMIT_INSTANT (R25, R189): the tide boundary. -/
def execCommitInstant (silent : Lanes Bool) (s : State) : Host.Outcome State Fault Refusal :=
  .next (if awake s then commitInstant s silent else s)

/-- TASK_RELEASE (R22, R190). -/
def execTaskRelease (bad : List Nat) (s : State) : Host.Outcome State Fault Refusal :=
  .next (if awake s && s.ctl.state == .run then release s bad else s)

/-- Every released activation of a lane becomes ready, and its pairs take up their best task (R23, R61, R62). -/
def readyLane (s : State) (l : LaneId) : State :=
  let s := modLane s l fun x =>
    { x with pairs := x.pairs.map fun q => { q with tasks := q.tasks.map fun t => if t.phase = .released then { t with phase := .ready } else t } }
  forAll (fins 8) s fun s p => reschedule s l p

/-- What is wrong with two comparators put together. -/
def addFault (a b : CompFault) : CompFault := { differ := a.differ || b.differ, deaf := a.deaf ||| b.deaf }

/-- Faults arise in the comparators X and Y of a pair (R253). -/
def hurtComps (s : State) (l : LaneId) (p : PairId) (x y : CompFault) : State :=
  modPair s l p fun q => { q with cmpX := addFault q.cmpX x, cmpY := addFault q.cmpY y }

/-- TASK_READY (R23, R61, R253): the end of the input window. `hurt` names the pairs in whose comparators faults have arisen; the test
that starts each activation finds them. -/
def execTaskReady (hurt : List (LaneId × PairId × CompFault × CompFault)) (s : State) : Host.Outcome State Fault Refusal :=
  if s.ctl.state = .run then
    let s := forAll hurt s fun s x => hurtComps s x.1 x.2.1 x.2.2.1 x.2.2.2
    .next (forAll (timedLanes s) s readyLane)
  else .next s

/-- The lane signature as the comparison sees it. -/
def sigSeen (s : State) (lost : Lanes Bool) (l : LaneId) : Option (BitVec 64) := if lost.get l then none else (lane s l).sig

/-- Lanes of a list that hold a signature equal to one. -/
def sigPeers (s : State) (lost : Lanes Bool) (vs : List LaneId) (g : BitVec 64) : List LaneId :=
  vs.filter fun l => sigSeen s lost l == some g

/-- The majority signature: the one that two lanes hold. -/
def sigMajority (s : State) (lost : Lanes Bool) (vs : List LaneId) : Option (BitVec 64) :=
  (vs.filterMap (sigSeen s lost)).find? fun g => decide (2 ≤ (sigPeers s lost vs g).length)

/-- The shadow run's comparison with the majority (R247, R248). -/
def shadowCompare (s : State) (lost : Lanes Bool) (g : BitVec 64) : State :=
  match s.rejoin.lane with
  | none => s
  | some l =>
    if s.rejoin.phase == .shadow && decide (s.rejoin.shadowStart < s.tide) then
      if sigSeen s lost l = some g then { s with rejoin := { s.rejoin with matched := s.rejoin.matched + 1 } } else rejoinFail s 0x0A
    else s

/-- The comparison of the signatures at a boundary (R238, R239). -/
def compareSigs (s : State) (lost : Lanes Bool) : State :=
  let vs := voters s
  if vs.length < 2 || vs.all fun l => (lane s l).sig.isNone then s
  else
    match sigMajority s lost vs with
    | none => if s.ctl.state = .run then enterStopped s none else s
    | some g =>
      let out := vs.filter fun l => sigSeen s lost l != some g
      shadowCompare (forAll out s fun s l => dropLane s l 0x05 0 0) lost g

/-- SIGNATURE_COMPARE (R26, R237, R238). The signatures are used up. -/
def execSignatureCompare (lost : Lanes Bool) (s : State) : Host.Outcome State Fault Refusal :=
  let s := compareSigs s lost
  .next { s with lanes := s.lanes.map fun _ x => { x with sig := none } }

/-- One lane judged for a boundary (R240). -/
def judgeLane (s : State) (l : LaneId) : State :=
  let x := lane s l
  if x.chBad || x.egBad then
    let kept := s.tideUp :: x.charges.filter fun t => decide (s.tideUp < t + 256)
    let s := modLane s l fun x => { x with charges := kept }
    if 4 ≤ kept.length then dropLane s l 0x07 0 0 else s
  else s

/-- OUTPUT_PATH_JUDGE (R240): the end of a tide. -/
def execOutputPathJudge (s : State) : Host.Outcome State Fault Refusal :=
  let s := forAll (voters s) s judgeLane
  .next { s with lanes := s.lanes.map fun _ x => { x with chBad := false, egBad := false } }

/-- LOCKSTEP_WINDOW_CLOSE (R250 to R252): the comparators compare the registers of the window that has closed. `lerr` and `cerr` are what
a fault of one core has flipped in its register, `fx` and `fy` what is now wrong with the comparators. A lane that has dropped at this
instant may meet a further cause (R243). -/
def execLockstepWindowClose (l : LaneId) (p : PairId) (lerr cerr : BitVec 64) (fx fy : CompFault) (s : State) :
    Host.Outcome State Fault Refusal :=
  let q := pair s l p
  let seen := if fellNow s l then some (q.leader, q.checker) else if runsTimed s l then q.closed else none
  match seen with
  | none => .next s
  | some (a, b) =>
    match windowCause (addFault q.cmpX fx) (addFault q.cmpY fy) (a ^^^ lerr) (b ^^^ cerr) with
    | some k => .next (laneFails s l k p.val 0)
    | none => .next (modPair (hurtComps s l p fx fy) l p fun q => { q with closed := none })

/-- A binding word with TSE 0. -/
def bindWord (p : PairId) (t : TaskId) (off : Nat) : Word := put p.val 29 3 ||| put t.val 25 4 ||| put off 0 24

/-- KIND of a force item (R566). -/
def forceKind : ForceItem → Nat
  | .chin _ => 1
  | .slot .pi _ _ _ _ => 2
  | .slot .pq _ _ _ _ => 3
  | .chout _ => 4
  | .slot .ret _ _ _ _ => 5
  | .slot .work _ _ _ _ => 5

/-- The item as event 0x0C06 names it, a channel or a binding word: a field of four bytes (R604). -/
def forceLoc : ForceItem → List Byte
  | .chin c => d4 c.val
  | .chout c => d4 c.val
  | .slot _ p t off _ => d4 (bindWord p t off).toNat

def recordForce (s : State) (i : ForceItem) (eff : Nat) : State := record s 0x0C06 (d1 (forceKind i) ++ forceLoc i ++ d4 eff)

/-- A force whose effect tide has come replaces an earlier one on its item, whose underlying value it keeps (R213, R214, R566). -/
def activateForce (fs : List Force) (f : Force) : List Force :=
  let old := fs.find? fun x => x.active && x.item == f.item
  (fs.filter fun x => !(x.active && x.item == f.item) && x != f) ++ [{ f with active := true, under := old.bind (·.under) }]

/-- The forces whose effect tide has come, oldest first. -/
def startForces (s : State) : State :=
  forAll (s.ctl.forces.filter fun f => !f.active && decide (f.eff ≤ s.tide)) s fun s f =>
    recordForce { s with ctl := { s.ctl with forces := activateForce s.ctl.forces f } } f.item f.eff

/-- The removals whose effect tide has come; an RW force stays until its slot has its underlying value again (R214). -/
def endForces (s : State) : State :=
  forAll s.ctl.forces s fun s f =>
    match f.endAt with
    | some t =>
      if f.active && !f.ended && decide (t ≤ s.tide) then
        let keep := if f.under.isSome then [{ f with ended := true }] else []
        recordForce { s with ctl := { s.ctl with forces := s.ctl.forces.flatMap fun x => if x = f then keep else [x] } } f.item t
      else s
    | none => s

/-- FORCE_EFFECT (R213, R215, R216). -/
def execForceEffect (s : State) : Host.Outcome State Fault Refusal :=
  if awake s then
    let s := endForces (startForces s)
    .next (if s.ctl.state = .service then applyForces s (fun _ => true) else s)
  else .next s

/-- The overlay of settings with a word (R222, R578). -/
def overlayWith (f : Settings) (p : PairId) (off : Nat) (v : Word) : Settings :=
  { f with overlay := (p, off, v) :: f.overlay.filter fun x => !(x.1 == p && x.2.1 == off) }

/-- A request with one item changed. -/
def withItem (r : OlcReq) (n : Nat) (f : OlcItem → OlcItem) : OlcReq := { r with items := modAt r.items n f }

/-- K_OVERLAY_WRITE_DONE (R222): the overlay and the log hold a K item that has taken effect; only then is it applied. -/
def execKOverlayWriteDone (req : Word) (item : Nat) (s : State) : Host.Outcome State Fault Refusal :=
  match (s.ctl.olcs ++ s.ctl.olcDone).find? fun r => r.num = req with
  | none => .next s
  | some r =>
    match r.items[item]? with
    | none => .next s
    | some i =>
      match i.target, i.outcome with
      | .kWord p off, .inEffect =>
        let s := writeSettings s s.boot.bank fun g => overlayWith g p off i.value
        let set (l : List OlcReq) : List OlcReq := l.map fun x => if x.num = req then withItem x item fun i => { i with outcome := .applied } else x
        let s := { s with ctl := { s.ctl with olcs := set s.ctl.olcs, olcDone := set s.ctl.olcDone } }
        .next (logItem (recordItem s req item .applied) r item i.old i.value .applied)
      | _, _ => .next s

/-- RETAIN_CYCLE_START (R204, R225). -/
def execRetainCycleStart (s : State) : Host.Outcome State Fault Refusal :=
  let r := s.ctl.retain
  if awake s && s.ctl.state == .run && s.tide % 64 == 0 && !r.busy then
    match leadLane s with
    | some l => .next (setRetain s { r with busy := true, full := false, src := some l, caps := [] })
    | none => .next s
  else .next s

/-- Every timed task has been captured (R206). -/
def allCaptured (s : State) : Bool :=
  (setup s).tasks.all fun d => s.ctl.retain.caps.any fun c => c.1 == d.pair && c.2.1 == d.task

/-- RETAIN_CAPTURES_COMPLETE (R206 steps 1 to 3): the body and the record of the other buffer, MARK 0x00. -/
def execRetainCapturesComplete (s : State) : Host.Outcome State Fault Refusal :=
  let r := s.ctl.retain
  if awake s && r.busy && !r.full && allCaptured s then
    let s := writeBody s r.caps
    .next (setRetain s { s.ctl.retain with full := true })
  else .next s

/-- RETAIN_WRITE_DONE (R206 step 4): MARK 0xC3 ends the cycle. -/
def execRetainWriteDone (s : State) : Host.Outcome State Fault Refusal :=
  let r := s.ctl.retain
  if awake s && r.busy && r.full then
    let s := markBuf s (retTarget r)
    .next (abandonRetain s)
  else .next s

end Sys2Proof.Machine
end

