-- ==== Sys2Proof/Machine/FabricCmds.lean ====
section
/-! DEFINITION. The commands of the arbiters and of the scrubber (15_fabric_arbitration_and_memory.md). -/

namespace Sys2Proof.Machine

/-- The requesters after the last winner, in round-robin order. -/
def roundRobin (last : Fin 14) : List (Fin 14) := (List.range 14).map fun i => Fin.ofNat 14 (last.val + 1 + i)

/-- The winner of a contest among the requests `req` (R500): a full WAIT before priority, round-robin within each. -/
def winner (a : Arbiter) (req : Fin 14 → Bool) : Option (Fin 14) :=
  let rr := (roundRobin a.last).filter req
  match rr.find? fun q => a.wait.get q = 8 with
  | some q => some q
  | none =>
    let top := (rr.map fun q => (a.pri.get q).toNat).foldl max 0
    rr.find? fun q => (a.pri.get q).toNat = top

/-- One more contest lost; WAIT sticks at 8. -/
def waitMore (w : Fin 9) : Fin 9 := if h : w.val + 1 < 9 then ⟨w.val + 1, h⟩ else w

/-- The arbiter after a contest. -/
def contest (a : Arbiter) (req : Fin 14 → Bool) : Arbiter :=
  match winner a req with
  | none => { a with holder := none }
  | some w =>
    { a with wait := Vector.ofFn fun q => if q = w then 0 else if req q then waitMore (a.wait.get q) else a.wait.get q,
             holder := some w, last := w }

/-- ARBITER_CONTEST (R500, R502): the Quay arbiter, or the bridge's. -/
def execArbiterContest (a : Bool) (reqs : BitVec 14) (s : State) : Host.Outcome State Fault Refusal :=
  let req (q : Fin 14) : Bool := reqs.getLsbD q.val && requester a q.val && !masked s q
  if a then .next { s with fab := { s.fab with bridgeArb := contest s.fab.bridgeArb req } }
  else .next { s with fab := { s.fab with quayArb := contest s.fab.quayArb req } }

/-- The damage of a memory, where the model keeps one. -/
def dmgOf (s : State) : MemId → Damage
  | .lane l => (lane s l).dmg
  | .quay => s.quayDmg
  | .mram => s.mramDmg
  | _ => []

def setDmg (s : State) (m : MemId) (d : Damage) : State :=
  match m with
  | .lane l => modLane s l fun x => { x with dmg := d }
  | .quay => { s with quayDmg := d }
  | .mram => { s with mramDmg := d }
  | _ => s

/-- The first byte of the word that a memory's code covers: 32 bits, in MRAM 64 (R509). -/
def wordStart (m : MemId) (a : Nat) : Nat := if m = .mram then a / 8 * 8 else a / 4 * 4

/-- The address-table entry of an address remembers a write-back of the scrubber (R513). -/
def markScrubbed (s : State) (m : MemId) (a : Nat) : State :=
  let e := eccGet s m
  eccPut s m { e with table := e.table.map fun t => if t.valid && t.addr == BitVec.ofNat 32 a then { t with scrubbed := true } else t }

/-- An uncorrectable word in the body of a retain buffer makes the buffer unusable (R206, R207, R515). -/
def spoilRetain (s : State) (m : MemId) (a : Nat) : State :=
  let r := s.ctl.retain
  if m = .mram ∧ a < 0x80000 then { s with ctl := { s.ctl with retain := { r with buf0 := { r.buf0 with bad := true } } } }
  else if m = .mram ∧ a < 0x100000 then { s with ctl := { s.ctl with retain := { r with buf1 := { r.buf1 with bad := true } } } }
  else s

/-- A sector of the circulating area that reads uncorrectable is skipped from then on (R607, R612). -/
def spoilCirc (rc : Recorder) (k : Nat) : Recorder :=
  if k < 0x30100 ∨ 0x31200 ≤ k then rc
  else { rc with circ := rc.circ.set ((k - 0x30100 + 4352 - 256 * rc.block.val) % 4352) none }

/-- A flash sector found uncorrectable: counted, and what its store loses (R515, R516). -/
def flashBad (s : State) (d : BankId) (k : Nat) : State :=
  let m : MemId := match d with
    | .a => .f1
    | .b => .f2
  let s := modBank (eccBad s m (512 * k) .scrubber) d fun b => spoilFlash b k
  match d with
  | .a => { s with rc := spoilCirc s.rc k }
  | .b => s

/-- The scrubber at a flash sector (R509, R516, R541): deferred from derating step 1 on. It first ends a rewrite under way; a sector with 4
or more corrected bits makes the steward begin one of its block. -/
def scrubFlash (s : State) (m : MemId) (d : BankId) (addr : Nat) (hit : Hit) (bits : Nat) : State :=
  let k := addr / 512
  if s.pw.dstep ≠ 0 ∨ 0x80000 ≤ k then s
  else
    let s := endRefresh (wake s .flash)
    if (bankOf s d).bad.contains k then flashBad s d k
    else
      match hit with
      | .none => s
      | .bad => flashBad s d k
      | .soft _ | .hard _ =>
        let s := eccCorrect s m (512 * k) 0
        if 4 ≤ bits ∧ stewardRuns s = true then { s with boot := { s.boot with refresh := some ⟨d, addr / 0x20000, bits⟩ } } else s

/-- SCRUB_READ (R509 to R513, R515, R516): a correctable word is written back, an uncorrectable one is left as it is. `bits` are the
corrected bits of a flash sector. -/
def execScrubRead (m : MemId) (addr : Nat) (hit : Hit) (bits : Nat) (s : State) : Host.Outcome State Fault Refusal :=
  if !awake s then .next s
  else if m = .f1 then .next (scrubFlash s m .a addr hit bits)
  else if m = .f2 then .next (scrubFlash s m .b addr hit bits)
  else
    let a := wordStart m addr
    let s := setDmg s m (dmgMeet (dmgOf s m) a hit)
    match dmgFind (dmgOf s m) a with
    | .none => .next s
    | .bad => .next (spoilRetain (eccBad s m a .scrubber) m a)
    | .soft b => .next (setDmg (markScrubbed (eccCorrect s m a b) m a) m (dmgCure (dmgOf s m) a))
    | .hard b => .next (markScrubbed (eccCorrect s m a b) m a)

/-- AR_PRI_WRITE (R35, R501, R503): the steward writes a priority; the AR_ interface wakes for it. -/
def execArPriWrite (a : Bool) (q : Fin 14) (pri : BitVec 4) (s : State) : Host.Outcome State Fault Refusal :=
  .next (if stewardRuns s && assigned a q.val then setPri (wake s (.regs 6)) a q pri else s)

end Sys2Proof.Machine
end

