-- ==== Sys2Proof/Machine/Flow.lean ====
section
/-! DEFINITION. The flow instructions (R57, R67, R99, R105 to R107, R128 to R130). -/

namespace Sys2Proof.Machine

/-- Execution continues at an address. -/
def jump (s : State) (b : Bank) (a : Word) : Act := .go s { b with pc := a } []


/-- BR: continues at the target (R99). -/
def execBr (x : Ctx) (f : FormD) (s : State) : Host.Outcome State Fault Refusal :=
  .next (runInstr x (isD 0x50 f) 2 (legalDA f) (fun s c => jump s c.bank (target c.bank f)) s)

/-- BT: continues at the target when Bs is 1; the tag is not read (R57, R128). -/
def execBt (x : Ctx) (f : FormD) (s : State) : Host.Outcome State Fault Refusal :=
  .next (runInstr x (isD 0x51 f) 2 (bitField f.a) (fun s c => jump s c.bank (if (rdB c.bank f.a).v then target c.bank f else c.bank.pc + 4)) s)

/-- BF: continues at the target when Bs is 0. -/
def execBf (x : Ctx) (f : FormD) (s : State) : Host.Outcome State Fault Refusal :=
  .next (runInstr x (isD 0x52 f) 2 (bitField f.a) (fun s c => jump s c.bank (if (rdB c.bank f.a).v then c.bank.pc + 4 else target c.bank f)) s)

/-- CALL: pushes the address that follows; a full return stack raises EX_STACK (R67, R128). -/
def execCall (x : Ctx) (f : FormD) (s : State) : Host.Outcome State Fault Refusal :=
  .next (runInstr x (isD 0x53 f) 3 (legalDA f) (fun s c =>
    if 8 ≤ c.bank.ret.length then .raise s .stack 0 0
    else jump s { c.bank with ret := (c.bank.pc + 4) :: c.bank.ret } (target c.bank f)) s)

/-- RET: continues at the address it pops; an empty return stack raises EX_STACK (R67, R128). -/
def execRet (x : Ctx) (f : FormD) (s : State) : Host.Outcome State Fault Refusal :=
  .next (runInstr x (isD 0x54 f) 3 (legalD0 f) (fun s c =>
    match c.bank.ret with
    | [] => .raise s .stack 0 0
    | a :: r => jump s { c.bank with ret := r } a) s)

/-- LOOP: pushes its count and the first word of its body (R105, R106). -/
def execLoop (x : Ctx) (f : FormD) (s : State) : Host.Outcome State Fault Refusal :=
  .next (runInstr x (isD 0x55 f) 2 (legalLoop f) (fun s c =>
    if 4 ≤ c.bank.loops.length then .raise s .stack 0 0
    else jump s { c.bank with loops := ⟨f.off.setWidth 16, c.bank.pc + 4⟩ :: c.bank.loops } (c.bank.pc + 4)) s)

/-- ENDL: back to the body until it has run COUNT times, then through (R106). -/
def execEndl (x : Ctx) (f : FormD) (s : State) : Host.Outcome State Fault Refusal :=
  .next (runInstr x (isD 0x56 f) 1 (legalD0 f) (fun s c =>
    match c.bank.loops with
    | [] => .raise s .stack 0 0
    | e :: r =>
      if 1 < e.count.toNat then jump s { c.bank with loops := { e with count := e.count - 1 } :: r } e.start
      else jump s { c.bank with loops := r } (c.bank.pc + 4)) s)

/-- The entry that JTAB selects: an index of N or more selects the last (R107). -/
def jtabIndex (v : Word) (n : Nat) : Nat := min v.toNat (n - 1)

/-- JTAB: a signed word offset from the table that follows it, relative to its own address (R107). -/
def execJtab (x : Ctx) (f : FormD) (s : State) : Host.Outcome State Fault Refusal :=
  .next (runInstr x (isD 0x57 f) 4 (legalJtab f) (fun s c =>
    let a := c.bank.pc + 4 + BitVec.ofNat 32 (4 * jtabIndex (rdW c.bank f.a).v (f.off.setWidth 16 : BitVec 16).toNat)
    match fetchCheck s c a.toNat x.data with
    | (s, some e) => .raise s e a 0
    | (s, none) =>
      jump s c.bank (c.bank.pc + 4 * memWord 0 (lane s c.x.lane).sram (fetchEc c a.toNat))) s)

/-- DONE: ends the activation, or the work item (R129, R130). -/
def execDone (x : Ctx) (f : FormD) (s : State) : Host.Outcome State Fault Refusal :=
  .next (runInstr x (isD 0x58 f) 1 (legalD0 f) (fun s c => .finish s (nextPc c.bank) []) s)

end Sys2Proof.Machine
end

