-- ==== Sys2Proof/Machine/Inbound.lean ====
section
/-! DEFINITION. The commands of the bridge as target (14_corbel_bridge.md, R480 to R484). -/

namespace Sys2Proof.Machine

/-- Fields of BR_IWIN. -/
def inEnabled (s : State) : Bool := s.br.iwin.getLsbD 0
def inReadOnly (s : State) : Bool := s.br.iwin.getLsbD 1
def inBo (s : State) : Bool := s.br.iwin.getLsbD 2
def inBase (s : State) : Nat := field s.br.iwin 31 24 * 2 ^ 24
def inSize (s : State) : Nat := 65536 * 2 ^ field s.br.iwin 19 17
def inQoff (s : State) : Nat := field s.br.iwin 16 10 * 65536

/-- The Quay offset that a Corbel address of the inbound window reaches (R480). -/
def inQuay (s : State) (a : Nat) : Nat := (inQoff s + (a - inBase s)) % quaySize

def inWindow (s : State) (a : Nat) : Bool := decide (inBase s ≤ a) && decide (a < inBase s + inSize s)

/-- An inbound access rejected: BR_INERR and event 0x0807 with its cause: 1 read-only, 2 mover area, 3 lock time, 4 a beat of a
sequence whose lock is gone (assumption log entry 9). -/
def inReject (s : State) (a cause : Nat) : State :=
  record (modBr s fun b => { b with inerr := b.inerr.inc }) 0x0807 (d4 a ++ d1 cause)

/-- Whether an address phase is one that the bridge claims (R459, R462, R464, R466, R480): a READ or WRITE of another master in the window whose
parity holds, with the window enabled and no locked sequence of its own under way. -/
def claims (s : State) (addr : Word) (c : AddrLines) (slot : Fin 32) : Bool :=
  onBus s && s.br.mt && inEnabled s && inWindow s addr.toNat && slot.val != rackSlot s && !(s.br.out.map (·.lock)).getD false &&
    (c.cbe == busRead || c.cbe == busWrite) && c.par == evenPar addr c.cbe

/-- CB_LOCK_N in an address phase of another master: with the line high, a locked sequence of before has ended and its Quay lock is
released (R484). -/
def seeLock (s : State) (lock : Bool) (slot : Fin 32) : State :=
  modBr s fun b => if lock then { b with busLock := some slot } else { b with busLock := none, locki := none, lockDead := false }

/-- INBOUND_CLAIM (R462, R464, R478, R480, R484): an address phase of another master. A locked sequence takes the Quay lock of its first block. A
read that needs the fabric port makes an outbound transaction which holds it back off. -/
def execInboundClaim (addr : Word) (c : AddrLines) (lock : Bool) (slot : Fin 32) (s : State) : Host.Outcome State Fault Refusal :=
  let s := if slot.val = rackSlot s then s else seeLock s lock slot
  if !claims s addr c slot then .next (modBr s fun b => { b with inResp := .ignored })
  else
    let write := c.cbe == busWrite
    let o := inQuay s addr.toNat
    let s := modBr s fun b =>
      { b with claimed := some (addr, write), inResp := .accepted, errN := false, parked := false,
               locki := if lock && !b.lockDead then some (b.locki.getD (o / 64 * 64)) else none,
               lockAt := if lock && b.locki.isNone then s.up else b.lockAt }
    .next (if !write && holdsPort s then backOff s else s)

/-- The buffered words reach Quay in arrival order (R481). -/
def drainIn (s : State) : State :=
  let ws := s.br.inbuf
  forAll ws (modBr s fun b => { b with inbuf := [] }) fun s x => quayWrite s x.off x.data x.be .bridge

/-- The beats that a transaction has before the 16th, or the last before a 64-byte boundary (R483). -/
def beatLimit (a : Nat) : Nat := min 16 ((64 - a % 64 + 3) / 4)

/-- A beat of an inbound WRITE enters the buffer; one to the mover area is accepted and discarded (R481). CB_ERR_N answers a beat whose
parity fails (R464), and the beat counts all the same (assumption log entry 97). -/
def takeBeat (s : State) (a : Nat) (x : InBeat) : State :=
  let o := inQuay s a
  let s := if x.par = evenPar x.data (~~~x.be) then s else modBr s fun b => { b with errN := true }
  if headBase ≤ o then inReject s a 2
  else modBr s fun b => { b with inbuf := b.inbuf ++ [⟨o, busWord (inBo s) x.data, busEnables (inBo s) x.be⟩] }

/-- An inbound transaction ends: the bus is idle again. -/
def endInbound (s : State) : State := modBr s fun b => { b with claimed := none, idleAt := s.up }

/-- INBOUND_WRITE (R481, R483, R484). -/
def execInboundWrite (addr : Word) (beats : List InBeat) (ready : Bool) (s : State) :
    Host.Outcome State Fault Refusal :=
  if s.br.claimed ≠ some (addr, true) then .next s
  else
    let a := addr.toNat / 4 * 4
    let s := endInbound s
    let answer (s : State) (r : InResp) : State := modBr (if ready then drainIn s else s) fun b => { b with inResp := r }
    if s.br.lockDead then .next (answer (inReject s addr.toNat 4) .abort)
    else if inReadOnly s then .next (answer (inReject s addr.toNat 1) .abort)
    else if 64 ≤ s.br.inbuf.length then .next (answer s .retry)
    else
      let n := min (beatLimit a) (64 - s.br.inbuf.length)
      .next (answer (forAll (beats.take n).zipIdx s fun s x => takeBeat s (a + 4 * x.2) x.1) .accepted)

/-- The words of an inbound READ from Quay, as they travel on CB_AD. -/
def inWords (s : State) (a n : Nat) : List Word :=
  (List.range n).map fun i => busWord (inBo s) (quayWord s (inQuay s (a + 4 * i)))

/-- The reads of Quay that serve an inbound READ, and whether the data is good. -/
def inFetch (s : State) (a n : Nat) (h : Hit) : State × Bool :=
  (List.range n).foldl (fun r i =>
    if r.2 then quayHit r.1 (inQuay s (a + 4 * i)) .inbound (if i = 0 then h else .none) else r) (s, true)

/-- The data kept for a repeated READ of the same address, within 64 µs (R482). -/
def keptData (s : State) (addr : Word) : Option (List Word) :=
  match s.br.inData with
  | some x => if x.addr = addr ∧ s.up < x.at_ + busLimit then some x.data else none
  | none => none

/-- INBOUND_READ (R482 to R484): earlier buffered words reach Quay first; data kept for the address is given at once; data not
ready in time is kept and the READ retried. -/
def execInboundRead (addr : Word) (n : Nat) (ready : Bool) (hit : Hit) (s : State) : Host.Outcome State Fault Refusal :=
  if s.br.claimed ≠ some (addr, false) then .next s
  else
    let a := addr.toNat / 4 * 4
    let k := min (max n 1) (beatLimit a)
    let s := endInbound s
    let answer (s : State) (r : InResp) : State := modBr s fun b => { b with inResp := r }
    if s.br.lockDead then .next (answer (inReject s addr.toNat 4) .abort)
    else
      let s := drainIn s
      match keptData s addr with
      | some ws => .next (modBr s fun b => { b with inData := none, inResp := .data (ws.take k) })
      | none =>
        match inFetch s a k hit with
        | (s, false) => .next (answer s .abort)
        | (s, true) =>
          if ready then .next (answer s (.data (inWords s a k)))
          else .next (modBr s fun b => { b with inData := some ⟨addr, inWords s a k, s.up⟩, inResp := .retry })

/-- INBOUND_DATA_EXPIRE (R482): 64 µs have passed. -/
def execInboundDataExpire (s : State) : Host.Outcome State Fault Refusal :=
  .next (modBr s fun b => { b with inData := b.inData.filter fun x => decide (s.up < x.at_ + busLimit) })

/-- The Corbel address of a Quay offset of the inbound window. -/
def corbelOfQuay (s : State) (o : Nat) : Nat := inBase s + (o + quaySize - inQoff s) % quaySize

/-- INBOUND_LOCK_TIMEOUT (R484, R504): CB_LOCK_N has been low for more than 16 µs. -/
def execInboundLockTimeout (s : State) : Host.Outcome State Fault Refusal :=
  match s.br.locki with
  | none => .next s
  | some o =>
    if s.up ≤ s.br.lockAt + 16000 then .next s
    else
    let s := inReject (modBr s fun b => { b with locki := none, lockDead := true }) (corbelOfQuay s o) 3
    .next (forcedRelease s 3 5)

end Sys2Proof.Machine
end

