-- ==== Sys2Proof/Machine/Integer.lean ====
section
/-! DEFINITION. The integer instructions (04_instruction_semantics.md, R116, R117; costs of R103). -/

namespace Sys2Proof.Machine

/-- A result of two word registers S1 and S2, with the combination of their tags (R54). -/
def binW (f : FormA) (op : Word → Word → Word) (s : State) (c : Core) : Act :=
  let a := rdW c.bank f.s1
  let b := rdW c.bank f.s2
  giveW s c.bank f.d (op a.v b.v) (comb a.t b.t)

/-- A result of one word register S1, with its tag (R55). -/
def unW (f : FormA) (op : Word → Word) (s : State) (c : Core) : Act :=
  let a := rdW c.bank f.s1
  giveW s c.bank f.d (op a.v) a.t

/-- A result of S1 and the immediate, with the tag of S1. -/
def immW (f : FormB) (op : Word → BitVec 16 → Word) (s : State) (c : Core) : Act :=
  let a := rdW c.bank f.s1
  giveW s c.bank f.d (op a.v f.imm) a.t

/-- Clamping to a signed word (ADDS, SUBS). -/
def clampS (x : Int) : Word := BitVec.ofInt 32 (max (-2147483648) (min 2147483647 x))

/-- The quotient a division by zero returns (R117). -/
def divZero (a : Word) : Word := if a.getLsbD 31 then 0x80000000 else 0x7FFFFFFF

/-- Quotient truncated toward zero; 0x80000000 by -1 wraps to 0x80000000. -/
def divS (a b : Word) : Word := BitVec.ofInt 32 (Int.tdiv a.toInt b.toInt)

/-- Remainder with the sign of the dividend. -/
def remS (a b : Word) : Word := BitVec.ofInt 32 (Int.tmod a.toInt b.toInt)

def divU (a b : Word) : Word := BitVec.ofNat 32 (a.toNat / b.toNat)

/-- A division: divisor 0 gives `z` of the dividend and sets DZ (R117). -/
def divW (f : FormA) (op : Word → Word → Word) (z : Word → Word) (s : State) (c : Core) : Act :=
  let a := rdW c.bank f.s1
  let b := rdW c.bank f.s2
  if b.v = 0 then giveW s { c.bank with dz := true } f.d (z a.v) (comb a.t b.t)
  else giveW s c.bank f.d (op a.v b.v) (comb a.t b.t)

/-- The high word of a signed product. -/
def mulHigh (a b : Word) : Word := BitVec.ofInt 32 ((a.toInt * b.toInt) / 4294967296)

/-- The magnitude of a signed word; that of 0x80000000 is itself. -/
def absS (a : Word) : Word := if a.getLsbD 31 then 0 - a else a

def minS (a b : Word) : Word := if a.slt b then a else b
def maxS (a b : Word) : Word := if a.slt b then b else a

/-- A shift by the amount of R116, with the tag it names. -/
def shiftW (f : FormA) (op : Word → Nat → Word) (s : State) (c : Core) : Act :=
  giveW s c.bank f.d (op (rdW c.bank f.s1).v (amount c.bank f)) (shiftTag c.bank f)

/-- A comparison of two words into a bit register (R101, R116). -/
def cmpB (d : BitVec 4) (cond : BitVec 4) (a b : Word) (t : Byte) (s : State) (c : Core) : Act :=
  giveB s c.bank d ((intCond cond a b).getD false) t

/-- COND and IMM12 of CMPI. -/
def cmpiCond (f : FormB) : BitVec 4 := f.imm.extractLsb' 12 4


/-- ADD: the sum modulo 2^32. -/
def execAdd (x : Ctx) (f : FormA) (s : State) : Host.Outcome State Fault Refusal :=
  .next (runInstr x (isA 0x01 f) 1 (legalA3 f) (binW f (· + ·)) s)

/-- ADDI: the sum with the sign-extended immediate. -/
def execAddi (x : Ctx) (f : FormB) (s : State) : Host.Outcome State Fault Refusal :=
  .next (runInstr x (isB 0x02 f) 1 (legalB f) (immW f fun a i => a + sext i) s)

/-- SUB: the difference modulo 2^32. -/
def execSub (x : Ctx) (f : FormA) (s : State) : Host.Outcome State Fault Refusal :=
  .next (runInstr x (isA 0x03 f) 1 (legalA3 f) (binW f (· - ·)) s)

/-- SUBI: the difference with the sign-extended immediate. -/
def execSubi (x : Ctx) (f : FormB) (s : State) : Host.Outcome State Fault Refusal :=
  .next (runInstr x (isB 0x04 f) 1 (legalB f) (immW f fun a i => a - sext i) s)

/-- ADDS: the signed sum, clamped. -/
def execAdds (x : Ctx) (f : FormA) (s : State) : Host.Outcome State Fault Refusal :=
  .next (runInstr x (isA 0x05 f) 1 (legalA3 f) (binW f fun a b => clampS (a.toInt + b.toInt)) s)

/-- SUBS: the signed difference, clamped. -/
def execSubs (x : Ctx) (f : FormA) (s : State) : Host.Outcome State Fault Refusal :=
  .next (runInstr x (isA 0x06 f) 1 (legalA3 f) (binW f fun a b => clampS (a.toInt - b.toInt)) s)

/-- NEG: 0 minus the operand. -/
def execNeg (x : Ctx) (f : FormA) (s : State) : Host.Outcome State Fault Refusal :=
  .next (runInstr x (isA 0x07 f) 1 (legalA2 f) (unW f fun a => 0 - a) s)

/-- MUL: bits [31:0] of the product. -/
def execMul (x : Ctx) (f : FormA) (s : State) : Host.Outcome State Fault Refusal :=
  .next (runInstr x (isA 0x08 f) 2 (legalA3 f) (binW f (· * ·)) s)

/-- MULH: bits [63:32] of the signed product. -/
def execMulh (x : Ctx) (f : FormA) (s : State) : Host.Outcome State Fault Refusal :=
  .next (runInstr x (isA 0x09 f) 2 (legalA3 f) (binW f mulHigh) s)

/-- DIV: the signed quotient truncated toward zero (R116, R117). -/
def execDiv (x : Ctx) (f : FormA) (s : State) : Host.Outcome State Fault Refusal :=
  .next (runInstr x (isA 0x0A f) 18 (legalA3 f) (divW f divS divZero) s)

/-- DIVU: the unsigned quotient; divisor 0 as DIV (R117). -/
def execDivu (x : Ctx) (f : FormA) (s : State) : Host.Outcome State Fault Refusal :=
  .next (runInstr x (isA 0x0B f) 18 (legalA3 f) (divW f divU divZero) s)

/-- REM: the signed remainder; divisor 0 returns the dividend (R117). -/
def execRem (x : Ctx) (f : FormA) (s : State) : Host.Outcome State Fault Refusal :=
  .next (runInstr x (isA 0x0C f) 18 (legalA3 f) (divW f remS fun a => a) s)

/-- ABS: the signed magnitude. -/
def execAbs (x : Ctx) (f : FormA) (s : State) : Host.Outcome State Fault Refusal :=
  .next (runInstr x (isA 0x0D f) 1 (legalA2 f) (unW f absS) s)

/-- MIN: the signed minimum. -/
def execMin (x : Ctx) (f : FormA) (s : State) : Host.Outcome State Fault Refusal :=
  .next (runInstr x (isA 0x0E f) 1 (legalA3 f) (binW f minS) s)

/-- MAX: the signed maximum. -/
def execMax (x : Ctx) (f : FormA) (s : State) : Host.Outcome State Fault Refusal :=
  .next (runInstr x (isA 0x0F f) 1 (legalA3 f) (binW f maxS) s)

/-- AND: bitwise. -/
def execAnd (x : Ctx) (f : FormA) (s : State) : Host.Outcome State Fault Refusal :=
  .next (runInstr x (isA 0x10 f) 1 (legalA3 f) (binW f (· &&& ·)) s)

/-- ANDI: bitwise with the zero-extended immediate. -/
def execAndi (x : Ctx) (f : FormB) (s : State) : Host.Outcome State Fault Refusal :=
  .next (runInstr x (isB 0x11 f) 1 (legalB f) (immW f fun a i => a &&& zext i) s)

/-- OR: bitwise. -/
def execOr (x : Ctx) (f : FormA) (s : State) : Host.Outcome State Fault Refusal :=
  .next (runInstr x (isA 0x12 f) 1 (legalA3 f) (binW f (· ||| ·)) s)

/-- ORI: bitwise with the zero-extended immediate. -/
def execOri (x : Ctx) (f : FormB) (s : State) : Host.Outcome State Fault Refusal :=
  .next (runInstr x (isB 0x13 f) 1 (legalB f) (immW f fun a i => a ||| zext i) s)

/-- XOR: bitwise. -/
def execXor (x : Ctx) (f : FormA) (s : State) : Host.Outcome State Fault Refusal :=
  .next (runInstr x (isA 0x14 f) 1 (legalA3 f) (binW f (· ^^^ ·)) s)

/-- XORI: bitwise with the zero-extended immediate. -/
def execXori (x : Ctx) (f : FormB) (s : State) : Host.Outcome State Fault Refusal :=
  .next (runInstr x (isB 0x15 f) 1 (legalB f) (immW f fun a i => a ^^^ zext i) s)

/-- NOT: bitwise complement. -/
def execNot (x : Ctx) (f : FormA) (s : State) : Host.Outcome State Fault Refusal :=
  .next (runInstr x (isA 0x16 f) 1 (legalA2 f) (unW f fun a => ~~~a) s)

/-- The signed min(max(v, lo), hi). -/
def limitS (v lo hi : Word) : Word := minS (maxS v lo) hi

/-- LIMIT: the operand between two bounds; where they cross, the upper one. -/
def execLimit (x : Ctx) (f : FormA) (s : State) : Host.Outcome State Fault Refusal :=
  .next (runInstr x (isA 0x17 f) 1 (legalA4 f) (fun s c =>
    let a := rdW c.bank f.s1
    let lo := rdW c.bank f.s2
    let hi := rdW c.bank f.s3
    giveW s c.bank f.d (limitS a.v lo.v hi.v) (comb3 a.t lo.t hi.t)) s)

/-- SHL: logical left shift by 0 to 31. -/
def execShl (x : Ctx) (f : FormA) (s : State) : Host.Outcome State Fault Refusal :=
  .next (runInstr x (isA 0x18 f) 1 (legalShift f) (shiftW f fun a n => a <<< n) s)

/-- SHR: logical right shift. -/
def execShr (x : Ctx) (f : FormA) (s : State) : Host.Outcome State Fault Refusal :=
  .next (runInstr x (isA 0x19 f) 1 (legalShift f) (shiftW f fun a n => a >>> n) s)

/-- SAR: arithmetic right shift. -/
def execSar (x : Ctx) (f : FormA) (s : State) : Host.Outcome State Fault Refusal :=
  .next (runInstr x (isA 0x1A f) 1 (legalShift f) (shiftW f fun a n => a.sshiftRight n) s)

/-- ROL: rotate left. -/
def execRol (x : Ctx) (f : FormA) (s : State) : Host.Outcome State Fault Refusal :=
  .next (runInstr x (isA 0x1B f) 1 (legalShift f) (shiftW f fun a n => a.rotateLeft n) s)

/-- SEL: Wt when Bc is 1, else Wf, with the tags of Bc and of the operand selected. -/
def execSel (x : Ctx) (f : FormA) (s : State) : Host.Outcome State Fault Refusal :=
  .next (runInstr x (isA 0x1C f) 1 (legalA4 f && bitField f.s3) (fun s c =>
    let b := rdB c.bank f.s3
    let a := if b.v then rdW c.bank f.s1 else rdW c.bank f.s2
    giveW s c.bank f.d a.v (comb b.t a.t)) s)

/-- MOV. -/
def execMov (x : Ctx) (f : FormA) (s : State) : Host.Outcome State Fault Refusal :=
  .next (runInstr x (isA 0x1D f) 1 (legalA2 f) (unW f fun a => a) s)

/-- MOVI: the sign-extended immediate with the neutral tag. -/
def execMovi (x : Ctx) (f : FormB) (s : State) : Host.Outcome State Fault Refusal :=
  .next (runInstr x (isB 0x1E f) 1 (legalB f && f.s1 == 0) (fun s c => giveW s c.bank f.d (sext f.imm) neutral) s)

/-- MOVHI: the immediate above the low half of the operand. -/
def execMovhi (x : Ctx) (f : FormB) (s : State) : Host.Outcome State Fault Refusal :=
  .next (runInstr x (isB 0x1F f) 1 (legalB f) (immW f fun a i => i ++ a.setWidth 16) s)

/-- CMP: the condition of R101 on two words. -/
def execCmp (x : Ctx) (f : FormA) (s : State) : Host.Outcome State Fault Refusal :=
  .next (runInstr x (isA 0x20 f) 1 (legalA4 f && bitField f.d && (intCond f.s3 0 0).isSome) (fun s c =>
    let a := rdW c.bank f.s1
    let b := rdW c.bank f.s2
    cmpB f.d f.s3 a.v b.v (comb a.t b.t) s c) s)

/-- CMPI: the condition of R101 against IMM12. -/
def execCmpi (x : Ctx) (f : FormB) (s : State) : Host.Outcome State Fault Refusal :=
  .next (runInstr x (isB 0x21 f) 1 (legalB f && bitField f.d && (intCond (cmpiCond f) 0 0).isSome) (fun s c =>
    let a := rdW c.bank f.s1
    cmpB f.d (cmpiCond f) a.v (cmpImm (cmpiCond f) (f.imm.setWidth 12)) a.t s c) s)

end Sys2Proof.Machine
end

