-- ==== Sys2Proof/Machine/LanesCmds.lean ====
section
/-! DEFINITION. The commands of the lanes: supply, self-test, rejoin, split, debug
(07_lanes_voting_and_lockstep.md, R223 to R262; 16, R543, R544). -/

namespace Sys2Proof.Machine

/-- A lane loses its supply, clock or reset (R223, R242): it is ABSENT, with drop cause 0x08 from VOTING or REJOINING. -/
def loseLane (s : State) (l : LaneId) : State :=
  let st := (lane s l).st
  let s :=
    if st = .voting then
      let src := s.rejoin.src == some l
      let s := leaveVote (recordDrop s l 0x08 0 0) l .absent 0x08 0 0
      let s := if src then rejoinFail s 0x0A else s
      checkVoters s
    else if st = .rejoining then leaveVote (recordDrop (clearRejoin s) l 0x08 0 0) l .absent 0x08 0 0
    else modLane s l fun x => resetLaneSt x .absent
  modLane s l fun x => { x with dbg := false }

/-- LANE_POWER_LOSS (R223). -/
def execLanePowerLoss (l : LaneId) (s : State) : Host.Outcome State Fault Refusal := .next (loseLane s l)

/-- LANE_THERMAL_SHUTDOWN (R543): the die has reached 125 °C. -/
def execLaneThermalShutdown (l : LaneId) (s : State) : Host.Outcome State Fault Refusal :=
  if (lane s l).st = .absent then .next s
  else
    let s := loseLane s l
    .next (modPower s fun p => { p with laneHot := p.laneHot.set l true })

/-- Part numbers of event 0x0110: lanes 1 to 3, Keystone 4, Parapet 5 (assumption log entry 9). -/
def partNo : PllPart → Nat
  | .lane l => laneNo l
  | .keystone => 4
  | .parapet => 5

/-- What stops with a part's clock (R544): its lane; the Keystone's function; the refresh to every island. -/
def stopPart (s : State) : PllPart → State
  | .lane l => loseLane s l
  | .keystone => { s with ring := { s.ring with relay := true } }
  | .parapet => forAll (fins 48) s fun s c => loseRefresh s c false

/-- PLL_LOCK_LOSS (R544). -/
def execPllLockLoss (part : PllPart) (s : State) : Host.Outcome State Fault Refusal :=
  if s.pw.state = .run ∧ !s.pw.pllLost.contains part then
    let s := record s 0x0110 (d1 (partNo part))
    let s := modPower s fun p => { p with pllLost := part :: p.pllLost }
    .next (stopPart s part)
  else .next s

/-- LMODE powers a lane (R227). -/
def powered (s : State) (l : LaneId) : Bool :=
  match s.pw.straps.lmode.toNat with
  | 1 => l != .c
  | 2 => l == .a
  | _ => true

/-- LANE_SUPPLY_READY (R223): the lane's supply has been in range for 10 ms, its die is cool and its PLL has lock. -/
def execLaneSupplyReady (l : LaneId) (s : State) : Host.Outcome State Fault Refusal :=
  if s.pw.state == .run && (lane s l).st == .absent && powered s l then
    let s := modPower s fun p => { p with laneHot := p.laneHot.set l false, pllLost := p.pllLost.filter fun x => x ≠ .lane l }
    .next (modLane s l fun x => { x with st := .booting, selfTest := none })
  else .next s

/-- A lane that fails its self-test is HALTED: event 0x0205 (R223, R264). -/
def haltLane (s : State) (l : LaneId) (result : Nat) : State :=
  modLane (record s 0x0205 (d1 (laneNo l) ++ d1 result)) l fun x =>
    { x with st := .halted, selfTest := some false, cause := 0x0B, dropPair := 0, dropTask := 0 }

/-- A passed self-test in BOOTING (R223): VOTING while the controller is in COLD or SETUP, else DROPPED. -/
def bootPassed (s : State) (l : LaneId) : State :=
  let early := s.ctl.state == .cold || s.ctl.state == .setup
  let vote := early && !(lane s l).dbg
  let s := modLane s l fun x => { x with selfTest := some true, st := if vote then .voting else .dropped }
  if vote then lateCheck s l else s

/-- LANE_SELF_TEST_DONE (R223): in BOOTING, and in DROPPED after a drop or a debug session. -/
def execLaneSelfTestDone (l : LaneId) (pass : Bool) (result : Byte) (s : State) : Host.Outcome State Fault Refusal :=
  let x := lane s l
  if x.st = .booting then .next (if pass then bootPassed s l else haltLane s l result.toNat)
  else if x.st = .dropped ∧ x.selfTest = none then
    .next (if pass then modLane s l fun x => { x with selfTest := some true } else haltLane s l result.toNat)
  else .next s

/-- LANE_SELF_TEST_TIMEOUT (R223): the self-test in BOOTING has not completed within 300 ms. -/
def execLaneSelfTestTimeout (l : LaneId) (s : State) : Host.Outcome State Fault Refusal :=
  .next (if (lane s l).st = .booting then haltLane s l 0 else s)

/-- The dropped lane that could rejoin but for the limit (R245). -/
def rejoinable (s : State) : Option LaneId :=
  if s.ctl.state == .run && decide (2 ≤ (voters s).length) && !(laneList.any fun l => (lane s l).st == .rejoining) then
    laneList.find? fun l => let x := lane s l; x.st == .dropped && x.selfTest == some true && !x.dbg
  else none

/-- REJOIN_START (R245, R246, R247 phase 1). -/
def execRejoinStart (s : State) : Host.Outcome State Fault Refusal :=
  match rejoinable s, leadLane s with
  | some l, some src =>
    if rejoinUsed s < s.rejoin.limit.toNat then
      let counted := !(lane s l).uncounted
      let starts := if counted then s.pw.opsec.toNat :: s.rejoin.starts else s.rejoin.starts
      let s := { s with rejoin := { s.rejoin with lane := some l, src := some src, phase := .copy, matched := 0, due := 0, starts := starts,
                                                  withheld := false, digests := none } }
      let s := modLane s l fun x => { x with st := .rejoining }
      .next (record s 0x0202 (d1 (laneNo l) ++ d1 (laneNo src) ++ d1 (rejoinUsed s)))
    else if s.rejoin.withheld then .next s
    else
      let s := { s with rejoin := { s.rejoin with withheld := true } }
      .next (record s 0x0206 (d1 (laneNo l) ++ d1 (rejoinUsed s) ++ d1 s.rejoin.limit.toNat))
  | _, _ => .next { s with rejoin := { s.rejoin with withheld := false } }

/-- The ranges of a bank that the rejoin copier sweeps, as EC_ offsets: all but PI and PQ (R247). -/
def sweptRanges (s : State) : List (Nat × Nat) :=
  (setup s).layouts.flatMap fun d =>
    let o := bankBase d.pair
    [(o, o + d.k), (o + d.pq, o + d.work)]

/-- The swept ranges of one lane read by the copier (R515). -/
def readSwept (s : State) (l : LaneId) : State × Bool :=
  (sweptRanges s).foldl (fun x r =>
    let y := readRange x.1 l r.1 (r.2 - r.1) .rejoin
    (y.1, x.2 && y.2)) (s, true)

/-- The swept ranges of the source copied into the rejoining lane. -/
def copySwept (s : State) (src dst : LaneId) : State :=
  forAll (sweptRanges s) s fun s r =>
    let m := (lane s src).sram
    modLane s dst fun x => { x with sram := memTake x.sram m r.1 r.2 }

/-- REJOIN_COPY_DONE (R247 phase 2): `bad` tells that the copier met an uncorrectable word in the source. -/
def execRejoinCopyDone (bad : Bool) (s : State) : Host.Outcome State Fault Refusal :=
  match s.rejoin.lane, s.rejoin.src with
  | some l, some src =>
    if s.rejoin.phase = .copy then
      let s := match bad, sweptRanges s with
        | true, r :: _ => modLane s src fun x => { x with dmg := dmgMeet x.dmg r.1 .bad }
        | _, _ => s
      let r := readSwept s src
      if r.2 then
        let s := copySwept r.1 src l
        .next { s with rejoin := { s.rejoin with phase := .wait } }
      else .next (rejoinFail r.1 0x0A)
    else .next s
  | _, _ => .next s

/-- The largest K admitted. -/
def kMax (s : State) : Nat := ((setup s).tasks.map (·.k)).foldl max 0

/-- The memory over which the digest of the shadow run is taken (R247). -/
def sweptMemory (s : State) (l : LaneId) : Memory :=
  (lane s l).sram.filter fun c => (sweptRanges s).any fun r => decide (r.1 ≤ c.1) && decide (c.1 < r.2)

/-- The committed images of the source become those of the rejoining lane. -/
def copyCom (s : State) (src dst : LaneId) : State :=
  forAll (fins 8) s fun s p => forAll (fins 16) s fun s t =>
    let c := (taskRun s src p t).com
    modTask s dst p t fun x => { x with com := c }

/-- SHADOW_START (R247 phases 3 and 4): forwarding, which has kept the rejoining lane equal to its source, stops at S. -/
def execShadowStart (s : State) : Host.Outcome State Fault Refusal :=
  match s.rejoin.lane, s.rejoin.src with
  | some l, some src =>
    if s.rejoin.phase = .wait ∧ s.tide % 2 ^ kMax s = 0 then
      let s := copyCom (copySwept s src l) src l
      let d := (Config.laneDigest (sweptMemory s src), Config.laneDigest (sweptMemory s l))
      .next { s with rejoin := { s.rejoin with phase := .shadow, shadowStart := s.tide, matched := 0, due := 0, digests := some d } }
    else .next s
  | _, _ => .next s

/-- The digests captured at S in the source and in the rejoining lane match (R247). -/
def digestsMatch (s : State) : Bool := s.rejoin.digests.any fun d => d.1 == d.2

/-- REJOIN_ENTER (R247 phase 5): S + 16 tides, after the last comparison of the shadow run. `digestOk` tells that no fault has spoilt the
comparison of the digests. -/
def execRejoinEnter (digestOk : Bool) (s : State) : Host.Outcome State Fault Refusal :=
  match s.rejoin.lane with
  | some l =>
    if s.rejoin.phase = .shadow ∧ s.rejoin.shadowStart + 16 ≤ s.tide ∧ s.rejoin.matched = s.rejoin.due then
      if digestOk && digestsMatch s then
        let start := s.rejoin.shadowStart
        let s := clearRejoin (modLane s l fun x => { x with st := .voting })
        .next (record s 0x0203 (d1 (laneNo l) ++ d4 start))
      else .next (rejoinFail s 0x0A)
    else .next s
  | none => .next s

/-- No timed task of a pair is ready, or about to be (R254). -/
def pairIdle (q : PairSt) : Bool := q.tasks.toList.all fun t => t.phase != .ready && t.phase != .released

/-- A core at its entry address (R254). -/
def coreAt (a : Word) : UCore := { bank := resetBank a, active := true, wait := none }

/-- A pair of the lane, other than `p`, that holds a stopped work item: the pair and the core (R256). -/
def stoppedItem (s : State) (l : LaneId) (p : PairId) : Option (PairId × Bool) :=
  (fins 8).findSome? fun q =>
    let x := pair s l q
    if q = p ∨ x.split then none
    else if x.even.active && x.even.wait.isNone then some (q, false)
    else if x.odd.active && x.odd.wait.isNone then some (q, true)
    else none

/-- An idle core of a split pair. -/
def idleCore (q : PairSt) : Option Bool := if !q.even.active then some false else if !q.odd.active then some true else none

/-- The steward may resume a stopped work item on an idle core of another split pair of the lane (R256, assumption log entry 23); POLICY
SPLITWORK 0 withholds the move. -/
def tryMove (s : State) (l : LaneId) (p : PairId) : State :=
  match stoppedItem s l p, idleCore (pair s l p) with
  | some (q, odd), some odd2 =>
    let want := Config.moveWork s.fresh
    let s := { s with fresh := s.fresh + 1 }
    if !want then s
    else if !(policy s).splitwork then record s 0x0C0E (d1 (laneNo l) ++ d1 q.val)
    else
      let x := pair s l q
      let u := if odd then x.odd else x.even
      let ctx (p : PairId) (odd : Bool) : Ctx := { lane := l, pair := p, odd := odd, fetch := .none, data := .none }
      let s := modCore s (ctx q odd) fun y => { y with active := false }
      record (modCore s (ctx p odd2) fun _ => u) 0x0C0D (d1 (laneNo l) ++ d1 q.val ++ d1 p.val)
  | _, _ => s

/-- SPLIT_HANDOVER (R254, R256, R541 step 3): a pending split, or the resumption of one that a release has joined. The window closes
first and is compared; a difference drops the lane. -/
def execSplitHandover (l : LaneId) (p : PairId) (s : State) : Host.Outcome State Fault Refusal :=
  let q := closeWindow (pair s l p)
  if isVoting s l && (setup s).splitmask.getLsbD p.val && s.pw.dstep != 3 && !q.split && pairIdle q then
    match q.closed.bind fun w => windowCause q.cmpX q.cmpY w.1 w.2 with
    | some k => .next (laneFails s l k p.val 0)
    | none =>
      let s := modPair s l p fun _ => { q with closed := none }
      match q.splitPend with
      | some (a, b) =>
        let s := modPair s l p fun q => { q with splitPend := none, split := true, resume := true, even := coreAt a, odd := coreAt b }
        .next (tryMove s l p)
      | none => if q.resume then .next (tryMove (modPair s l p fun q => { q with split := true }) l p) else .next s
  else .next s

/-- DEBUG_ATTACH (R259 to R261). -/
def execDebugAttach (l : LaneId) (s : State) : Host.Outcome State Fault Refusal :=
  let x := lane s l
  let ok := s.ctl.state != .run || (voters s).length == 3 || (benchMode s && l == .a)
  if x.dbg || !awake s then .next s
  else if !ok then
    let s := { s with rejoin := { s.rejoin with tapRefused := s.rejoin.tapRefused.set l true } }
    .next (record s 0x0208 (d1 (laneNo l) ++ d1 (voters s).length))
  else
    let s := if x.st = .voting then dropLane s l 0x09 0 0 else if x.st = .rejoining then rejoinFail s 0x09 else s
    let s := { s with rejoin := { s.rejoin with tapRefused := s.rejoin.tapRefused.set l false } }
    let s := modLane s l fun x => { x with dbg := true }
    .next (record s 0x0207 (d1 (laneNo l) ++ d1 (ctlNo s.ctl.state)))

/-- DEBUG_DETACH (R262): the lane is reset and tests itself, and returns to DROPPED; its next rejoin does not count against the limit. -/
def execDebugDetach (l : LaneId) (s : State) : Host.Outcome State Fault Refusal :=
  let x := lane s l
  if !x.dbg then .next s
  else if x.st = .absent ∨ x.st = .booting ∨ x.st = .halted then .next (modLane s l fun x => { x with dbg := false, uncounted := true })
  else .next (modLane s l fun x => { resetLaneSt x .dropped with dbg := false, uncounted := true })

end Sys2Proof.Machine
end

