-- ==== Sys2Proof/Machine/LoadsStores.lean ====
section
/-! DEFINITION. The memory instructions (02_programming_model.md, R58, R72 to R75; 04_instruction_semantics.md, R127). -/

namespace Sys2Proof.Machine

/-- A load into a word register: `n` bytes, converted by `k`, with the tag of the range (R58, R127). -/
def loadW (f : FormC) (n : Nat) (k : List Byte → Word) (s : State) (c : Core) : Act :=
  let a := addrC c.bank f
  loadThen s c (.load (n == 4)) n a fun s bs => giveW s c.bank f.d (k bs) (loadTag a)

/-- The value of loaded bytes, zero-extended. -/
def ldZ (bs : List Byte) : Word := wordAt bs 0

/-- Sign extension of a loaded byte or halfword. -/
def ldS8 (bs : List Byte) : Word := sext ((wordAt bs 0).setWidth 8)
def ldS16 (bs : List Byte) : Word := sext ((wordAt bs 0).setWidth 16)

/-- LDW (R58, R72, R75, R510, R515). -/
def execLdw (x : Ctx) (f : FormC) (s : State) : Host.Outcome State Fault Refusal :=
  .next (runInstr x (isC 0x40 f) 2 (true) (loadW f 4 ldZ) s)

/-- LDH: a halfword, sign-extended. -/
def execLdh (x : Ctx) (f : FormC) (s : State) : Host.Outcome State Fault Refusal :=
  .next (runInstr x (isC 0x41 f) 2 (true) (loadW f 2 ldS16) s)

/-- LDHU: a halfword, zero-extended. -/
def execLdhu (x : Ctx) (f : FormC) (s : State) : Host.Outcome State Fault Refusal :=
  .next (runInstr x (isC 0x42 f) 2 (true) (loadW f 2 ldZ) s)

/-- LDB: a byte, sign-extended. -/
def execLdb (x : Ctx) (f : FormC) (s : State) : Host.Outcome State Fault Refusal :=
  .next (runInstr x (isC 0x43 f) 2 (true) (loadW f 1 ldS8) s)

/-- LDBU: a byte, zero-extended. -/
def execLdbu (x : Ctx) (f : FormC) (s : State) : Host.Outcome State Fault Refusal :=
  .next (runInstr x (isC 0x44 f) 2 (true) (loadW f 1 ldZ) s)

/-- LDQ: the bit and tag of a qualified bit slot (R74). -/
def execLdq (x : Ctx) (f : FormC) (s : State) : Host.Outcome State Fault Refusal :=
  .next (runInstr x (isC 0x45 f) 2 (bitField f.d) (fun s c =>
    loadThen s c .tagLoad 4 (addrC c.bank f) fun s bs =>
      giveB s c.bank f.d ((wordAt bs 0).getLsbD 8) ((wordAt bs 0).setWidth 8)) s)

/-- LDT: the value and tag of a tagged word slot (R73). -/
def execLdt (x : Ctx) (f : FormC) (s : State) : Host.Outcome State Fault Refusal :=
  .next (runInstr x (isC 0x46 f) 2 true (fun s c =>
    loadThen s c .tagLoad 8 (addrC c.bank f) fun s bs =>
      giveW s c.bank f.d (wordAt bs 0) ((wordAt bs 4).setWidth 8)) s)

/-- STW: the word; its tag is discarded (R58). -/
def execStw (x : Ctx) (f : FormC) (s : State) : Host.Outcome State Fault Refusal :=
  .next (runInstr x (isC 0x48 f) 1 true (fun s c =>
    let v := (rdW c.bank f.d).v
    storeThen s c (.store true) 4 (addrC c.bank f) [v] fun s =>
      .go s (nextPc c.bank) (storeWords (addrC c.bank f) [v] 0xF)) s)

/-- STH: bits [15:0] of the source, merged into the corrected word (R127, R642). -/
def execSth (x : Ctx) (f : FormC) (s : State) : Host.Outcome State Fault Refusal :=
  .next (runInstr x (isC 0x49 f) 1 true (fun s c =>
    let v := zext ((rdW c.bank f.d).v.setWidth 16)
    partThen s c 2 (addrC c.bank f) v fun s => .go s (nextPc c.bank) (storeWords (addrC c.bank f) [v] 0x3)) s)

/-- STB: bits [7:0] of the source, merged into the corrected word (R127, R642). -/
def execStb (x : Ctx) (f : FormC) (s : State) : Host.Outcome State Fault Refusal :=
  .next (runInstr x (isC 0x4A f) 1 true (fun s c =>
    let v := zext ((rdW c.bank f.d).v.setWidth 8)
    partThen s c 1 (addrC c.bank f) v fun s => .go s (nextPc c.bank) (storeWords (addrC c.bank f) [v] 0x1)) s)

/-- STQ: value and tag of a bit register into a qualified bit slot; every other bit 0 (R74, R127). -/
def execStq (x : Ctx) (f : FormC) (s : State) : Host.Outcome State Fault Refusal :=
  .next (runInstr x (isC 0x4B f) 1 (bitField f.d) (fun s c =>
    let b := rdB c.bank f.d
    let w := bitSlot b.v b.t
    storeThen s c .tagStore 4 (addrC c.bank f) [w] fun s => .go s (nextPc c.bank) (storeWords (addrC c.bank f) [w] 0xF)) s)

/-- STT: value and tag of a word register into a tagged word slot; bits [31:8] of the tag word 0 (R73). -/
def execStt (x : Ctx) (f : FormC) (s : State) : Host.Outcome State Fault Refusal :=
  .next (runInstr x (isC 0x4C f) 1 true (fun s c =>
    let r := rdW c.bank f.d
    let ws := [r.v, zext r.t]
    storeThen s c .tagStore 8 (addrC c.bank f) ws fun s => .go s (nextPc c.bank) (storeWords (addrC c.bank f) ws 0xF)) s)

end Sys2Proof.Machine
end

