-- ==== Sys2Proof/Machine/Outbound.lean ====
section
/-! DEFINITION. The commands of the bridge as master, of its movers and of the rack arbiter (14_corbel_bridge.md). -/

namespace Sys2Proof.Machine

/-- OUTBOUND_ISSUE (R467, R470 to R472, R478): with the bus granted, the head of the queue or a mover's next piece starts, or starts again after
a back-off. -/
def execOutboundIssue (src : OutSrc) (s : State) : Host.Outcome State Fault Refusal :=
  let free := match s.br.out with
    | none => true
    | some t => t.src == src && t.phase == .backedOff
  if !onBus s || !s.br.mt || !granted s || !free then .next s
  else
    match src with
    | .queue => .next (issueHead s)
    | .mover n => .next (issuePiece s n)

/-- TARGET_RESPONSE (R465): what the target answers to the transaction on the bus. -/
def execTargetResponse (r : TgtResp) (s : State) : Host.Outcome State Fault Refusal :=
  match s.br.out with
  | none => .next s
  | some t =>
    if t.phase ≠ .issued then .next s
    else
      let piece := match t.src with
        | .queue => 0
        | .mover n => pieceLen (descAt s (s.br.movers.get n).desc.toNat) (s.br.movers.get n).moved
      let base := match t.src with
        | .queue => 0
        | .mover n => (descAt s (s.br.movers.get n).desc.toNat).caddr + (s.br.movers.get n).moved
      let s := match r with
        | .retry => modBr s fun b => { b with retry := b.retry.inc, out := some { t with phase := .retried, ended := s.up }, idleAt := s.up }
        | .done ws =>
          (match t.src with
           | .queue => headDone s t ws
           | .mover n => pieceDone s n piece ws)
        | .disconnect beats ws =>
          (match t.src with
           | .queue => headDone s t ws
           | .mover n => pieceDone s n (beatBytes base piece (max beats 1)) ws)
        | .targetAbort => txFails s t .targetAbort 0 []
        | .masterAbort => txFails s t .masterAbort 0 []
        | .parity ws => txFails (modBr s fun b => { b with errN := !t.write }) t .parity piece ws
      .next (stopMovers s)

/-- RETRY_REISSUE (R465): after two idle cycles the transaction goes again. -/
def execRetryReissue (s : State) : Host.Outcome State Fault Refusal :=
  match s.br.out with
  | some t =>
    if t.phase = .retried ∧ onBus s = true ∧ granted s = true ∧ t.ended + 80 ≤ s.up then
      .next (modBr s fun b => { b with out := some { t with phase := .issued }, errN := false, parked := false })
    else .next s
  | none => .next s

/-- The head of the queue has been the head for 64 µs (R473). -/
def headOverdue (s : State) : Bool := !s.br.queue.isEmpty && decide (s.br.headAt + busLimit ≤ s.up)

/-- OUTBOUND_TIMEOUT (R473, R474, R477, R487): 64 µs have passed for a mover's piece, or for the head of the queue, whether it has come to the bus
or not. -/
def execOutboundTimeout (s : State) : Host.Outcome State Fault Refusal :=
  match s.br.out with
  | some t =>
    if overdue s t then .next (if t.lock then abortLock s else txFails s t .timeout 0 [])
    else if t.src ≠ .queue ∧ headOverdue s = true then .next (failHead s .timeout false)
    else .next s
  | none => .next (if headOverdue s then failHead s .timeout false else s)

/-- LOCK_ABORT (R477): for a lane that has been masked, or at the 64 µs limit. -/
def execLockAbort (s : State) : Host.Outcome State Fault Refusal :=
  match s.br.out, s.br.queue with
  | some t, e :: _ => .next (if overdue s t || e.orphan then abortLock s else s)
  | _, _ => .next s

/-- CB_RST_N is low for a mover: what it does on the bus is abandoned (R466, R488). -/
def resetMover (s : State) (n : Fin 8) : State :=
  let m := s.br.movers.get n
  if m.busy && (descAt s m.desc.toNat).own && decide ((descAt s m.desc.toNat).dir < 2) then moverFails s n 8 else s

/-- CORBEL_RESET (R466, R488, R504): CB_RST_N is low. -/
def execCorbelReset (s : State) : Host.Outcome State Fault Refusal :=
  if !onBus s then .next s
  else
    let s := record s 0x0803 (d1 s.pw.straps.cbrole.toNat)
    let s := match s.br.out with
      | none => s
      | some t => match t.src with
        | .queue => failHead s .timeout (t.lock && t.write)
        | .mover n => moverFails s n 8
    let s := forAll (fins 8) s resetMover
    let s := if s.br.locki.isSome then forcedRelease (modBr s fun b => { b with locki := none }) 3 5 else s
    .next (modBr s fun b =>
      { b with rstLow := true, claimed := none, inData := none, inResp := .none, lockDead := false, grant := none, parked := false, busLock := none })

/-- RACK_RESET_RELEASE (R468): CB_RST_N is high; where the module drives it, 100 ms after the Keystone has left reset. -/
def execRackResetRelease (s : State) : Host.Outcome State Fault Refusal :=
  let held := s.pw.straps.cbrole == 2 && decide (s.up < s.br.bootAt + 100000000)
  .next (if awake s && !held then modBr s fun b => { b with rstLow := false } else s)

/-- CORBEL_INTERRUPT (R490): a falling edge of CB_INT_N. -/
def execCorbelInterrupt (line : Fin 4) (s : State) : Host.Outcome State Fault Refusal :=
  let b : BitVec 4 := BitVec.ofNat 4 (2 ^ line.val)
  .next (if onBus s then modBr s fun r => { r with inte := r.inte ||| b, intl := r.intl ||| b } else s)

/-- The module's own request for the bus (R467). -/
def ownRequest (s : State) : Bool :=
  s.br.mt && ((match s.br.out with
    | some t => t.phase != .issued
    | none => !s.br.queue.isEmpty) ||
    (fins 8).any fun n => (s.br.movers.get n).busy && (descAt s (s.br.movers.get n).desc.toNat).dir != 2)

/-- CB_LOCK_N as the arbiter samples it: with the line high nobody holds a bus lock, and the Quay lock of an inbound sequence is released
(R484); with it low and no holder known, the granted master has asserted it. -/
def sampleLock (s : State) (low : Bool) : State :=
  modBr s fun b =>
    if low then { b with busLock := if b.busLock.isSome then b.busLock else b.grant }
    else { b with busLock := none, locki := none, lockDead := false }

/-- A grant is given (R468). The bus counts as idle from then on, until a transaction of the master starts. -/
def giveGrant (s : State) (k : Fin 32) (parked : Bool) : State :=
  modBr s fun b => { b with grant := some k, lastGrant := k, parked := parked, idleAt := if b.grant = some k then b.idleAt else s.up }

/-- RACK_ARBITRATE (R468): round-robin from the slot after the last one granted; a bus lock keeps the grant with its master;
without requests the grant is parked. -/
def execRackArbitrate (lines : RackLines) (s : State) : Host.Outcome State Fault Refusal :=
  if !rackArbiter s then .next s
  else
    let own := rackSlot s
    let wants (i : Nat) : Bool := if i = own then ownRequest s else lines.areq.getLsbD i
    if (s.br.out.map (·.lock)).getD false then .next (giveGrant s (Fin.ofNat 32 own) false)
    else
      let s := sampleLock s lines.lock
      match s.br.busLock with
      | some k => .next (giveGrant s k false)
      | none =>
        match ((List.range 32).map fun i => Fin.ofNat 32 (s.br.lastGrant.val + 1 + i)).find? fun k => wants k.val with
        | some k => .next (giveGrant s k false)
        | none => .next (giveGrant s s.br.lastGrant true)

/-- The bus is idle as far as the bridge takes part in it: nothing of its own on it, no inbound transaction. -/
def busIdle (s : State) : Bool := s.br.claimed.isNone && (s.br.out.map fun t => t.phase != .issued).getD true

/-- GRANT_WITHDRAW (R468): a grant that was asked for has left the bus idle for 16 cycles. -/
def execGrantWithdraw (s : State) : Host.Outcome State Fault Refusal :=
  match s.br.grant with
  | some g =>
    if rackArbiter s && busIdle s && !s.br.parked && decide (s.br.idleAt + 640 ≤ s.up) then
      .next (record (modBr s fun b => { b with grant := none, arbidle := b.arbidle.inc }) 0x0809 (d1 g.val))
    else .next s
  | none => .next s

/-- Whether a mover is the source of the transaction in progress. -/
def moverOut (s : State) (n : Fin 8) : Bool := (s.br.out.map fun t => t.src == .mover n).getD false

/-- The whole of a Quay-to-Quay descriptor (R486). -/
def moveInQuay (s : State) (n : Fin 8) (d : Desc) (h : Hit) : State × Bool :=
  match moverSource s n d.qaddr d.len h with
  | (s, false) => (s, false)
  | (s, true) =>
    let s := quayWriteBytes s d.caddr (quayBytes s d.qaddr d.len) (moverWriter (s.br.movers.get n))
    (modMover s n fun m => { m with moved := d.len }, true)

/-- STATUS and CTRL written, and NEXT followed (R487). -/
def endDesc (s : State) (n : Fin 8) (d : Desc) : State :=
  let s := writeStatus s (s.br.movers.get n) 0
  if d.next = 0xFFFFFFFF ∨ quaySize ≤ d.next.toNat then moverIdle s n
  else modMover s n fun m => { m with desc := BitVec.ofNat 23 d.next.toNat, moved := 0 }

/-- MOVER_DESCRIPTOR_DONE (R487, R488): the descriptor has been moved whole, or it ends or stops the chain. -/
def execMoverDescriptorDone (n : Fin 8) (hit : Hit) (s : State) : Host.Outcome State Fault Refusal :=
  if moverOut s n then .next s
  else
    match moverReady s n with
    | (s, none) => .next s
    | (s, some d) =>
      if d.dir = 2 then
        match moveInQuay s n d hit with
        | (s, false) => .next (moverFails s n 7)
        | (s, true) => .next (endDesc s n d)
      else if (s.br.movers.get n).moved < d.len then .next s
      else .next (endDesc s n d)

end Sys2Proof.Machine
end

