-- ==== Sys2Proof/Machine/Parapet.lean ====
section
/-! DEFINITION. The commands of the Parapet's safety functions (12_safety_functions_parapet.md). -/

namespace Sys2Proof.Machine

/-- TACHO_EDGE (R412, R420): an edge on CHA, on CHB, or on both, which then come within one logic clock. -/
def execTachoEdge (cha chb : Option Bool) (s : State) : Host.Outcome State Fault Refusal :=
  match tachoPair s with
  | none => .next s
  | some (a, b) =>
    let s := match cha with
      | some v => tachoEdgeOn s true v a
      | none => s
    .next (match chb with
      | some v => tachoEdgeOn s false v b
      | none => s)

/-- ENABLE_RESTORE (R415): once the restore condition has held for 16 ms without a break and nothing else bars it. -/
def execEnableRestore (f : Fin 4) (s : State) : Host.Outcome State Fault Refusal :=
  let x := s.para.funcs.get f
  let held := match holdsFrom s f with
    | some t => decide (t + restoreClocks ≤ logicNow s)
    | none => false
  if x.decl && !x.en && held && !enablesBarred s then
    let s := modFunc s f fun x => { x with en := true, holdFrom := holdsFrom s f }
    .next (refreshDrives (record s 0x0702 (fvalBytes s f)))
  else .next s

/-- QUIET_TIME_REACHED (R414): Pref latched after the latch time of safe position, standstill begun after the standstill
time; Pss is taken as standstill begins. -/
def execQuietTimeReached (f : Fin 4) (s : State) : Host.Outcome State Fault Refusal :=
  let x := s.para.funcs.get f
  let q := quietClocks s x.start
  if !x.decl then .next s
  else if f.val = 2 ∧ msClocks (act s f 2).toNat ≤ q then
    .next (evalFunc (modPara s fun p => { p with pref := p.pos }) f)
  else if f.val = 3 ∧ msClocks (act s f 1).toNat ≤ q ∧ !s.para.still then
    .next (evalFunc (modPara s fun p => { p with still := true, pss := p.pos }) f)
  else .next s

/-- PARAPET_TIDE_SELF_CHECK (R420): what the limit CRC and the comparators of a declared function show. -/
def execParapetTideSelfCheck (crcErr : Option (Fin 4 × Word)) (compErr : Option (Fin 4)) (s : State) :
    Host.Outcome State Fault Refusal :=
  let s := match crcErr with
    | some (f, crc) =>
      if (s.para.funcs.get f).decl then parapetFault s .limitCrc 0x0704 (d1 f.val ++ d4 crc.toNat) else s
    | none => s
  .next (match compErr with
    | some f => if (s.para.funcs.get f).decl then parapetFault s .comparator 0x0705 (d1 f.val) else s
    | none => s)

/-- RAIL_FAULT (R420). -/
def execRailFault (f : Fin 4) (s : State) : Host.Outcome State Fault Refusal :=
  .next (if (s.para.funcs.get f).decl then parapetFault s .rail 0x0703 (d1 f.val) else s)

/-- TACHO_ISLAND_FAULT (R420). -/
def execTachoIslandFault (ch : Chan) (set : Bool) (s : State) : Host.Outcome State Fault Refusal :=
  .next (tachoIsland s ch.val set)

end Sys2Proof.Machine
end

