-- ==== Sys2Proof/Machine/Power.lean ====
section
/-! DEFINITION. The commands of power, feeds, NEAP, temperatures and the front panel
(16_power_and_clocks.md, R519 to R544; 20_connectors_straps_ratings.md, R626 to R633; 09, R353). -/

namespace Sys2Proof.Machine

/-- DOMAIN_SLACK_ENTRY (R530, R531): an idle domain closes its clock gate; it keeps its contents. A pair with a ready task is not
idle. -/
def execDomainSlackEntry (d : SlackDom) (s : State) : Host.Outcome State Fault Refusal :=
  let busy := match d with
    | .cores l p => (pair s l p).active.isSome || (pair s l p).split
    | _ => false
  if !awake s || busy || s.pw.asleep.contains d then .next s
  else .next (modPower s fun p => { p with asleep := d :: p.asleep })

/-- Whether the Headland has power. -/
def headlandOn (s : State) : Bool := s.pw.state != .off

/-- A standby feed takes over from the active one, which is out of limits (R521, R525). Trigger 1 of event 0x0101: the active feed out
of limits (assumption log entry 9). -/
def switchOver (s : State) (old new : FeedId) : State :=
  let s := modPower s fun p => { p with active := some new, swcnt := p.swcnt.inc, lastSwitch := some s.up, full := false }
  record s 0x0101 (feedData old ++ feedData new ++ d1 1)

/-- No feed is in limits: the store carries the bus (R526). -/
def startHoldup (s : State) : State :=
  let s := modPower s fun p => { p with active := none, holdup := true, holdupAt := s.up, holdcnt := p.holdcnt.inc, full := false }
  record s 0x0104 (d2 s.pw.feedA.v.toNat ++ d2 s.pw.feedB.v.toNat)

/-- FEED_OUT_OF_LIMITS (R519, R521, R523, R524, R526): `mv` is the measured voltage. -/
def execFeedOutOfLimits (f : FeedId) (mv : Nat) (s : State) : Host.Outcome State Fault Refusal :=
  if !headlandOn s || !feedUsed s f then .next s
  else
    let s := setFeed s f fun x => { x with v := centi mv, inLim := false, stbyAt := none }
    if s.pw.active ≠ some f then .next s
    else if isStandby s (otherFeed f) then .next (switchOver s f (otherFeed f))
    else .next (startHoldup s)

/-- The straps sampled again as a feed returns (R629): the values in use hold. -/
def resample (s : State) (x : Straps) : State :=
  if x = s.pw.straps then s
  else
    let old := strapWord s.pw.straps s.pw.chg s.pw.unstable
    record (modPower s fun p => { p with chg := true }) 0x0113 (d4 old.toNat ++ d4 (strapWord x false false).toNat)

/-- FEED_IN_LIMITS (R519, R522, R526, R629). The duration of a hold-up is in ms (assumption log entry 9). -/
def execFeedInLimits (f : FeedId) (mv : Nat) (straps : Straps) (s : State) : Host.Outcome State Fault Refusal :=
  if !headlandOn s || !feedUsed s f then .next s
  else
    let was := (feedOf s f).inLim
    let s := setFeed s f fun x => { x with v := centi mv, inLim := true }
    if s.pw.holdup then
      let ms := (s.up - s.pw.holdupAt) / 1000000
      let s := modPower s fun p => { p with active := some f, holdup := false }
      .next (resample (record s 0x0105 (feedData f ++ d4 ms)) straps)
    else if was || s.pw.active == some f then .next s
    else
      let s := setFeed s f fun x => { x with stbyAt := some s.up }
      .next (record (modPower s fun p => { p with retSaid := false }) 0x0102 (feedData f))

/-- FEED_RETURN (R522, R28): to the preferred feed after HOLD seconds of standby, or the return withheld and recorded once. -/
def execFeedReturn (s : State) : Host.Outcome State Fault Refusal :=
  let f := preferred s
  let hold := (policy s).feedHold * 1000000000
  let since := (feedOf s f).stbyAt
  if !headlandOn s || s.pw.pref.getLsbD 1 || s.pw.holdup || !isStandby s f then .next s
  else if !(policy s).feedReturn then
    .next (if s.pw.retSaid then s else record (modPower s fun p => { p with retSaid := true }) 0x0111 (feedData f))
  else
    match since with
    | none => .next s
    | some t =>
      if t + hold ≤ s.up then
        let s := setFeed s (otherFeed f) fun x => { x with stbyAt := some s.up }
        .next (record (modPower s fun p => { p with active := some f }) 0x0103 (feedData f))
      else .next s

/-- STORE_RECHARGED (R525): within 1 s of a feed's return. -/
def execStoreRecharged (s : State) : Host.Outcome State Fault Refusal :=
  .next (if headlandOn s && !s.pw.holdup then modPower s fun p => { p with full := true } else s)

/-- STORE_DEPLETED (R527, R48, R50): every domain is reset, the event goes to FRAM, and the module is OFF. The lifetime counters
stay. -/
def execStoreDepleted (s : State) : Host.Outcome State Fault Refusal :=
  if !headlandOn s || !s.pw.holdup then .next s
  else
    let s := moduleReset (headlandRecord s 0x0106 (d2 s.pw.feedA.v.toNat ++ d2 s.pw.feedB.v.toNat)) true
    .next { s with pw := { resetPower with opsec := s.pw.opsec, pcyc := s.pw.pcyc } }

/-- A voltage within 16.8 V to 30.0 V. -/
def mvInLimits (mv : Nat) : Bool := decide (16800 ≤ mv) && decide (mv ≤ 30000)

/-- The feed that power-on closes: the preferred one in limits, else the other (R520, R524). -/
def firstFeed (s : State) : Option FeedId :=
  let f := preferred s
  let ok (f : FeedId) : Bool := feedUsed s f && (feedOf s f).inLim
  if ok f then some f else if ok (otherFeed f) then some (otherFeed f) else none

/-- The programmed safe states are off before the first COMMIT (R449). -/
def unloadSafe (s : State) : State := { s with chans := s.chans.map fun x => { x with prog := some false } }

/-- POWER_ON (R520, R528, R587, R628): the straps sampled, the power cycle counted, a switch closed, the domains started. With no
feed in limits no switch closes and the module stays OFF. -/
def execPowerOn (straps : Straps) (unstable : Bool) (va vb : Nat) (s : State) : Host.Outcome State Fault Refusal :=
  if headlandOn s then .next s
  else
    let t := takeStraps s straps unstable
    let t := modPower t fun p =>
      { p with pref := straps.feedcfg, pcyc := lifeInc p.pcyc, feedA := ⟨centi va, mvInLimits va, none⟩,
               feedB := ⟨centi vb, mvInLimits vb, none⟩ }
    match firstFeed t with
    | none => .next s
    | some f =>
      let t := moduleReset { t with up := 0, tideUp := 0 } true
      let t := unloadSafe t
      let t := modPower t fun p =>
        { p with active := some f, wakeSrc := .powerOn, reflast := 0xF000, lastWake := 0, lastTry := 0 }
      .next (startDomains t)

/-- An island in NEAP (R439, R440): it sleeps with its switch open; that of a wake channel goes on with its thresholds and its filter, its
sink at the holding current. -/
def sleepIsland (d : Option ChanDecl) (x : ChanSt) : ChanSt :=
  let y := { chanAfter true x with inSafe := false, stale := false, starting := false, causes := [], closed := false, latched := false, prog := some false }
  match d with
  | some d => if d.kind = .wake then { y with acc := x.acc, wcfg := some ⟨(thresholds d).1, (thresholds d).2, d.filter⟩ } else { y with asleep := true }
  | none => { y with asleep := true }

/-- NEAP entered (R314, R439, R440, R536 E3 to E8): the controller stops, the retain image is written, the islands sleep, the ports go
down, the domains lose their power. -/
def enterNeap (s : State) : State :=
  let s := if s.ctl.state = .run then finalRetain (enterStopped s none) else s
  let isles := Vector.ofFn fun c => sleepIsland (chanDecl s c) (s.chans.get c)
  let s := headlandRecord (moduleReset s true) 0x0108 (d4 (s.up * 32768 / 1000000000))
  let s := { s with chans := isles }
  modPower { s with ring := { s.ring with relay := false } } fun p => { p with state := .neap, neapAt := s.up, estep := .none, latch := [], nlatch := 0 }

/-- Cairn writes that wait are completed (R536, E1). -/
def flushCairn (s : State) : State :=
  match s.rc.waiting with
  | some w => sayFull { s with rc := { programBuffer s.rc w s.rc.staging with waiting := none } }
  | none => s

/-- An entry abandoned at A1 or A2 (R536). -/
def abandonEntry (s : State) (r : Nat × Nat) (point : Nat) : State :=
  let s := record (chargeRefusers s [r] point) 0x0109 (d1 r.1 ++ d1 r.2 ++ d1 point)
  modPower s fun p => { p with estep := .none }

/-- NEAP_ATTEMPT (R28, R535, R536): at a boundary whose index is a multiple of 4,000, after the quiet time, the refusers are examined
and the entry runs. `inp2` holds the levels seen at A1 (false) or at A2 (true). -/
def execNeapAttempt (inp : NeapInputs) (inp2 : Option (Bool × NeapInputs)) (s : State) : Host.Outcome State Fault Refusal :=
  if !awake s || s.tide % 4000 ≠ 0 || decide (s.up < max s.pw.lastWake s.pw.lastTry + quietNs s) then .next s
  else
    let s := modPower s fun p => { p with lastTry := s.up }
    let rs := refusers s inp
    if !rs.isEmpty then
      let s := chargeRefusers s rs 0
      let s := if (policy s).sleep then s else record s 0x0112 []
      .next (record s 0x010A (d1 ((rs.map fun r => 2 ^ r.1).foldl (· + ·) 0)))
    else
      let s := flushCairn (record s 0x0107 (d4 s.tide))
      match inp2 with
      | none => .next (enterNeap s)
      | some (atA2, i) =>
        let again := refusers s i
        match abortCause again with
        | some r => .next (abandonEntry s r (if atA2 then 2 else 1))
        | none => .next (enterNeap s)

/-- The energy detectors can be armed: 1 s of NEAP has passed (R538). -/
def armed (s : State) : Bool := decide (s.pw.neapAt + 1000000000 ≤ s.up)

/-- What can wake the module: energy once the detector is armed, and of the channels, a wake channel whose change to ON has been accepted (R439). -/
def wakes (s : State) : WakeSrc → Bool
  | .powerOn => false
  | .channel c => let x := s.chans.get c; x.wcfg.isSome && x.acc
  | .baf => armed s
  | .bar => armed s
  | _ => true

/-- WAKE_LATCH (R537): a wake event between A2 and the end of E7, of which the latch holds 16. -/
def execWakeLatch (src : WakeSrc) (t : Word) (s : State) : Host.Outcome State Fault Refusal :=
  if s.pw.state = .neap ∧ wakes s src ∧ s.pw.latch.length < 16 then .next (modPower s fun p => { p with latch := p.latch ++ [(src, t)] }) else .next s

/-- The islands wake (R440). -/
def wakeIslands (s : State) : State :=
  { s with chans := s.chans.map fun x => { x with asleep := false, wcfg := none, acc := false, starting := true, causes := [.safeState] } }

/-- WAKE (R439, R538, R539, R628): a wake event in NEAP. -/
def execWake (src : WakeSrc) (straps : Straps) (unstable : Bool) (s : State) : Host.Outcome State Fault Refusal :=
  .next (if s.pw.state = .neap ∧ wakes s src then wakeUp (wakeIslands s) src straps unstable else s)

/-- BACKBONE_ENERGY_WAKE (R353, R357, R538): energy on BAF or BAR wakes the module once its detector is armed; line B does not. The straps read as they did. -/
def execBackboneEnergyWake (i : Fin 4) (s : State) : Host.Outcome State Fault Refusal :=
  if s.pw.state = .neap ∧ i.val < 2 ∧ armed s = true then
    let s := headlandRecord s 0x040D (d1 (32 + i.val))
    .next (wakeUp (wakeIslands s) (if i = 0 then .baf else .bar) s.pw.straps s.pw.unstable)
  else .next s

/-- Degrees of a two's-complement reading. -/
def degrees (b : Byte) : Int := b.toInt

/-- The derating step from the present one (R541): entered at its lower bound, left 3 °C below it. -/
def stepFor (ts : Int) (inlet : Int) (n : Nat) : Nat :=
  let bound (k : Nat) : Int := ts + 5 * ((k : Int) - 1)
  let up := if bound 3 ≤ inlet then 3 else if bound 2 ≤ inlet then 2 else if bound 1 ≤ inlet then 1 else 0
  if n < up then up
  else if 3 ≤ n ∧ bound 3 - 3 < inlet then 3
  else if 2 ≤ n ∧ bound 2 - 3 < inlet then 2
  else if 1 ≤ n ∧ bound 1 - 3 < inlet then 1
  else 0

/-- A Keystone or Parapet die at 115 °C, recorded once for each rise: 0 Keystone, 1 Parapet (R543; assumption log entry 9). -/
def hotDie (s : State) (parapet : Bool) (t : Byte) : State :=
  let hot := decide (115 ≤ degrees t)
  let was := if parapet then s.pw.ppHot else s.pw.ksHot
  let s := modPower s fun p => if parapet then { p with ppHot := hot } else { p with ksHot := hot }
  if hot && !was then record s 0x010E (d1 (b2n parapet) ++ [t]) else s

/-- DERATING_STEP (R541, R543): the sensors read every 100 ms. -/
def execDeratingStep (inlet lane ks pp : Byte) (s : State) : Host.Outcome State Fault Refusal :=
  if !stewardRuns s then .next s
  else
    let s := modPower s fun p => { p with inlet := inlet, laneTemp := lane, ksTemp := ks, ppTemp := pp }
    let s := hotDie (hotDie s false ks) true pp
    let old := s.pw.dstep.toNat
    let new := stepFor ((policy s).derate : Int) (degrees inlet) old
    if new = old then .next s
    else .next (record (modPower s fun p => { p with dstep := BitVec.ofNat 2 new }) 0x010D (d1 old ++ d1 new ++ [inlet]))

/-- PM_LED_WRITE (R631). -/
def execPmLedWrite (v : Word) (s : State) : Host.Outcome State Fault Refusal := .next (if awake s then writeLed s v else s)

/-- LED_TEST_EXPIRE (R631): 10 s after TEST was set. -/
def execLedTestExpire (s : State) : Host.Outcome State Fault Refusal :=
  .next (if s.pw.ledTest && decide (s.pw.ledTestAt + 10000000000 ≤ s.up) then modPower s fun p => { p with ledTest := false } else s)

/-- REGISTER_WRITE (R35, R38, R39, R47): a write by a core, or by the steward, to the register at an address, as its domain serves it: a domain that sleeps
is woken first. One that the register does not permit writes nothing; the exception of a core is that of its instruction. -/
def execRegisterWrite (x : Option Ctx) (addr v : Word) (s : State) : Host.Outcome State Fault Refusal :=
  let who : Master := match x with
    | some c => .lane c.lane
    | none => .steward
  let l := match x with
    | some c => c.lane
    | none => .a
  match if addr.toNat % 4 = 0 then regAt addr.toNat else none with
  | some r => .next (if awake s then let t := wakeFor s l addr.toNat; (regSet t who r v).getD t else s)
  | none => .next s

/-- SERVICE_BUTTON_PRESS (R633): every LED for 3 s. -/
def execServiceButtonPress (s : State) : Host.Outcome State Fault Refusal :=
  .next (if awake s then modPower s fun p => { p with litUntil := s.up + 3000000000 } else s)

/-- SERVICE_BUTTON_HOLD (R633): MNT comes up at 1000BASE-T with link-local addressing until the next reset. -/
def execServiceButtonHold (s : State) : Host.Outcome State Fault Refusal :=
  if !awake s then .next s
  else
    let s := modPort (modPower s fun p => { p with mntForced := true }) mntPort fun x => { x with speed := 2 }
    .next (record s 0x0B0D [])

/-- OPERATING_SECONDS_INCREMENT (R50, R528): in every state but OFF. -/
def execOperatingSecondsIncrement (s : State) : Host.Outcome State Fault Refusal :=
  .next (if headlandOn s then modPower s fun p => { p with opsec := lifeInc p.opsec } else s)

end Sys2Proof.Machine
end

