-- ==== Sys2Proof/Machine/Process.lean ====
section
/-! DEFINITION. Timers, counters, time and quality (04_instruction_semantics.md, R131 to R140). -/

namespace Sys2Proof.Machine

/-- The four words of a timer or counter block (R132). -/
structure Block where
  pt   : Word
  et   : Word
  last : Word
  fl   : Word

/-- What a call leaves of its block: ET or CV, LAST, the flags, and Q; a none keeps the word as it is. -/
structure BlockOut where
  et   : Option Word
  last : Option Word
  run  : Bool
  q    : Bool

/-- adv(et) of R133, computed in 33 bits. -/
def adv (b : Block) (now : Word) : Word := BitVec.ofNat 32 (min b.pt.toNat (b.et.toNat + (now - b.last).toNat))

def blkRun (b : Block) : Bool := b.fl.getLsbD 0
def blkPin (b : Block) : Bool := b.fl.getLsbD 1

/-- TON (R134). -/
def tonStep (b : Block) (now : Word) (i : Bool) : BlockOut :=
  if !i then ⟨some 0, none, false, false⟩
  else if !blkRun b then ⟨some 0, some now, true, b.pt == 0⟩
  else ⟨some (adv b now), some now, true, adv b now == b.pt⟩

/-- TOF (R134). -/
def tofStep (b : Block) (now : Word) (i : Bool) : BlockOut :=
  if i then ⟨some 0, none, false, true⟩
  else if blkPin b then ⟨some 0, some now, b.pt != 0, b.pt != 0⟩
  else if blkRun b then ⟨some (adv b now), some now, (adv b now).ult b.pt, (adv b now).ult b.pt⟩
  else ⟨none, none, false, false⟩

/-- TP (R134). -/
def tpStep (b : Block) (now : Word) (i : Bool) : BlockOut :=
  if blkRun b then ⟨some (adv b now), some now, (adv b now).ult b.pt, (adv b now).ult b.pt⟩
  else if i && !blkPin b then ⟨some 0, some now, b.pt != 0, b.pt != 0⟩
  else if i then ⟨none, none, false, false⟩
  else ⟨some 0, none, false, false⟩

/-- CTU (R135): CV saturates at its upper limit. -/
def ctuStep (b : Block) (_now : Word) (i : Bool) : BlockOut :=
  let cv := if i && !blkPin b then (if b.et = 0x7FFFFFFF then b.et else b.et + 1) else b.et
  ⟨if i && !blkPin b then some cv else none, none, false, !cv.slt b.pt⟩

/-- CTD (R135): CV saturates at its lower limit. -/
def ctdStep (b : Block) (_now : Word) (i : Bool) : BlockOut :=
  let cv := if i && !blkPin b then (if b.et = 0x80000000 then b.et else b.et - 1) else b.et
  ⟨if i && !blkPin b then some cv else none, none, false, cv.sle b.pt⟩

/-- FL of a timer: RUN, PIN and PQ; of a counter: PIN alone (R132). -/
def timerFl (o : BlockOut) (i : Bool) : Word := bit o.run 0 ||| bit i 1 ||| bit o.q 2
def counterFl (_o : BlockOut) (i : Bool) : Word := bit i 1

/-- NOW of the running activation. -/
def nowOf (s : State) (c : Core) : Word :=
  match c.timed with
  | some t => ((s.ctl.rel.get c.x.pair).get t).now
  | none => BitVec.ofNat 32 (trainNs s / 1000)

/-- The words of a block read with their codes: the state, and whether all are good. -/
def readBlock (s : State) (c : Core) (ea : Nat) : State × Bool :=
  let r0 := readWord s c ea c.x.data
  let r1 := readWord r0.1 c (ea + 4) .none
  let r2 := readWord r1.1 c (ea + 8) .none
  let r3 := readWord r2.1 c (ea + 12) .none
  (r3.1, r0.2 && r1.2 && r2.2 && r3.2)

/-- One word of a block written, unless a force holds it. -/
def putBlock (s : State) (c : Core) (o : Nat) (w : Option Word) : State :=
  match w with
  | none => s
  | some w => if rwForced s c.x.pair (c.timed.getD 0) o 4 then s else storeWord s c (.bank o) w

/-- What a block word adds to the signature registers. -/
def blockWords (a : Word) (w : Option Word) : List Word :=
  match w with
  | none => []
  | some w => [a, w, 0xF]

/-- The body of a timer or counter (R131 to R135): the block in the task's own RET or WORK, aligned to 16; Q with the tag of
IN. -/
def blockBody (f : FormT) (step : Block → Word → Bool → BlockOut) (fl : BlockOut → Bool → Word) (s : State) (c : Core) : Act :=
  let a := addrT c.bank f
  let q : BitVec 4 := f.q.setWidth 4
  let i := rdB c.bank (f.inp.setWidth 4)
  match ownBlock s c 16 a with
  | .error e => .raise s e a 0
  | .ok o =>
    let ea := ecOf c (.bank o)
    match readBlock s c ea with
    | (s, false) => .raise s .mem a 0
    | (s, true) =>
      let m := (lane s c.x.lane).sram
      let b : Block := ⟨memWord 0 m ea, memWord 0 m (ea + 4), memWord 0 m (ea + 8), memWord 0 m (ea + 12)⟩
      let r := step b (nowOf s c) i.v
      let s := putBlock s c (o + 4) r.et
      let s := putBlock s c (o + 8) r.last
      let s := putBlock s c (o + 12) (some (fl r i.v))
      let reg := if f.q = 0 then [] else [bit r.q 0, zext i.t]
      .go s (nextPc (wrB c.bank q r.q i.t))
        (reg ++ blockWords (a + 4) r.et ++ blockWords (a + 8) r.last ++ blockWords (a + 12) (some (fl r i.v)))

/-- TON: on-delay timer. -/
def execTon (x : Ctx) (f : FormT) (s : State) : Host.Outcome State Fault Refusal :=
  .next (runInstr x (isT 0x59 f) 6 (legalT f) (blockBody f tonStep timerFl) s)

/-- TOF: off-delay timer. -/
def execTof (x : Ctx) (f : FormT) (s : State) : Host.Outcome State Fault Refusal :=
  .next (runInstr x (isT 0x5A f) 6 (legalT f) (blockBody f tofStep timerFl) s)

/-- TP: pulse timer. -/
def execTp (x : Ctx) (f : FormT) (s : State) : Host.Outcome State Fault Refusal :=
  .next (runInstr x (isT 0x5B f) 6 (legalT f) (blockBody f tpStep timerFl) s)

/-- CTU: up-counter. -/
def execCtu (x : Ctx) (f : FormT) (s : State) : Host.Outcome State Fault Refusal :=
  .next (runInstr x (isT 0x5C f) 6 (legalT f) (blockBody f ctuStep counterFl) s)

/-- CTD: down-counter. -/
def execCtd (x : Ctx) (f : FormT) (s : State) : Host.Outcome State Fault Refusal :=
  .next (runInstr x (isT 0x5D f) 6 (legalT f) (blockBody f ctdStep counterFl) s)

/-- NOW: the release instant in µs, or the live train time in untimed work (R136, R137). -/
def execNow (x : Ctx) (f : FormA) (s : State) : Host.Outcome State Fault Refusal :=
  .next (runInstr x (isA 0x5E f) 1 (legalA1 f) (fun s c =>
    giveW s c.bank f.d (nowOf s c) (if c.timed.isSome then neutral else outside)) s)

/-- The tide index that TIDE returns (R136, R137). -/
def tideOf (s : State) (c : Core) : Word :=
  match c.timed with
  | some t => ((s.ctl.rel.get c.x.pair).get t).tide
  | none => BitVec.ofNat 32 (tideNow s)

/-- TIDE: the index of the tide that begins at the release, or the live one (R136, R137). -/
def execTide (x : Ctx) (f : FormA) (s : State) : Host.Outcome State Fault Refusal :=
  .next (runInstr x (isA 0x5F f) 1 (legalA1 f) (fun s c =>
    giveW s c.bank f.d (tideOf s c) (if c.timed.isSome then neutral else outside)) s)

/-- AGE: the AGE field of the operand's tag (R138). -/
def execAge (x : Ctx) (f : FormA) (s : State) : Host.Outcome State Fault Refusal :=
  .next (runInstr x (isA 0x60 f) 1 (legalA2 f) (fun s c => giveW s c.bank f.d (zext (tagAge (rdW c.bank f.s1).t)) neutral) s)

/-- QCHK: the tag test of R139. -/
def execQchk (x : Ctx) (f : FormB) (s : State) : Host.Outcome State Fault Refusal :=
  .next (runInstr x (isB 0x61 f) 1 (legalB f && bitField f.d && qchkLegal f.imm) (fun s c =>
    giveB s c.bank f.d (qchkPass (rdW c.bank f.s1).t f.imm) neutral) s)

/-- SUBST: the operand while VALID, else the substitute (R140). -/
def execSubst (x : Ctx) (f : FormA) (s : State) : Host.Outcome State Fault Refusal :=
  .next (runInstr x (isA 0x62 f) 1 (legalA3 f) (fun s c =>
    let a := rdW c.bank f.s1
    let b := rdW c.bank f.s2
    if tagValid a.t then giveW s c.bank f.d a.v a.t else giveW s c.bank f.d b.v (substTag a.t b.t)) s)

end Sys2Proof.Machine
end

