-- ==== Sys2Proof/Types/Float.lean ====
section
/-! DEFINITION. What a REAL32 word stands for (04_instruction_semantics.md, REAL32). -/

namespace Sys2Proof

/-- A REAL32 operand as an instruction reads it: a NaN, quiet or signalling; an infinity; or the number `m`·2^`e` with its
sign, a zero having `m` = 0. Subnormal words read as zeros (R121). -/
inductive Flt where
  | nan (signalling : Bool)
  | inf (neg : Bool)
  | fin (neg : Bool) (m : Nat) (e : Int)
  deriving DecidableEq, Repr

end Sys2Proof
end

