-- ==== Sys2Proof/Machine/Float.lean ====
section
/-! DEFINITION. REAL32 arithmetic: binary32 with subnormals read and delivered as zero, rounding to nearest even
(04_instruction_semantics.md, R120 to R126). -/

namespace Sys2Proof.Machine

/-- The canonical quiet NaN (R123). -/
def fNan : Word := 0x7FC00000

/-- Bit 31 with the rest. -/
def fSign (neg : Bool) (rest : Word) : Word := if neg then rest ||| 0x80000000 else rest

def fZero (neg : Bool) : Word := fSign neg 0
def fInf (neg : Bool) : Word := fSign neg 0x7F800000

/-- A word as a REAL32 instruction reads it (R121). -/
def fUnpack (w : Word) : Flt :=
  let neg := w.getLsbD 31
  let e := field w 30 23
  let f := field w 22 0
  if e = 255 then (if f = 0 then .inf neg else .nan (!w.getLsbD 22))
  else if e = 0 then .fin neg 0 0
  else .fin neg (8388608 + f) ((e : Int) - 150)

/-- A word after R121: a subnormal is a zero of the same sign. -/
def fFlush (w : Word) : Word := if field w 30 23 = 0 then fZero (w.getLsbD 31) else w

/-- `m` divided by 2^`n`, to nearest, ties to even (R120). -/
def roundShift (m n : Nat) : Nat :=
  let q := m / 2 ^ n
  let r := m % 2 ^ n
  if 2 ^ n < 2 * r ∨ (2 ^ n = 2 * r ∧ q % 2 = 1) then q + 1 else q

/-- The word with a 24-bit significand and its exponent: an infinity above the range (R122), a zero below 2^-126 (R121). -/
def fPack (neg : Bool) (q : Nat) (e : Int) : Word :=
  if 104 < e then fInf neg
  else if e < -149 then fZero neg
  else fSign neg (BitVec.ofNat 32 ((e + 150).toNat * 8388608 + (q - 8388608)))

/-- The exact number `m`·2^`e` rounded to 24 significant bits and delivered (R120 to R122). -/
def fRound (neg : Bool) (m : Nat) (e : Int) : Word :=
  if m = 0 then fZero neg
  else
    let n := Nat.log2 m + 1
    if n ≤ 24 then fPack neg (m * 2 ^ (24 - n)) (e - ((24 - n : Nat) : Int))
    else
      let q := roundShift m (n - 24)
      if q = 16777216 then fPack neg 8388608 (e + ((n - 24 : Nat) : Int) + 1) else fPack neg q (e + ((n - 24 : Nat) : Int))

/-- Whether a word is a NaN, and a signalling one. -/
def fIsNan (w : Word) : Bool := match fUnpack w with | .nan _ => true | _ => false
def fIsSnan (w : Word) : Bool := match fUnpack w with | .nan s => s | _ => false

/-- A result: the word, whether the operation is invalid (R124), whether it sets DZ (R126). -/
abbrev FRes := Word × Bool × Bool

def fOk (w : Word) : FRes := (w, false, false)
def fInvalid : FRes := (fNan, true, false)

/-- The result with a NaN operand: signalling is invalid, quiet passes (R123, R124). -/
def fNanRes (s : Bool) : FRes := if s then fInvalid else fOk fNan

/-- The signed sum of two exact numbers; an exact zero of differing signs is +0. -/
def addExact (na : Bool) (ma : Nat) (ea : Int) (nb : Bool) (mb : Nat) (eb : Int) : Word :=
  let e := min ea eb
  let va : Int := (ma * 2 ^ (ea - e).toNat : Nat)
  let vb : Int := (mb * 2 ^ (eb - e).toNat : Nat)
  let v := (if na then -va else va) + (if nb then -vb else vb)
  if v = 0 then fZero (na && nb) else fRound (decide (v < 0)) v.natAbs e

def fAdd (a b : Word) : FRes :=
  match fUnpack a, fUnpack b with
  | .nan s, .nan t => fNanRes (s || t)
  | .nan s, _ => fNanRes s
  | _, .nan s => fNanRes s
  | .inf s, .inf t => if s = t then fOk (fInf s) else fInvalid
  | .inf s, .fin _ _ _ => fOk (fInf s)
  | .fin _ _ _, .inf s => fOk (fInf s)
  | .fin na ma ea, .fin nb mb eb => fOk (addExact na ma ea nb mb eb)

/-- FSUB adds the operand with its sign inverted; a NaN stays what it is. -/
def fSub (a b : Word) : FRes := fAdd a (b ^^^ 0x80000000)

def fMul (a b : Word) : FRes :=
  match fUnpack a, fUnpack b with
  | .nan s, .nan t => fNanRes (s || t)
  | .nan s, _ => fNanRes s
  | _, .nan s => fNanRes s
  | .inf s, .inf t => fOk (fInf (s != t))
  | .inf s, .fin t m _ => if m = 0 then fInvalid else fOk (fInf (s != t))
  | .fin t m _, .inf s => if m = 0 then fInvalid else fOk (fInf (s != t))
  | .fin na ma ea, .fin nb mb eb => fOk (fRound (na != nb) (ma * mb) (ea + eb))

/-- The quotient of two non-zero numbers: 50 quotient bits, and one that tells an inexact one. -/
def divExact (neg : Bool) (ma : Nat) (ea : Int) (mb : Nat) (eb : Int) : Word :=
  let n := ma * 2 ^ 50
  fRound neg (2 * (n / mb) + (if n % mb = 0 then 0 else 1)) (ea - eb - 51)

def fDiv (a b : Word) : FRes :=
  match fUnpack a, fUnpack b with
  | .nan s, .nan t => fNanRes (s || t)
  | .nan s, _ => fNanRes s
  | _, .nan s => fNanRes s
  | .inf _, .inf _ => fInvalid
  | .inf s, .fin t _ _ => fOk (fInf (s != t))
  | .fin s _ _, .inf t => fOk (fZero (s != t))
  | .fin na ma ea, .fin nb mb eb =>
    if mb = 0 then (if ma = 0 then fInvalid else (fInf (na != nb), false, true))
    else if ma = 0 then fOk (fZero (na != nb))
    else fOk (divExact (na != nb) ma ea mb eb)

/-- The integer square root of a number below 2^(2n), bit by bit from bit n − 1. -/
def sqrtBits (x : Nat) : Nat → Nat → Nat
  | 0, r => r
  | n + 1, r => let t := r + 2 ^ n; if t * t ≤ x then sqrtBits x n t else sqrtBits x n r

/-- The square root of a non-zero number: the exponent made even, 52 more bits, and one that tells an inexact root. -/
def sqrtExact (m : Nat) (e : Int) : Word :=
  let odd := e % 2 = 1
  let m := if odd then 2 * m else m
  let e := if odd then e - 1 else e
  let x := m * 2 ^ 52
  let r := sqrtBits x 40 0
  fRound false (2 * r + (if r * r = x then 0 else 1)) (e / 2 - 27)

def fSqrt (a : Word) : FRes :=
  match fUnpack a with
  | .nan s => fNanRes s
  | .inf s => if s then fInvalid else fOk (fInf false)
  | .fin neg m e => if m = 0 then fOk (fZero neg) else if neg then fInvalid else fOk (sqrtExact m e)

/-- The order of flushed numbers that are no NaN: −0 and +0 are equal. -/
def fKey (w : Word) : Int := let m : Int := (field (fFlush w) 30 0 : Nat); if w.getLsbD 31 then -m else m

/-- FMIN and FMAX; `lt` picks the order. Of equal numbers the one with the sign that `neg` names is delivered. -/
def fPick (lt : Int → Int → Bool) (neg : Bool) (a b : Word) : FRes :=
  if fIsSnan a || fIsSnan b then fInvalid
  else if fIsNan a then (if fIsNan b then fOk fNan else fOk (fFlush b))
  else if fIsNan b then fOk (fFlush a)
  else if lt (fKey a) (fKey b) then fOk (fFlush a)
  else if lt (fKey b) (fKey a) then fOk (fFlush b)
  else if a.getLsbD 31 = neg then fOk (fFlush a) else fOk (fFlush b)

def fMin (a b : Word) : FRes := fPick (fun x y => decide (x < y)) true a b
def fMax (a b : Word) : FRes := fPick (fun x y => decide (y < x)) false a b

/-- FABS and FNEG after R121 (REAL32 results). -/
def fAbs (a : Word) : FRes := fOk (fFlush a &&& 0x7FFFFFFF)
def fNeg (a : Word) : FRes := fOk (fFlush a ^^^ 0x80000000)

/-- FSCALE: the number times 2^n, rounded once. -/
def fScale (a : Word) (n : Int) : FRes :=
  match fUnpack a with
  | .nan s => fNanRes s
  | .inf s => fOk (fInf s)
  | .fin neg m e => fOk (fRound neg m (e + n))

/-- ITOF. -/
def fOfInt (a : Word) : FRes := fOk (fRound (decide (a.toInt < 0)) a.toInt.natAbs 0)

/-- The nearest integer to `m`·2^`e`, ties to even. -/
def fInt (m : Nat) (e : Int) : Nat := if 0 ≤ e then m * 2 ^ e.toNat else roundShift m (-e).toNat

/-- FTOI (R124). -/
def fToInt (a : Word) : FRes :=
  match fUnpack a with
  | .nan _ => (0, true, false)
  | .inf s => (if s then 0x80000000 else 0x7FFFFFFF, true, false)
  | .fin neg m e =>
    let v : Int := if neg then -(fInt m e : Int) else fInt m e
    if 2147483647 < v then (0x7FFFFFFF, true, false)
    else if v < -2147483648 then (0x80000000, true, false)
    else fOk (BitVec.ofInt 32 v)

/-- FLIM (R124 and the table of results). -/
def fLim (a lo hi : Word) : FRes :=
  if fIsNan a || fIsNan lo || fIsNan hi then fInvalid
  else if fKey hi < fKey lo then fOk (fFlush hi)
  else if fKey a < fKey lo then fOk (fFlush lo)
  else if fKey hi < fKey a then fOk (fFlush hi)
  else fOk (fFlush a)

/-- FCMP: the condition of R101 and R125. -/
def fCmp (c : BitVec 4) (a b : Word) : Bool :=
  let un := fIsNan a || fIsNan b
  let x := fKey a
  let y := fKey b
  match c.toNat with
  | 0 => !un && decide (x = y)
  | 1 => un || decide (x ≠ y)
  | 2 => !un && decide (x < y)
  | 3 => !un && decide (y ≤ x)
  | 4 => !un && decide (x ≤ y)
  | 5 => !un && decide (y < x)
  | 10 => un
  | 11 => !un
  | _ => false

end Sys2Proof.Machine
end

