-- ==== Sys2Proof/Machine/Real.lean ====
section
/-! DEFINITION. The REAL32 instructions (04_instruction_semantics.md, R120 to R126; costs of R103). -/

namespace Sys2Proof.Machine

/-- The flags after a REAL32 operation. -/
def fFlags (b : Bank) (r : FRes) : Bank := { b with finv := b.finv || r.2.1, dz := b.dz || r.2.2 }

/-- A REAL32 result in a word register. An invalid operation raises EX_ARITH while FINVTRAP is 1, and writes nothing then
(R124, R82). -/
def giveF (s : State) (c : Core) (d : BitVec 4) (r : FRes) (t : Byte) : Act :=
  if r.2.1 && finvTrap s c then .raise s .arith 0 0 else giveW s (fFlags c.bank r) d r.1 t

def binF (f : FormA) (op : Word → Word → FRes) (s : State) (c : Core) : Act :=
  let a := rdW c.bank f.s1
  let b := rdW c.bank f.s2
  giveF s c f.d (op a.v b.v) (comb a.t b.t)

def unF (f : FormA) (op : Word → FRes) (s : State) (c : Core) : Act :=
  let a := rdW c.bank f.s1
  giveF s c f.d (op a.v) a.t

/-- The exponent of FSCALE: s32 of Wt, or the signed IMM5. -/
def scaleBy (b : Bank) (f : FormA) : Int := if f.i then f.imm5.toInt else (rdW b f.s2).v.toInt

/-- FADD. -/
def execFadd (x : Ctx) (f : FormA) (s : State) : Host.Outcome State Fault Refusal :=
  .next (runInstr x (isA 0x30 f) 3 (legalA3 f) (binF f fAdd) s)

/-- FSUB. -/
def execFsub (x : Ctx) (f : FormA) (s : State) : Host.Outcome State Fault Refusal :=
  .next (runInstr x (isA 0x31 f) 3 (legalA3 f) (binF f fSub) s)

/-- FMUL. -/
def execFmul (x : Ctx) (f : FormA) (s : State) : Host.Outcome State Fault Refusal :=
  .next (runInstr x (isA 0x32 f) 3 (legalA3 f) (binF f fMul) s)

/-- FDIV (R126). -/
def execFdiv (x : Ctx) (f : FormA) (s : State) : Host.Outcome State Fault Refusal :=
  .next (runInstr x (isA 0x33 f) 14 (legalA3 f) (binF f fDiv) s)

/-- FSQRT. -/
def execFsqrt (x : Ctx) (f : FormA) (s : State) : Host.Outcome State Fault Refusal :=
  .next (runInstr x (isA 0x34 f) 16 (legalA2 f) (unF f fSqrt) s)

/-- FMIN. -/
def execFmin (x : Ctx) (f : FormA) (s : State) : Host.Outcome State Fault Refusal :=
  .next (runInstr x (isA 0x35 f) 1 (legalA3 f) (binF f fMin) s)

/-- FMAX. -/
def execFmax (x : Ctx) (f : FormA) (s : State) : Host.Outcome State Fault Refusal :=
  .next (runInstr x (isA 0x36 f) 1 (legalA3 f) (binF f fMax) s)

/-- FABS. -/
def execFabs (x : Ctx) (f : FormA) (s : State) : Host.Outcome State Fault Refusal :=
  .next (runInstr x (isA 0x37 f) 1 (legalA2 f) (unF f fAbs) s)

/-- FNEG. -/
def execFneg (x : Ctx) (f : FormA) (s : State) : Host.Outcome State Fault Refusal :=
  .next (runInstr x (isA 0x38 f) 1 (legalA2 f) (unF f fNeg) s)

/-- FCMP (R125); a signalling NaN is invalid (R124). -/
def execFcmp (x : Ctx) (f : FormA) (s : State) : Host.Outcome State Fault Refusal :=
  .next (runInstr x (isA 0x39 f) 1 (legalA4 f && bitField f.d && fcmpCode f.s3) (fun s c =>
    let a := rdW c.bank f.s1
    let b := rdW c.bank f.s2
    let bad := fIsSnan a.v || fIsSnan b.v
    if bad && finvTrap s c then .raise s .arith 0 0
    else giveB s { c.bank with finv := c.bank.finv || bad } f.d (fCmp f.s3 a.v b.v) (comb a.t b.t)) s)

/-- FTOI (R124). -/
def execFtoi (x : Ctx) (f : FormA) (s : State) : Host.Outcome State Fault Refusal :=
  .next (runInstr x (isA 0x3A f) 2 (legalA2 f) (unF f fToInt) s)

/-- ITOF. -/
def execItof (x : Ctx) (f : FormA) (s : State) : Host.Outcome State Fault Refusal :=
  .next (runInstr x (isA 0x3B f) 2 (legalA2 f) (unF f fOfInt) s)

/-- FLIM (R124). -/
def execFlim (x : Ctx) (f : FormA) (s : State) : Host.Outcome State Fault Refusal :=
  .next (runInstr x (isA 0x3C f) 1 (legalA4 f) (fun s c =>
    let a := rdW c.bank f.s1
    let lo := rdW c.bank f.s2
    let hi := rdW c.bank f.s3
    giveF s c f.d (fLim a.v lo.v hi.v) (comb3 a.t lo.t hi.t)) s)

/-- FSCALE. -/
def execFscale (x : Ctx) (f : FormA) (s : State) : Host.Outcome State Fault Refusal :=
  .next (runInstr x (isA 0x3D f) 1 (legalShift f) (fun s c =>
    giveF s c f.d (fScale (rdW c.bank f.s1).v (scaleBy c.bank f)) (shiftTag c.bank f)) s)

end Sys2Proof.Machine
end

