-- ==== Sys2Proof/Machine/Sessions.lean ====
section
/-! DEFINITION. Sessions, passwords, keys, status and reads of the engineering service protocol
(17_engineering_service.md, R553 to R565; 18, R582, R584). -/

namespace Sys2Proof.Machine

/-- The record of a role that has a password; VIEW has none (R553). -/
def recIdx : Role → Option (Fin 3)
  | .view => none
  | .maint => some 0
  | .engineer => some 1
  | .owner => some 2

def zeroSalt : List Byte := List.replicate 16 0

def saltOf (s : State) (r : Role) : List Byte :=
  match recIdx r with
  | none => zeroSalt
  | some i => (s.svc.recs.get i).salt

/-- H of a role; none where it has no password (R553, R554). -/
def hashOf (s : State) (r : Role) : Option (List Byte) :=
  match recIdx r with
  | none => some (Config.shake256 zeroSalt)
  | some i => (s.svc.recs.get i).hash

/-- The lockout seconds that remain (R555). -/
def lockSeconds (s : State) (r : Role) : Word :=
  match recIdx r with
  | none => 0
  | some i =>
    match (s.svc.recs.get i).lockEnd with
    | some e => if s.pw.opsec.toNat < e.toNat then e - s.pw.opsec else 0
    | none => 0

def roleLocked (s : State) (r : Role) : Bool := lockSeconds s r != 0

/-- `n` fresh bytes (assumption log entry 3). -/
def drawn (s : State) (n : Nat) : List Byte := (List.range n).map (Config.draw s.fresh)

def modRec (s : State) (r : Role) (f : RoleRec → RoleRec) : State :=
  match recIdx r with
  | none => s
  | some i => { s with svc := { s.svc with recs := vmod s.svc.recs i f } }

/-- HELLO (R556, R557): a fresh module nonce. -/
def doHello (e : Env) (role : Role) (nc : List Byte) (s : State) : State :=
  admitDatagram s e 0x0001 fun s =>
    if nc.length ≠ 16 then sendBare s e 0x0001 0x0007 .empty
    else
      let ns := drawn s 16
      let live := s.svc.nonces.filter fun n => decide (s.up ≤ n.at_ + 10000000000) && !(n.role == role && n.nc == nc)
      let s := { s with fresh := s.fresh + 1, svc := { s.svc with nonces := { role := role, nc := nc, ns := ns, at_ := s.up } :: live } }
      sendBare s e 0x0001 0 (.hello (saltOf s role) ns s.boot.uid (lockSeconds s role))

/-- The lockout of the `n`th consecutive failure, in seconds (R555): none before the fifth. -/
def lockTime (n : Nat) : Nat := if n < 5 then 0 else min 3600 (60 * 2 ^ (n - 5))

/-- A failed LOGIN (R555, R574, R575): VIEW is never locked out. -/
def loginFails (s : State) (e : Env) (role : Role) : State :=
  let s := { s with svc := { s.svc with authFail := s.svc.authFail.inc } }
  let n := match recIdx role with
    | none => 1
    | some i => (s.svc.recs.get i).fails + 1
  let s := record s 0x0B03 (d1 (roleNo role) ++ d4 n)
  let t := lockTime n
  let s := modRec s role fun r =>
    { r with fails := n, lockEnd := if t = 0 then r.lockEnd else some (s.pw.opsec + BitVec.ofNat 32 t) }
  let s := if (recIdx role).isSome && t != 0 then record s 0x0B04 (d1 (roleNo role) ++ d4 t) else s
  sendBare s e 0x0002 0x0004 .empty

/-- A session identifier other than 0 that no session has: the drawn one where it can serve (R556). -/
def newSessionId (s : State) : Word :=
  let used (w : Word) : Bool := w == 0 || (session? s w).isSome
  let w := wordAt (drawn s 4) 0
  if used w then ((([1, 2, 3, 4, 5] : List Word).find? fun w => !used w).getD 1) else w

/-- A session opens (R556, R559). -/
def openSession (s : State) (e : Env) (role : Role) (h nc ns : List Byte) : State :=
  let id := newSessionId s
  let x : Session :=
    { id := id, role := role, key := Config.kmac256 h (nc ++ ns) 32 (strBytes "SAHDAL SESSION"), last := none, reply := none,
      idleFrom := s.up, iface := e.iface, ip := e.ip, factory := role == .owner && s.svc.facPw }
  let s := { s with fresh := s.fresh + 1, svc := { s.svc with sessions := s.svc.sessions ++ [x], sessCnt := s.svc.sessCnt.inc } }
  let s := modRec s role fun r => { r with fails := 0, lockEnd := none }
  let s := record s 0x0B01 (d1 (roleNo role) ++ d1 (ifaceNo e.iface) ++ d4 (if e.iface = .backbone then 0 else e.ip).toNat)
  send s (mkReply s e 0x0002 id 0 (.session id) true)

/-- Beyond the limits of R559: four sessions, of which one may hold ENGINEER or OWNER. -/
def sessionLimit (s : State) (role : Role) : Bool :=
  decide (4 ≤ s.svc.sessions.length) || (decide (2 ≤ roleNo role) && s.svc.sessions.any fun x => decide (2 ≤ roleNo x.role))

/-- The proof of a LOGIN (R556). -/
def loginProof (s : State) (h ns nc : List Byte) (role : Role) : List Byte :=
  Config.kmac256 h (ns ++ nc ++ beBytes 8 s.boot.uid.toNat ++ d1 (roleNo role)) 32 (strBytes "SAHDAL LOGIN")

/-- LOGIN (R554 to R557, R559). The nonce serves one LOGIN. -/
def doLogin (e : Env) (role : Role) (nc proof : List Byte) (s : State) : State :=
  admitDatagram s e 0x0002 fun s =>
    let n := s.svc.nonces.find? fun n => n.role = role ∧ n.nc = nc ∧ s.up ≤ n.at_ + 10000000000
    let s := { s with svc := { s.svc with nonces := s.svc.nonces.filter fun x => !(x.role == role && x.nc == nc) } }
    if roleLocked s role then sendBare s e 0x0002 0x0003 (.seconds (lockSeconds s role))
    else if sessionLimit s role then sendBare s e 0x0002 0x0005 .empty
    else
      match n, hashOf s role with
      | some n, some h => if proof = loginProof s h n.ns nc role then openSession s e role h nc n.ns else loginFails s e role
      | _, _ => loginFails s e role

/-- LOGOUT (R559). -/
def doLogout (e : Env) (s : State) : State :=
  serve s e 0x0003 .view anyState fun s x => okReply (closeSession s x.id 1) .empty

/-- The password that a PASSWD carries (R564). -/
def unmask (x : Session) (seq : Word) (masked : List Byte) : List Byte :=
  let m := Config.kmac256 x.key (beBytes 4 seq.toNat) 64 (strBytes "SAHDAL PASSWD")
  (masked.zip m).map fun p => p.1 ^^^ p.2

/-- PASSWD (R554, R564). -/
def doPasswd (e : Env) (role : Role) (masked : List Byte) (s : State) : State :=
  serve s e 0x0004 .owner anyState fun s x =>
    if role = .view ∨ masked.length < 12 ∨ 64 < masked.length then reject s 0x0007
    else
      let salt := drawn s 16
      let h := Config.shake256 (salt ++ unmask x e.seq masked)
      let s := modRec { s with fresh := s.fresh + 1 } role fun _ => { salt := salt, hash := some h, fails := 0, lockEnd := none }
      let s := if role = .owner then { s with svc := { s.svc with facPw := false } } else s
      let s := forAll ((s.svc.sessions.filter fun y => y.role == role && y.id != x.id).map (·.id)) s fun s id => closeSession s id 3
      let s := record s 0x0B06 (d1 (roleNo role))
      okReply (logChange s (peerOf e x) 0x0004 0 [BitVec.ofNat 32 (roleNo role)]) .empty

/-- The events and the log entry of a key-slot command (R570, R575, R584), with the slot's state as the reply. -/
def keyDone (s : State) (e : Env) (x : Session) (slot op state : Nat) : SvcOut :=
  let s := recordKey s slot op state
  let s := record s 0x0B07 (d1 slot ++ d1 op ++ d1 state)
  okReply (logChange s (peerOf e x) 0x0005 0 [BitVec.ofNat 32 slot, BitVec.ofNat 32 op, BitVec.ofNat 32 state]) (.count state)

/-- KEYSLOT, operation 0x01 (R584). -/
def doKeyInstall (e : Env) (n : Fin 4) (key : List Byte) (s : State) : State :=
  serve s e 0x0005 .owner stoppedOrService fun s x =>
    if slotState (s.boot.okeys.get n) ≠ 0 ∨ key.length ≠ 68 ∨ key.take 4 ≠ Config.xmssOid then reject s 0x0007
    else keyDone { s with boot := { s.boot with okeys := s.boot.okeys.set n { key := key, prog := true, revoked := false } } } e x (16 + n.val) 1 1

/-- KEYSLOT, operation 0x02 (R584). -/
def doKeyRevoke (e : Env) (vendor : Bool) (n : Fin 4) (s : State) : State :=
  serve s e 0x0005 .owner stoppedOrService fun s x =>
    let keys := if vendor then s.boot.vkeys else s.boot.okeys
    let live := (keys.toList.filter slotActive).length
    if !slotActive (keys.get n) || live ≤ 1 then reject s 0x0007
    else
      let keys := vmod keys n fun k => { k with revoked := true }
      let s := if vendor then { s with boot := { s.boot with vkeys := keys } } else { s with boot := { s.boot with okeys := keys } }
      keyDone s e x (if vendor then n.val else 16 + n.val) 2 2

/-- The words of a STATUS reply (R563). -/
def statusWords (s : State) : List Word :=
  [regGet s .svCtrl, regGet s .svLane, regGet s .svAdmit, regGet s .svForce, regGet s .svOlc, regGet s .pmStat, regGet s .tiStat,
   regGet s .ksRing, BitVec.ofNat 32 (tideNow s), s.pw.opsec, s.pw.pcyc, BitVec.ofNat 32 (bankNo s.boot.bank), s.boot.fwVer,
   s.boot.appVer, BitVec.ofNat 32 (jstateNo (journalOf s).state)]

/-- STATUS. -/
def doStatus (e : Env) (s : State) : State := serve s e 0x0010 .view anyState fun s _ => okReply s (.words (statusWords s))

/-- One word of a READ item at a lane address (R565); none outside its space, or where the steward's read meets uncorrectable data
(assumption log entry 27). -/
def peekWord (s : State) (sp : ReadSpace) (a : Nat) : State × Option Word :=
  match sp with
  | .regs l =>
    match regAt a with
    | none => (s, none)
    | some r => let x := regRead (wakeFor s l a) r; (x.1, some x.2)
  | .bank l p =>
    match l.or (leadLane s) with
    | none => (s, none)
    | some l =>
      if a < 0x200000 then
        let ea := bankBase p + a
        let r := eccRead s (.lane l) ea .steward (dmgFind (lane s l).dmg ea)
        (r.1, if r.2 then some (memWord 0 (lane s l).sram ea) else none)
      else (s, none)
  | .common l =>
    if 0x1000000 ≤ a ∧ a < 0x1800000 then
      let ea := commonBase + (a - 0x1000000)
      let s := wake s (.common l)
      let r := eccRead s (.lane l) ea .steward (dmgFind (lane s l).dmg ea)
      (r.1, if r.2 then some (memWord 0 (lane s l).sram ea) else none)
    else (s, none)
  | .quay =>
    if 0x20000000 ≤ a ∧ a < 0x20000000 + quaySize then
      let o := a - 0x20000000
      let r := quayHit s o .steward .none
      (r.1, if r.2 then some (quayWord r.1 o) else none)
    else (s, none)

/-- The words of a READ, from the addresses that its items name. -/
def readAll (s : State) : List (ReadSpace × Nat) → State × Option (List Word)
  | [] => (s, some [])
  | x :: rest =>
    match peekWord s x.1 x.2 with
    | (s, none) => (s, none)
    | (s, some w) =>
      match readAll s rest with
      | (s, none) => (s, none)
      | (s, some ws) => (s, some (w :: ws))

/-- READ (R565). -/
def doRead (e : Env) (items : List ReadItem) (s : State) : State :=
  serve s e 0x0011 .view anyState fun s _ =>
    let total := (items.map (·.n)).foldl (· + ·) 0
    let ok := decide (1 ≤ items.length) && decide (items.length ≤ 32) && decide (total ≤ 352) &&
      items.all fun i => decide (1 ≤ i.n) && decide (i.n ≤ 256) && i.addr.toNat % 4 == 0
    if !ok then reject s 0x0007
    else
      match readAll s (items.flatMap fun i => (List.range i.n).map fun k => (i.space, i.addr.toNat + 4 * k)) with
      | (s, some ws) => okReply s (.words ws)
      | (s, none) => reject s 0x0007

end Sys2Proof.Machine
end

