-- ==== Sys2Proof/Machine/Loads.lean ====
section
/-! DEFINITION. Application loads, updates and their confirmation through the engineering service protocol
(17_engineering_service.md, R568, R569; 18_boot_update_and_trust.md, R586, R592 to R600). -/

namespace Sys2Proof.Machine

def setSeq (s : State) (q : Option LoadSeq) : State := { s with boot := { s.boot with seq := q } }

/-- An update of a kind, as LoadSeq names it. -/
def isUpd : SeqKind → Bool
  | .app => false
  | .upd _ => true

/-- The open sequence of a session, of the kind asked for; else the status of the rejection: another session holds one, or none is
open (assumption log entry 30). -/
def ownSeq (s : State) (x : Session) (upd : Bool) : LoadSeq ⊕ Nat :=
  match s.boot.seq with
  | none => .inr 0x0007
  | some q => if q.session ≠ x.id then .inr 0x0005 else if isUpd q.kind = upd then .inl q else .inr 0x0007

/-- The journal forbids an application load: a staged image is on trial (R600). -/
def onTrial (s : State) : Bool :=
  let j := (journalOf s).state
  j == .staged || j == .trialBoot || j == .trialRun

/-- APPBEGIN (R569, R600). -/
def doAppbegin (e : Env) (length : Nat) (s : State) : State :=
  serve s e 0x0050 .engineer stoppedOrService fun s x =>
    if onTrial s then reject s 0x000B
    else if s.boot.seq.isSome then reject s 0x0005
    else if length = 0 ∨ appSlot < length then reject s 0x0007
    else
      let s := setSeq s (some { kind := .app, session := x.id, length := length, blocks := [] })
      okReply (record s 0x0B0A (d4 length ++ d1 0)) .empty

/-- Where a block of a sequence goes: the bank, and the slot with the offset in it (R568, R592). -/
inductive LoadPlace where
  | app (second : Bool) (off : Nat)
  | fw (off : Nat)
  deriving DecidableEq, Repr

/-- The place of an offset: the area not in force of the booted bank, or Slipway (R577, R592). -/
def placeOf (s : State) (k : SeqKind) (off : Nat) : BankId × LoadPlace :=
  match k with
  | .app => (s.boot.bank, .app (!(settingsOf (bankOf s s.boot.bank)).area) off)
  | .upd _ => (targetBank s, if off < fwSlot then .fw off else .app false (off - fwSlot))

/-- The bytes that stand in flash at a place. -/
def flashRead (s : State) (b : BankId) (p : LoadPlace) (n : Nat) : List Byte :=
  match p with
  | .app second off => memReadN 0xFF (appArea (bankOf s b) second) off n
  | .fw off => memReadN 0xFF (bankOf s b).fw off n

def flashWrite (s : State) (b : BankId) (p : LoadPlace) (data : List Byte) : State :=
  let s := wake s .flash
  match p with
  | .app second off => modBank s b fun x =>
      setAppArea (cureFlash x (appStart second + off) data.length) second (memWriteN 0xFF (appArea x second) off data)
  | .fw off => modBank s b fun x => { cureFlash x off data.length with fw := memWriteN 0xFF x.fw off data }

/-- Bytes written so far. -/
def written (q : LoadSeq) : Nat := (q.blocks.map (·.2)).foldl (· + ·) 0

/-- A block within the offsets of its sequence (R568, R592). -/
def blockFits (q : LoadSeq) (offset : Nat) (data : List Byte) : Bool :=
  offset % 1024 == 0 && decide (1 ≤ data.length) && decide (data.length ≤ 1024) && decide (offset + data.length ≤ q.length)

/-- A block of the open sequence (R568): one at an offset already written must repeat its data. -/
def loadBlock (s : State) (q : LoadSeq) (offset : Nat) (data : List Byte) : SvcOut :=
  if !blockFits q offset data then reject s 0x0007
  else
    let at_ := placeOf s q.kind offset
    let old := ((q.blocks.find? fun b => b.1 = offset).map (·.2)).getD 0
    let n := min old data.length
    if flashRead s at_.1 at_.2 n ≠ data.take n then reject s 0x000A
    else if data.length ≤ old then okReply s (.count (written q))
    else
      let q := { q with blocks := (offset, data.length) :: q.blocks.filter fun b => b.1 ≠ offset }
      okReply (setSeq (flashWrite s at_.1 at_.2 data) (some q)) (.count (written q))

/-- A block command (R568, R569). -/
def doBlock (e : Env) (cmd : Nat) (states : CtlState → Bool) (upd : Bool) (offset : Nat) (data : List Byte) (s : State) : State :=
  serve s e cmd .engineer states fun s x =>
    match ownSeq s x upd with
    | .inr status => reject s status
    | .inl q => loadBlock s q offset data

/-- APPBLOCK. -/
def doAppblock (e : Env) (offset : Nat) (data : List Byte) (s : State) : State := doBlock e 0x0051 stoppedOrService false offset data s

/-- UPDBLOCK. -/
def doUpdblock (e : Env) (offset : Nat) (data : List Byte) (s : State) : State := doBlock e 0x0061 anyState true offset data s

/-- APPEND (R153, R568): the image goes to its check and to SETUP; the reply follows the end of admission. -/
def doAppend (e : Env) (s : State) : State :=
  serve s e 0x0052 .engineer stoppedOrService fun s x =>
    match ownSeq s x false with
    | .inr status => reject s status
    | .inl q =>
      if s.adm.image.isSome then reject s 0x0005
      else
        let im := readApp s (appArea (bankOf s s.boot.bank) (!(settingsOf (bankOf s s.boot.bank)).area))
        let s := { setSeq s none with adm := { s.adm with image := some im, append := true }, svc := { s.svc with appendBy := some (x.id, e) } }
        (logChange s (peerOf e x) 0x0052 0 [BitVec.ofNat 32 q.length], none)

/-- The journal lets an update begin (R592). -/
def mayUpdate (s : State) : Bool :=
  let j := journalOf s
  (j.state == .confirmed && !j.fusepend) || j.state == .reverted

/-- A length that its kind allows (R592). -/
def updLengthOk (kind : Byte) (length : Nat) : Bool :=
  if kind = 1 then decide (1 ≤ length) && decide (length ≤ fwSlot)
  else if kind = 2 then decide (fwSlot < length) && decide (length ≤ fwSlot + appSlot)
  else false

/-- UPDBEGIN (R592): the fall-back of the other bank is given up. -/
def doUpdbegin (e : Env) (kind : Byte) (length : Nat) (s : State) : State :=
  serve s e 0x0060 .engineer anyState fun s x =>
    if !mayUpdate s then reject s 0x000B
    else if s.boot.seq.isSome then reject s 0x0005
    else if !updLengthOk kind length then reject s 0x0007
    else
      let s := writeJournal s fun j => { j with state := .confirmed, slip := true, otherval := false }
      let s := setSeq s (some { kind := .upd kind, session := x.id, length := length, blocks := [] })
      okReply (record s 0x0B0B (d1 kind.toNat ++ d4 length ++ d1 0)) .empty

/-- The end of the run of written blocks that starts at `x`. -/
def runFrom (blocks : List (Nat × Nat)) : Nat → Nat → Nat
  | 0, x => x
  | n + 1, x =>
    match blocks.find? fun b => b.1 ≤ x ∧ x < b.1 + b.2 with
    | some b => runFrom blocks n (b.1 + b.2)
    | none => x

/-- The lowest offset from `lo` on that no block covers. -/
def gapFrom (q : LoadSeq) (lo : Nat) : Nat := runFrom q.blocks (q.blocks.length + 1) lo

/-- The lowest unwritten offset in the ranges of R593; 0 while the firmware header is unwritten; the end of the last range once every
block has been written (assumption log entry 30). -/
def lowestGap (s : State) (q : LoadSeq) (kind : Byte) : Nat × Bool :=
  let g := gapFrom q 0
  let last := 4096 + imgLen (bankOf s (targetBank s)).fw
  if g < 4096 then (0, false)
  else if g < last then (g, false)
  else if kind = 2 then
    let h := gapFrom q fwSlot
    (h, decide (q.length ≤ h))
  else (last, true)

/-- UPDQUERY (R593). -/
def doUpdquery (e : Env) (s : State) : State :=
  serve s e 0x0062 .view anyState fun s _ =>
    match s.boot.seq with
    | none => okReply s (.count 0)
    | some q =>
      match q.kind with
      | .app => okReply s (.count 0)
      | .upd k => okReply s (.count (lowestGap s q k).1)

/-- What UPDEND does (R593): for a firmware update the application in force goes along, and the journal is STAGED. -/
def stageUpdate (s : State) (q : LoadSeq) (kind : Byte) : State :=
  let b := targetBank s
  let s := if kind = 1 then modBank s b fun x => { cureFlash x (appStart false) appSlot with app0 := appInForce (bankOf s (journalOf s).active) } else s
  let fw := (bankOf s b).fw
  let s := writeJournal s fun j => { j with state := .staged, step := .none, attempt := 0, slip := false, kind := kind, version := imgVersion fw }
  let s := record s 0x0A05 (d1 kind.toNat ++ d4 (imgVersion fw).toNat ++ d1 (imgSvn fw).toNat)
  setSeq (record s 0x0B0B (d1 kind.toNat ++ d4 q.length ++ d1 5)) none

/-- UPDEND (R593). -/
def doUpdend (e : Env) (s : State) : State :=
  serve s e 0x0063 .engineer anyState fun s x =>
    match ownSeq s x true with
    | .inr status => reject s status
    | .inl q =>
      match q.kind with
      | .app => reject s 0x0007
      | .upd k =>
        if !(lowestGap s q k).2 then reject s 0x0007
        else
          let s := stageUpdate s q k
          let v := imgVersion (bankOf s (targetBank s)).fw
          okReply (logChange s (peerOf e x) 0x0063 0 [BitVec.ofNat 32 k.toNat, v]) (.count 1)

/-- The lowest SVN of a bank's firmware and application in force (R586, R598). -/
def bankSvn (b : BankSt) : Nat :=
  if areaEmpty (appInForce b) then (imgSvn b.fw).toNat else min (imgSvn b.fw).toNat (imgSvn (appInForce b)).toNat

/-- NEWVKEY of a bank's firmware names an empty vendor slot (R585). -/
def keyPending (s : State) (b : BankId) : Bool := ((newVKey (bankOf s b).fw).map fun k => slotState (s.boot.vkeys.get k.1) == 0).getD false

/-- NEWVKEY names a slot that is programmed: ignored, and event 0x0A0C says so (R585). -/
def keyIgnored (s : State) (b : BankId) : State :=
  match newVKey (bankOf s b).fw with
  | none => s
  | some k =>
    let st := slotState (s.boot.vkeys.get k.1)
    if st = 0 then s else recordKey s k.1.val 3 st

/-- The journal write of a confirmation (R598). -/
def confirmJournal (s : State) : State :=
  let b := targetBank s
  let svn := bankSvn (bankOf s b)
  let new := max s.boot.rb svn
  let former := bankSvn (bankOf s (otherBank b))
  writeJournal s fun j =>
    { j with state := .confirmed, active := b, tsvn := BitVec.ofNat 8 new, otherval := decide (new ≤ former),
             fusepend := decide (s.boot.rb < svn) || keyPending s b }

/-- CONFIRM (R585, R586, R598): the reply follows the last fuse. -/
def doConfirm (e : Env) (s : State) : State :=
  serve s e 0x0064 .engineer (fun c => c == .run) fun s x =>
    if (journalOf s).state ≠ .trialRun then reject s 0x000B
    else
      let b := targetBank s
      let v := imgVersion (bankOf s b).fw
      let s := confirmJournal s
      let s := record s 0x0A0A (d1 (bankNo b) ++ d4 v.toNat)
      let s := keyIgnored s b
      let s := logChange s (peerOf e x) 0x0064 0 [BitVec.ofNat 32 (bankNo b), v]
      if (journalOf s).fusepend then ({ s with svc := { s.svc with confirmBy := some (x.id, e) } }, none) else okReply s (.count 0)

end Sys2Proof.Machine
end

