-- ==== Sys2Proof/Machine/Reads.lean ====
section
/-! DEFINITION. The reads of the recorder and of the change log, and calibration
(17_engineering_service.md, R570 to R573; 19_event_recorder.md, R616). -/

namespace Sys2Proof.Machine

/-- The members of a log from a start index on, at most `n` of them (R571, R616): indexes are sequence class. -/
def fromIndex {α : Type} (index : α → Word) (first : Word) (n : Nat) (l : List α) : List α :=
  (l.filter fun x => index x == first || later (index x) first).take n

/-- RECREAD (R616). -/
def doRecread (e : Env) (area : Byte) (first : Word) (n : Nat) (s : State) : State :=
  serve s e 0x0070 .view anyState fun s _ =>
    if 1 < area.toNat ∨ n = 0 ∨ 40 < n then reject s 0x0007
    else
      let l := if area = 0 then circRecords s else foundRecords s
      let oldest := (l.head?.map fun r => r.index).getD s.rc.next
      okReply s (.entries ((fromIndex (fun r => r.index) first n l).map recordBytes) oldest s.rc.next)

/-- Role, interface and address of an entry; zeros where no session is behind it (assumption log entry 28). -/
def peerBytes : Option (Role × SvcIface × Word) → List Byte
  | some p => d1 (roleNo p.1) ++ d1 (ifaceNo p.2.1) ++ d4 p.2.2.toNat
  | none => List.replicate 6 0

/-- The details of an entry: seven words. -/
def detailBytes (ws : List Word) : List Byte :=
  let b := (bytesOfWords ws).take 28
  b ++ List.replicate (28 - b.length) 0

/-- The 64 bytes of a change-log entry (R570). -/
def entryBytes (l : LogEntry) : List Byte :=
  let b := d4 l.index.toNat ++ d4 l.opsec.toNat ++ d4 l.pcyc.toNat ++ d8 l.ttime.toNat ++ peerBytes l.peer ++ d2 l.cmd.toNat ++
    d2 l.status.toNat ++ detailBytes l.details
  b ++ d4 (crc32c b).toNat ++ [0, 0xA5]

/-- LOGREAD (R571). -/
def doLogread (e : Env) (first : Word) (n : Nat) (s : State) : State :=
  serve s e 0x0071 .view anyState fun s _ =>
    if n = 0 ∨ 20 < n then reject s 0x0007
    else
      let oldest := (s.svc.log.head?.map fun l => l.index).getD s.svc.nextLog
      okReply s (.entries ((fromIndex (fun l => l.index) first n s.svc.log).map entryBytes) oldest s.svc.nextLog)

/-- The words of a calibration record. -/
def calWords (c : CalRec) : List Word :=
  (c.isl.toList ++ c.feeds.toList).flatMap (fun p => [p.1, p.2]) ++ [c.gen, c.opsec, bit c.factory 0]

/-- CALSTART (R569, R572). -/
def doCalstart (e : Env) (s : State) : State :=
  serve s e 0x0080 .engineer (fun c => c == .service) fun s x =>
    if s.svc.calWork.isSome then reject s 0x0005
    else okReply (applyForces { s with svc := { s.svc with calWork := some (x.id, s.svc.cal, []) } } fun _ => true) (.words (calWords s.svc.cal))

/-- The working copy of a session; else the status of the rejection (assumption log entry 30). -/
def ownCal (s : State) (x : Session) : (CalRec × List (Nat × Nat × Word)) ⊕ Nat :=
  match s.svc.calWork with
  | none => .inr 0x0007
  | some w => if w.1 = x.id then .inl w.2 else .inr 0x0005

/-- Gain and offset after a point (assumption log entry 8). -/
def trimmed (t : Word × Word) (step : Nat) (v : Word) : Word × Word := (Config.trimOf t.1 v (2 * step), Config.trimOf t.2 v (2 * step + 1))

/-- The working copy after a point: targets 0 to 47 are the islands, 48 and 49 the feeds (assumption log entry 8). -/
def calPoint (c : CalRec) (target step : Nat) (v : Word) : CalRec × (Word × Word) :=
  if target < 48 then
    let i : Fin 48 := Fin.ofNat 48 target
    let t := trimmed (c.isl.get i) step v
    ({ c with isl := c.isl.set i t }, t)
  else
    let i : Fin 2 := Fin.ofNat 2 (target - 48)
    let t := trimmed (c.feeds.get i) step v
    ({ c with feeds := c.feeds.set i t }, t)

/-- CALPOINT (R572). -/
def doCalpoint (e : Env) (target step : Nat) (value : Word) (s : State) : State :=
  serve s e 0x0081 .engineer (fun c => c == .service) fun s x =>
    match ownCal s x with
    | .inr status => reject s status
    | .inl w =>
      if 49 < target ∨ step = 0 ∨ 2 < step then reject s 0x0007
      else
        let r := calPoint w.1 target step value
        okReply { s with svc := { s.svc with calWork := some (x.id, r.1, w.2 ++ [(target, step, value)]) } } (.words [r.2.1, r.2.2])

/-- CALREAD (R563). -/
def doCalread (e : Env) (s : State) : State :=
  serve s e 0x0082 .view anyState fun s _ =>
    okReply s (.words (calWords s.svc.cal ++ ((s.svc.calWork.map fun w => calWords w.2.1).getD [])))

/-- CALWRITE (R572, R573): both mirrors, then in force. -/
def doCalwrite (e : Env) (s : State) : State :=
  serve s e 0x0083 .engineer (fun c => c == .service) fun s x =>
    match ownCal s x with
    | .inr status => reject s status
    | .inl w =>
      let c := { w.1 with gen := s.svc.cal.gen + 1, opsec := s.pw.opsec, factory := false }
      let s := { s with svc := { s.svc with cal := c, calMirA := c, calMirB := c, calWork := none } }
      let s := record (cureMirrors s) 0x0B08 (d4 c.gen.toNat)
      okReply (logChange s (peerOf e x) 0x0083 0 [c.gen]) (.count c.gen.toNat)

/-- CALABORT (R572). -/
def doCalabort (e : Env) (s : State) : State :=
  serve s e 0x0084 .engineer (fun c => c == .service) fun s x =>
    match ownCal s x with
    | .inr status => reject s status
    | .inl _ => okReply (discardCal s x.id 1) .empty

end Sys2Proof.Machine
end

