-- ==== Sys2Proof/Machine/ServiceCmds.lean ====
section
/-! DEFINITION. Forces, online change and controller commands of the engineering service protocol
(17_engineering_service.md, R563 to R567; 06_cyclic_execution.md, R203, R209 to R222; 07, R228). -/

namespace Sys2Proof.Machine

/-- Bytes of a slot: a tagged slot takes 8, a qualified bit slot 4; each is aligned to its size (R75). -/
def slotSize (tagged : Bool) : Nat := if tagged then 8 else 4

/-- A slot or word of `n` bytes lies aligned within a section of an admitted task. -/
def inSection (s : State) (k : SectKind) (p : PairId) (t : TaskId) (off n : Nat) : Bool :=
  match taskDecl s p t with
  | some d => off % n == 0 && decide (off + n ≤ (sectOf d k).len)
  | none => false

/-- The bindings of channels (R209): in PI those of inputs, wake inputs and counters, in PQ those of outputs. -/
def chanBindings (s : State) : List Bound := (setup s).chans.flatMap chanBounds ++ (setup s).addbs.flatMap (addbBounds (setup s))

/-- A slot meets a channel binding. -/
def meetsChannel (s : State) (k : SectKind) (p : PairId) (t : TaskId) (off n : Nat) : Bool :=
  (chanBindings s).any fun x => x.2.2.1 == k && x.2.1.pair == p && x.2.1.task == t && overlaps x.2.1.off x.2.2.2.1 off n

/-- The slot that a binding word names, where the admitted set-up contains it. -/
def slotItem (s : State) (k : SectKind) (w : Word) (tagged : Bool) : Option ForceItem :=
  match bindingOf w with
  | none => none
  | some b =>
    if !b.tse && inSection s k b.pair b.task b.off (slotSize tagged) && !meetsChannel s k b.pair b.task b.off (slotSize tagged) then
      some (.slot k b.pair b.task b.off tagged)
    else none

/-- A channel by its number, where the admitted set-up declares it as one of the kinds asked for. -/
def chanItem (s : State) (w : Word) (out : Bool) : Option Chan :=
  if w.toNat < 48 then
    let c : Chan := Fin.ofNat 48 w.toNat
    match chanKind s c with
    | some k => if (k == .output) == out then some c else none
    | none => none
  else none

/-- The item that a force request names (R209, R212, R566; assumption log entry 24). -/
def forceItem (s : State) (f : ForceReq) : Option ForceItem :=
  if f.kind = 1 then (chanItem s f.loc false).map .chin
  else if f.kind = 2 then slotItem s .pi f.loc (!f.bits)
  else if f.kind = 3 then slotItem s .pq f.loc (!f.bits)
  else if f.kind = 4 then (chanItem s f.loc true).map .chout
  else if f.kind = 5 then slotItem s (if f.work then .work else .ret) f.loc (!f.bits)
  else none

/-- The items of a request, in order; none where one of them is not of the admitted set-up. -/
def forceItems (s : State) : List ForceReq → Option (List (ForceItem × Word))
  | [] => some []
  | f :: rest =>
    match forceItem s f, forceItems s rest with
    | some i, some is => some ((i, f.value) :: is)
    | _, _ => none

/-- In SERVICE only CHOUT items are accepted, and no force of them during a calibration (R212, R572). -/
def serviceForbids (s : State) (fs : List ForceReq) (setting : Bool) : Bool :=
  s.ctl.state == .service && (fs.any (fun f => f.kind != 4) || (setting && s.svc.calWork.isSome))

/-- The entries of the table, those whose removal has taken effect left out. -/
def liveForces (s : State) : List Force := s.ctl.forces.filter fun f => !f.ended

/-- What a request says in the change log: its effect tide, then its items (assumption log entry 28). -/
def forceDetails (eff : Nat) (is : List (ForceItem × Word)) : List Word :=
  BitVec.ofNat 32 eff :: wordsOfBytes (is.flatMap fun i => d1 (forceKind i.1) ++ forceLoc i.1 ++ wordBytes i.2)

/-- FORCE (R209, R212, R213, R566). -/
def doForce (e : Env) (items : List ForceReq) (s : State) : State :=
  serve s e 0x0020 .maint (fun c => c == .run || c == .service) fun s x =>
    if serviceForbids s items true then reject s 0x0002
    else if items.isEmpty ∨ 16 < items.length then reject s 0x0007
    else
      match forceItems s items with
      | none => reject s 0x0007
      | some is =>
        if 256 < (((liveForces s).map (·.item)) ++ is.map (·.1)).eraseDups.length then reject s 0x0008
        else
          let eff := effectTide s
          let new := is.map fun i =>
            ({ item := i.1, value := i.2, eff := eff, active := false, endAt := none, ended := false, under := none } : Force)
          let s := { s with ctl := { s.ctl with forces := s.ctl.forces ++ new } }
          okReply (logChange s (peerOf e x) 0x0020 0 (forceDetails eff is)) (.tide eff)

/-- The removals of an UNFORCE. -/
def endForce (eff : Nat) (named : ForceItem → Bool) (f : Force) : Force :=
  if named f.item && !f.ended && f.endAt.isNone then { f with endAt := some eff } else f

/-- A CHOUT item. -/
def isChout : ForceItem → Bool
  | .chout _ => true
  | .chin _ => false
  | .slot _ _ _ _ _ => false

/-- UNFORCE (R212, R213, R566). In SERVICE it covers the CHOUT entries only. -/
def doUnforce (e : Env) (items : Option (List ForceReq)) (s : State) : State :=
  serve s e 0x0021 .maint (fun c => c == .run || c == .service) fun s x =>
    let eff := effectTide s
    let go (s : State) (named : ForceItem → Bool) (is : List (ForceItem × Word)) : SvcOut :=
      let s := { s with ctl := { s.ctl with forces := s.ctl.forces.map (endForce eff named) } }
      okReply (logChange s (peerOf e x) 0x0021 0 (forceDetails eff is)) (.tide eff)
    match items with
    | none => go s (fun i => s.ctl.state != .service || isChout i) []
    | some fs =>
      if serviceForbids s fs false then reject s 0x0002
      else if fs.isEmpty ∨ 16 < fs.length then reject s 0x0007
      else
        match forceItems s fs with
        | none => reject s 0x0007
        | some is => go s (fun i => is.any fun x => x.1 == i) is

/-- FORCELIST (R563): up to 64 entries from an index. -/
def doForcelist (e : Env) (first : Nat) (s : State) : State :=
  serve s e 0x0022 .view anyState fun s _ => okReply s (.forces (((liveForces s).drop first).take 64))

/-- The target of an online-change item, where it lies aligned in its space or section (R217, R218, R567). -/
def olcTarget (s : State) (i : OlcItemReq) : Option OlcTarget :=
  if i.space = 0 then
    let d := layout s i.pair
    let declared := (setup s).layouts.any fun x => x.pair == i.pair
    if i.form = 0 ∧ declared ∧ i.koff % 4 = 0 ∧ d.code + i.koff + 4 ≤ d.k then some (.kWord i.pair i.koff) else none
  else if i.space = 3 then none
  else
    let k : SectKind := if i.space = 1 then .ret else .work
    match bindingOf i.loc with
    | none => none
    | some b =>
      if b.tse then none
      else if i.form = 0 then (if inSection s k b.pair b.task b.off 4 then some (.word k b.pair b.task b.off) else none)
      else if i.form = 1 then (if inSection s k b.pair b.task b.off 8 then some (.tagged k b.pair b.task b.off) else none)
      else if i.form = 2 then (if inSection s k b.pair b.task b.off 4 then some (.bit k b.pair b.task b.off) else none)
      else none

/-- The items of a request, in order; none where one of them is outside its space or misaligned. -/
def olcItems (s : State) : List OlcItemReq → Option (List OlcItem)
  | [] => some []
  | i :: rest =>
    match olcTarget s i, olcItems s rest with
    | some t, some is => some ({ target := t, value := i.value, old := 0, outcome := .pending } :: is)
    | _, _ => none

/-- The distance of a named tide from the tide of acceptance (R218, compared under R49). -/
def tideAhead (s : State) (named : Word) : Nat := (named - BitVec.ofNat 32 (tideNow s)).toNat

/-- OLC (R217, R218). -/
def doOlc (e : Env) (named : Word) (items : List OlcItemReq) (s : State) : State :=
  serve s e 0x0030 .maint (fun c => c == .run) fun s x =>
    if items.isEmpty ∨ 64 < items.length ∨ tideAhead s named < 2 ∨ 40000 < tideAhead s named then reject s 0x0007
    else
      match olcItems s items with
      | none => reject s 0x0007
      | some is =>
        if 16 ≤ s.ctl.olcs.length then reject s 0x0008
        else
          let ip := if e.iface = .backbone then 0 else e.ip
          let r : OlcReq := { num := s.ctl.olcNext, tide := named, items := is, role := x.role, iface := e.iface, ip := ip }
          let s := { s with ctl := { s.ctl with olcs := s.ctl.olcs ++ [r], olcNext := s.ctl.olcNext + 1, olcLast := 1, olcMasked := false } }
          okReply (logChange s (peerOf e x) 0x0030 0 (r.num :: named :: is.map fun i => i.value)) (.count r.num.toNat)

/-- OLCSTAT (R563): the outcome of each item of a request. -/
def doOlcstat (e : Env) (num : Word) (s : State) : State :=
  serve s e 0x0031 .view anyState fun s _ =>
    match (s.ctl.olcs ++ s.ctl.olcDone).find? fun r => r.num = num with
    | some r => okReply s (.outcomes (r.items.map fun i => i.outcome))
    | none => reject s 0x0007

/-- A controller command accepted with its effect tide (R203, R570). -/
def acceptCtl (s : State) (e : Env) (x : Session) (cmd : Nat) (c : CtlCmd) : SvcOut :=
  let eff := effectTide s
  let s := { s with ctl := { s.ctl with cmds := s.ctl.cmds ++ [(c, eff)] } }
  okReply (logChange s (peerOf e x) cmd 0 [BitVec.ofNat 32 eff]) (.tide eff)

/-- STOP (R203): it takes effect as a commit instant under R199. -/
def doStop (e : Env) (s : State) : State :=
  serve s e 0x0040 .engineer (fun c => c == .run) fun s x => acceptCtl (stopAt s (effectTide s)) e x 0x0040 .stop

/-- Lanes that a restart would have in VOTING (R224, R228). -/
def wouldVote (s : State) : Nat := (voters (reviveLanes s)).length

/-- A RESTART command that could not start RUN (R228; assumption log entry 29). -/
def restartForbidden (s : State) : Bool :=
  (if benchMode s then wouldVote s == 0 else decide (wouldVote s < 2)) || s.adm.cur.isNone || !s.time.set

/-- RESTART (R203, R228). -/
def doRestart (e : Env) (warm : Bool) (s : State) : State :=
  serve s e 0x0041 .engineer (fun c => c == .stopped) fun s x =>
    if restartForbidden s then reject s 0x0002 else acceptCtl s e x 0x0041 (.restart warm)

/-- SERVICE (R203). -/
def doService (e : Env) (s : State) : State :=
  serve s e 0x0042 .engineer (fun c => c == .stopped) fun s x => acceptCtl s e x 0x0042 .service

/-- LEAVE (R203), refused during a calibration (R572). -/
def doLeave (e : Env) (s : State) : State :=
  serve s e 0x0043 .engineer (fun c => c == .service) fun s x =>
    if s.svc.calWork.isSome then reject s 0x0002 else acceptCtl s e x 0x0043 .leave

/-- REBOOT (R563): the reply is sent before the module resets. -/
def doReboot (e : Env) (s : State) : State :=
  serve s e 0x0044 .engineer stoppedOrService fun s x => okReply (resetModule (logChange s (peerOf e x) 0x0044 0 [])) .empty

end Sys2Proof.Machine
end

