-- ==== Sys2Proof/Machine/Requests.lean ====
section
/-! DEFINITION. The commands of the engineering service protocol as they arrive, relay, and the ends of sessions and lockouts
(17_engineering_service.md, R549 to R573). -/

namespace Sys2Proof.Machine

/-- HELLO (R556, R557). -/
def execHello (e : Env) (role : Role) (nc : List Byte) (s : State) : Host.Outcome State Fault Refusal := .next (doHello e role nc s)

/-- LOGIN (R554 to R557). -/
def execLogin (e : Env) (role : Role) (nc : List Byte) (proof : List Byte) (s : State) : Host.Outcome State Fault Refusal := .next (doLogin e role nc proof s)

/-- LOGOUT (R559). -/
def execLogout (e : Env) (s : State) : Host.Outcome State Fault Refusal := .next (doLogout e s)

/-- PASSWD (R564). -/
def execPasswd (e : Env) (role : Role) (masked : List Byte) (s : State) : Host.Outcome State Fault Refusal := .next (doPasswd e role masked s)

/-- KEYSLOT_INSTALL (R584). -/
def execKeyslotInstall (e : Env) (n : Fin 4) (key : List Byte) (s : State) : Host.Outcome State Fault Refusal := .next (doKeyInstall e n key s)

/-- KEYSLOT_REVOKE (R584). -/
def execKeyslotRevoke (e : Env) (vendor : Bool) (n : Fin 4) (s : State) : Host.Outcome State Fault Refusal := .next (doKeyRevoke e vendor n s)

/-- STATUS (R563). -/
def execStatus (e : Env) (s : State) : Host.Outcome State Fault Refusal := .next (doStatus e s)

/-- READ (R565). -/
def execRead (e : Env) (items : List ReadItem) (s : State) : Host.Outcome State Fault Refusal := .next (doRead e items s)

/-- FORCE (R212, R213, R566). -/
def execForce (e : Env) (items : List ForceReq) (s : State) : Host.Outcome State Fault Refusal := .next (doForce e items s)

/-- UNFORCE (R212, R213, R566). -/
def execUnforce (e : Env) (items : Option (List ForceReq)) (s : State) : Host.Outcome State Fault Refusal := .next (doUnforce e items s)

/-- FORCELIST (R563). -/
def execForcelist (e : Env) (first : Nat) (s : State) : Host.Outcome State Fault Refusal := .next (doForcelist e first s)

/-- OLC (R217, R218). -/
def execOlc (e : Env) (named : Word) (items : List OlcItemReq) (s : State) : Host.Outcome State Fault Refusal := .next (doOlc e named items s)

/-- OLCSTAT (R563). -/
def execOlcstat (e : Env) (num : Word) (s : State) : Host.Outcome State Fault Refusal := .next (doOlcstat e num s)

/-- STOP (R203). -/
def execStop (e : Env) (s : State) : Host.Outcome State Fault Refusal := .next (doStop e s)

/-- RESTART (R203, R228). -/
def execRestart (e : Env) (warm : Bool) (s : State) : Host.Outcome State Fault Refusal := .next (doRestart e warm s)

/-- SERVICE (R203). -/
def execService (e : Env) (s : State) : Host.Outcome State Fault Refusal := .next (doService e s)

/-- LEAVE (R203, R572). -/
def execLeave (e : Env) (s : State) : Host.Outcome State Fault Refusal := .next (doLeave e s)

/-- REBOOT (R563). -/
def execReboot (e : Env) (s : State) : Host.Outcome State Fault Refusal := .next (doReboot e s)

/-- APPBEGIN (R569, R600). -/
def execAppbegin (e : Env) (length : Nat) (s : State) : Host.Outcome State Fault Refusal := .next (doAppbegin e length s)

/-- APPBLOCK (R568). -/
def execAppblock (e : Env) (offset : Nat) (data : List Byte) (s : State) : Host.Outcome State Fault Refusal := .next (doAppblock e offset data s)

/-- APPEND (R153, R568). -/
def execAppend (e : Env) (s : State) : Host.Outcome State Fault Refusal := .next (doAppend e s)

/-- UPDBEGIN (R592). -/
def execUpdbegin (e : Env) (kind : Byte) (length : Nat) (s : State) : Host.Outcome State Fault Refusal := .next (doUpdbegin e kind length s)

/-- UPDBLOCK (R568). -/
def execUpdblock (e : Env) (offset : Nat) (data : List Byte) (s : State) : Host.Outcome State Fault Refusal := .next (doUpdblock e offset data s)

/-- UPDQUERY (R593). -/
def execUpdquery (e : Env) (s : State) : Host.Outcome State Fault Refusal := .next (doUpdquery e s)

/-- UPDEND (R593). -/
def execUpdend (e : Env) (s : State) : Host.Outcome State Fault Refusal := .next (doUpdend e s)

/-- CONFIRM (R598). -/
def execConfirm (e : Env) (s : State) : Host.Outcome State Fault Refusal := .next (doConfirm e s)

/-- RECREAD (R616). -/
def execRecread (e : Env) (area : Byte) (first : Word) (n : Nat) (s : State) : Host.Outcome State Fault Refusal := .next (doRecread e area first n s)

/-- LOGREAD (R571). -/
def execLogread (e : Env) (first : Word) (n : Nat) (s : State) : Host.Outcome State Fault Refusal := .next (doLogread e first n s)

/-- CALSTART (R572). -/
def execCalstart (e : Env) (s : State) : Host.Outcome State Fault Refusal := .next (doCalstart e s)

/-- CALPOINT (R572). -/
def execCalpoint (e : Env) (target : Nat) (step : Nat) (value : Word) (s : State) : Host.Outcome State Fault Refusal := .next (doCalpoint e target step value s)

/-- CALREAD (R563). -/
def execCalread (e : Env) (s : State) : Host.Outcome State Fault Refusal := .next (doCalread e s)

/-- CALWRITE (R573). -/
def execCalwrite (e : Env) (s : State) : Host.Outcome State Fault Refusal := .next (doCalwrite e s)

/-- CALABORT (R572). -/
def execCalabort (e : Env) (s : State) : Host.Outcome State Fault Refusal := .next (doCalabort e s)

/-- A request by its command and arguments (R563). -/
def serveRequest (e : Env) (r : SvcReq) (s : State) : State :=
  match r with
  | .hello role nc => doHello e role nc s
  | .login role nc proof => doLogin e role nc proof s
  | .logout => doLogout e s
  | .passwd role masked => doPasswd e role masked s
  | .keyslotInstall n key => doKeyInstall e n key s
  | .keyslotRevoke vendor n => doKeyRevoke e vendor n s
  | .status => doStatus e s
  | .read items => doRead e items s
  | .force items => doForce e items s
  | .unforce items => doUnforce e items s
  | .forcelist first => doForcelist e first s
  | .olc named items => doOlc e named items s
  | .olcstat num => doOlcstat e num s
  | .stop => doStop e s
  | .restart warm => doRestart e warm s
  | .service => doService e s
  | .leave => doLeave e s
  | .reboot => doReboot e s
  | .appbegin length => doAppbegin e length s
  | .appblock offset data => doAppblock e offset data s
  | .append => doAppend e s
  | .updbegin kind length => doUpdbegin e kind length s
  | .updblock offset data => doUpdblock e offset data s
  | .updquery => doUpdquery e s
  | .updend => doUpdend e s
  | .confirm => doConfirm e s
  | .recread area first n => doRecread e area first n s
  | .logread first n => doLogread e first n s
  | .calstart => doCalstart e s
  | .calpoint target step value => doCalpoint e target step value s
  | .calread => doCalread e s
  | .calwrite => doCalwrite e s
  | .calabort => doCalabort e s

/-- BACKBONE_SERVICE_REQUEST (R561): executed where TARGET is this module's UID, else discarded. -/
def execBackboneServiceRequest (e : Env) (req : SvcReq) (s : State) : Host.Outcome State Fault Refusal :=
  .next (if e.iface = .backbone then serveRequest e req s else s)

/-- RELAY_REQUEST (R560): a request on MNT that names another module. -/
def execRelayRequest (e : Env) (cmd : BitVec 16) (s : State) : Host.Outcome State Fault Refusal :=
  .next (if e.iface = .mnt ∧ e.target ≠ 0 ∧ e.target ≠ s.boot.uid then admitDatagram s e cmd.toNat id else s)

/-- A reply forwarded unchanged to the peer of a relay entry, over MNT (R304, R562). -/
def forwardReply (s : State) (frame : List Byte) (r : Relay) : State :=
  let s := { s with svc := { s.svc with relayed := some frame, relays := s.svc.relays.erase r } }
  sendLocal s .mnt ((resolve s .mnt r.ip).getD r.mac) 0x0800 (ipv4 17 (svcIp s .mnt) r.ip (udp svcPort r.port.toNat frame))

/-- RELAY_REPLY (R562): the entry whose TARGET is the reply's ORIGIN and whose SEQ is its SEQ. -/
def execRelayReply (origin : BitVec 64) (seq : Word) (frame : List Byte) (s : State) : Host.Outcome State Fault Refusal :=
  match s.svc.relays.find? fun r => r.target = origin ∧ r.seq = seq with
  | some r => .next (if stewardRuns s && decide (s.up < r.since + 2000000000) then forwardReply s frame r else s)
  | none => .next s

/-- The reply that the relaying module sends itself (R556, R562). -/
def timeoutReply (s : State) (r : Relay) : Reply :=
  { head := replyHead s .mnt ((resolve s .mnt r.ip).getD r.mac), ip := r.ip, port := r.port, iface := .mnt, cmd := r.cmd, origin := s.boot.uid, session := r.sess, seq := r.seq, status := 0x0010,
    body := .empty, keyed := false }

/-- RELAY_TIMEOUT (R562): 2 s without a reply. -/
def execRelayTimeout (i : Nat) (s : State) : Host.Outcome State Fault Refusal :=
  match s.svc.relays[i]? with
  | some r =>
    if stewardRuns s && decide (r.since + 2000000000 ≤ s.up) then
      .next (send { s with svc := { s.svc with relays := s.svc.relays.eraseIdx i } } (timeoutReply s r))
    else .next s
  | none => .next s

/-- SESSION_IDLE_TIMEOUT (R559): 60 s without an accepted request. -/
def execSessionIdleTimeout (id : Word) (s : State) : Host.Outcome State Fault Refusal :=
  match session? s id with
  | some x => .next (if serving s && decide (x.idleFrom + 60000000000 ≤ s.up) then closeSession s id 2 else s)
  | none => .next s

/-- LOCKOUT_END (R555): the lockout time of a role has run out; its failure count stays. -/
def execLockoutEnd (role : Role) (s : State) : Host.Outcome State Fault Refusal :=
  .next (if roleLocked s role then s else modRec s role fun r => { r with lockEnd := none })

end Sys2Proof.Machine
end

