-- ==== Sys2Proof/Machine/RingBeacon.lean ====
section
/-! DEFINITION. The commands of the ring that send and receive: PHY dwell, beacons, slots, claims, forwarding
(09_train_backbone.md, R313 to R342). -/

namespace Sys2Proof.Machine

/-- BACKBONE_PHY_DWELL (R313): a port without link has held its PHY role for its dwell; it changes the role and draws its next dwell, 16 ms
to 31 ms, from a sequence of the module's UID. -/
def execBackbonePhyDwell (i : Fin 4) (s : State) : Host.Outcome State Fault Refusal :=
  let x := port s (bbPort i)
  if !ringRuns s || x.link || decide (s.up < x.roleAt + x.dwell * 1000000) then .next s
  else
    let n := 16 + (Config.draw s.fresh s.boot.uid.toNat).toNat % 16
    .next (modPort { s with fresh := s.fresh + 1 } (bbPort i) fun x => { x with lead := !x.lead, dwell := n, roleAt := s.up })

/-- What the master sets before its beacon: CABSLOT (R336), the answer to a claim (R341), HANDOVER (R337), SLEW and MERGE
(R352, R374). -/
def prepareBeacon (s : State) : State :=
  let cabs := s.ring.cabSeen
  let low := (cabs.foldl min 64) % 64
  let mask := (cabs.map fun k => 2 ^ (k - 1)).foldl (· + ·) 0
  let s := modRing s fun r =>
    { r with cabslot := low, cabSeen := [], gresult := 0, gslot := 0, guid := 0,
             nodes := if sideOf s (outwardOf s) = .end_ then 1 else r.nodes }
  let s := if 2 ≤ cabs.length then record s 0x040E (d8 mask) else s
  let s := match s.ring.answer with
    | some c => decideClaim (modRing s fun r => { r with answer := none }) c
    | none => s
  let r := s.ring
  let s := if 16 ≤ r.flips ∧ !r.handover ∧ !r.merge then modRing s fun r => { r with handover := true, act := some (s.tide + 8), flips := 0 } else s
  if s.ring.notice.isSome ∧ (s.time.phi.any fun f => decide (f.natAbs ≤ 10)) ∧ !s.time.slewing ∧ !s.ring.merge ∧ !s.ring.handover then
    modRing s fun r => { r with merge := true, act := some (s.tide + 8), slew := false }
  else s

/-- The beacon of this node's ring, with its HOP (R329, R330). -/
def ownBeacon (s : State) (hop : Nat) : Beacon :=
  let r := s.ring
  { epoch := r.epoch, muid := r.muid, hop := hop, nodes := r.nodes, slots := slotCount s, bl := r.bl, cabslot := r.cabslot,
    merge := r.merge, handover := r.handover, slew := r.slew, gresult := r.gresult, gslot := r.gslot, guid := r.guid,
    act := actWord r.act, roster := r.roster.map fun e => (e.uid, e.st) }

/-- BEACON_SEND (R322, R329, R330): the master starts its beacon. -/
def execBeaconSend (sl : Lanes SliceFault) (s : State) : Host.Outcome State Fault Refusal :=
  if !ringRuns s || s.ring.st != .master then .next s
  else
    let t := prepareBeacon s
    .next (convEdge s (sendRing t (egressA t) (ownFrame (beaconBytes t (ownBeacon t 1))) sl))

/-- A roster entry as the beacon gives it; the count of tides without a frame stays with its slot. -/
def takeEntry (old : List RosterEntry) (p : (BitVec 64 × SlotState) × Nat) : RosterEntry :=
  let q := match old[p.2]? with
    | some e => if e.uid = p.1.1 then e.quiet else 0
    | none => 0
  { uid := p.1.1, st := p.1.2, quiet := q }

/-- What a node takes from the beacon that it follows (R323, R330, R334, R342). -/
def follow (s : State) (sd : SideId) (b : Beacon) : State :=
  let me := ownUid s
  let r := s.ring
  let mine := b.guid = me ∧ b.gresult ≠ 0
  let lostClaim := r.sent ∧ !mine
  let roster := b.roster.zipIdx.map (takeEntry r.roster)
  let r := { r with inward := some sd, everHeard := true, gotAt := some s.tideUp, miss := 0, node := b.hop + 1, nodes := b.nodes,
                    bl := b.bl, refusedEpoch := if b.epoch = r.epoch then r.refusedEpoch else none,
                    epoch := b.epoch, muid := b.muid, roster := roster, hasTable := true, cabslot := b.cabslot,
                    merge := b.merge, handover := b.handover, slew := b.slew,
                    act := if b.merge || b.handover then some (tideFrom s b.act) else none,
                    gresult := b.gresult, gslot := b.gslot, guid := b.guid,
                    rclaim := if lostClaim then r.rclaim.inc else r.rclaim, sent := false }
  let held := slotHeld { r with roster := roster } me
  let r := if r.slot ≠ 0 ∧ held = some r.slot then { r with st := .member } else { r with st := .joining, slot := 0 }
  let r :=
    if mine then
      if b.gresult = 1 then { r with st := .member, slot := b.gslot }
      else if b.gresult = 2 then { r with retryAt := some (s.tideUp + 4000) }
      else { r with refusedEpoch := some b.epoch }
    else r
  setHops { s with ring := r }

/-- A beacon that the node follows has come on the A leg: the pattern begins 200 ns before it, and it is passed on with this node's number,
on the A leg or, at the far end, back on the B leg (R316, R321, R330). -/
def takeBeacon (s : State) (sd : SideId) (b : Beacon) (frame : List Byte) (now : Nat) (sl : Lanes SliceFault) : State :=
  let s := modRing (follow s sd b) fun r => { r with heardAt := some s.tideUp, p0 := now - 200 }
  passOn s (outEgress s) frame (.hop (b.hop + 1)) sl

/-- The master yields to a lower MUID (R333). -/
def yieldTo (s : State) (b : Beacon) : State :=
  let s := modRing s fun r => { becomeJoining r with roster := [], hasTable := false }
  record s 0x040F (d8 (ownUid s).toNat ++ d8 b.muid.toNat)

/-- The master's own beacon comes back with NODES in HOP. More nodes than before, once the ring has formed, tell of a merge: EPOCH rises
(R329, R330; assumption log entry 68). -/
def takeBack (s : State) (b : Beacon) : State :=
  modRing s fun r =>
    { r with nodes := b.hop, backAt := some s.tideUp,
             epoch := if r.nodes < b.hop ∧ r.masterAt + 3 < s.tideUp then r.epoch + 1 else r.epoch }

/-- The beacon of the master that a node follows comes back on the B leg: it is passed on, and taken where no good copy came on the A leg
(R316, R319). -/
def beaconOnB (s : State) (b : Beacon) (frame : List Byte) (sl : Lanes SliceFault) : State :=
  let s := if s.ring.gotAt = some s.tideUp then s else follow s (inwardOf s) { b with hop := s.ring.node - 1 }
  passOn (modRing s fun r => { r with backAt := some s.tideUp }) (egressB s) frame .plain sl

/-- A beacon that is not good is counted, and passed on as it came (R316, R328). -/
def badBeacon (s : State) (i : Fin 4) (frame : List Byte) (sl : Lanes SliceFault) : State :=
  let t := rejectFrame s (bbPort i)
  if ingressA s = some i then passOn t (outEgress s) frame .plain sl
  else if ingressB s = some i then passOn t (egressB s) frame .plain sl
  else t

/-- The master that the node follows has been heard in this tide or the last, and has a lower MUID (R333). -/
def followsLower (s : State) (b : Beacon) : Bool :=
  (s.ring.heardAt.any fun t => decide (s.tideUp ≤ t + 1)) && decide (s.ring.muid.toNat < b.muid.toNat)

/-- What a node makes of a good beacon (R316, R317, R325, R330, R333, R334): a master takes NODES from its own, yields to a lower MUID and
discards a higher one; another node follows the lower MUID. A second beacon of one master in a tide lies outside the beacon window. -/
def goodBeacon (s : State) (i : Fin 4) (frame : List Byte) (now : Nat) (sl : Lanes SliceFault) : State :=
  let b := parseBeacon frame
  let sd := sideOfPort i
  let r := s.ring
  let outside := sd == outwardOf s && lineOfPort i == .a
  if r.st = .master then
    if b.muid = ownUid s then (if ingressB s = some i then takeBack s b else s)
    else if outside ∧ b.muid.toNat < r.muid.toNat then takeBeacon (yieldTo s b) sd b frame now sl
    else s
  else if ingressB s = some i ∧ b.muid = r.muid then beaconOnB s b frame sl
  else if srcMac frame = vehicleMac s then s
  else if r.inward.isNone ∧ legLine (sideOf s sd) .a = some (lineOfPort i) then takeBeacon s sd b frame now sl
  else if ingressA s = some i then
    if r.heardAt = some s.tideUp ∧ r.muid = b.muid then modPort s (bbPort i) fun x => { x with pviol := x.pviol.inc }
    else if followsLower s b then s
    else takeBeacon s sd b frame now sl
  else if outside ∧ b.muid.toNat < r.muid.toNat then takeBeacon s sd b frame now sl
  else s

/-- BEACON_RECEIVE (R316, R321, R325, R330): a beacon arrives. -/
def execBeaconReceive (i : Fin 4) (rx : RingRx) (s : State) : Host.Outcome State Fault Refusal :=
  if !ringRuns s || !(port s (bbPort i)).link then .next s
  else if beaconOk s rx.bytes then .next (convEdge s (goodBeacon s i rx.bytes rx.start rx.sl))
  else .next (badBeacon s i rx.bytes rx.sl)

/-- A beacon missed on a port (R356). -/
def missOn (s : State) (p : Option (Fin 4)) : State :=
  match p with
  | some i => modPort s (bbPort i) fun x => { x with pmiss := x.pmiss.inc }
  | none => s

/-- BEACON_MISS (R323, R356): a tide without a good beacon is counted, once, on each port that should have brought one, and on the node that
had none; a node of a ring enters HOLD. -/
def execBeaconMiss (s : State) : Host.Outcome State Fault Refusal :=
  let r := s.ring
  if !ringRuns s || r.missAt == some s.tideUp then .next s
  else
    let s := modRing s fun r => { r with missAt := some s.tideUp }
    let s := if r.heardAt = some s.tideUp then s else missOn s (ingressA s)
    let s := if r.backAt = some s.tideUp then s else missOn s (ingressB s)
    if r.st = .master ∨ r.gotAt = some s.tideUp then .next s
    else
      let enters := r.st == .member || r.st == .joining
      let s := modRing s fun r => { r with miss := r.miss + 1, bmiss := r.bmiss.inc, st := if enters then .hold else r.st }
      .next (if enters then record s 0x0405 (d4 r.epoch.toNat) else s)

/-- The binding and connection of the module's own backbone SLOT (R168, R382). -/
def ownBbSlot (u : Setup) : Option SlotDecl :=
  u.slots.find? fun d => match d.kind with
    | .backbone _ => !d.rx
    | _ => false

/-- The receive SLOT of a sender (R168, R328). -/
def bbSlotOf (u : Setup) (uid : BitVec 64) : Option SlotDecl :=
  u.slots.find? fun d => match d.kind with
    | .backbone x => d.rx && x == uid
    | _ => false

/-- The module's backbone frame from a lane's image, without FCS (R277, R327). -/
def ringBody (s : State) (d : SlotDecl) (b : Binding) (conn : Option (Nat × ConnDecl)) (l : LaneId) : List Byte :=
  let payload := comBytes s l b d.bound
  let age := s.tide - (relOf s b.pair b.task).comAt
  let tr := match conn with
    | some c => trailer c.2 (connSt s c.1) payload
    | none => []
  let f := ringHead s s.ring.slot (forcedIn s b payload) conn.isSome (flipNow s) s.ring.cabOwn age ++ payload ++ tr
  f ++ List.replicate (d.frame - 4 - f.length) 0

/-- RING_SLOT_TX (R283, R322, R327, R337, R348): the node's own frame, while it holds a slot, in RUN and after the first commit. -/
def execRingSlotTx (sl : Lanes SliceFault) (s : State) : Host.Outcome State Fault Refusal :=
  let r := s.ring
  match ownBbSlot (setup s) with
  | none => .next s
  | some d =>
    match d.bind with
    | none => .next s
    | some b =>
      if ringRuns s && s.ctl.state == .run && r.slot != 0 && r.st != .joining && r.st != .alone && (relOf s b.pair b.task).committed then
        let conn := connOfSlot (setup s) d false
        let f (l : LaneId) : List Byte := ringBody s d b conn l
        let flip := flipNow s
        let s := modRing s fun r =>
          { r with slotSeen := r.slot :: r.slotSeen, cabSeen := if r.cabOwn then r.slot :: r.cabSeen else r.cabSeen,
                   flipSeen := r.flipSeen || (flip && r.slot == r.cabslot) }
        .next (sendRing s (outEgress s) ⟨⟨f .a, f .b, f .c⟩, true, false, .plain⟩ sl)
      else .next s

/-- What a good frame in slot `k` tells the ring (R336 to R338). -/
def noteFrame (s : State) (k : Nat) (f : List Byte) : State :=
  let b20 := f.getD 20 0
  modRing s fun r =>
    let revive (e : RosterEntry) : RosterEntry := if r.st = .master ∧ e.st = .lost then { e with st := .active } else e
    { r with slotSeen := k :: r.slotSeen, cabSeen := if b20.getLsbD 0 then k :: r.cabSeen else r.cabSeen,
             flipSeen := r.flipSeen || (b20.getLsbD 1 && k == r.cabslot), roster := r.roster.modify (k - 1) revive }

/-- The good copy of a slot's frame is taken; a later copy of it is ignored (R319, R395). -/
def takeSlot (s : State) (k : Nat) : State := modRing s fun r => { r with slotGood := k :: r.slotGood }

/-- RING_SLOT_RECEIVE (R196, R319, R328, R382, R395): the first good copy of a slot's frame in a tide is taken. -/
def execRingSlotReceive (i : Fin 4) (frame : List Byte) (verdict : Lanes SliceVerdict) (s : State) : Host.Outcome State Fault Refusal :=
  let k := ringSlotId frame
  if !ringRuns s || !(port s (bbPort i)).link || !(ingressA s == some i || ingressB s == some i) || !isRingFrame s frame then .next s
  else if s.ring.slotGood.contains k then .next s
  else if !fcsOk frame || !ringHeaderOk frame || beAt frame 18 2 != s.tide % 65536 || k == 0 || decide (slotCount s < k) then
    .next (rejectFrame s (bbPort i))
  else
    let s := noteFrame s k frame
    match s.ring.roster[k - 1]? with
    | none => .next s
    | some e =>
      if e.st ≠ .active then .next (rejectFrame s (bbPort i))
      else
        match bbSlotOf (setup s) e.uid with
        | none => .next (takeSlot s k)
        | some d =>
          if (frame.getD 20 0).getLsbD 4 == (connOfSlot (setup s) d true).isSome then
            let r := receive s d frame verdict
            .next (if r.2 then takeSlot r.1 k else r.1)
          else .next (rejectFrame s (bbPort i))

/-- Where a frame that starts at `pos` after p0 stands in the pattern (R321): 0 the beacon window, k a slot, 64 the mini-slot, 65
the free region. -/
def patternAt (s : State) (pos : Nat) : Nat :=
  let n := slotCount s
  let len := s.ring.bl * 100
  if pos < 5600 then 0
  else if pos < 5600 + n * len then (pos - 5600) / len + 1
  else if pos < 6800 + n * len then 64
  else 65

/-- What the pattern allows at a position: the frame is passed on, taken off the ring without a count, or discarded and counted (R325, R326,
R331, R367). A good or bad beacon in its window is passed on by its reception; a probe ends at the span. -/
inductive RingFate where
  | pass | drop | discard
  deriving DecidableEq, Repr

def isSync (f : List Byte) : Bool := etherType f == 0x88F7 && (f.getD 14 0).toNat % 16 == 0

def ringFate (s : State) (pos : Nat) (f : List Byte) : RingFate :=
  let n := ringSlotId f
  if isRingFrame s f then
    match patternAt s pos with
    | 0 => if n = 0 then .drop else .discard
    | 64 => if n = 0xFE then .pass else .discard
    | 65 => if n = 0xFF then .drop else .discard
    | k => if n = k then .pass else .discard
  else if patternAt s pos ≠ 65 then .discard
  else if etherType f = 0x88F7 then (if isSync f then .pass else .drop)
  else .pass

/-- A ring frame passed on from a leg's ingress. A Sync leaves with residence time and peer delay added after the vote (R318, R367); from a
port that is not used for time it is not passed on. -/
def passRing (s : State) (i : Fin 4) (p : Option (Fin 4)) (f : List Byte) (sl : Lanes SliceFault) : State :=
  if isSync f then
    match peerDelay s i, p with
    | some d, some e =>
      modRing (passOn s p f (.residence (600 + d)) sl) fun r => { r with syncOut := vmod r.syncOut e fun _ => some s.tideUp }
    | _, _ => s
  else passOn s p f .plain sl

/-- A claim reaches the master (R341). -/
def noteClaim (s : State) (f : List Byte) : State :=
  if s.ring.st = .master ∧ claimOk s f ∧ (parseClaim f).kind = 1 then modRing s fun r => { r with answer := some (parseClaim f) } else s

/-- RING_FRAME_FORWARD (R316, R317, R325, R326, R367): from the A-leg ingress to the A-leg egress, at the far end to the B leg; from
the B-leg ingress to the B-leg egress, at the start end removed. The beacon is passed on by its reception. -/
def execRingFrameForward (i : Fin 4) (pos : Nat) (rx : RingPass) (s : State) : Host.Outcome State Fault Refusal :=
  if !ringRuns s || !(port s (bbPort i)).link then .next s
  else
    let onA := ingressA s == some i
    let onB := ingressB s == some i
    if !onA && !onB then .next s
    else
      match ringFate s pos rx.bytes with
      | .drop => .next s
      | .discard => .next (modPort s (bbPort i) fun x => { x with pviol := x.pviol.inc })
      | .pass =>
        let s := noteClaim s rx.bytes
        if onA then .next (if srcMac rx.bytes = vehicleMac s then s else passRing s i (outEgress s) rx.bytes rx.sl)
        else .next (passRing s i (egressB s) rx.bytes rx.sl)

/-- CLAIM_SEND (R339, R340): a JOINING node claims in the mini-slot of every tide until it is granted or refused; an occupied
mini-slot defers it. -/
def execClaimSend (m : MiniSlot) (s : State) : Host.Outcome State Fault Refusal :=
  let r := s.ring
  let barred := r.retryAt.isSome || r.refusedEpoch == some r.epoch
  if !ringRuns s || r.st != .joining || barred then .next s
  else if !(policy s).claim then
    .next (if r.claimSaid then s else record (modRing s fun r => { r with claimSaid := true }) 0x040C [])
  else if m.busy then .next (modRing s fun r => { r with rclaim := r.rclaim.inc })
  else
    let s := modRing s fun r => { r with sent := true }
    .next (sendRing s (outEgress s) (ownFrame (claimBytes s (ownClaim s))) m.sl)

/-- CLAIM_RETRY (R342): 4,000 tides after a refusal for want of a FREE slot. -/
def execClaimRetry (s : State) : Host.Outcome State Fault Refusal :=
  match s.ring.retryAt with
  | some t => .next (if t ≤ s.tideUp then modRing s fun r => { r with retryAt := none } else s)
  | none => .next s

/-- SLOT_LOST (R338). -/
def execSlotLost (k : Nat) (s : State) : Host.Outcome State Fault Refusal :=
  match s.ring.roster[k - 1]? with
  | some e =>
    if ringRuns s && s.ring.st == .master && k != 0 && e.st == .active && decide (64 ≤ e.quiet) then
      .next (record (modRing s fun r => setEntry r k { e with st := .lost }) 0x0409 (d1 k ++ d8 e.uid.toNat))
    else .next s
  | none => .next s

/-- SLOT_FREE (R338). -/
def execSlotFree (k : Nat) (s : State) : Host.Outcome State Fault Refusal :=
  match s.ring.roster[k - 1]? with
  | some e =>
    if ringRuns s && s.ring.st == .master && k != 0 && e.st == .lost && decide (16064 ≤ e.quiet) then
      .next (record (modRing s fun r => setEntry r k freeEntry) 0x040A (d1 k))
    else .next s
  | none => .next s

end Sys2Proof.Machine
end

