-- ==== Sys2Proof/Machine/RingSides.lean ====
section
/-! DEFINITION. The commands of the ring that change masters and sides: mastership, handover, breaks, restores, merges
(09_train_backbone.md, R332 to R352). -/

namespace Sys2Proof.Machine

/-- A new master is grandmaster of the first domain and follows itself (R369, R371, R376). -/
def ownTime (s : State) : State :=
  let t := ownDomain s
  convEdge s (if s.time.act = .second ∧ t.time.act = .first then record t 0x0502 (d1 2 ++ d1 1 ++ di 0) else t)

/-- BECOME_MASTER (R332, R324, R348): a node whose inward side is END and that has missed two beacons. -/
def execBecomeMaster (s : State) : Host.Outcome State Fault Refusal :=
  if ringRuns s && s.ring.st != .master && sideOf s (inwardOf s) == .end_ && decide (2 ≤ s.ring.miss) then
    .next (ownTime (becomeMaster s (inwardOf s)))
  else .next s

/-- HANDOVER (R337): at ACT every node exchanges its sides, and the far end becomes master. -/
def execHandover (s : State) : Host.Outcome State Fault Refusal :=
  let r := s.ring
  let due := match r.act with
    | some a => r.handover && decide (a ≤ s.tide)
    | none => false
  if !ringRuns s || !due then .next s
  else
    let out := outwardOf s
    if sideOf s out = .end_ then
      let s := ownTime (becomeMaster s out)
      .next (record s 0x0406 (d8 r.muid.toNat ++ d8 (ownUid s).toNat))
    else
      .next (modRing s fun r =>
        { r with inward := some out, handover := false, act := none, flips := 0, heardAt := none, backAt := none,
                 st := if r.st = .master then .member else r.st })

/-- The port's active ingress has brought no good beacon in this tide (R343). -/
def silentIngress (s : State) (i : Fin 4) : Bool :=
  s.ring.st != .alone && (port s (bbPort i)).link &&
    ((ingressA s == some i && s.ring.heardAt != some s.tideUp) || (ingressB s == some i && s.ring.backAt != some s.tideUp))

/-- What a side becomes when it loses a line it uses (R345). -/
def afterLoss (s : State) (i : Fin 4) : SideSt :=
  let sd := sideOfPort i
  let other := bbLink s sd (otherLine (lineOfPort i))
  match sideOf s sd with
  | .linked => if other then (if lineOfPort i = .a then .crossA else .crossB) else .end_
  | .crossA => if lineOfPort i = .b then .end_ else .crossA
  | .crossB => if lineOfPort i = .a then .end_ else .crossB
  | .end_ => .end_

def restoreOf (s : State) : SideId → Option Nat
  | .f => s.ring.restoreF
  | .r => s.ring.restoreR

def setRestore (s : State) (sd : SideId) (a : Option Nat) : State :=
  modRing s fun r => match sd with
    | .f => { r with restoreF := a }
    | .r => { r with restoreR := a }

/-- A port whose line is silent is forced down (R344, R356). -/
def forceDown (s : State) (i : Fin 4) : State :=
  modRing (modPort s (bbPort i) fun x => { x with link := false, sqi := 0, piso := x.piso.inc }) fun r => { r with forced := (i, s.up) :: r.forced }

/-- LINE_LOST (R343, R344, R345, R356): the line is declared lost, a port with link is forced down, and the side switches or the
switch is withheld. -/
def execLineLost (i : Fin 4) (silent : Bool) (s : State) : Host.Outcome State Fault Refusal :=
  let sd := sideOfPort i
  let lost := if silent then silentIngress s i else !(port s (bbPort i)).link
  let next := afterLoss s i
  if !ringRuns s || !lost || next == sideOf s sd then .next s
  else
    let s :=
      if silent then
        forceDown s i
      else s
    let s := modRing (setRestore s sd none) fun r => { r with regain := vmod r.regain i fun _ => none }
    if (policy s).ring then .next (changeSide (modRing s fun r => { r with heal := r.heal.inc }) sd next i)
    else if s.ring.ringSaid.contains i then .next s
    else .next (record (modRing s fun r => { r with ringSaid := i :: r.ringSaid }) 0x040B (d1 (sideIdNo sd) ++ d1 (32 + i.val)))

/-- FORCED_LINK_DOWN_END (R344): 2 ms have passed. -/
def execForcedLinkDownEnd (i : Fin 4) (s : State) : Host.Outcome State Fault Refusal :=
  .next (modRing s fun r => { r with forced := r.forced.filter fun x => !(x.1 == i && decide (x.2 + 2000000 ≤ s.up)) })

/-- The line of a CROSS side that is not in use. -/
def idleLine (s : State) (sd : SideId) : Option Line :=
  match sideOf s sd with
  | .crossA => some .a
  | .crossB => some .b
  | _ => none

/-- RESTORE_PROBE (R347): the inward node of the span names an ACT once the lost line has carried idle for 4,000 tides without error; an
error starts the count again. -/
def execRestoreProbe (x : LineProbe) (s : State) : Host.Outcome State Fault Refusal :=
  let i := x.port
  let sd := sideOfPort i
  let ready := match s.ring.regain.get i with
    | some t => decide (t + 4000 ≤ s.tideUp)
    | none => false
  if !ringRuns s then .next s
  else if !x.clean then .next (modRing s fun r => { r with regain := vmod r.regain i fun t => t.map fun _ => s.tideUp })
  else if sd == outwardOf s && idleLine s sd == some (lineOfPort i) && ready && (restoreOf s sd).isNone then
    let act := s.tide + 4
    .next (sendRing (setRestore s sd (some act)) (some i) (ownFrame (probeBytes s (ownProbe s 3 (some act)))) x.sl)
  else .next s

/-- RESTORE_ACT (R347): at ACT the side returns to LINKED; the outer node takes ACT from the probe it has received. -/
def execRestoreAct (sd : SideId) (probe : Option Probe) (s : State) : Host.Outcome State Fault Refusal :=
  let due := match probe with
    | some p => p.kind == 3 && p.act == BitVec.ofNat 32 s.tide
    | none => match restoreOf s sd with
      | some a => decide (a ≤ s.tide)
      | none => false
  match idleLine s sd with
  | some l =>
    if ringRuns s && due && bbLink s sd l then
      let s := changeSide (setRestore s sd none) sd .linked (spanPort sd l)
      .next (modRing s fun r => { r with regain := vmod r.regain (spanPort sd l) fun _ => none })
    else .next s
  | none => .next s

/-- The merge under way at a side. -/
def decAt (s : State) (sd : SideId) : Option MergeDec :=
  match s.ring.dec with
  | some d => if d.side = sd then some d else none
  | none => none

/-- Reason 0x5: the joiner has not set ACT within 400,000 tides (R351). -/
def mergeLate (s : State) (d : MergeDec) : Bool := d.act.isNone && decide (d.tide + 400000 ≤ s.tideUp)

def linkedPorts (s : State) (sd : SideId) : List (Fin 4) :=
  [Line.a, Line.b].filterMap fun l => if bbLink s sd l then some (spanPort sd l) else none

/-- JUNCTION_PROBE (R349, R351): a probe on each line of an END side that has link. -/
def execJunctionProbe (x : SideTx) (s : State) : Host.Outcome State Fault Refusal :=
  let sd := x.side
  if !ringRuns s || sideOf s sd != .end_ || s.ring.st == .alone then .next s
  else
    let mine := ownProbe s 2 ((decAt s sd).bind (·.act))
    let s := match decAt s sd, probeOf s sd with
      | some d, some p => if mergeLate s d then refuseMerge s sd 5 mine p else s
      | _, _ => s
    .next (forAll (linkedPorts s sd) s fun s i => sendRing s (some i) (ownFrame (probeBytes s mine)) x.sl)

/-- The joiner's master is told of its merge: it slews its phase away before it sets MERGE (R352, R374). -/
def noticeMerge (s : State) (keeper : BitVec 64) : State :=
  if s.ring.notice.isSome then s
  else
    let slews := s.time.phi.any fun f => decide (10 < f.natAbs)
    let t := modRing s fun r => { r with notice := some keeper, slew := slews }
    convEdge s (if slews then startSlew t else t)

/-- The joiner's junction node reports the merge to its master (R352). -/
def reportMerge (s : State) (keeper : BitVec 64) (sl : Lanes SliceFault) : State :=
  if s.ring.st = .master then noticeMerge s keeper
  else sendRing s (outEgress s) (ownFrame (claimBytes s { uid := keeper, kind := 4, n := 0, frame := 0 })) sl

/-- ACT that a joiner's probe names, as this node counts tides: so many tides after the one in which the probe was sent (R331, R349;
assumption log entry 90). -/
def probeAct (s : State) (p : Probe) : Option Nat := if p.act = 0 then none else some (s.tide + (p.act.setWidth 16 - p.cycle).toNat)

/-- MERGE_DECISION (R350, R351, R352): both probes are held; the rings' roles are decided, or the merge is refused, and the rule is
evaluated again until ACT. -/
def execMergeDecision (sd : SideId) (rx : ProbeRx) (s : State) : Host.Outcome State Fault Refusal :=
  let p := rx.probe
  if !ringRuns s || sideOf s sd != .end_ || s.ring.st == .alone || (linkedPorts s sd).isEmpty || p.kind != 2 || p.muid == s.ring.muid then .next s
  else
    let s := modRing s fun r => match sd with
      | .f => { r with probeF := some p }
      | .r => { r with probeR := some p }
    let mine := ownProbe s 2 none
    match s.ring.dec with
    | none =>
      let again := match refusedOf s sd with
        | some q => !(sameProbe q.1 mine && sameProbe q.2 p)
        | none => true
      if !again then .next s
      else
        let keeper := keeps mine p
        let why := if keeper then refusal mine p else refusal p mine
        if why ≠ 0 then .next (refuseMerge s sd why mine p)
        else
          let s := modRing s fun r => setRefused { r with dec := some ⟨sd, keeper, s.tideUp, p.muid, none⟩ } sd none
          let s := record s 0x0407 (d1 (if keeper then 1 else 2) ++ d8 p.muid.toNat ++ d4 0)
          .next (if keeper then s else reportMerge s p.muid rx.sl)
    | some d =>
      if d.side ≠ sd then .next s
      else
        let why := if d.keeper then refusal mine p else refusal p mine
        if why ≠ 0 then .next (refuseMerge s sd why mine p)
        else if mergeLate s d then .next (refuseMerge s sd 5 mine p)
        else
          let act := if d.keeper then (probeAct s p).or d.act else (if s.ring.merge then s.ring.act else d.act)
          let s := modRing s fun r => { r with dec := some { d with act := act } }
          .next (if d.keeper ∨ s.ring.merge then s else reportMerge s p.muid rx.sl)

/-- MERGE_NOTICE (R331, R352): a claim frame of KIND 0x04 reaches the joiner's master. MERGE is set with its next beacon once it is
not slewing. -/
def execMergeNotice (frame : List Byte) (s : State) : Host.Outcome State Fault Refusal :=
  if ringRuns s && s.ring.st == .master && claimOk s frame && (parseClaim frame).kind == 4 then
    .next (noticeMerge s (parseClaim frame).uid)
  else .next s

/-- The keeper's junction node at ACT (R352, R355). A ring of one node takes the other side as its start end. The master counts EPOCH on
when NODES has grown (R329; assumption log entry 68). -/
def keeperActs (s : State) (sd : SideId) : State :=
  let single := s.ring.st == .master && sideOf s (otherSide sd) == .end_
  let s := changeSide s sd (sideByLinks s sd) (spanPort sd .a)
  modRing s fun r =>
    { r with dec := none, mergeLast := 1, mergeWhy := 0, inward := if single then some (otherSide sd) else r.inward }

/-- The whole tides of a relabel: as this node has measured its keeper, or found it in the second domain; else as its master's (R374;
assumption log entry 91). -/
def relabelBy (s : State) (k : Int) : Int := if s.time.phi.isSome then s.time.relab else (wholeTides s).getD k

/-- A joiner node at ACT (R352, R374): JOINING, timed from the keeper's beacon, its clock relabelled by whole tides. -/
def joinerActs (s : State) (junction : Option SideId) (kMaster : Int) : State :=
  let k := relabelBy s kMaster
  let s := match junction with
    | some sd => changeSide s sd (sideByLinks s sd) (spanPort sd .a)
    | none => s
  let s := modRing s fun r =>
    { becomeJoining r with
        dec := none, mergeLast := if junction.isSome then 2 else r.mergeLast, mergeWhy := if junction.isSome then 0 else r.mergeWhy,
        inward := junction, merge := false, act := none, slew := false, miss := 0, gotAt := none, heardAt := none, backAt := none,
        hasTable := false, roster := [] }
  let s := if k = 0 then s else relabel s k
  modTime s fun t => { t with phi := none, relab := 0 }

/-- MERGE_ACT (R351, R352): the ACT boundary of a merge. A junction node that has refused the merge stays apart. -/
def execMergeAct (x : MergeActs) (s : State) : Host.Outcome State Fault Refusal :=
  let sd := x.side
  let r := s.ring
  let due := match r.act with
    | some a => r.merge && decide (a ≤ s.tide)
    | none => false
  if !ringRuns s then .next s
  else
    match decAt s sd with
    | some d =>
      if d.keeper then .next (if d.act.any fun a => decide (a ≤ s.tide) then keeperActs s sd else s)
      else .next (if due then convEdge s (joinerActs s (some sd) x.k) else s)
    | none => .next (if due && (refusedOf s sd).isNone then convEdge s (joinerActs s none x.k) else s)

end Sys2Proof.Machine
end

