-- ==== Sys2Proof/Machine/System.lean ====
section
/-! DEFINITION. System instructions and encodings without an instruction (R76, R78 to R81, R94, R147 to R151). -/

namespace Sys2Proof.Machine

/-- The system register numbers of the summary table; others are unassigned (R78). -/
def sysLegal (imm : BitVec 16) : Bool := decide (imm.toNat < 6)

/-- TASKID (R79). -/
def taskidWord (c : Core) : Word :=
  match c.timed with
  | some t => put c.x.pair.val 4 4 ||| put t.val 0 4
  | none => bit true 8 ||| put c.x.pair.val 4 4 ||| put (b2n c.x.odd) 0 4

/-- FLAGS (R80). -/
def flagsWord (s : State) (c : Core) : Word := bit (finvTrap s c) 8 ||| bit c.bank.finv 1 ||| bit c.bank.dz 0

/-- DEPTH. -/
def depthWord (c : Core) : Word := put c.bank.loops.length 4 4 ||| put c.bank.ret.length 0 4

/-- The value of a system register (R78 to R81). -/
def sysReg (s : State) (c : Core) (n : Nat) : Word :=
  match n with
  | 0 => taskidWord c
  | 1 => BitVec.ofNat 32 (laneNo c.x.lane)
  | 2 => flagsWord s c
  | 3 => depthWord c
  | 4 => s.ctl.stopcause
  | _ => s.ctl.stoppc

/-- RDSYS: a system register with the neutral tag; LANEID is refused in a timed task (R76, R78, R79). -/
def execRdsys (x : Ctx) (f : FormB) (s : State) : Host.Outcome State Fault Refusal :=
  .next (runInstr x (isB 0x68 f) 1 (legalB f && f.s1 == 0 && sysLegal f.imm) (fun s c =>
    if f.imm = 1 ∧ c.timed.isSome then .raise s .access 0 0
    else giveW s c.bank f.d (sysReg s c f.imm.toNat) neutral) s)

/-- WRSYS: a 1 clears DZ or FINV of FLAGS; any other register raises EX_ACCESS (R78, R80). The record of an EX_ACCESS that forms no
memory address holds address 0: DESIGN CHOICE, log entry 53; so for RDSYS, FENCE, JOIN and ARPRI in a timed task. -/
def execWrsys (x : Ctx) (f : FormB) (s : State) : Host.Outcome State Fault Refusal :=
  .next (runInstr x (isB 0x69 f) 1 (legalB f && f.d == 0 && sysLegal f.imm) (fun s c =>
    if f.imm = 2 then
      let w := (rdW c.bank f.s1).v
      .go s (nextPc { c.bank with dz := c.bank.dz && !w.getLsbD 0, finv := c.bank.finv && !w.getLsbD 1 }) []
    else .raise s .access 0 0) s)

/-- ARPRI names an assigned arbiter and requester (R147, R499). -/
def arpriLegal (imm : BitVec 16) : Bool :=
  decide (imm.toNat / 256 < 2) && assigned (imm.toNat / 256 == 1) (imm.toNat % 256)

/-- ARPRI: a requester's priority becomes v(Ws)[3:0] (R147, R501). -/
def execArpri (x : Ctx) (f : FormB) (s : State) : Host.Outcome State Fault Refusal :=
  .next (runInstr x (isB 0x6A f) 0 (legalB f && f.d == 0 && arpriLegal f.imm) (fun s c =>
    if c.timed.isSome then .raise s .access 0 0
    else
      let v : BitVec 4 := (rdW c.bank f.s1).v.setWidth 4
      if h : f.imm.toNat % 256 < 14 then
        .go (setPri s (f.imm.toNat / 256 == 1) ⟨f.imm.toNat % 256, h⟩ v) (nextPc c.bank) []
      else .raise s .illegal 0 0) s)

/-- An entry address that a split may take: in the lane-common area, a multiple of 4 (R148). -/
def splitEntry (a : Word) : Bool := decide (0x1000000 ≤ a.toNat) && decide (a.toNat < 0x1800000) && decide (a.toNat % 4 = 0)

/-- SPLIT marks a split of the pair as pending with its two entry addresses; a bad entry is refused and recorded (R148, R258).
Event 0x0C0A has room for one address (R605): of two bad entries the even core's is recorded, DESIGN CHOICE, log entry 81. -/
def execSplit (x : Ctx) (f : FormA) (s : State) : Host.Outcome State Fault Refusal :=
  .next (runInstr x (isA 0x6B f) 2 (legalA3 f && f.d == 0) (fun s c =>
    let a := (rdW c.bank f.s1).v
    let b := (rdW c.bank f.s2).v
    if splitEntry a && splitEntry b then
      .go (modPair s x.lane x.pair fun q => { q with splitPend := some (a, b) }) (nextPc c.bank) []
    else
      let bad := if splitEntry a then b else a
      .go (record (modPair s x.lane x.pair fun q => { q with splitPend := none }) 0x0C0A
        (d1 (laneNo x.lane) ++ d1 x.pair.val ++ d4 bad.toNat)) (nextPc c.bank) []) s)

/-- JOIN ends the work item and asks the pair to join (R149, R257); in a timed task it is refused (R76). -/
def execJoin (x : Ctx) (f : FormA) (s : State) : Host.Outcome State Fault Refusal :=
  .next (runInstr x (isA 0x6C f) 0 (legalA0 f) (fun s c =>
    if c.timed.isSome then .raise s .access 0 0
    else .finish (modPair s x.lane x.pair fun q => { q with resume := false }) (nextPc c.bank) []) s)

/-- SIG adds value and tag to the activation's contribution; in untimed work it has no effect (R150). -/
def execSig (x : Ctx) (f : FormA) (s : State) : Host.Outcome State Fault Refusal :=
  .next (runInstr x (isA 0x6D f) 1 (legalA2 f && f.d == 0) (fun s c =>
    let a := rdW c.bank f.s1
    let s := match c.timed with
      | some t => modTask s x.lane x.pair t fun r => { r with sigs := .sig a.v a.t :: r.sigs }
      | none => s
    .go s (nextPc c.bank) []) s)

/-- TRAP raises EX_ILLEGAL with its immediate (R151). -/
def execTrap (x : Ctx) (f : FormB) (s : State) : Host.Outcome State Fault Refusal :=
  .next (runInstr x (isB 0x6E f) 1 (legalB f && f.d == 0 && f.s1 == 0) (fun s _ => .raise s .illegal 0 f.imm) s)

/-- NOP changes nothing but the PC (R151). -/
def execNop (x : Ctx) (f : FormA) (s : State) : Host.Outcome State Fault Refusal :=
  .next (runInstr x (isA 0x6F f) 1 (legalA0 f) (fun s c => .go s (nextPc c.bank) []) s)

/-- An unassigned primary opcode raises EX_ILLEGAL (R94). -/
def execUnassignedOpcode (x : Ctx) (op : BitVec 7) (s : State) : Host.Outcome State Fault Refusal :=
  .next (if opUnassigned op.toNat then runInstr x (isOp op) 0 false (fun s _ => .raise s .illegal 0 0) s else s)

/-- A set-up class instruction raises EX_ILLEGAL when it is executed (R76, R104). -/
def execSetupClassInstruction (x : Ctx) (op : BitVec 7) (s : State) : Host.Outcome State Fault Refusal :=
  .next (if opSetup op.toNat then runInstr x (isOp op) 0 false (fun s _ => .raise s .illegal 0 0) s else s)

end Sys2Proof.Machine
end

