-- ==== Sys2Proof/Machine/TimeCmds.lean ====
section
/-! DEFINITION. The commands of network time (10_network_time.md, R361 to R376; 16_power_and_clocks.md, R546, R547). -/

namespace Sys2Proof.Machine

/-- The backbone port of a port, if it is one. -/
def bbOfPort (p : Port) : Option (Fin 4) := if isBackbone p then some (Fin.ofNat 4 p.val) else none

/-- A side in END with link on this port (R349, R369). -/
def junctionPort (s : State) (i : Fin 4) : Bool :=
  sideOf s (sideOfPort i) == .end_ && (port s (bbPort i)).link && s.ring.st != .alone

/-- What the far end adds to its own time in the second domain: at the joiner's junction node, which issues its keeper's time there, the
offset to the keeper (R369, R374). -/
def secondOfs (s : State) : Int :=
  match s.ring.dec, s.time.phi with
  | some d, some f => if d.keeper then 0 else s.time.relab * 250000 + f
  | _, _ => 0

/-- The position at which a grandmaster starts its Sync on the ring (R370). -/
def syncPos (s : State) (now : Nat) : Bool := decide (freeFrom s + 150 ≤ now) && decide (now ≤ freeFrom s + 250)

/-- A Sync leaves a backbone port that starts it at an offset in the tide. -/
def sendSync (s : State) (i : Fin 4) (dom : Byte) (logIv d : Int) (now : Nat) (sl : Lanes SliceFault) : State :=
  let p := bbPort i
  let s := countSeq (sendRingAt s (some i) (syncMessage s p dom logIv d) sl (egressNs s p now)) 0 p dom
  modRing s fun r => { r with syncOut := vmod r.syncOut i fun _ => some s.tideUp }

/-- SYNC_SEND (R364, R368 to R370): the Sync of each time role, with its start in the tide; on vehicle ports and MNT it enters the
queue. -/
def execSyncSend (x : TxAt Port) (s : State) : Host.Outcome State Fault Refusal :=
  let p := x.port
  let now := x.now
  let sl := x.sl
  let u := (setup s).net
  if !awake s || !(port s p).link then .next s
  else
    match bbOfPort p with
    | none => .next (if s.tide % 8 = 0 then countSeq (enqPtp s p (syncMessage s p u.dom1 (-9) 0)) 0 p u.dom1 else s)
    | some i =>
      if !ringRuns s then .next s
      else if junctionPort s i then .next (sendSync s i u.dom1 (-12) 0 now sl)
      else if !syncPos s now then .next s
      else if s.ring.st = .master ∧ egressA s = some i ∧ s.tide % 8 = 0 then .next (sendSync s i u.dom1 (-9) 0 now sl)
      else if sideOf s (outwardOf s) = .end_ ∧ 2 ≤ s.ring.nodes ∧ egressB s = some i ∧ s.tide % 8 = 4 then
        .next (sendSync s i u.dom2 (-9) (secondOfs s) now sl)
      else .next s

/-- The joiner measures its keeper at this side (R374). -/
def measuresAt (s : State) (sd : SideId) : Bool :=
  match s.ring.dec with
  | some d => d.side == sd && !d.keeper
  | none => false

/-- A Sync of the active domain: the clock slews once its offset exceeds 1 µs (R372). A joiner's master follows its keeper's phase
instead. -/
def afterSync (s : State) (dom : ActDom) : State :=
  if s.time.act = dom ∧ s.ring.notice.isNone then
    if 1000 < (activeOfs s).natAbs then startSlew s else steer s
  else s

/-- PTP reaches the time unit from a port with link; a guardian that is not ADMITTED delivers none (R288). -/
def hearsPtp (s : State) (p : Port) : Bool := awake s && (port s p).link && (port s p).guard == .admitted

/-- The sequenceId rule over the two domains (R363). -/
def seqNew (s : State) (m : PtpMsg) : Bool := seqOk (if m.domain = (setup s).net.dom1 then s.time.dom1 else s.time.dom2) m

/-- The Sync of a junction span: the joiner measures its keeper by it (R374). -/
def junctionSync (s : State) (i : Fin 4) (m : PtpMsg) (o : Int) : State :=
  if m.domain = (setup s).net.dom1 then
    let s := modTime s fun t => { t with dom1 := { t.dom1 with seqs := insertKey t.dom1.seqs m.sender m.seq } }
    if measuresAt s (sideOfPort i) then measureKeeper s o else s
  else s

/-- The Sync of a leg: the first domain from the A-leg ingress, the second from the B-leg ingress (R369, R371). -/
def legSync (s : State) (i : Fin 4) (m : PtpMsg) (o : Int) : State :=
  let u := (setup s).net
  if m.domain = u.dom1 ∧ ingressA s = some i then
    afterSync (modTime s fun t => { t with dom1 := trackSync s t.dom1 m o }) .first
  else if m.domain = u.dom2 ∧ ingressB s = some i then
    let s := modTime s fun t => { t with dom2 := trackSync s t.dom2 m o }
    let s := if s.ring.notice.isSome || s.ring.merge then measureKeeper s o else s
    afterSync s .second
  else s

/-- SYNC_RECEIVE (R362, R363, R367, R368, R371, R374): the checks of the message, then what its leg makes
of it. A port without a valid peer delay is not used for time (R366). -/
def execSyncReceive (p : Port) (rx : PtpArrival) (s : State) : Host.Outcome State Fault Refusal :=
  let m := rx.msg
  if !hearsPtp s p then .next s
  else
    match bbOfPort p with
    | none => .next (ptpReject s)
    | some i =>
      if m.msgType != 0 || !ptpOk s m || !seqNew s m then .next (ptpReject s)
      else
        match peerDelay s i with
        | none => .next s
        | some d =>
          let o := syncOfs s m d rx.now
          .next (convEdge s (if junctionPort s i then junctionSync s i m o else legSync s i m o))

/-- A port that holds no peer delay is recorded once: 0 stands for the mean of no value (R366; assumption log entry 89). -/
def noDelay (s : State) (i : Fin 4) : State :=
  if (peerDelay s i).isSome || s.time.delayBad.get i then s
  else record (modTime s fun t => { t with delayBad := vmod t.delayBad i fun _ => true }) 0x0506 (d1 (32 + i.val) ++ di 0)

/-- PDELAY_REQ_SEND (R326, R366): on a backbone port with link, at link-up and then every 64 tides. One
that is due while its predecessor stands unanswered finds a port without an answer. -/
def execPdelayReqSend (x : TxAt (Fin 4)) (s : State) : Host.Outcome State Fault Refusal :=
  let i := x.port
  let now := x.now
  let sl := x.sl
  let p := bbPort i
  if !awake s || !(port s p).link || !ringFree s i now || decide (s.tideUp < s.time.pdNext.get i) then .next s
  else
    let s := if (s.time.pdSent.get i).isSome then noDelay s i else s
    let t := egressNs s p now
    let s := countSeq (sendRingAt s (some i) (pdelayReq s p) sl t) 2 p (setup s).net.dom1
    .next (modTime s fun x => { x with pdSent := vmod x.pdSent i fun _ => some t, pdNext := vmod x.pdNext i fun _ => s.tideUp + 64 })

/-- A Pdelay_Resp of this port still waits (R365). -/
def respPending (s : State) (p : Port) : Bool := (port s p).qPtp.any isResp

/-- PDELAY_REQ_RECEIVE (R363, R365): a request that arrives at `now` in the tide is answered from the port's queue; it is discarded while a
response is pending. -/
def execPdelayReqReceive (p : Port) (m : PtpMsg) (now : Nat) (s : State) : Host.Outcome State Fault Refusal :=
  if !hearsPtp s p then .next s
  else if m.msgType != 2 || !ptpOk s m then .next (ptpReject s)
  else if respPending s p then .next s
  else .next (countSeq (enqPtp s p (pdelayResp s p m (tideNs s now))) 3 p m.domain)

/-- PDELAY_RESP_RECEIVE (R363, R366): the answer to the request under way arrives at `now` in the tide and gives a value of the peer delay;
one outside 0 ns to 300 ns is not used. -/
def execPdelayRespReceive (i : Fin 4) (m : PtpMsg) (now : Nat) (s : State) : Host.Outcome State Fault Refusal :=
  if !hearsPtp s (bbPort i) then .next s
  else if m.msgType != 3 || !ptpOk s m then .next (ptpReject s)
  else
    match s.time.pdSent.get i with
    | none => .next s
    | some t1 =>
      let value := Int.fdiv (tideNs s now - t1 - m.corr) 2
      let s := modTime s fun t => { t with pdSent := vmod t.pdSent i fun _ => none }
      if 0 ≤ value ∧ value ≤ 300 then
        .next (modTime s fun t =>
          { t with delays := vmod t.delays i fun l => (value.toNat :: l).take 8, delayBad := vmod t.delayBad i fun _ => false })
      else .next (noDelay s i)

/-- ANNOUNCE_SEND (R362, R364): every 4,000 tides on vehicle ports with link and on MNT. -/
def execAnnounceSend (p : Port) (s : State) : Host.Outcome State Fault Refusal :=
  if awake s && (port s p).link && !isBackbone p && decide (s.tide % 4000 = 0) then
    .next (countSeq (enqPtp s p (announce s p)) 0xB p (setup s).net.dom1)
  else .next s

/-- CLOCK_SET (R361): once, from a good Sync of the first domain on the active ingress, or by a master from the Headland's count of
seconds. Event 0x0501 holds 0 for Sync, 1 for the Headland (assumption log entry 9). -/
def execClockSet (sync : Option (Fin 4 × PtpMsg)) (s : State) : Host.Outcome State Fault Refusal :=
  if !ringRuns s || s.time.set then .next s
  else
    match sync with
    | none =>
      if s.ring.st = .master then
        .next (record (ownDomain (setClock s (s.pw.opsec.toNat * 1000000000))) 0x0501 (d1 1))
      else .next s
    | some (i, m) =>
      match peerDelay s i with
      | none => .next s
      | some d =>
        if m.msgType == 0 && ptpOk s m && m.domain == (setup s).net.dom1 && ingressA s == some i && decide (0 ≤ m.origin + m.corr) then
          let s := setClock s ((m.origin + m.corr).toNat + d)
          let s := modTime s fun t => { t with act := .first, dom1 := trackSync s t.dom1 m 0 }
          .next (record (setHops s) 0x0501 (d1 0))
        else .next s

def domNo : ActDom → Nat
  | .none => 0
  | .first => 1
  | .second => 2

/-- The active domain changes: the event, and the slew towards the new one (R371, R372, R380). -/
def toDomain (s : State) (d : ActDom) : State :=
  let old := s.time.act
  let s := setHops (modTime s fun t => { t with act := d })
  slewAfterChange (record s 0x0502 (d1 (domNo old) ++ d1 (domNo d) ++ di (activeOfs s)))

/-- ACTIVE_DOMAIN_CHANGE (R371): to the second domain after 128 tides without the first, back after 4,000 tides with it. -/
def execActiveDomainChange (s : State) : Host.Outcome State Fault Refusal :=
  let t := s.time
  if !awake s || s.ring.st == .master || !t.set || t.hold then .next s
  else
    match t.act with
    | .first => if !heardWithin s t.dom1 127 && heardWithin s t.dom2 16 then .next (convEdge s (toDomain s .second)) else .next s
    | .second =>
      if heardWithin s t.dom1 16 && decide (t.dom1.runStart + 4000 ≤ s.tideUp) then .next (convEdge s (toDomain s .first)) else .next s
    | .none => .next s

/-- SLEW_END (R372, R373): the offset is 10 ns or less. -/
def execSlewEnd (s : State) : Host.Outcome State Fault Refusal :=
  if s.time.slewing && decide ((slewOfs s).natAbs ≤ 10) then
    let t := steer (modTime s fun t => { t with slewing := false })
    .next (convEdge s (if s.ring.notice.isSome then modRing t fun r => { r with slew := false } else t))
  else .next s

/-- HOLDOVER_ENTER (R376): 128 tides without a good Sync of either domain. -/
def execHoldoverEnter (s : State) : Host.Outcome State Fault Refusal :=
  let t := s.time
  if awake s && t.set && !t.hold && s.ring.st != .master && !heardWithin s t.dom1 127 && !heardWithin s t.dom2 127 then
    .next (convEdge s (record (setHops (modTime s fun t => { t with hold := true, act := .none, slewing := false })) 0x0504 (d1 (domNo t.act))))
  else .next s

/-- HOLDOVER_LEAVE (R376): the first good Sync of a domain selects it. -/
def execHoldoverLeave (dom2 : Bool) (s : State) : Host.Outcome State Fault Refusal :=
  let d := if dom2 then s.time.dom2 else s.time.dom1
  if s.time.hold && heardWithin s d 8 then
    let t := setHops (modTime s fun t => { t with hold := false, act := if dom2 then .second else .first })
    .next (convEdge s (slewAfterChange (record t 0x0505 (d1 (if dom2 then 2 else 1) ++ di (activeOfs t)))))
  else .next s

/-- OSCILLATOR_RETRIM (R547): after 64 s beyond 0.5 ppm, one step of 0.05 ppm, taken out of the rate correction in the same tick. -/
def execOscillatorRetrim (s : State) : Host.Outcome State Fault Refusal :=
  let c := s.time.clock.corr.toInt
  let due := match s.time.overFrom with
    | some t => decide (t + 64000000000 ≤ s.up)
    | none => false
  if !awake s || !due then .next s
  else
    let s := modTime s fun t => { t with overFrom := some s.up }
    if (policy s).trim then
      let step : Int := if 0 ≤ c then 1 else -1
      let s := setCorr (modTime s fun t => { t with trim := t.trim + step }) (c - step * (corrStep : Int))
      .next (record s 0x0508 (d1 (domNo s.time.act) ++ di (c - step * (corrStep : Int))))
    else .next (record s 0x0509 (d1 (domNo s.time.act)))

/-- REFERENCE_CHECK (R546): a count more than 100 ppm from 25,000,000 latches REFFLT. -/
def execReferenceCheck (count : Nat) (s : State) : Host.Outcome State Fault Refusal :=
  let dev : Int := (count : Int) - 25000000
  if awake s && !s.pw.refflt && decide (2500 < dev.natAbs) then
    .next (record { s with pw := { s.pw with refflt := true } } 0x010F (di (Int.tdiv dev 25)))
  else .next s

end Sys2Proof.Machine
end

