-- ==== Sys2Proof/Machine/Dispatch.lean ====
section
/-! DEFINITION. One arm per command: a direct call of its meaning. -/

namespace Sys2Proof.Machine

/-- The effect of a command on everything but the queue. -/
def exec (i : Instr) (s : State) : Host.Outcome State Fault Refusal :=
  match i with
  | .add x f => Sys2Proof.Machine.execAdd x f s
  | .addi x f => Sys2Proof.Machine.execAddi x f s
  | .sub x f => Sys2Proof.Machine.execSub x f s
  | .subi x f => Sys2Proof.Machine.execSubi x f s
  | .adds x f => Sys2Proof.Machine.execAdds x f s
  | .subs x f => Sys2Proof.Machine.execSubs x f s
  | .neg x f => Sys2Proof.Machine.execNeg x f s
  | .mul x f => Sys2Proof.Machine.execMul x f s
  | .mulh x f => Sys2Proof.Machine.execMulh x f s
  | .div x f => Sys2Proof.Machine.execDiv x f s
  | .divu x f => Sys2Proof.Machine.execDivu x f s
  | .rem x f => Sys2Proof.Machine.execRem x f s
  | .abs x f => Sys2Proof.Machine.execAbs x f s
  | .min x f => Sys2Proof.Machine.execMin x f s
  | .max x f => Sys2Proof.Machine.execMax x f s
  | .and x f => Sys2Proof.Machine.execAnd x f s
  | .andi x f => Sys2Proof.Machine.execAndi x f s
  | .or x f => Sys2Proof.Machine.execOr x f s
  | .ori x f => Sys2Proof.Machine.execOri x f s
  | .xor x f => Sys2Proof.Machine.execXor x f s
  | .xori x f => Sys2Proof.Machine.execXori x f s
  | .not x f => Sys2Proof.Machine.execNot x f s
  | .limit x f => Sys2Proof.Machine.execLimit x f s
  | .shl x f => Sys2Proof.Machine.execShl x f s
  | .shr x f => Sys2Proof.Machine.execShr x f s
  | .sar x f => Sys2Proof.Machine.execSar x f s
  | .rol x f => Sys2Proof.Machine.execRol x f s
  | .sel x f => Sys2Proof.Machine.execSel x f s
  | .mov x f => Sys2Proof.Machine.execMov x f s
  | .movi x f => Sys2Proof.Machine.execMovi x f s
  | .movhi x f => Sys2Proof.Machine.execMovhi x f s
  | .cmp x f => Sys2Proof.Machine.execCmp x f s
  | .cmpi x f => Sys2Proof.Machine.execCmpi x f s
  | .bset x f => Sys2Proof.Machine.execBset x f s
  | .bclr x f => Sys2Proof.Machine.execBclr x f s
  | .btst x f => Sys2Proof.Machine.execBtst x f s
  | .bld x f => Sys2Proof.Machine.execBld x f s
  | .bst x f => Sys2Proof.Machine.execBst x f s
  | .band x f => Sys2Proof.Machine.execBand x f s
  | .bor x f => Sys2Proof.Machine.execBor x f s
  | .bxor x f => Sys2Proof.Machine.execBxor x f s
  | .bnot x f => Sys2Proof.Machine.execBnot x f s
  | .bmov x f => Sys2Proof.Machine.execBmov x f s
  | .edge x f => Sys2Proof.Machine.execEdge x f s
  | .fadd x f => Sys2Proof.Machine.execFadd x f s
  | .fsub x f => Sys2Proof.Machine.execFsub x f s
  | .fmul x f => Sys2Proof.Machine.execFmul x f s
  | .fdiv x f => Sys2Proof.Machine.execFdiv x f s
  | .fsqrt x f => Sys2Proof.Machine.execFsqrt x f s
  | .fmin x f => Sys2Proof.Machine.execFmin x f s
  | .fmax x f => Sys2Proof.Machine.execFmax x f s
  | .fabs x f => Sys2Proof.Machine.execFabs x f s
  | .fneg x f => Sys2Proof.Machine.execFneg x f s
  | .fcmp x f => Sys2Proof.Machine.execFcmp x f s
  | .ftoi x f => Sys2Proof.Machine.execFtoi x f s
  | .itof x f => Sys2Proof.Machine.execItof x f s
  | .flim x f => Sys2Proof.Machine.execFlim x f s
  | .fscale x f => Sys2Proof.Machine.execFscale x f s
  | .ldw x f => Sys2Proof.Machine.execLdw x f s
  | .ldh x f => Sys2Proof.Machine.execLdh x f s
  | .ldhu x f => Sys2Proof.Machine.execLdhu x f s
  | .ldb x f => Sys2Proof.Machine.execLdb x f s
  | .ldbu x f => Sys2Proof.Machine.execLdbu x f s
  | .ldq x f => Sys2Proof.Machine.execLdq x f s
  | .ldt x f => Sys2Proof.Machine.execLdt x f s
  | .stw x f => Sys2Proof.Machine.execStw x f s
  | .sth x f => Sys2Proof.Machine.execSth x f s
  | .stb x f => Sys2Proof.Machine.execStb x f s
  | .stq x f => Sys2Proof.Machine.execStq x f s
  | .stt x f => Sys2Proof.Machine.execStt x f s
  | .br x f => Sys2Proof.Machine.execBr x f s
  | .bt x f => Sys2Proof.Machine.execBt x f s
  | .bf x f => Sys2Proof.Machine.execBf x f s
  | .call x f => Sys2Proof.Machine.execCall x f s
  | .ret x f => Sys2Proof.Machine.execRet x f s
  | .loop x f => Sys2Proof.Machine.execLoop x f s
  | .endl x f => Sys2Proof.Machine.execEndl x f s
  | .jtab x f => Sys2Proof.Machine.execJtab x f s
  | .done x f => Sys2Proof.Machine.execDone x f s
  | .ton x f => Sys2Proof.Machine.execTon x f s
  | .tof x f => Sys2Proof.Machine.execTof x f s
  | .tp x f => Sys2Proof.Machine.execTp x f s
  | .ctu x f => Sys2Proof.Machine.execCtu x f s
  | .ctd x f => Sys2Proof.Machine.execCtd x f s
  | .now x f => Sys2Proof.Machine.execNow x f s
  | .tide x f => Sys2Proof.Machine.execTide x f s
  | .age x f => Sys2Proof.Machine.execAge x f s
  | .qchk x f => Sys2Proof.Machine.execQchk x f s
  | .subst x f => Sys2Proof.Machine.execSubst x f s
  | .fence x f => Sys2Proof.Machine.execFence x f s
  | .ldx x f => Sys2Proof.Machine.execLdx x f s
  | .stx x f => Sys2Proof.Machine.execStx x f s
  | .cas x f => Sys2Proof.Machine.execCas x f s
  | .xchg x f => Sys2Proof.Machine.execXchg x f s
  | .rdsys x f => Sys2Proof.Machine.execRdsys x f s
  | .wrsys x f => Sys2Proof.Machine.execWrsys x f s
  | .arpri x f => Sys2Proof.Machine.execArpri x f s
  | .split x f => Sys2Proof.Machine.execSplit x f s
  | .join x f => Sys2Proof.Machine.execJoin x f s
  | .sig x f => Sys2Proof.Machine.execSig x f s
  | .trap x f => Sys2Proof.Machine.execTrap x f s
  | .nop x f => Sys2Proof.Machine.execNop x f s
  | .deadlineOverrun l p t => Sys2Proof.Machine.execDeadlineOverrun l p t s
  | .exceptionClassify p t atCommit => Sys2Proof.Machine.execExceptionClassify p t atCommit s
  | .outputWindow bad => Sys2Proof.Machine.execOutputWindow bad s
  | .commitInstant silent => Sys2Proof.Machine.execCommitInstant silent s
  | .taskRelease bad => Sys2Proof.Machine.execTaskRelease bad s
  | .taskReady hurt => Sys2Proof.Machine.execTaskReady hurt s
  | .signatureCompare lost => Sys2Proof.Machine.execSignatureCompare lost s
  | .outputPathJudge => Sys2Proof.Machine.execOutputPathJudge s
  | .lockstepWindowClose l p lerr cerr fx fy => Sys2Proof.Machine.execLockstepWindowClose l p lerr cerr fx fy s
  | .lanePowerLoss l => Sys2Proof.Machine.execLanePowerLoss l s
  | .laneSupplyReady l => Sys2Proof.Machine.execLaneSupplyReady l s
  | .laneSelfTestDone l pass result => Sys2Proof.Machine.execLaneSelfTestDone l pass result s
  | .laneSelfTestTimeout l => Sys2Proof.Machine.execLaneSelfTestTimeout l s
  | .rejoinStart => Sys2Proof.Machine.execRejoinStart s
  | .rejoinCopyDone bad => Sys2Proof.Machine.execRejoinCopyDone bad s
  | .shadowStart => Sys2Proof.Machine.execShadowStart s
  | .rejoinEnter digestOk => Sys2Proof.Machine.execRejoinEnter digestOk s
  | .splitHandover l p => Sys2Proof.Machine.execSplitHandover l p s
  | .debugAttach l => Sys2Proof.Machine.execDebugAttach l s
  | .debugDetach l => Sys2Proof.Machine.execDebugDetach l s
  | .setupEntry flip readBack => Sys2Proof.Machine.execSetupEntry flip readBack s
  | .admissionVote => Sys2Proof.Machine.execAdmissionVote s
  | .bankLoadDone => Sys2Proof.Machine.execBankLoadDone s
  | .effectBoundary retBad => Sys2Proof.Machine.execEffectBoundary retBad s
  | .commandEffectTide retBad => Sys2Proof.Machine.execCommandEffectTide retBad s
  | .forceEffect => Sys2Proof.Machine.execForceEffect s
  | .kOverlayWriteDone req item => Sys2Proof.Machine.execKOverlayWriteDone req item s
  | .retainCycleStart => Sys2Proof.Machine.execRetainCycleStart s
  | .retainCapturesComplete => Sys2Proof.Machine.execRetainCapturesComplete s
  | .retainWriteDone => Sys2Proof.Machine.execRetainWriteDone s
  | .linkUp port => Sys2Proof.Machine.execLinkUp port s
  | .linkLoss port => Sys2Proof.Machine.execLinkLoss port s
  | .ttWindowTx port win sl ready => Sys2Proof.Machine.execTtWindowTx port win sl ready s
  | .ttFrameReceive port arr verdict => Sys2Proof.Machine.execTtFrameReceive port arr verdict s
  | .isolationEnd port => Sys2Proof.Machine.execIsolationEnd port s
  | .probationEnd port => Sys2Proof.Machine.execProbationEnd port s
  | .guardianExpReset port => Sys2Proof.Machine.execGuardianExpReset port s
  | .frameForward port arr => Sys2Proof.Machine.execFrameForward port arr s
  | .nonTtEgressStart port start sl => Sys2Proof.Machine.execNonTtEgressStart port start sl s
  | .trdpPush => Sys2Proof.Machine.execTrdpPush s
  | .trdpReceive port frame => Sys2Proof.Machine.execTrdpReceive port frame s
  | .trdpPullReject port frame => Sys2Proof.Machine.execTrdpPullReject port frame s
  | .arpRequestReceive iface target ip mac => Sys2Proof.Machine.execArpRequestReceive iface target ip mac s
  | .arpRetry iface ip => Sys2Proof.Machine.execArpRetry iface ip s
  | .arpEntryExpire iface ip => Sys2Proof.Machine.execArpEntryExpire iface ip s
  | .addressConflict iface mac => Sys2Proof.Machine.execAddressConflict iface mac s
  | .icmpEcho iface mac hdr msg => Sys2Proof.Machine.execIcmpEcho iface mac hdr msg s
  | .modeEchoTide => Sys2Proof.Machine.execModeEchoTide s
  | .modeSwitch => Sys2Proof.Machine.execModeSwitch s
  | .modeRequestLapse => Sys2Proof.Machine.execModeRequestLapse s
  | .sqiUpdate port snr => Sys2Proof.Machine.execSqiUpdate port snr s
  | .portDerate port => Sys2Proof.Machine.execPortDerate port s
  | .backbonePhyDwell port => Sys2Proof.Machine.execBackbonePhyDwell port s
  | .beaconSend sl => Sys2Proof.Machine.execBeaconSend sl s
  | .beaconReceive port rx => Sys2Proof.Machine.execBeaconReceive port rx s
  | .beaconMiss => Sys2Proof.Machine.execBeaconMiss s
  | .ringSlotTx sl => Sys2Proof.Machine.execRingSlotTx sl s
  | .ringSlotReceive port frame verdict => Sys2Proof.Machine.execRingSlotReceive port frame verdict s
  | .ringFrameForward port pos rx => Sys2Proof.Machine.execRingFrameForward port pos rx s
  | .becomeMaster => Sys2Proof.Machine.execBecomeMaster s
  | .claimSend mini => Sys2Proof.Machine.execClaimSend mini s
  | .claimRetry => Sys2Proof.Machine.execClaimRetry s
  | .slotLost k => Sys2Proof.Machine.execSlotLost k s
  | .slotFree k => Sys2Proof.Machine.execSlotFree k s
  | .handover => Sys2Proof.Machine.execHandover s
  | .lineLost port silent => Sys2Proof.Machine.execLineLost port silent s
  | .forcedLinkDownEnd port => Sys2Proof.Machine.execForcedLinkDownEnd port s
  | .restoreProbe line => Sys2Proof.Machine.execRestoreProbe line s
  | .restoreAct side probe => Sys2Proof.Machine.execRestoreAct side probe s
  | .junctionProbe at_ => Sys2Proof.Machine.execJunctionProbe at_ s
  | .mergeDecision side rx => Sys2Proof.Machine.execMergeDecision side rx s
  | .mergeNotice frame => Sys2Proof.Machine.execMergeNotice frame s
  | .mergeAct at_ => Sys2Proof.Machine.execMergeAct at_ s
  | .backboneEnergyWake port => Sys2Proof.Machine.execBackboneEnergyWake port s
  | .syncSend start => Sys2Proof.Machine.execSyncSend start s
  | .syncReceive port rx => Sys2Proof.Machine.execSyncReceive port rx s
  | .pdelayReqSend start => Sys2Proof.Machine.execPdelayReqSend start s
  | .pdelayReqReceive port msg now => Sys2Proof.Machine.execPdelayReqReceive port msg now s
  | .pdelayRespReceive port msg now => Sys2Proof.Machine.execPdelayRespReceive port msg now s
  | .announceSend port => Sys2Proof.Machine.execAnnounceSend port s
  | .clockSet sync => Sys2Proof.Machine.execClockSet sync s
  | .activeDomainChange => Sys2Proof.Machine.execActiveDomainChange s
  | .slewEnd => Sys2Proof.Machine.execSlewEnd s
  | .holdoverEnter => Sys2Proof.Machine.execHoldoverEnter s
  | .holdoverLeave dom2 => Sys2Proof.Machine.execHoldoverLeave dom2 s
  | .oscillatorRetrim => Sys2Proof.Machine.execOscillatorRetrim s
  | .referenceCheck count => Sys2Proof.Machine.execReferenceCheck count s
  | .comparatorChange ch mv => Sys2Proof.Machine.execComparatorChange ch mv s
  | .filterAccept ch => Sys2Proof.Machine.execFilterAccept ch s
  | .wettingEnd ch => Sys2Proof.Machine.execWettingEnd ch s
  | .channelSupplyChange ch mv => Sys2Proof.Machine.execChannelSupplyChange ch mv s
  | .islandStart ch => Sys2Proof.Machine.execIslandStart ch s
  | .islandWatchdogExpire expiry => Sys2Proof.Machine.execIslandWatchdogExpire expiry s
  | .islandRefreshResume ch => Sys2Proof.Machine.execIslandRefreshResume ch s
  | .overloadTrip ch => Sys2Proof.Machine.execOverloadTrip ch s
  | .readbackMismatch ch => Sys2Proof.Machine.execReadbackMismatch ch s
  | .faultBitRise ch cause mv => Sys2Proof.Machine.execFaultBitRise ch cause mv s
  | .localisationEnd ch obs => Sys2Proof.Machine.execLocalisationEnd ch obs s
  | .couplerSilent ch => Sys2Proof.Machine.execCouplerSilent ch s
  | .testPulseStart ch => Sys2Proof.Machine.execTestPulseStart ch s
  | .testPulseEnd ch mv => Sys2Proof.Machine.execTestPulseEnd ch mv s
  | .tachoEdge cha chb => Sys2Proof.Machine.execTachoEdge cha chb s
  | .enableRestore f => Sys2Proof.Machine.execEnableRestore f s
  | .quietTimeReached f => Sys2Proof.Machine.execQuietTimeReached f s
  | .parapetTideSelfCheck crcErr compErr => Sys2Proof.Machine.execParapetTideSelfCheck crcErr compErr s
  | .railFault f => Sys2Proof.Machine.execRailFault f s
  | .tachoIslandFault ch set => Sys2Proof.Machine.execTachoIslandFault ch set s
  | .outboundIssue src => Sys2Proof.Machine.execOutboundIssue src s
  | .targetResponse r => Sys2Proof.Machine.execTargetResponse r s
  | .retryReissue => Sys2Proof.Machine.execRetryReissue s
  | .outboundTimeout => Sys2Proof.Machine.execOutboundTimeout s
  | .inboundClaim addr c lock slot => Sys2Proof.Machine.execInboundClaim addr c lock slot s
  | .inboundWrite addr beats ready => Sys2Proof.Machine.execInboundWrite addr beats ready s
  | .inboundRead addr n ready hit => Sys2Proof.Machine.execInboundRead addr n ready hit s
  | .inboundDataExpire => Sys2Proof.Machine.execInboundDataExpire s
  | .inboundLockTimeout => Sys2Proof.Machine.execInboundLockTimeout s
  | .lockAbort => Sys2Proof.Machine.execLockAbort s
  | .rackArbitrate lines => Sys2Proof.Machine.execRackArbitrate lines s
  | .grantWithdraw => Sys2Proof.Machine.execGrantWithdraw s
  | .corbelReset => Sys2Proof.Machine.execCorbelReset s
  | .corbelInterrupt line => Sys2Proof.Machine.execCorbelInterrupt line s
  | .moverDescriptorDone n hit => Sys2Proof.Machine.execMoverDescriptorDone n hit s
  | .arbiterContest a reqs => Sys2Proof.Machine.execArbiterContest a reqs s
  | .scrubRead m addr hit bits => Sys2Proof.Machine.execScrubRead m addr hit bits s
  | .domainSlackEntry d => Sys2Proof.Machine.execDomainSlackEntry d s
  | .feedOutOfLimits f mv => Sys2Proof.Machine.execFeedOutOfLimits f mv s
  | .feedInLimits f mv straps => Sys2Proof.Machine.execFeedInLimits f mv straps s
  | .feedReturn => Sys2Proof.Machine.execFeedReturn s
  | .storeDepleted => Sys2Proof.Machine.execStoreDepleted s
  | .powerOn straps unstable va vb => Sys2Proof.Machine.execPowerOn straps unstable va vb s
  | .neapAttempt inp inp2 => Sys2Proof.Machine.execNeapAttempt inp inp2 s
  | .wakeLatch src t => Sys2Proof.Machine.execWakeLatch src t s
  | .wake src straps unstable => Sys2Proof.Machine.execWake src straps unstable s
  | .deratingStep inlet lane ks pp => Sys2Proof.Machine.execDeratingStep inlet lane ks pp s
  | .laneThermalShutdown l => Sys2Proof.Machine.execLaneThermalShutdown l s
  | .pllLockLoss part => Sys2Proof.Machine.execPllLockLoss part s
  | .bootBankSelect => Sys2Proof.Machine.execBootBankSelect s
  | .trialStep => Sys2Proof.Machine.execTrialStep s
  | .fuseBurnDone => Sys2Proof.Machine.execFuseBurnDone s
  | .cairnSectorProgram ok => Sys2Proof.Machine.execCairnSectorProgram ok s
  | .cairnTokenRefill => Sys2Proof.Machine.execCairnTokenRefill s
  | .suppressedReportTimeout code => Sys2Proof.Machine.execSuppressedReportTimeout code s
  | .headlandEventBuffer code data => Sys2Proof.Machine.execHeadlandEventBuffer code data s
  | .hello e role nc => Sys2Proof.Machine.execHello e role nc s
  | .login e role nc proof => Sys2Proof.Machine.execLogin e role nc proof s
  | .logout e => Sys2Proof.Machine.execLogout e s
  | .passwd e role masked => Sys2Proof.Machine.execPasswd e role masked s
  | .keyslotInstall e n key => Sys2Proof.Machine.execKeyslotInstall e n key s
  | .keyslotRevoke e vendor n => Sys2Proof.Machine.execKeyslotRevoke e vendor n s
  | .status e => Sys2Proof.Machine.execStatus e s
  | .read e items => Sys2Proof.Machine.execRead e items s
  | .force e items => Sys2Proof.Machine.execForce e items s
  | .unforce e items => Sys2Proof.Machine.execUnforce e items s
  | .forcelist e first => Sys2Proof.Machine.execForcelist e first s
  | .olc e named items => Sys2Proof.Machine.execOlc e named items s
  | .olcstat e num => Sys2Proof.Machine.execOlcstat e num s
  | .stop e => Sys2Proof.Machine.execStop e s
  | .restart e warm => Sys2Proof.Machine.execRestart e warm s
  | .service e => Sys2Proof.Machine.execService e s
  | .leave e => Sys2Proof.Machine.execLeave e s
  | .reboot e => Sys2Proof.Machine.execReboot e s
  | .appbegin e length => Sys2Proof.Machine.execAppbegin e length s
  | .appblock e offset data => Sys2Proof.Machine.execAppblock e offset data s
  | .append e => Sys2Proof.Machine.execAppend e s
  | .updbegin e kind length => Sys2Proof.Machine.execUpdbegin e kind length s
  | .updblock e offset data => Sys2Proof.Machine.execUpdblock e offset data s
  | .updquery e => Sys2Proof.Machine.execUpdquery e s
  | .updend e => Sys2Proof.Machine.execUpdend e s
  | .confirm e => Sys2Proof.Machine.execConfirm e s
  | .recread e area first n => Sys2Proof.Machine.execRecread e area first n s
  | .logread e first n => Sys2Proof.Machine.execLogread e first n s
  | .calstart e => Sys2Proof.Machine.execCalstart e s
  | .calpoint e target step value => Sys2Proof.Machine.execCalpoint e target step value s
  | .calread e => Sys2Proof.Machine.execCalread e s
  | .calwrite e => Sys2Proof.Machine.execCalwrite e s
  | .calabort e => Sys2Proof.Machine.execCalabort e s
  | .sessionIdleTimeout id => Sys2Proof.Machine.execSessionIdleTimeout id s
  | .relayRequest e cmd => Sys2Proof.Machine.execRelayRequest e cmd s
  | .relayReply origin seq frame => Sys2Proof.Machine.execRelayReply origin seq frame s
  | .relayTimeout n => Sys2Proof.Machine.execRelayTimeout n s
  | .backboneServiceRequest e req => Sys2Proof.Machine.execBackboneServiceRequest e req s
  | .arPriWrite a q pri => Sys2Proof.Machine.execArPriWrite a q pri s
  | .pmLedWrite v => Sys2Proof.Machine.execPmLedWrite v s
  | .ledTestExpire => Sys2Proof.Machine.execLedTestExpire s
  | .registerWrite x addr v => Sys2Proof.Machine.execRegisterWrite x addr v s
  | .serviceButtonPress => Sys2Proof.Machine.execServiceButtonPress s
  | .serviceButtonHold => Sys2Proof.Machine.execServiceButtonHold s
  | .unassignedOpcode x op => Sys2Proof.Machine.execUnassignedOpcode x op s
  | .setupClassInstruction x op => Sys2Proof.Machine.execSetupClassInstruction x op s
  | .faultBitClear ch cause => Sys2Proof.Machine.execFaultBitClear ch cause s
  | .islandReportingAgain ch => Sys2Proof.Machine.execIslandReportingAgain ch s
  | .rackResetRelease => Sys2Proof.Machine.execRackResetRelease s
  | .arpReply iface ip mac => Sys2Proof.Machine.execArpReply iface ip mac s
  | .storeRecharged => Sys2Proof.Machine.execStoreRecharged s
  | .lockoutEnd role => Sys2Proof.Machine.execLockoutEnd role s
  | .operatingSecondsIncrement => Sys2Proof.Machine.execOperatingSecondsIncrement s

end Sys2Proof.Machine
end

