-- ==== Sys2Proof/Machine/Encoding.lean ====
section
/-! DEFINITION. Which command an instruction word spells (03_instruction_encoding_and_timing.md, R91 to R96, R102): the opcode map, from
words to commands and from commands to words. -/

namespace Sys2Proof.Machine

/-- The command that a core executes when it fetches a word: the opcode selects mnemonic and form (R91, R96, R102). An unassigned
opcode and the set-up class have commands of their own (R76, R94). -/
def commandOf (x : Ctx) (w : Word) : Instr :=
  let op := opOf w
  if op = 0x01 then .add x (formA w)
  else if op = 0x02 then .addi x (formB w)
  else if op = 0x03 then .sub x (formA w)
  else if op = 0x04 then .subi x (formB w)
  else if op = 0x05 then .adds x (formA w)
  else if op = 0x06 then .subs x (formA w)
  else if op = 0x07 then .neg x (formA w)
  else if op = 0x08 then .mul x (formA w)
  else if op = 0x09 then .mulh x (formA w)
  else if op = 0x0A then .div x (formA w)
  else if op = 0x0B then .divu x (formA w)
  else if op = 0x0C then .rem x (formA w)
  else if op = 0x0D then .abs x (formA w)
  else if op = 0x0E then .min x (formA w)
  else if op = 0x0F then .max x (formA w)
  else if op = 0x10 then .and x (formA w)
  else if op = 0x11 then .andi x (formB w)
  else if op = 0x12 then .or x (formA w)
  else if op = 0x13 then .ori x (formB w)
  else if op = 0x14 then .xor x (formA w)
  else if op = 0x15 then .xori x (formB w)
  else if op = 0x16 then .not x (formA w)
  else if op = 0x17 then .limit x (formA w)
  else if op = 0x18 then .shl x (formA w)
  else if op = 0x19 then .shr x (formA w)
  else if op = 0x1A then .sar x (formA w)
  else if op = 0x1B then .rol x (formA w)
  else if op = 0x1C then .sel x (formA w)
  else if op = 0x1D then .mov x (formA w)
  else if op = 0x1E then .movi x (formB w)
  else if op = 0x1F then .movhi x (formB w)
  else if op = 0x20 then .cmp x (formA w)
  else if op = 0x21 then .cmpi x (formB w)
  else if op = 0x22 then .bset x (formE w)
  else if op = 0x23 then .bclr x (formE w)
  else if op = 0x24 then .btst x (formE w)
  else if op = 0x25 then .bld x (formE w)
  else if op = 0x26 then .bst x (formE w)
  else if op = 0x28 then .band x (formE w)
  else if op = 0x29 then .bor x (formE w)
  else if op = 0x2A then .bxor x (formE w)
  else if op = 0x2B then .bnot x (formE w)
  else if op = 0x2C then .bmov x (formE w)
  else if op = 0x2D then .edge x (formG w)
  else if op = 0x30 then .fadd x (formA w)
  else if op = 0x31 then .fsub x (formA w)
  else if op = 0x32 then .fmul x (formA w)
  else if op = 0x33 then .fdiv x (formA w)
  else if op = 0x34 then .fsqrt x (formA w)
  else if op = 0x35 then .fmin x (formA w)
  else if op = 0x36 then .fmax x (formA w)
  else if op = 0x37 then .fabs x (formA w)
  else if op = 0x38 then .fneg x (formA w)
  else if op = 0x39 then .fcmp x (formA w)
  else if op = 0x3A then .ftoi x (formA w)
  else if op = 0x3B then .itof x (formA w)
  else if op = 0x3C then .flim x (formA w)
  else if op = 0x3D then .fscale x (formA w)
  else if op = 0x40 then .ldw x (formC w)
  else if op = 0x41 then .ldh x (formC w)
  else if op = 0x42 then .ldhu x (formC w)
  else if op = 0x43 then .ldb x (formC w)
  else if op = 0x44 then .ldbu x (formC w)
  else if op = 0x45 then .ldq x (formC w)
  else if op = 0x46 then .ldt x (formC w)
  else if op = 0x48 then .stw x (formC w)
  else if op = 0x49 then .sth x (formC w)
  else if op = 0x4A then .stb x (formC w)
  else if op = 0x4B then .stq x (formC w)
  else if op = 0x4C then .stt x (formC w)
  else if op = 0x50 then .br x (formD w)
  else if op = 0x51 then .bt x (formD w)
  else if op = 0x52 then .bf x (formD w)
  else if op = 0x53 then .call x (formD w)
  else if op = 0x54 then .ret x (formD w)
  else if op = 0x55 then .loop x (formD w)
  else if op = 0x56 then .endl x (formD w)
  else if op = 0x57 then .jtab x (formD w)
  else if op = 0x58 then .done x (formD w)
  else if op = 0x59 then .ton x (formT w)
  else if op = 0x5A then .tof x (formT w)
  else if op = 0x5B then .tp x (formT w)
  else if op = 0x5C then .ctu x (formT w)
  else if op = 0x5D then .ctd x (formT w)
  else if op = 0x5E then .now x (formA w)
  else if op = 0x5F then .tide x (formA w)
  else if op = 0x60 then .age x (formA w)
  else if op = 0x61 then .qchk x (formB w)
  else if op = 0x62 then .subst x (formA w)
  else if op = 0x63 then .fence x (formA w)
  else if op = 0x64 then .ldx x (formC w)
  else if op = 0x65 then .stx x (formC w)
  else if op = 0x66 then .cas x (formA w)
  else if op = 0x67 then .xchg x (formA w)
  else if op = 0x68 then .rdsys x (formB w)
  else if op = 0x69 then .wrsys x (formB w)
  else if op = 0x6A then .arpri x (formB w)
  else if op = 0x6B then .split x (formA w)
  else if op = 0x6C then .join x (formA w)
  else if op = 0x6D then .sig x (formA w)
  else if op = 0x6E then .trap x (formB w)
  else if op = 0x6F then .nop x (formA w)
  else if opSetup op then .setupClassInstruction x (BitVec.ofNat 7 op)
  else .unassignedOpcode x (BitVec.ofNat 7 op)

/-- Whether a word spells a command: the word of an instruction is its opcode with its fields (R96, R102). -/
def spells (i : Instr) : Word → Bool :=
  match i with
  | .add _ f => isA 0x01 f
  | .addi _ f => isB 0x02 f
  | .sub _ f => isA 0x03 f
  | .subi _ f => isB 0x04 f
  | .adds _ f => isA 0x05 f
  | .subs _ f => isA 0x06 f
  | .neg _ f => isA 0x07 f
  | .mul _ f => isA 0x08 f
  | .mulh _ f => isA 0x09 f
  | .div _ f => isA 0x0A f
  | .divu _ f => isA 0x0B f
  | .rem _ f => isA 0x0C f
  | .abs _ f => isA 0x0D f
  | .min _ f => isA 0x0E f
  | .max _ f => isA 0x0F f
  | .and _ f => isA 0x10 f
  | .andi _ f => isB 0x11 f
  | .or _ f => isA 0x12 f
  | .ori _ f => isB 0x13 f
  | .xor _ f => isA 0x14 f
  | .xori _ f => isB 0x15 f
  | .not _ f => isA 0x16 f
  | .limit _ f => isA 0x17 f
  | .shl _ f => isA 0x18 f
  | .shr _ f => isA 0x19 f
  | .sar _ f => isA 0x1A f
  | .rol _ f => isA 0x1B f
  | .sel _ f => isA 0x1C f
  | .mov _ f => isA 0x1D f
  | .movi _ f => isB 0x1E f
  | .movhi _ f => isB 0x1F f
  | .cmp _ f => isA 0x20 f
  | .cmpi _ f => isB 0x21 f
  | .bset _ f => isE 0x22 f
  | .bclr _ f => isE 0x23 f
  | .btst _ f => isE 0x24 f
  | .bld _ f => isE 0x25 f
  | .bst _ f => isE 0x26 f
  | .band _ f => isE 0x28 f
  | .bor _ f => isE 0x29 f
  | .bxor _ f => isE 0x2A f
  | .bnot _ f => isE 0x2B f
  | .bmov _ f => isE 0x2C f
  | .edge _ f => isG 0x2D f
  | .fadd _ f => isA 0x30 f
  | .fsub _ f => isA 0x31 f
  | .fmul _ f => isA 0x32 f
  | .fdiv _ f => isA 0x33 f
  | .fsqrt _ f => isA 0x34 f
  | .fmin _ f => isA 0x35 f
  | .fmax _ f => isA 0x36 f
  | .fabs _ f => isA 0x37 f
  | .fneg _ f => isA 0x38 f
  | .fcmp _ f => isA 0x39 f
  | .ftoi _ f => isA 0x3A f
  | .itof _ f => isA 0x3B f
  | .flim _ f => isA 0x3C f
  | .fscale _ f => isA 0x3D f
  | .ldw _ f => isC 0x40 f
  | .ldh _ f => isC 0x41 f
  | .ldhu _ f => isC 0x42 f
  | .ldb _ f => isC 0x43 f
  | .ldbu _ f => isC 0x44 f
  | .ldq _ f => isC 0x45 f
  | .ldt _ f => isC 0x46 f
  | .stw _ f => isC 0x48 f
  | .sth _ f => isC 0x49 f
  | .stb _ f => isC 0x4A f
  | .stq _ f => isC 0x4B f
  | .stt _ f => isC 0x4C f
  | .br _ f => isD 0x50 f
  | .bt _ f => isD 0x51 f
  | .bf _ f => isD 0x52 f
  | .call _ f => isD 0x53 f
  | .ret _ f => isD 0x54 f
  | .loop _ f => isD 0x55 f
  | .endl _ f => isD 0x56 f
  | .jtab _ f => isD 0x57 f
  | .done _ f => isD 0x58 f
  | .ton _ f => isT 0x59 f
  | .tof _ f => isT 0x5A f
  | .tp _ f => isT 0x5B f
  | .ctu _ f => isT 0x5C f
  | .ctd _ f => isT 0x5D f
  | .now _ f => isA 0x5E f
  | .tide _ f => isA 0x5F f
  | .age _ f => isA 0x60 f
  | .qchk _ f => isB 0x61 f
  | .subst _ f => isA 0x62 f
  | .fence _ f => isA 0x63 f
  | .ldx _ f => isC 0x64 f
  | .stx _ f => isC 0x65 f
  | .cas _ f => isA 0x66 f
  | .xchg _ f => isA 0x67 f
  | .rdsys _ f => isB 0x68 f
  | .wrsys _ f => isB 0x69 f
  | .arpri _ f => isB 0x6A f
  | .split _ f => isA 0x6B f
  | .join _ f => isA 0x6C f
  | .sig _ f => isA 0x6D f
  | .trap _ f => isB 0x6E f
  | .nop _ f => isA 0x6F f
  | .unassignedOpcode _ op => isOp op
  | .setupClassInstruction _ op => isOp op
  | _ => fun _ => false

end Sys2Proof.Machine
end

