-- ==== Sys2Proof/Safety.lean ====
section
/-! DEFINITION. The terms in which claims about the model are stated: which core executes, what an instruction changes and what
it leaves, which bytes a store writes, and the good states. -/

namespace Sys2Proof.Machine

/-- The core `c` is the one that a command names, it executes now, and the fetch of its instruction finds its memory awake and meets no
exception. -/
def Executes (s : State) (x : Ctx) (c : Core) : Prop :=
  coreOf s x = some c ∧ fetchReady s c = true ∧ (fetchCheck s c c.bank.pc.toNat x.fetch).2 = none

/-- The state after the fetch of the executing core's instruction. -/
def afterFetch (s : State) (c : Core) : State := (fetchCheck s c c.bank.pc.toNat c.x.fetch).1

/-- The word that the executing core fetches. -/
def wordAtPc (s : State) (c : Core) : Word := fetchWord (afterFetch s c) c c.bank.pc.toNat

/-- The bank of the executing core in a state. -/
def bankIn (s : State) (c : Core) : Bank :=
  match c.timed with
  | some k => (taskRun s c.x.lane c.x.pair k).bank
  | none => if c.x.odd then (pair s c.x.lane c.x.pair).odd.bank else (pair s c.x.lane c.x.pair).even.bank

/-- What an instruction that retires leaves of its pair: everything but the bank of the executing core and, for a timed task, its
cycle count, which grows by `cost`, its contributions to the activation's signature, which grow by `sg`, and the two signature
registers with the number of instructions retired, whose 64th closes the window (R251). -/
def PairKept (cost : Nat) (sg : List SigEv) (c : Core) (o q : PairSt) : Prop :=
  q.active = o.active ∧ q.cmpX = o.cmpX ∧ q.cmpY = o.cmpY ∧ q.testCnt = o.testCnt ∧ q.splitPend = o.splitPend ∧ q.split = o.split ∧ q.resume = o.resume ∧
    match c.timed with
    | some k =>
      q.even = o.even ∧ q.odd = o.odd ∧
        (o.retired < 63 → q.retired = o.retired + 1 ∧ q.closed = o.closed) ∧
        (63 ≤ o.retired → q.retired = 0 ∧ q.closed.isSome = true) ∧ (∀ j, j ≠ k → q.tasks.get j = o.tasks.get j) ∧
        (q.tasks.get k).phase = (o.tasks.get k).phase ∧ (q.tasks.get k).exc = (o.tasks.get k).exc ∧
        (q.tasks.get k).sigs = sg ++ (o.tasks.get k).sigs ∧ (q.tasks.get k).cycles = (o.tasks.get k).cycles + cost ∧
        (q.tasks.get k).lifted = (o.tasks.get k).lifted ∧ (q.tasks.get k).com = (o.tasks.get k).com
    | none =>
      q.tasks = o.tasks ∧ q.leader = o.leader ∧ q.checker = o.checker ∧ q.retired = o.retired ∧ q.closed = o.closed ∧
        (if c.x.odd then q.even = o.even ∧ q.odd.active = o.odd.active ∧ q.odd.wait = o.odd.wait
         else q.odd = o.odd ∧ q.even.active = o.even.active ∧ q.even.wait = o.even.wait)

/-- `t` differs from `s` in the executing pair alone, and there only as `PairKept` allows: every other register, every byte of
every memory and every other part of the module is the same. -/
def OnlyCore (cost : Nat) (sg : List SigEv) (s t : State) (c : Core) : Prop :=
  ∃ q, t = modPair s c.x.lane c.x.pair (fun _ => q) ∧ PairKept cost sg c (pair s c.x.lane c.x.pair) q

/-- Where the word at the core's PC is the instruction's (R91, R102), the instruction completes: the block answers a next state, in which the
executing core's bank is `b` and nothing else differs from `base` but what `OnlyCore` allows. -/
def CompletesFrom (i : Instr) (s base : State) (c : Core) (cost : Nat) (sg : List SigEv) (b : Bank) : Prop :=
  spells i (wordAtPc s c) = true → ∃ t, exec i s = .next t ∧ bankIn t c = b ∧ OnlyCore cost sg base t c

/-- The instruction completes on the executing core and changes nothing beyond its bank. -/
def Completes (i : Instr) (s : State) (c : Core) (cost : Nat) (b : Bank) : Prop :=
  CompletesFrom i s (afterFetch s c) c cost [] b

/-- The bank after a result in word register `d`, and after one in bit register `d`, with the PC at the next instruction. -/
def wordResult (b : Bank) (d : BitVec 4) (v : Word) (t : Byte) : Bank := nextPc (wrW b d v t)
def bitResult (b : Bank) (d : BitVec 4) (v : Bool) (t : Byte) : Bank := nextPc (wrB b d v t)

/-- Where the word at the core's PC is the instruction's, the instruction raises an exception on the executing core. -/
def Raises (i : Instr) (s base : State) (c : Core) (cost : Nat) (code : ExcCode) (addr : Word) (imm : BitVec 16) : Prop :=
  spells i (wordAtPc s c) = true → exec i s = .next (raiseExc base c cost code addr imm)

/-- Every memory is in canonical form: the SRAM of the lanes, Quay, and the firmware slots and application areas of both banks. -/
def MemoriesOk (s : State) : Prop :=
  (∀ l, Memory.wf 0 (lane s l).sram = true) ∧ Memory.wf 0 s.quay = true ∧
    (∀ b, Memory.wf 0xFF (bankOf s b).fw = true ∧ Memory.wf 0xFF (bankOf s b).app0 = true ∧ Memory.wf 0xFF (bankOf s b).app1 = true)

/-- The lanes whose SRAM a store of lane `l` writes: `l` itself, and the copy target of a rejoin in its wait phase (R247). -/
def storesInto (s : State) (l r : LaneId) : Prop :=
  r = l ∨ (s.rejoin.phase = .wait ∧ s.rejoin.src = some l ∧ s.rejoin.lane = some r)

/-- `t` differs from `s` as a store of lane `c.x.lane` allows: the executing pair as `PairKept` says, the bytes of lane SRAM as
`wr` gives them (none: unchanged), the damage of the codes in lanes that are stored into, and nothing else. -/
def OnlyStore (cost : Nat) (sg : List SigEv) (s t : State) (c : Core) (wr : Nat → Option Byte) : Prop :=
  ∃ ls : Lanes LaneSt, t = { s with lanes := ls } ∧
    ∀ r, (∃ q m d, ls.get r = { lane s r with pairs := q, sram := m, dmg := d } ∧
      (∀ p, (r = c.x.lane ∧ p = c.x.pair → PairKept cost sg c (pair s r p) (q.get p)) ∧
        (¬(r = c.x.lane ∧ p = c.x.pair) → q.get p = pair s r p)) ∧
      (¬storesInto s c.x.lane r → m = (lane s r).sram ∧ d = (lane s r).dmg) ∧
      ∀ k, storesInto s c.x.lane r → memRead 0 m k = (wr k).getD (memRead 0 (lane s r).sram k))

/-- Bytes written from an address of the EC_ numbering upwards. -/
def bytesFrom (ea : Nat) (bs : List Byte) (k : Nat) : Option Byte := if ea ≤ k then bs[k - ea]? else none

/-- Where the word at the core's PC is the store's, the store completes: the bank only steps past the instruction, the bytes `wr` are in lane
SRAM, and nothing else changes. -/
def StoresFrom (i : Instr) (s base : State) (c : Core) (cost : Nat) (sg : List SigEv) (b : Bank) (wr : Nat → Option Byte) : Prop :=
  spells i (wordAtPc s c) = true → ∃ t, exec i s = .next t ∧ bankIn t c = b ∧ OnlyStore cost sg base t c wr

/-- The value of a finite REAL32 word, scaled by 2^200, after R121. -/
def realScaled (w : Word) : Int :=
  match fUnpack w with
  | .fin neg m e => (if neg then -1 else 1) * ((m : Int) * 2 ^ (e + 200).toNat)
  | _ => 0

/-- A word that is neither an infinity nor a NaN. -/
def realFinite (w : Word) : Bool := field w 30 23 != 255

/-- `r` is the finite REAL32 number nearest to the quotient `n / d`, both scaled as `realScaled` is, and of two equally near ones
the one whose significand is even (R120). -/
def NearestReal (r : Word) (n d : Int) : Prop :=
  realFinite r = true ∧
    ∀ w, realFinite w = true →
      (realScaled r * d - n).natAbs ≤ (realScaled w * d - n).natAbs ∧
        ((realScaled r * d - n).natAbs = (realScaled w * d - n).natAbs → realScaled w ≠ realScaled r → r.getLsbD 0 = false)

/-- The commands that need an open session, with CMD, the least role and the controller states of R563's table (none listed: any). -/
def sessionCommand : Instr → Option (Env × Nat × Role × List CtlState)
  | .logout e => some (e, 0x0003, .view, [])
  | .passwd e _ _ => some (e, 0x0004, .owner, [])
  | .keyslotInstall e _ _ => some (e, 0x0005, .owner, [.stopped, .service])
  | .keyslotRevoke e _ _ => some (e, 0x0005, .owner, [.stopped, .service])
  | .status e => some (e, 0x0010, .view, [])
  | .read e _ => some (e, 0x0011, .view, [])
  | .force e _ => some (e, 0x0020, .maint, [.run, .service])
  | .unforce e _ => some (e, 0x0021, .maint, [.run, .service])
  | .forcelist e _ => some (e, 0x0022, .view, [])
  | .olc e _ _ => some (e, 0x0030, .maint, [.run])
  | .olcstat e _ => some (e, 0x0031, .view, [])
  | .stop e => some (e, 0x0040, .engineer, [.run])
  | .restart e _ => some (e, 0x0041, .engineer, [.stopped])
  | .service e => some (e, 0x0042, .engineer, [.stopped])
  | .leave e => some (e, 0x0043, .engineer, [.service])
  | .reboot e => some (e, 0x0044, .engineer, [.stopped, .service])
  | .appbegin e _ => some (e, 0x0050, .engineer, [.stopped, .service])
  | .appblock e _ _ => some (e, 0x0051, .engineer, [.stopped, .service])
  | .append e => some (e, 0x0052, .engineer, [.stopped, .service])
  | .updbegin e _ _ => some (e, 0x0060, .engineer, [])
  | .updblock e _ _ => some (e, 0x0061, .engineer, [])
  | .updquery e => some (e, 0x0062, .view, [])
  | .updend e => some (e, 0x0063, .engineer, [])
  | .confirm e => some (e, 0x0064, .engineer, [.run])
  | .recread e _ _ _ => some (e, 0x0070, .view, [])
  | .logread e _ _ => some (e, 0x0071, .view, [])
  | .calstart e => some (e, 0x0080, .engineer, [.service])
  | .calpoint e _ _ _ => some (e, 0x0081, .engineer, [.service])
  | .calread e => some (e, 0x0082, .view, [])
  | .calwrite e => some (e, 0x0083, .engineer, [.service])
  | .calabort e => some (e, 0x0084, .engineer, [.service])
  | _ => none

/-- A request reaches the firmware's service: its datagram is one that the module takes, it is well formed and names this module (R304, R549,
R551, R552, R560, R561). -/
def Arrives (s : State) (e : Env) : Prop :=
  serving s = true ∧ s.boot.romSvc = false ∧ ipTaken s e = true ∧ wellFormed e = true ∧
    ((e.iface = .mnt ∧ (e.target = 0 ∨ e.target = s.boot.uid)) ∨ (e.iface = .backbone ∧ e.target = s.boot.uid))

/-- A request is authentic and new in its session (R556, R558). -/
def InSession (s : State) (e : Env) (cmd : Nat) (x : Session) : Prop :=
  session? s e.session = some x ∧ e.tag ≠ zeroTag ∧ e.tag = tagOf x.key (requestBytes e cmd) ∧ x.last ≠ some e.seq ∧ ∀ l, x.last = some l → later e.seq l = true

/-- A request that role, password and controller state let through (R554, R558, R563). -/
def Granted (s : State) (i : Instr) (e : Env) (cmd : Nat) (x : Session) : Prop :=
  ∃ role states, sessionCommand i = some (e, cmd, role, states) ∧ Arrives s e ∧ InSession s e cmd x ∧ x.factory = false ∧
    roleNo role ≤ roleNo x.role ∧ (states = [] ∨ s.ctl.state ∈ states)

/-- The module has sent an answer to a request: from the protocol's port with TTL 64 and DF set, to the peer, on the backbone to all (R304,
R549, R551, R561). -/
def Sent (t s : State) (e : Env) (cmd : Nat) (session : Word) (status : Nat) (body : ReplyBody) (keyed : Bool) : Prop :=
  ∃ h, h.sport = 50420 ∧ h.ttl = 64 ∧ h.df = true ∧
    t.svc.last = some ⟨h, if e.iface = .backbone then 0xFFFFFFFF else e.ip, e.port, e.iface, BitVec.ofNat 16 cmd, s.boot.uid, session, e.seq,
      BitVec.ofNat 16 status, body, keyed⟩

/-- A command is answered with a status and a body, under the key of its session (R551, R556), and leaves what `p` says. -/
def Answered (i : Instr) (s : State) (e : Env) (cmd : Nat) (x : Session) (status : Nat) (body : ReplyBody) (p : State → Prop) : Prop :=
  ∃ t, exec i s = .next t ∧ p t ∧ Sent t s e cmd x.id status body true

end Sys2Proof.Machine
end

