-- ==== Sys2Proof/Certificates/Slice0/Obligations.lean ====
section
/-! DEFINITION. The statements about the model. Each is written in the vocabulary of `Sys2Proof.Safety` and of the machine's own operations,
and names the rules of the spec that it rests on. -/

open Sys2Proof Sys2Proof.Machine

/-- A step with a command at the front of the queue is that command's effect on the state with the rest of the queue. -/
def Obligations.StepRunsFrontCommand : Prop :=
  ∀ (c : Instr) (rest : List Instr) (s : State),
    step { s with pending := c :: rest } = exec c { s with pending := rest }

/-- R116: the integer instructions, with the quotients and remainders whose divisor is not 0. Each completes on the executing core, with its
result and the tag of its row, and changes nothing else. R101: the condition codes that CMP and CMPI name, each by its number, and the codes
that are reserved. R117: a DIV, DIVU or REM with divisor 0 sets DZ, takes 18 cycles and returns the stated value. Concluding that the block
answers a next state, under conditions on state and operands alone, this gives the own effect of: ADD, ADDI, SUB, SUBI, ADDS, SUBS, NEG,
MUL, MULH, DIV, DIVU, REM, ABS, MIN, MAX, AND, ANDI, OR, ORI, XOR, XORI, NOT, LIMIT, SHL, SHR, SAR, ROL, SEL, MOV, MOVI, MOVHI, CMP, CMPI. -/
def Obligations.IntegerInstructionResults : Prop :=
  (∀ (s : State) (x : Ctx) (c : Core), Executes s x c →
     (∀ f : FormA, legalA3 f = true →
       let a := rdW c.bank f.s1
       let b := rdW c.bank f.s2
       let gives (i : Instr) (cost : Nat) (v : Word) := Completes i s c cost (wordResult c.bank f.d v (comb a.t b.t))
       gives (.add x f) 1 (BitVec.ofNat 32 (a.v.toNat + b.v.toNat)) ∧
       gives (.sub x f) 1 (BitVec.ofInt 32 (a.v.toInt - b.v.toInt)) ∧
       gives (.adds x f) 1 (BitVec.ofInt 32 (max (-2147483648) (min 2147483647 (a.v.toInt + b.v.toInt)))) ∧
       gives (.subs x f) 1 (BitVec.ofInt 32 (max (-2147483648) (min 2147483647 (a.v.toInt - b.v.toInt)))) ∧
       gives (.mul x f) 2 (BitVec.ofNat 32 (a.v.toNat * b.v.toNat)) ∧
       gives (.mulh x f) 2 (BitVec.ofInt 32 (a.v.toInt * b.v.toInt / 4294967296)) ∧
       gives (.min x f) 1 (BitVec.ofInt 32 (min a.v.toInt b.v.toInt)) ∧
       gives (.max x f) 1 (BitVec.ofInt 32 (max a.v.toInt b.v.toInt)) ∧
       gives (.and x f) 1 (a.v &&& b.v) ∧ gives (.or x f) 1 (a.v ||| b.v) ∧ gives (.xor x f) 1 (a.v ^^^ b.v) ∧
       (b.v ≠ 0 →
         gives (.div x f) 18 (BitVec.ofInt 32 (a.v.toInt.tdiv b.v.toInt)) ∧
         gives (.divu x f) 18 (BitVec.ofNat 32 (a.v.toNat / b.v.toNat)) ∧
         gives (.rem x f) 18 (BitVec.ofInt 32 (a.v.toInt.tmod b.v.toInt)))) ∧
     (∀ f : FormA, legalA2 f = true →
       let a := rdW c.bank f.s1
       let gives (i : Instr) (v : Word) := Completes i s c 1 (wordResult c.bank f.d v a.t)
       gives (.neg x f) (BitVec.ofInt 32 (-a.v.toInt)) ∧ gives (.abs x f) (BitVec.ofNat 32 a.v.toInt.natAbs) ∧
       gives (.not x f) (~~~a.v) ∧ gives (.mov x f) a.v) ∧
     (∀ f : FormB, legalB f = true →
       let a := rdW c.bank f.s1
       let gives (i : Instr) (v : Word) := Completes i s c 1 (wordResult c.bank f.d v a.t)
       gives (.addi x f) (BitVec.ofInt 32 (a.v.toInt + f.imm.toInt)) ∧ gives (.subi x f) (BitVec.ofInt 32 (a.v.toInt - f.imm.toInt)) ∧
       gives (.andi x f) (a.v &&& zext f.imm) ∧ gives (.ori x f) (a.v ||| zext f.imm) ∧ gives (.xori x f) (a.v ^^^ zext f.imm) ∧
       gives (.movhi x f) (BitVec.ofNat 32 (f.imm.toNat * 65536 + a.v.toNat % 65536)) ∧
       (f.s1 = 0 → Completes (.movi x f) s c 1 (wordResult c.bank f.d (BitVec.ofInt 32 f.imm.toInt) 0x90))) ∧
     (∀ f : FormA, legalShift f = true →
       let a := rdW c.bank f.s1
       let b := rdW c.bank f.s2
       let n := if f.i then f.imm5.toNat else b.v.toNat % 32
       let gives (i : Instr) (v : Word) := Completes i s c 1 (wordResult c.bank f.d v (if f.i then a.t else comb a.t b.t))
       gives (.shl x f) (BitVec.ofNat 32 (a.v.toNat * 2 ^ n)) ∧ gives (.shr x f) (BitVec.ofNat 32 (a.v.toNat / 2 ^ n)) ∧
       gives (.sar x f) (BitVec.ofInt 32 (a.v.toInt / 2 ^ n)) ∧
       gives (.rol x f) (BitVec.ofNat 32 (a.v.toNat * 2 ^ n) ||| BitVec.ofNat 32 (a.v.toNat / 2 ^ (32 - n)))) ∧
     (∀ f : FormA, legalA4 f = true →
       let a := rdW c.bank f.s1
       let lo := rdW c.bank f.s2
       let hi := rdW c.bank f.s3
       Completes (.limit x f) s c 1 (wordResult c.bank f.d
         (BitVec.ofInt 32 (min (max a.v.toInt lo.v.toInt) hi.v.toInt)) (comb (comb a.t lo.t) hi.t)) ∧
       (bitField f.s3 = true →
         let q := rdB c.bank f.s3
         let sel := if q.v then a else lo
         Completes (.sel x f) s c 1 (wordResult c.bank f.d sel.v (comb q.t sel.t))) ∧
       ∀ r, bitField f.d = true → intCond f.s3 a.v lo.v = some r →
         Completes (.cmp x f) s c 1 (bitResult c.bank f.d r (comb a.t lo.t))) ∧
     ∀ (f : FormB) (r : Bool), legalB f = true → bitField f.d = true →
       intCond (cmpiCond f) (rdW c.bank f.s1).v (cmpImm (cmpiCond f) (f.imm.setWidth 12)) = some r →
       Completes (.cmpi x f) s c 1 (bitResult c.bank f.d r (rdW c.bank f.s1).t)) ∧
  (∀ a b : Word,
     intCond 0 a b = some (decide (a = b)) ∧ intCond 1 a b = some (decide (a ≠ b)) ∧
     intCond 2 a b = some (decide (a.toInt < b.toInt)) ∧ intCond 3 a b = some (decide (b.toInt ≤ a.toInt)) ∧
     intCond 4 a b = some (decide (a.toInt ≤ b.toInt)) ∧ intCond 5 a b = some (decide (b.toInt < a.toInt)) ∧
     intCond 6 a b = some (decide (a.toNat < b.toNat)) ∧ intCond 7 a b = some (decide (b.toNat ≤ a.toNat)) ∧
     intCond 8 a b = some (decide (a.toNat ≤ b.toNat)) ∧ intCond 9 a b = some (decide (b.toNat < a.toNat)) ∧
     ∀ k : BitVec 4, 10 ≤ k.toNat → intCond k a b = none) ∧
  (∀ (s : State) (x : Ctx) (c : Core) (f : FormA), Executes s x c → legalA3 f = true → (rdW c.bank f.s2).v = 0 →
     let a := rdW c.bank f.s1
     let t := comb a.t (rdW c.bank f.s2).t
     let b := { c.bank with dz := true }
     let q : Word := if a.v.getLsbD 31 then 0x80000000 else 0x7FFFFFFF
     Completes (.div x f) s c 18 (wordResult b f.d q t) ∧ Completes (.divu x f) s c 18 (wordResult b f.d q t) ∧
       Completes (.rem x f) s c 18 (wordResult b f.d a.v t))

/-- R52: W0 reads 0 and B0 reads 1, both with tag 0x90, in every bank; a result for W0 or B0 changes no register; every other register holds
what is written to it, and writing it changes no other. R54 and R56: the tag of a result is the combination of its sources' tags field by
field: AND of VALID and SAFE, OR of FORCED and SUBST, the larger AGE; the neutral tag 0x90 changes nothing. -/
def Obligations.HardWiredRegistersAndTags : Prop :=
  (∀ (b : Bank) (n m : BitVec 4) (v : Word) (q : Bool) (t : Byte),
     rdW b 0 = ⟨0, 0x90⟩ ∧ rdB b 0 = ⟨true, 0x90⟩ ∧ wrW b 0 v t = b ∧ wrB b 0 q t = b ∧
       (n ≠ 0 → rdW (wrW b n v t) n = ⟨v, t⟩) ∧ (n ≠ m → rdW (wrW b n v t) m = rdW b m) ∧
       (n ≠ 0 → n.toNat < 8 → rdB (wrB b n q t) n = ⟨q, t⟩) ∧
       (n ≠ m → n.toNat < 8 → m.toNat < 8 → rdB (wrB b n q t) m = rdB b m) ∧
       (∀ k, rdB (wrW b n v t) k = rdB b k) ∧ (∀ k, rdW (wrB b n q t) k = rdW b k)) ∧
  (∀ a b c : Byte,
     tagValid (comb a b) = (tagValid a && tagValid b) ∧ tagForced (comb a b) = (tagForced a || tagForced b) ∧
     tagSubst (comb a b) = (tagSubst a || tagSubst b) ∧ tagSafe (comb a b) = (tagSafe a && tagSafe b) ∧
     (tagAge (comb a b)).toNat = max (tagAge a).toNat (tagAge b).toNat ∧
     comb 0x90 a = a ∧ comb a 0x90 = a ∧ comb a b = comb b a ∧ comb (comb a b) c = comb a (comb b c))

/-- R118: the bit instructions. Concluding that the block answers a next state, under conditions on state and operands alone, this gives the own
effect of: BSET, BCLR, BTST, BLD, BST, BAND, BOR, BXOR, BNOT, BMOV. -/
def Obligations.BitResults : Prop :=
  ∀ (s : State) (x : Ctx) (c : Core) (f : FormE), Executes s x c → legalE f = true →
    let w := rdW c.bank f.s1
    let n := rdW c.bank f.s2
    let p := rdB c.bank f.s1
    let q := rdB c.bank f.s2
    let givesW (i : Instr) (v : Word) (t : Byte) := Completes i s c 1 (wordResult c.bank f.d v t)
    let givesB (i : Instr) (v : Bool) (t : Byte) := Completes i s c 1 (bitResult c.bank f.d v t)
    let one : Word := BitVec.ofNat 32 (2 ^ f.bit.toNat)
    (f.s2 = 0 → givesW (.bset x f) (w.v ||| one) w.t ∧ givesW (.bclr x f) (w.v &&& ~~~one) w.t) ∧
    (f.s2 = 0 → bitField f.d = true → givesB (.bld x f) (w.v.getLsbD f.bit.toNat) w.t) ∧
    (bitField f.s2 = true → givesW (.bst x f) (if q.v then w.v ||| one else w.v &&& ~~~one) (comb w.t q.t)) ∧
    (f.bit = 0 → bitField f.d = true →
      givesB (.btst x f) (w.v.getLsbD (n.v.toNat % 32)) (comb w.t n.t) ∧
      (bitField f.s1 = true →
        (bitField f.s2 = true →
          givesB (.band x f) (p.v && q.v) (comb p.t q.t) ∧ givesB (.bor x f) (p.v || q.v) (comb p.t q.t) ∧
          givesB (.bxor x f) (p.v != q.v) (comb p.t q.t)) ∧
        (f.s2 = 0 → givesB (.bnot x f) (!p.v) p.t ∧ givesB (.bmov x f) p.v p.t)))

/-- The REAL32 instructions on the executing core: the result, the tag and the flags DZ and FINV of R116's counterpart table. Where FINVTRAP is
0 or the operation is not invalid, the instruction completes; where it is invalid and FINVTRAP is 1, EX_ARITH instead, with nothing written
(R82, R124). The values themselves are stated by RealRoundsToNearest, RealInvalidOperations and RealCorners. R124, R126: which REAL32
operations are invalid, what they deliver, and when a division sets DZ. A word is a NaN, an infinity or a zero after R121. R121 to R123 and
R125: subnormal operands read as zeros of their sign; a result that rounds below 2^-126 is a zero and one above the range an infinity, each
of the exact result's sign; a quiet NaN gives the canonical NaN; FMIN and FMAX, FLIM and FCMP. Concluding that the block answers a next
state, under conditions on state and operands alone, this gives the own effect of: FADD, FSUB, FMUL, FDIV, FSQRT, FMIN, FMAX, FABS, FNEG,
FCMP, FTOI, ITOF, FLIM, FSCALE. -/
def Obligations.RealInstructionResults : Prop :=
  (∀ (s : State) (x : Ctx) (c : Core), Executes s x c →
     let trap := finvTrap (afterFetch s c) c
     let gives (i : Instr) (cost : Nat) (d : BitVec 4) (r : FRes) (t : Byte) :=
       let done := Completes i s c cost
         (wordResult { c.bank with finv := c.bank.finv || r.2.1, dz := c.bank.dz || r.2.2 } d r.1 t)
       (trap = false → done) ∧ (r.2.1 = false → done) ∧
         (r.2.1 = true → trap = true → Raises i s (afterFetch s c) c cost .arith 0 0)
     (∀ f : FormA, legalA3 f = true →
       let a := rdW c.bank f.s1
       let b := rdW c.bank f.s2
       let t := comb a.t b.t
       gives (.fadd x f) 3 f.d (fAdd a.v b.v) t ∧ gives (.fsub x f) 3 f.d (fSub a.v b.v) t ∧
       gives (.fmul x f) 3 f.d (fMul a.v b.v) t ∧ gives (.fdiv x f) 14 f.d (fDiv a.v b.v) t ∧
       gives (.fmin x f) 1 f.d (fMin a.v b.v) t ∧ gives (.fmax x f) 1 f.d (fMax a.v b.v) t) ∧
     (∀ f : FormA, legalA2 f = true →
       let a := rdW c.bank f.s1
       gives (.fsqrt x f) 16 f.d (fSqrt a.v) a.t ∧ gives (.fabs x f) 1 f.d (fAbs a.v) a.t ∧
       gives (.fneg x f) 1 f.d (fNeg a.v) a.t ∧ gives (.ftoi x f) 2 f.d (fToInt a.v) a.t ∧
       gives (.itof x f) 2 f.d (fOfInt a.v) a.t) ∧
     (∀ f : FormA, legalShift f = true →
       let a := rdW c.bank f.s1
       let b := rdW c.bank f.s2
       gives (.fscale x f) 1 f.d (fScale a.v (if f.i then f.imm5.toInt else b.v.toInt)) (if f.i then a.t else comb a.t b.t)) ∧
     (∀ f : FormA, legalA4 f = true →
       let a := rdW c.bank f.s1
       let b := rdW c.bank f.s2
       let hi := rdW c.bank f.s3
       gives (.flim x f) 1 f.d (fLim a.v b.v hi.v) (comb (comb a.t b.t) hi.t) ∧
       (bitField f.d = true → fcmpCode f.s3 = true →
         let bad := fIsSnan a.v || fIsSnan b.v
         let done := Completes (.fcmp x f) s c 1
           (bitResult { c.bank with finv := c.bank.finv || bad } f.d (fCmp f.s3 a.v b.v) (comb a.t b.t))
         (trap = false → done) ∧ (bad = false → done) ∧
           (bad = true → trap = true → Raises (.fcmp x f) s (afterFetch s c) c 1 .arith 0 0)))) ∧
  (∀ a b h : Word,
     let inf (w : Word) : Prop := field w 30 23 = 255 ∧ field w 22 0 = 0
     let nan (w : Word) : Prop := field w 30 23 = 255 ∧ field w 22 0 ≠ 0
     let sig (w : Word) : Prop := nan w ∧ w.getLsbD 22 = false
     let zero (w : Word) : Prop := field w 30 23 = 0
     let neg (w : Word) : Bool := w.getLsbD 31
     let bad (r : FRes) : Prop := r.2.1 = true
     let gives (r : FRes) : Prop := bad r → r.1 = 0x7FC00000 ∧ r.2.2 = false
     (bad (fAdd a b) ↔ sig a ∨ sig b ∨ (inf a ∧ inf b ∧ neg a ≠ neg b)) ∧ gives (fAdd a b) ∧
     (bad (fSub a b) ↔ sig a ∨ sig b ∨ (inf a ∧ inf b ∧ neg a = neg b)) ∧ gives (fSub a b) ∧
     (bad (fMul a b) ↔ sig a ∨ sig b ∨ (zero a ∧ inf b) ∨ (inf a ∧ zero b)) ∧ gives (fMul a b) ∧
     (bad (fDiv a b) ↔ sig a ∨ sig b ∨ (zero a ∧ zero b) ∨ (inf a ∧ inf b)) ∧ gives (fDiv a b) ∧
     (bad (fSqrt a) ↔ sig a ∨ (¬nan a ∧ ¬zero a ∧ neg a = true)) ∧ gives (fSqrt a) ∧
     (bad (fMin a b) ↔ sig a ∨ sig b) ∧ gives (fMin a b) ∧ (bad (fMax a b) ↔ sig a ∨ sig b) ∧ gives (fMax a b) ∧
     (∀ n, (bad (fScale a n) ↔ sig a) ∧ gives (fScale a n)) ∧
     (bad (fLim a b h) ↔ nan a ∨ nan b ∨ nan h) ∧ gives (fLim a b h) ∧
     ¬bad (fAbs a) ∧ ¬bad (fNeg a) ∧ ¬bad (fOfInt a) ∧
     (nan a → fToInt a = (0, true, false)) ∧
     (¬nan a → (bad (fToInt a) ↔ inf a ∨ (2 * realScaled a ≥ (2 ^ 32 - 1) * 2 ^ 200) ∨ (2 * realScaled a < -(2 ^ 32 + 1) * 2 ^ 200)) ∧
       (bad (fToInt a) → (fToInt a).1 = if neg a then 0x80000000 else 0x7FFFFFFF)) ∧
     ((fDiv a b).2.2 = true ↔ zero b ∧ ¬zero a ∧ ¬inf a ∧ ¬nan a) ∧
     (zero b → ¬zero a → ¬inf a → ¬nan a → (fDiv a b).1 = if neg a != neg b then 0xFF800000 else 0x7F800000)) ∧
  (∀ a b h : Word,
     let nan (w : Word) : Prop := field w 30 23 = 255 ∧ field w 22 0 ≠ 0
     let quiet (w : Word) : Prop := nan w ∧ w.getLsbD 22 = true
     let neg (w : Word) : Bool := w.getLsbD 31
     let small (w : Word) : Prop := field w 30 23 = 0
     (small a → fFlush a = if neg a then 0x80000000 else 0) ∧ (¬small a → fFlush a = a) ∧
     fAdd a b = fAdd (fFlush a) (fFlush b) ∧ fSub a b = fSub (fFlush a) (fFlush b) ∧ fMul a b = fMul (fFlush a) (fFlush b) ∧
     fDiv a b = fDiv (fFlush a) (fFlush b) ∧ fSqrt a = fSqrt (fFlush a) ∧ fToInt a = fToInt (fFlush a) ∧
     (∀ r ∈ [(fAdd a b).1, (fSub a b).1, (fMul a b).1, (fDiv a b).1, (fSqrt a).1, (fMin a b).1, (fMax a b).1, (fLim a b h).1,
       (fOfInt a).1], (field r 30 23 = 0 → field r 22 0 = 0) ∧ (nan r → r = 0x7FC00000)) ∧
     (quiet a → (¬nan b ∨ quiet b) → fAdd a b = (0x7FC00000, false, false) ∧ fMul a b = (0x7FC00000, false, false) ∧
       fDiv a b = (0x7FC00000, false, false) ∧ fSqrt a = (0x7FC00000, false, false)) ∧
     (realFinite a = true → realFinite b = true →
       (realScaled a + realScaled b ≥ 2 ^ 328 → (fAdd a b).1 = 0x7F800000) ∧
       (0 < realScaled a * realScaled b → realScaled a * realScaled b < 2 ^ 273 → (fMul a b).1 = 0)) ∧
     fAbs a = (fFlush a &&& 0x7FFFFFFF, false, false) ∧ fNeg a = (fFlush a ^^^ 0x80000000, false, false) ∧
     (quiet a → ¬nan b → fMin a b = (fFlush b, false, false) ∧ fMax a b = (fFlush b, false, false)) ∧
     (quiet b → ¬nan a → fMin a b = (fFlush a, false, false) ∧ fMax a b = (fFlush a, false, false)) ∧
     (quiet a → quiet b → fMin a b = (0x7FC00000, false, false) ∧ fMax a b = (0x7FC00000, false, false)) ∧
     fMin 0x80000000 0 = (0x80000000, false, false) ∧ fMin 0 0x80000000 = (0x80000000, false, false) ∧
     fMax 0x80000000 0 = (0, false, false) ∧ fMax 0 0x80000000 = (0, false, false) ∧
     (realFinite a = true → realFinite b = true → realScaled a < realScaled b →
       (fMin a b).1 = fFlush a ∧ (fMin b a).1 = fFlush a ∧ (fMax a b).1 = fFlush b ∧ (fMax b a).1 = fFlush b) ∧
     (realFinite a = true → realFinite b = true → realFinite h = true →
       (fLim a b h).1 =
         if realScaled h < realScaled b then fFlush h else if realScaled a < realScaled b then fFlush b
         else if realScaled h < realScaled a then fFlush h else fFlush a) ∧
     (nan a ∨ nan b →
       fCmp 0 a b = false ∧ fCmp 1 a b = true ∧ fCmp 2 a b = false ∧ fCmp 3 a b = false ∧ fCmp 4 a b = false ∧ fCmp 5 a b = false ∧
       fCmp 10 a b = true ∧ fCmp 11 a b = false) ∧
     (realFinite a = true → realFinite b = true →
       fCmp 0 a b = decide (realScaled a = realScaled b) ∧ fCmp 1 a b = decide (realScaled a ≠ realScaled b) ∧
       fCmp 2 a b = decide (realScaled a < realScaled b) ∧ fCmp 3 a b = decide (realScaled b ≤ realScaled a) ∧
       fCmp 4 a b = decide (realScaled a ≤ realScaled b) ∧ fCmp 5 a b = decide (realScaled b < realScaled a) ∧
       fCmp 10 a b = false ∧ fCmp 11 a b = true))

/-- R120: a sum, difference, product, quotient, scaling or conversion of finite numbers whose result is a finite non-zero number is the number
nearest to the exact value, and of two equally near ones the one with an even significand. -/
def Obligations.RealRoundsToNearest : Prop :=
  ∀ a b : Word, realFinite a = true → realFinite b = true →
    (realFinite (fAdd a b).1 = true → realScaled (fAdd a b).1 ≠ 0 → NearestReal (fAdd a b).1 (realScaled a + realScaled b) 1) ∧
    (realFinite (fSub a b).1 = true → realScaled (fSub a b).1 ≠ 0 → NearestReal (fSub a b).1 (realScaled a - realScaled b) 1) ∧
    (realFinite (fMul a b).1 = true → realScaled (fMul a b).1 ≠ 0 →
      NearestReal (fMul a b).1 (realScaled a * realScaled b) (2 ^ 200)) ∧
    (realFinite (fDiv a b).1 = true → realScaled (fDiv a b).1 ≠ 0 →
      NearestReal (fDiv a b).1 (realScaled a * 2 ^ 200) (realScaled b)) ∧
    (∀ n : Int, realFinite (fScale a n).1 = true → realScaled (fScale a n).1 ≠ 0 →
      NearestReal (fScale a n).1 (realScaled a * 2 ^ n.toNat) (2 ^ (-n).toNat)) ∧
    NearestReal (fOfInt a).1 (a.toInt * 2 ^ 200) 1 ∧
    ((fToInt a).2.1 = false →
      2 * ((fToInt a).1.toInt * 2 ^ 200 - realScaled a).natAbs ≤ 2 ^ 200 ∧
        (2 * ((fToInt a).1.toInt * 2 ^ 200 - realScaled a).natAbs = 2 ^ 200 → (fToInt a).1.toInt % 2 = 0)) ∧
    (0 < realScaled a →
      let r := (fSqrt a).1
      0 < realScaled r ∧ realFinite r = true ∧
        ∀ w, realFinite w = true → 0 ≤ realScaled w →
          let m := realScaled r + realScaled w
          (realScaled w < realScaled r → m * m ≤ 4 * realScaled a * 2 ^ 200) ∧
            (realScaled r < realScaled w → 4 * realScaled a * 2 ^ 200 ≤ m * m))

/-- R30, R69, R72, R75, R76 and R641: which accesses of a timed task to its pair's bank are permitted, and the exception of each other one in
the order of R641. Sections are those of the executing task; an access of untimed work to the bank raises EX_ACCESS. -/
def Obligations.BankAccessRules : Prop :=
  ∀ (s : State) (c : Core) (a : Word) (n : Nat) (cls : AccClass), a.toNat < 0x200000 →
    let u := layout s c.x.pair
    let o := a.toNat
    let own (k : SectKind) : Prop := ∃ t, c.timed = some t ∧ inSect s c.x.pair t k o = true
    let plainLoad : Prop := ∃ w, cls = .load w
    let tagged : Prop := cls = .tagLoad ∨ cls = .tagStore
    let permitted : Prop := c.timed.isSome = true ∧ u.code ≤ o ∧
      (o < u.k → plainLoad) ∧ (u.k ≤ o → o < u.pi → cls = .tagLoad ∧ own .pi) ∧
      (u.k ≤ o → u.pi ≤ o → o < u.pq → tagged ∧ own .pq) ∧
      (u.k ≤ o → u.pi ≤ o → u.pq ≤ o → o < u.ret → own .ret) ∧
      (u.k ≤ o → u.pi ≤ o → u.pq ≤ o → u.ret ≤ o → own .work)
    (u.work ≤ o → access s c cls n a = .error .mem) ∧
    (o < u.work → ¬permitted → access s c cls n a = .error .access) ∧
    (o < u.work → permitted → o % n ≠ 0 → access s c cls n a = .error .align) ∧
    (o < u.work → permitted → o % n = 0 → access s c cls n a = .ok (.bank o))

/-- The loads LDW, LDH, LDHU, LDB, LDBU, LDQ and LDT (R58, R73, R74, R97, R127): the address is the base register's value plus the sign-extended
displacement; a permitted and aligned access of a word whose code is good gives the little-endian value of the bytes that stand there, with
the tag of R58; uncorrectable data raises EX_MEM, and every other access the exception that the access rules name. Reading changes nothing
but what the error-correcting code records. Concluding that the block answers a next state, under conditions on state and operands alone,
this gives the own effect of: LDW, LDH, LDHU, LDB, LDBU, LDQ, LDT. -/
def Obligations.LoadResults : Prop :=
  ∀ (s : State) (x : Ctx) (c : Core) (f : FormC), Executes s x c →
    let s1 := afterFetch s c
    let a := (rdW c.bank f.base).v + BitVec.ofInt 32 f.disp.toInt
    let m := (lane s1 c.x.lane).sram
    let by_ (ea i : Nat) : Byte := memRead 0 m (ea + i)
    let word (ea : Nat) : Word := by_ ea 3 ++ by_ ea 2 ++ by_ ea 1 ++ by_ ea 0
    let half (ea : Nat) : BitVec 16 := by_ ea 1 ++ by_ ea 0
    let tag : Byte := if a.toNat < 0x200000 then 0x90 else 0x80
    let one (i : Instr) (cls : AccClass) (n : Nat) (res : Nat → Bank) : Prop :=
      (∀ e, access s1 c cls n a = .error e → Raises i s s1 c 2 e a 0) ∧
      (∀ q, access s1 c cls n a = .ok q → (∀ r, q ≠ .ln r) →
        let r := readWord s1 c (ecOf c q) c.x.data
        (r.2 = false → Raises i s r.1 c 2 .mem a 0) ∧ (r.2 = true → CompletesFrom i s r.1 c 2 [] (res (ecOf c q))))
    one (.ldw x f) (.load true) 4 (fun ea => wordResult c.bank f.d (word ea) tag) ∧
    (∀ r, access s1 c (.load true) 4 a = .ok (.ln r) → Completes (.ldw x f) s c 2 (wordResult c.bank f.d (regGet s1 r) tag)) ∧
    one (.ldh x f) (.load false) 2 (fun ea => wordResult c.bank f.d (BitVec.ofInt 32 (half ea).toInt) tag) ∧
    one (.ldhu x f) (.load false) 2 (fun ea => wordResult c.bank f.d (BitVec.ofNat 32 (half ea).toNat) tag) ∧
    one (.ldb x f) (.load false) 1 (fun ea => wordResult c.bank f.d (BitVec.ofInt 32 (by_ ea 0).toInt) tag) ∧
    one (.ldbu x f) (.load false) 1 (fun ea => wordResult c.bank f.d (BitVec.ofNat 32 (by_ ea 0).toNat) tag) ∧
    (bitField f.d = true → one (.ldq x f) .tagLoad 4 (fun ea => bitResult c.bank f.d ((by_ ea 1).getLsbD 0) (by_ ea 0))) ∧
    (∀ e, access s1 c .tagLoad 8 a = .error e → Raises (.ldt x f) s s1 c 2 e a 0) ∧
    (∀ q, access s1 c .tagLoad 8 a = .ok q →
      let ea := ecOf c q
      let r := readWord s1 c ea c.x.data
      let r' := readWord r.1 c (ea + 4) .none
      (r.2 = false → Raises (.ldt x f) s r.1 c 2 .mem a 0) ∧
      (r.2 = true → r'.2 = false → Raises (.ldt x f) s r'.1 c 2 .mem a 0) ∧
      (r.2 = true → r'.2 = true → CompletesFrom (.ldt x f) s r'.1 c 2 [] (wordResult c.bank f.d (word ea) (by_ ea 4))))

/-- The stores STW, STH, STB, STQ and STT (R73, R74, R97, R127, R209, R236): a permitted and aligned store writes its bytes, little-endian, and
nothing else of any memory, unless an RW force holds the slot, which discards it; a store within the task's own RET or WORK section enters
the activation's signature; every other access raises the exception that the access rules name. R119: EDGE. The slot must lie in the task's
own RET or WORK section; Bd is 1 when Bs is 1 and the slot's bit is 0, with the combination of the two tags; then the slot holds Bs and its
tag, unless an RW force holds it (R209). Concluding that the block answers a next state, under conditions on state and operands alone, this
gives the own effect of: EDGE, STW, STH, STB, STQ, STT. -/
def Obligations.StoreAndEdgeEffects : Prop :=
  (∀ (s : State) (x : Ctx) (c : Core) (f : FormC), MemoriesOk s → Executes s x c →
     let s1 := afterFetch s c
     let a := (rdW c.bank f.base).v + BitVec.ofInt 32 f.disp.toInt
     let v := (rdW c.bank f.d)
     let g := (rdB c.bank f.d)
     let own (o : Nat) : Bool := match c.timed with
       | some t => inSect s1 c.x.pair t .ret o || inSect s1 c.x.pair t .work o
       | none => false
     let entry (o : Nat) (w : Word) (be : BitVec 4) : List SigEv := if own o then [.write (BitVec.ofNat 32 o) w be] else []
     let sgOf (q : Place) (k : Nat → List SigEv) : List SigEv := match q with | .bank o => k o | _ => []
     let err (i : Instr) (cls : AccClass) (n : Nat) : Prop := ∀ e, access s1 c cls n a = .error e → Raises i s s1 c 1 e a 0
     let held (i : Instr) (cls : AccClass) (n : Nat) : Prop :=
       ∀ q, access s1 c cls n a = .ok q → storeForced s1 c q n = true → Completes i s c 1 (nextPc c.bank)
     let full (i : Instr) (cls : AccClass) (n : Nat) (bs : List Byte) (sg : Nat → List SigEv) : Prop :=
       err i cls n ∧ held i cls n ∧
       ∀ q, access s1 c cls n a = .ok q → storeForced s1 c q n = false →
         StoresFrom i s s1 c 1 (sgOf q sg) (nextPc c.bank) (bytesFrom (ecOf c q) bs)
     let part (i : Instr) (n : Nat) (bs : List Byte) : Prop :=
       err i (.store false) n ∧ held i (.store false) n ∧
       ∀ q, access s1 c (.store false) n a = .ok q → storeForced s1 c q n = false →
         let ea := ecOf c q
         let old (k : Nat) : Byte := memRead 0 (lane s1 c.x.lane).sram k
         let now (k : Nat) : Byte := (bytesFrom ea bs k).getD (old k)
         let wa := ea / 4 * 4
         let w : Word := now (wa + 3) ++ now (wa + 2) ++ now (wa + 1) ++ now wa
         StoresFrom i s (readWord s1 c ea c.x.data).1 c 1
           (sgOf q fun o => entry (o / 4 * 4) w (BitVec.ofNat 4 ((2 ^ n - 1) * 2 ^ (ea % 4)))) (nextPc c.bank) (bytesFrom ea bs)
     full (.stw x f) (.store true) 4 (wordBytes v.v) (fun o => entry o v.v 0xF) ∧
     part (.sth x f) 2 [v.v.setWidth 8, (v.v >>> 8).setWidth 8] ∧ part (.stb x f) 1 [v.v.setWidth 8] ∧
     (bitField f.d = true →
       let w : Word := (if g.v then 0x100 else 0) ||| g.t.setWidth 32
       full (.stq x f) .tagStore 4 [g.t, if g.v then 1 else 0, 0, 0] (fun o => entry o w 0xF)) ∧
     full (.stt x f) .tagStore 8 (wordBytes v.v ++ [v.t, 0, 0, 0])
       (fun o => entry (o + 4) (v.t.setWidth 32) 0xF ++ entry o v.v 0xF)) ∧
  (∀ (s : State) (x : Ctx) (c : Core) (f : FormG), MemoriesOk s → Executes s x c → bitField f.d = true → bitField f.s1 = true →
     let s1 := afterFetch s c
     let a := (rdW c.bank f.s2).v + BitVec.ofNat 32 (4 * f.slot.toNat)
     let b := rdB c.bank f.s1
     (∀ e, ownBlock s1 c 4 a = .error e → Raises (.edge x f) s s1 c 2 e a 0) ∧
     ∀ o, ownBlock s1 c 4 a = .ok o →
       let ea := bankBase c.x.pair + o
       let r := readWord s1 c ea c.x.data
       let slot := memWord 0 (lane s1 c.x.lane).sram ea
       let bank := bitResult c.bank f.d (b.v && !slot.getLsbD 8) (comb b.t (slot.setWidth 8))
       let new : Word := (if b.v then 0x100 else 0) ||| b.t.setWidth 32
       (r.2 = false → Raises (.edge x f) s r.1 c 2 .mem a 0) ∧
       (r.2 = true → rwForced s1 c.x.pair (c.timed.getD 0) o 4 = true → CompletesFrom (.edge x f) s r.1 c 2 [] bank) ∧
       (r.2 = true → rwForced s1 c.x.pair (c.timed.getD 0) o 4 = false →
         StoresFrom (.edge x f) s r.1 c 2 [.write (BitVec.ofNat 32 o) new 0xF] bank (bytesFrom ea (wordBytes new))))

/-- The flow instructions (R57, R67, R99, R105 to R107, R128): where execution continues, what the stacks hold, and EX_STACK on a full or an
empty stack. R129, R130, R149: DONE ends a timed task's activation, which then holds its bank, and the pair takes up its best ready task,
where its comparators pass their test; in untimed work DONE and JOIN end the work item, and the pair joins once neither core has one and no
split is to resume. JOIN in a timed task raises EX_ACCESS (R76). Concluding that the block answers a next state, under conditions on state
and operands alone, this gives the own effect of: BR, BT, BF, CALL, RET, LOOP, ENDL, JTAB, DONE, JOIN. -/
def Obligations.FlowAndWorkEndResults : Prop :=
  (∀ (s : State) (x : Ctx) (c : Core) (f : FormD), Executes s x c →
     let s1 := afterFetch s c
     let b := c.bank
     let to_ : Word := b.pc + BitVec.ofInt 32 (4 * f.off.toInt)
     let next : Word := b.pc + 4
     let n : Nat := f.off.toNat % 65536
     (legalDA f = true → Completes (.br x f) s c 2 { b with pc := to_ } ∧
       (b.ret.length < 8 → Completes (.call x f) s c 3 { b with pc := to_, ret := next :: b.ret }) ∧
       (8 ≤ b.ret.length → Raises (.call x f) s s1 c 3 .stack 0 0)) ∧
     (bitField f.a = true →
       Completes (.bt x f) s c 2 { b with pc := if (rdB b f.a).v then to_ else next } ∧
       Completes (.bf x f) s c 2 { b with pc := if (rdB b f.a).v then next else to_ }) ∧
     (legalD0 f = true →
       (∀ r rs, b.ret = r :: rs → Completes (.ret x f) s c 3 { b with pc := r, ret := rs }) ∧
       (b.ret = [] → Raises (.ret x f) s s1 c 3 .stack 0 0) ∧
       (∀ e es, b.loops = e :: es → 1 < e.count.toNat →
         Completes (.endl x f) s c 1 { b with pc := e.start, loops := { e with count := e.count - 1 } :: es }) ∧
       (∀ e es, b.loops = e :: es → e.count.toNat ≤ 1 → Completes (.endl x f) s c 1 { b with pc := next, loops := es }) ∧
       (b.loops = [] → Raises (.endl x f) s s1 c 1 .stack 0 0)) ∧
     (legalLoop f = true →
       (b.loops.length < 4 →
         Completes (.loop x f) s c 2 { b with pc := next, loops := ⟨BitVec.ofNat 16 n, next⟩ :: b.loops }) ∧
       (4 ≤ b.loops.length → Raises (.loop x f) s s1 c 2 .stack 0 0)) ∧
     (legalJtab f = true →
       let i := min (rdW b f.a).v.toNat (n - 1)
       let at_ : Word := next + BitVec.ofNat 32 (4 * i)
       let r := fetchCheck s1 c at_.toNat c.x.data
       (r.2 = none →
         CompletesFrom (.jtab x f) s r.1 c 4 []
           { b with pc := next - 4 + 4 * memWord 0 (lane r.1 c.x.lane).sram (fetchEc c at_.toNat) }) ∧
       (∀ e, r.2 = some e → Raises (.jtab x f) s r.1 c 4 e at_ 0))) ∧
  (∀ (s : State) (x : Ctx) (c : Core), Executes s x c →
     let s1 := afterFetch s c
     let l := x.lane
     let p := x.pair
     let sound (q : PairSt) : Prop := compPasses q.cmpX q.testCnt = true ∧ compPasses q.cmpY q.testCnt = true
     (∀ f k, legalD0 f = true → c.timed = some k → sound (pair s1 l p) → spells (.done x f) (wordAtPc s c) = true →
       ∃ t, exec (.done x f) s = .next t ∧
       (taskRun t l p k).phase = .done ∧ (taskRun t l p k).bank = nextPc c.bank ∧ (pair t l p).active = bestReady t l p ∧
       (∀ j, j ≠ k → (taskRun t l p j).phase = (taskRun s1 l p j).phase ∧ (taskRun t l p j).bank = (taskRun s1 l p j).bank) ∧
       ∃ q, t = modPair s1 l p fun _ => q) ∧
     (∀ i, c.timed = none → ((∃ f, legalD0 f = true ∧ i = .done x f) ∨ (∃ f, legalA0 f = true ∧ i = .join x f)) →
       spells i (wordAtPc s c) = true → ∃ t, exec i s = .next t ∧ (∃ q, t = modPair s1 l p fun _ => q) ∧ (pair t l p).tasks = (pair s1 l p).tasks ∧
         (if x.odd then (pair t l p).odd.active = false ∧ (pair t l p).even = (pair s1 l p).even
          else (pair t l p).even.active = false ∧ (pair t l p).odd = (pair s1 l p).odd) ∧
         ((∃ f, i = .join x f) → (pair t l p).resume = false) ∧ ((∃ f, i = .done x f) → (pair t l p).resume = (pair s1 l p).resume) ∧
         (pair t l p).split =
           ((pair s1 l p).split && ((pair t l p).even.active || (pair t l p).odd.active || (pair t l p).resume))) ∧
     (∀ f, legalA0 f = true → c.timed.isSome = true → Raises (.join x f) s s1 c 0 .access 0 0))

/-- R133 to R135: what one call of a timer or a counter leaves of its block: ET or CV, LAST, RUN and Q, in the spec's own pseudocode. A word
that the pseudocode does not write keeps its value. TON, TOF, TP, CTU and CTD (R131, R132, R134, R135): the block lies in the task's own RET
or WORK section, aligned to 16; the words of the step are stored, FL as R132 lays it out, but for words that an RW force holds (R209); Q
takes the tag of IN. Concluding that the block answers a next state, under conditions on state and operands alone, this gives the own effect
of: TON, TOF, TP, CTU, CTD. -/
def Obligations.TimerAndCounterResults : Prop :=
  (∀ (b : Block) (now : Word),
     let el : Nat := min b.pt.toNat (b.et.toNat + (now.toNat + 2 ^ 32 - b.last.toNat) % 2 ^ 32)
     let ET : Word := BitVec.ofNat 32 el
     let run := b.fl.getLsbD 0
     let pin := b.fl.getLsbD 1
     let is (o : BlockOut) (et last : Word) (r q : Bool) : Prop :=
       o.et.getD b.et = et ∧ o.last.getD b.last = last ∧ o.run = r ∧ o.q = q
     is (tonStep b now false) 0 b.last false false ∧
     (run = false → is (tonStep b now true) 0 now true (decide (b.pt = 0))) ∧
     (run = true → is (tonStep b now true) ET now true (decide (el = b.pt.toNat))) ∧
     is (tofStep b now true) 0 b.last false true ∧
     (pin = true → is (tofStep b now false) 0 now (decide (b.pt ≠ 0)) (decide (b.pt ≠ 0))) ∧
     (pin = false → run = true → is (tofStep b now false) ET now (decide (el < b.pt.toNat)) (decide (el < b.pt.toNat))) ∧
     (pin = false → run = false → is (tofStep b now false) b.et b.last false false) ∧
     (∀ i, run = true → is (tpStep b now i) ET now (decide (el < b.pt.toNat)) (decide (el < b.pt.toNat))) ∧
     (run = false → pin = false → is (tpStep b now true) 0 now (decide (b.pt ≠ 0)) (decide (b.pt ≠ 0))) ∧
     (run = false → pin = true → is (tpStep b now true) b.et b.last false false) ∧
     (run = false → is (tpStep b now false) 0 b.last false false) ∧
     (∀ i, let cv : Int := if i = true ∧ pin = false then min (b.et.toInt + 1) 0x7FFFFFFF else b.et.toInt
       is (ctuStep b now i) (BitVec.ofInt 32 cv) b.last false (decide (b.pt.toInt ≤ cv))) ∧
     (∀ i, let cv : Int := if i = true ∧ pin = false then max (b.et.toInt - 1) (-0x80000000) else b.et.toInt
       is (ctdStep b now i) (BitVec.ofInt 32 cv) b.last false (decide (cv ≤ b.pt.toInt)))) ∧
  (∀ (s : State) (x : Ctx) (c : Core) (f : FormT), MemoriesOk s → Executes s x c → legalT f = true →
     let s1 := afterFetch s c
     let a := (rdW c.bank f.base).v + BitVec.ofNat 32 (16 * f.blk.toNat)
     let i := rdB c.bank (f.inp.setWidth 4)
     let one (ins : Instr) (step : Block → Word → Bool → BlockOut) (timer : Bool) : Prop :=
       (∀ e, ownBlock s1 c 16 a = .error e → Raises ins s s1 c 6 e a 0) ∧
       ∀ o, ownBlock s1 c 16 a = .ok o →
         let ea := bankBase c.x.pair + o
         let m := (lane s1 c.x.lane).sram
         let b : Block := ⟨memWord 0 m ea, memWord 0 m (ea + 4), memWord 0 m (ea + 8), memWord 0 m (ea + 12)⟩
         let r := step b (nowOf s1 c) i.v
         let fl : Word := if timer then (if r.run then 1 else 0) ||| (if i.v then 2 else 0) ||| (if r.q then 4 else 0)
           else if i.v then 2 else 0
         let free (k : Nat) : Bool := !rwForced s1 c.x.pair (c.timed.getD 0) (o + k) 4
         let put (k : Nat) (w : Option Word) : Option Word := if free k then w else none
         let wr (j : Nat) : Option Byte :=
           ((put 4 r.et).bind fun w => bytesFrom (ea + 4) (wordBytes w) j).or
             (((put 8 r.last).bind fun w => bytesFrom (ea + 8) (wordBytes w) j).or
               ((put 12 (some fl)).bind fun w => bytesFrom (ea + 12) (wordBytes w) j))
         let sg (k : Nat) (w : Option Word) : List SigEv :=
           ((put k w).map fun w => SigEv.write (BitVec.ofNat 32 (o + k)) w 0xF).toList
         ((readBlock s1 c ea).2 = false → Raises ins s (readBlock s1 c ea).1 c 6 .mem a 0) ∧
         ((readBlock s1 c ea).2 = true →
           StoresFrom ins s (readBlock s1 c ea).1 c 6 (sg 12 (some fl) ++ sg 8 r.last ++ sg 4 r.et)
             (bitResult c.bank (f.q.setWidth 4) r.q i.t) wr)
     one (.ton x f) tonStep true ∧ one (.tof x f) tofStep true ∧ one (.tp x f) tpStep true ∧ one (.ctu x f) ctuStep false ∧
       one (.ctd x f) ctdStep false)

/-- R136 to R140: NOW and TIDE return the values fixed at the release of a timed task, with tag 0x90, and the live train time, with tag 0x80, in
untimed work; AGE, QCHK and SUBST. Concluding that the block answers a next state, under conditions on state and operands alone, this gives
the own effect of: NOW, TIDE, AGE, QCHK, SUBST. -/
def Obligations.TimeAndQualityResults : Prop :=
  ∀ (s : State) (x : Ctx) (c : Core), Executes s x c →
    let s1 := afterFetch s c
    let rel (k : TaskId) : Rel := (s1.ctl.rel.get x.pair).get k
    let ns : Nat := s1.time.clock.sec.toNat * 1000000000 + s1.time.clock.ns.toNat
    (∀ f, legalA1 f = true →
      (∀ k, c.timed = some k → Completes (.now x f) s c 1 (wordResult c.bank f.d (rel k).now 0x90) ∧
        Completes (.tide x f) s c 1 (wordResult c.bank f.d (rel k).tide 0x90)) ∧
      (c.timed = none → Completes (.now x f) s c 1 (wordResult c.bank f.d (BitVec.ofNat 32 (ns / 1000)) 0x80) ∧
        Completes (.tide x f) s c 1 (wordResult c.bank f.d (BitVec.ofNat 32 (ns / 250000)) 0x80))) ∧
    (∀ f, legalA2 f = true →
      Completes (.age x f) s c 1 (wordResult c.bank f.d ((rdW c.bank f.s1).t.setWidth 4 |>.setWidth 32) 0x90)) ∧
    (∀ f : FormB, legalB f = true → bitField f.d = true → f.imm &&& 0xF0E0 = 0 →
      let t := (rdW c.bank f.s1).t
      let on (k : Nat) : Bool := f.imm.getLsbD k
      Completes (.qchk x f) s c 1 (bitResult c.bank f.d
        (decide ((on 11 → t.getLsbD 7) ∧ (on 10 → !t.getLsbD 6) ∧ (on 9 → !t.getLsbD 5) ∧ (on 8 → t.getLsbD 4) ∧
          (on 4 → t.toNat % 16 ≤ f.imm.toNat % 16))) 0x90)) ∧
    ∀ f, legalA3 f = true →
      let a := rdW c.bank f.s1
      let b := rdW c.bank f.s2
      (a.t.getLsbD 7 = true → Completes (.subst x f) s c 1 (wordResult c.bank f.d a.v a.t)) ∧
      (a.t.getLsbD 7 = false → Completes (.subst x f) s c 1 (wordResult c.bank f.d b.v (b.t ||| 0x20 ||| (a.t &&& 0x40))))

/-- R141 to R146: LDX, STX, CAS and XCHG on the executing core, by where the address lies. Quay: the word is read and written at once;
uncorrectable data raises EX_MEM. A register: LDX reads it and STX writes it. The Corbel window: the access enters the posting queue and
LDX, CAS and XCHG wait for it; while the queue is full the core stalls and nothing happens. R35 and R531: an access to a register of a
domain that sleeps or is waking stalls the core, and the domain wakes. Every other address raises the exception that `sharedPlace` names.
FENCE completes once no STX, CAS or XCHG of its core is outstanding. In a timed task all of them raise EX_ACCESS at an address that untimed
work may reach. Concluding that the block answers a next state, under conditions on state and operands alone, this gives the own effect of:
FENCE, LDX, STX, CAS, XCHG. -/
def Obligations.SharedMemoryResults : Prop :=
  ∀ (s : State) (x : Ctx) (c : Core), Executes s x c →
    let s1 := afterFetch s c
    let me : LockOwner := .core x.lane x.pair x.odd
    let next := nextPc c.bank
    let ready (a : Word) : Prop := ∀ d, domainOf x.lane a.toNat = some d → domReady s1 d = true
    let stalls (i : Instr) (a : Word) : Prop := ∀ d, domainOf x.lane a.toNat = some d → domReady s1 d = false →
      spells i (wordAtPc s c) = true → exec i s = .next (stallOn s1 d (.core x.lane x.pair x.odd))
    let err (i : Instr) (op : SharedOp) (a w : Word) : Prop := ∀ e, sharedPlace s1 c op a w = .error e → Raises i s s1 c 0 e a 0
    let quay (i : Instr) (op : SharedOp) (a w : Word) (d : BitVec 4) (post : State → Nat → Word → State) : Prop :=
      ∀ o, sharedPlace s1 c op a w = .ok (.quay o) →
        let r := quayHit s1 o .untimed x.data
        let v := quayWord r.1 o
        (r.2 = false → Raises i s r.1 c 0 .mem a 0) ∧
        (r.2 = true → CompletesFrom i s (post r.1 o v) c 0 [] (wordResult c.bank d v 0x80))
    let posted (i : Instr) (op : SharedOp) (a w : Word) (k : AccKind) (d : BitVec 4) : Prop :=
      ∀ o, sharedPlace s1 c op a w = .ok (.corbel o) → spells i (wordAtPc s c) = true →
        (16 ≤ s1.br.queue.length → exec i s = .next s1) ∧
        (s1.br.queue.length < 16 → ∃ t, exec i s = .next t ∧
          t.br = { s1.br with nextSeq := s1.br.nextSeq + 1,
                              queue := s1.br.queue ++ [⟨s1.br.nextSeq, .core x.lane x.pair x.odd, k,
                                BitVec.ofNat 32 (s1.br.wbase.toNat * 0x40000000 + o), BitVec.ofNat 4 (o / 0x4000000), false⟩],
                              headAt := if s1.br.queue = [] then s1.up else s1.br.headAt } ∧
          ((∃ v, k = .store v) → bankIn t c = next ∧ OnlyCore 0 [] { s1 with br := t.br } t c) ∧
          ((∀ v, k ≠ .store v) → bankIn t c = c.bank ∧
            t = modPair { s1 with br := t.br } x.lane x.pair fun q =>
              if x.odd then { q with odd := { q.odd with wait := some ⟨s1.br.nextSeq, d⟩ } }
              else { q with even := { q.even with wait := some ⟨s1.br.nextSeq, d⟩ } }))
    (∀ f : FormC,
      let a := (rdW c.bank f.base).v + BitVec.ofInt 32 f.disp.toInt
      let v := (rdW c.bank f.d).v
      err (.ldx x f) .ldx a 0 ∧ err (.stx x f) .stx a v ∧
      quay (.ldx x f) .ldx a 0 f.d (fun s _ _ => s) ∧
      (∀ o, sharedPlace s1 c .stx a v = .ok (.quay o) →
        CompletesFrom (.stx x f) s (quayWrite s1 o v 0xF me) c 0 [] next) ∧
      (∀ r, sharedPlace s1 c .ldx a 0 = .ok (.reg r) →
        (ready a → CompletesFrom (.ldx x f) s (regRead s1 r).1 c 0 [] (wordResult c.bank f.d (regRead s1 r).2 0x80)) ∧
        stalls (.ldx x f) a) ∧
      (∀ r, sharedPlace s1 c .stx a v = .ok (.reg r) →
        (ready a → ∀ t, regSet s1 (.lane x.lane) r v = some t → CompletesFrom (.stx x f) s t c 0 [] next) ∧
        (regSet s1 (.lane x.lane) r v).isSome = true ∧ stalls (.stx x f) a) ∧
      posted (.ldx x f) .ldx a 0 .load f.d ∧ posted (.stx x f) .stx a v (.store v) f.d) ∧
    (∀ f : FormA, legalA3 f = true →
      let a := (rdW c.bank f.s1).v
      let old := (rdW c.bank f.d).v
      let new := (rdW c.bank f.s2).v
      err (.cas x f) .cas a new ∧
      quay (.cas x f) .cas a new f.d (fun s o w => if w = old then quayWrite s o new 0xF me else s) ∧
      posted (.cas x f) .cas a new (.cas old new) f.d) ∧
    (∀ f : FormA, legalA2 f = true →
      let a := (rdW c.bank f.s1).v
      let new := (rdW c.bank f.d).v
      err (.xchg x f) .xchg a new ∧ quay (.xchg x f) .xchg a new f.d (fun s o _ => quayWrite s o new 0xF me) ∧
      posted (.xchg x f) .xchg a new (.xchg new) f.d) ∧
    (∀ f : FormA, legalA0 f = true →
      (c.timed.isSome = true → Raises (.fence x f) s s1 c 0 .access 0 0) ∧
      (c.timed = none →
        ((∀ e ∈ s1.br.queue, e.agent = .core x.lane x.pair x.odd → e.kind = .load) → Completes (.fence x f) s c 0 next) ∧
        (¬(∀ e ∈ s1.br.queue, e.agent = .core x.lane x.pair x.odd → e.kind = .load) → spells (.fence x f) (wordAtPc s c) = true →
          exec (.fence x f) s = .next s1))) ∧
    ∀ (op : SharedOp) (a w : Word) (q : SharedPlace), sharedPlace s1 c op a w = .ok q → c.timed = none ∧ a.toNat % 4 = 0

/-- The system instructions (R78 to R80, R147 to R151): RDSYS of every system register, WRSYS, ARPRI, SPLIT, SIG and NOP. R93, R94, R102, R104
and R151: TRAP, an unassigned opcode, a set-up class instruction, and every instruction with a non-zero reserved field or a reserved code
raise EX_ILLEGAL; TRAP alone carries its immediate. R91, R96, R102: every instruction word spells the command that the opcode map gives it,
and two words with assigned opcodes outside the set-up class never have the same command: no bit of an encoding is dropped. Concluding that
the block answers a next state, under conditions on state and operands alone, this gives the own effect of: RDSYS, WRSYS, ARPRI, SPLIT, SIG,
TRAP, NOP, UNASSIGNED_OPCODE, SETUP_CLASS_INSTRUCTION. -/
def Obligations.SystemAndIllegalInstructions : Prop :=
  (∀ (s : State) (x : Ctx) (c : Core), Executes s x c →
     let s1 := afterFetch s c
     let next := nextPc c.bank
     (∀ f : FormB, legalB f = true → f.s1 = 0 →
       let reads (n : Nat) (v : Word) : Prop := f.imm.toNat = n → Completes (.rdsys x f) s c 1 (wordResult c.bank f.d v 0x90)
       (∀ k, c.timed = some k → reads 0 (BitVec.ofNat 32 (16 * x.pair.val + k.val))) ∧
       (c.timed = none → reads 0 (BitVec.ofNat 32 (256 + 16 * x.pair.val + if x.odd then 1 else 0)) ∧
         reads 1 (match x.lane with | .a => 1 | .b => 2 | .c => 3)) ∧
       (c.timed.isSome = true → f.imm = 1 → Raises (.rdsys x f) s s1 c 1 .access 0 0) ∧
       reads 2 ((if finvTrap s1 c then 256 else 0) ||| (if c.bank.finv then 2 else 0) ||| (if c.bank.dz then 1 else 0)) ∧
       (c.bank.ret.length ≤ 8 → c.bank.loops.length ≤ 4 →
         reads 3 (BitVec.ofNat 32 (16 * c.bank.loops.length + c.bank.ret.length))) ∧
       reads 4 s1.ctl.stopcause ∧ reads 5 s1.ctl.stoppc ∧
       (6 ≤ f.imm.toNat → Raises (.rdsys x f) s s1 c 1 .illegal 0 0)) ∧
     (∀ f : FormB, legalB f = true → f.d = 0 →
       let w := (rdW c.bank f.s1).v
       (f.imm = 2 → Completes (.wrsys x f) s c 1
         { next with dz := c.bank.dz && !w.getLsbD 0, finv := c.bank.finv && !w.getLsbD 1 }) ∧
       (f.imm.toNat < 6 → f.imm ≠ 2 → Raises (.wrsys x f) s s1 c 1 .access 0 0) ∧
       (6 ≤ f.imm.toNat → Raises (.wrsys x f) s s1 c 1 .illegal 0 0) ∧
       (c.timed = none → ∀ (h : f.imm.toNat % 256 < 14), f.imm.toNat / 256 < 2 →
         assigned (f.imm.toNat / 256 == 1) (f.imm.toNat % 256) = true →
         CompletesFrom (.arpri x f) s (setPri s1 (f.imm.toNat / 256 == 1) ⟨f.imm.toNat % 256, h⟩ (w.setWidth 4)) c 0 [] next) ∧
       (arpriLegal f.imm = true → c.timed.isSome = true → Raises (.arpri x f) s s1 c 0 .access 0 0) ∧
       (arpriLegal f.imm = false → Raises (.arpri x f) s s1 c 0 .illegal 0 0)) ∧
     (∀ f : FormA, legalA3 f = true → f.d = 0 →
       let a := (rdW c.bank f.s1).v
       let b := (rdW c.bank f.s2).v
       let fits (w : Word) : Prop := 0x1000000 ≤ w.toNat ∧ w.toNat < 0x1800000 ∧ w.toNat % 4 = 0
       (fits a → fits b → CompletesFrom (.split x f) s (modPair s1 x.lane x.pair fun q => { q with splitPend := some (a, b) }) c 2 [] next) ∧
       (¬(fits a ∧ fits b) → ∃ w, (w = a ∨ w = b) ∧ ¬fits w ∧
         CompletesFrom (.split x f) s
           (record (modPair s1 x.lane x.pair fun q => { q with splitPend := none }) 0x0C0A
             (d1 (laneNo x.lane) ++ d1 x.pair.val ++ d4 w.toNat)) c 2 [] next)) ∧
     (∀ f : FormA, legalA2 f = true → f.d = 0 →
       let a := rdW c.bank f.s1
       CompletesFrom (.sig x f) s s1 c 1 (if c.timed.isSome then [.sig a.v a.t] else []) next) ∧
     ∀ f : FormA, legalA0 f = true → Completes (.nop x f) s c 1 next) ∧
  (∀ (s : State) (x : Ctx) (c : Core), Executes s x c →
     let s1 := afterFetch s c
     let bad (i : Instr) (cost : Nat) : Prop := Raises i s s1 c cost .illegal 0 0
     (∀ f : FormB, legalB f = true → f.d = 0 → f.s1 = 0 → Raises (.trap x f) s s1 c 1 .illegal 0 f.imm) ∧
     (∀ op, opUnassigned op.toNat = true → bad (.unassignedOpcode x op) 0) ∧
     (∀ op : BitVec 7, 0x70 ≤ op.toNat → op.toNat ≤ 0x7D → bad (.setupClassInstruction x op) 0) ∧
     (∀ f, legalA3 f = false →
       bad (.add x f) 1 ∧ bad (.sub x f) 1 ∧ bad (.adds x f) 1 ∧ bad (.subs x f) 1 ∧ bad (.mul x f) 2 ∧ bad (.mulh x f) 2 ∧
       bad (.div x f) 18 ∧ bad (.divu x f) 18 ∧ bad (.rem x f) 18 ∧ bad (.min x f) 1 ∧ bad (.max x f) 1 ∧ bad (.and x f) 1 ∧
       bad (.or x f) 1 ∧ bad (.xor x f) 1 ∧ bad (.fadd x f) 3 ∧ bad (.fsub x f) 3 ∧ bad (.fmul x f) 3 ∧ bad (.fdiv x f) 14 ∧
       bad (.fmin x f) 1 ∧ bad (.fmax x f) 1 ∧ bad (.subst x f) 1 ∧ bad (.cas x f) 0) ∧
     (∀ f, legalA2 f = false →
       bad (.neg x f) 1 ∧ bad (.abs x f) 1 ∧ bad (.not x f) 1 ∧ bad (.mov x f) 1 ∧ bad (.fsqrt x f) 16 ∧ bad (.fabs x f) 1 ∧
       bad (.fneg x f) 1 ∧ bad (.ftoi x f) 2 ∧ bad (.itof x f) 2 ∧ bad (.age x f) 1 ∧ bad (.xchg x f) 0) ∧
     (∀ f, legalA1 f = false → bad (.now x f) 1 ∧ bad (.tide x f) 1) ∧
     (∀ f, legalA0 f = false → bad (.fence x f) 0 ∧ bad (.join x f) 0 ∧ bad (.nop x f) 1) ∧
     (∀ f, legalShift f = false →
       bad (.shl x f) 1 ∧ bad (.shr x f) 1 ∧ bad (.sar x f) 1 ∧ bad (.rol x f) 1 ∧ bad (.fscale x f) 1) ∧
     (∀ f, legalA4 f = false → bad (.limit x f) 1 ∧ bad (.flim x f) 1) ∧
     (∀ f, (legalA4 f && bitField f.s3) = false → bad (.sel x f) 1) ∧
     (∀ f, (legalA4 f && bitField f.d && decide (f.s3.toNat < 10)) = false → bad (.cmp x f) 1) ∧
     (∀ f, (legalA4 f && bitField f.d && fcmpCode f.s3) = false → bad (.fcmp x f) 1) ∧
     (∀ f, (legalA3 f && f.d == 0) = false → bad (.split x f) 2) ∧ (∀ f, (legalA2 f && f.d == 0) = false → bad (.sig x f) 1) ∧
     (∀ f, legalB f = false →
       bad (.addi x f) 1 ∧ bad (.subi x f) 1 ∧ bad (.andi x f) 1 ∧ bad (.ori x f) 1 ∧ bad (.xori x f) 1 ∧ bad (.movhi x f) 1) ∧
     (∀ f, (legalB f && f.s1 == 0) = false → bad (.movi x f) 1 ∧ bad (.rdsys x f) 1) ∧
     (∀ f, (legalB f && f.d == 0) = false → bad (.wrsys x f) 1 ∧ bad (.arpri x f) 0) ∧
     (∀ f, (legalB f && f.d == 0 && f.s1 == 0) = false → bad (.trap x f) 1) ∧
     (∀ f, (legalB f && bitField f.d && decide (f.imm.toNat / 4096 < 10)) = false → bad (.cmpi x f) 1) ∧
     (∀ f, (legalB f && bitField f.d && (f.imm &&& 0xF0E0 == 0)) = false → bad (.qchk x f) 1) ∧
     (∀ f, (legalE f && f.s2 == 0) = false → bad (.bset x f) 1 ∧ bad (.bclr x f) 1) ∧
     (∀ f, (legalE f && f.bit == 0 && bitField f.d) = false → bad (.btst x f) 1) ∧
     (∀ f, (legalE f && f.s2 == 0 && bitField f.d) = false → bad (.bld x f) 1) ∧
     (∀ f, (legalE f && bitField f.s2) = false → bad (.bst x f) 1) ∧
     (∀ f, (legalE f && f.bit == 0 && bitField f.d && bitField f.s1 && bitField f.s2) = false →
       bad (.band x f) 1 ∧ bad (.bor x f) 1 ∧ bad (.bxor x f) 1) ∧
     (∀ f, (legalE f && f.bit == 0 && f.s2 == 0 && bitField f.d && bitField f.s1) = false →
       bad (.bnot x f) 1 ∧ bad (.bmov x f) 1) ∧
     (∀ f, (bitField f.d && bitField f.s1) = false → bad (.edge x f) 2) ∧
     (∀ f, bitField f.d = false → bad (.ldq x f) 2 ∧ bad (.stq x f) 1) ∧
     (∀ f, legalT f = false →
       bad (.ton x f) 6 ∧ bad (.tof x f) 6 ∧ bad (.tp x f) 6 ∧ bad (.ctu x f) 6 ∧ bad (.ctd x f) 6) ∧
     (∀ f, legalDA f = false → bad (.br x f) 2 ∧ bad (.call x f) 3) ∧
     (∀ f, bitField f.a = false → bad (.bt x f) 2 ∧ bad (.bf x f) 2) ∧
     (∀ f, legalD0 f = false → bad (.ret x f) 3 ∧ bad (.endl x f) 1 ∧ bad (.done x f) 1) ∧
     (∀ f, legalLoop f = false → bad (.loop x f) 2) ∧ ∀ f, legalJtab f = false → bad (.jtab x f) 4) ∧
  (∀ (x : Ctx) (w : Word), spells (commandOf x w) w = true ∧
     (opUnassigned (opOf w) = false → opSetup (opOf w) = false → ∀ v, commandOf x v = commandOf x w → v = w))

/-- R82, R84 and R85: an exception of a timed task posts its record, ends the activation and writes no register, no flag and no memory; the pair
goes on with its best ready task, where its comparators pass their test. In untimed work it ends the work item and is recorded in Cairn
under 0x0C0B; it changes no lane state and no controller state. R83, R86 to R89: an activation that has not completed DONE by its deadline
posts EX_OVERRUN; the records of one activation are classified as the table of R88 says. A program fault is recorded with event 0x0C05 and
stops the controller at the commit instant of the activation (R199), with STOPCAUSE and STOPPC of R89; a lane fault drops the lane with
cause 0x01. Concluding that the block answers a next state, under conditions on state and operands alone, this gives the own effect of:
DEADLINE_OVERRUN, EXCEPTION_CLASSIFY. -/
def Obligations.ExceptionsAndTheirClasses : Prop :=
  (∀ (s : State) (c : Core) (cost : Nat) (code : ExcCode) (addr : Word) (imm : BitVec 16),
     let l := c.x.lane
     let p := c.x.pair
     let t := raiseExc s c cost code addr imm
     (∀ k, c.timed = some k → (lane s l).st ≠ .rejoining → compPasses (pair s l p).cmpX (pair s l p).testCnt = true →
       compPasses (pair s l p).cmpY (pair s l p).testCnt = true →
       (taskRun t l p k).exc = some ⟨code, c.bank.pc, if code = .mem ∨ code = .align ∨ code = .access then addr else 0, imm⟩ ∧
       (taskRun t l p k).phase = .ended ∧ (∀ j, (taskRun t l p j).bank = (taskRun s l p j).bank) ∧
       (∀ j, j ≠ k → (taskRun t l p j).phase = (taskRun s l p j).phase ∧ (taskRun t l p j).exc = (taskRun s l p j).exc) ∧
       (pair t l p).active = bestReady t l p ∧ ∃ q, t = modPair s l p fun _ => q) ∧
     (∀ k, c.timed = some k → (lane s l).st = .rejoining → t = rejoinFail s 0x0A) ∧
     (c.timed = none →
       ∃ q, t = record (modPair s l p fun _ => q) 0x0C0B
           (d1 (laneNo l) ++ d1 p.val ++ d1 (if c.x.odd then 1 else 0) ++ d1 (excNo code) ++ d4 c.bank.pc.toNat) ∧
         q.tasks = (pair s l p).tasks ∧ q.even.bank = (pair s l p).even.bank ∧ q.odd.bank = (pair s l p).odd.bank ∧
         (if c.x.odd then q.odd.active = false ∧ q.even = (pair s l p).even
          else q.even.active = false ∧ q.odd = (pair s l p).odd))) ∧
  (∀ (s : State) (p : PairId) (t : TaskId), s.ctl.state = .run → (relOf s p t).live = true →
     let r := relOf s p t
     (∀ l, runsTimed s l = true → r.endTide ≤ s.tide + 1 →
       ((taskRun s l p t).phase = .released ∨ (taskRun s l p t).phase = .ready) → (lane s l).st ≠ .rejoining →
       compPasses (pair s l p).cmpX (pair s l p).testCnt = true → compPasses (pair s l p).cmpY (pair s l p).testCnt = true →
       ∃ u, exec (.deadlineOverrun l p t) s = .next u ∧ (∃ q, u = modPair s l p fun _ => q) ∧
         (taskRun u l p t).exc = some ⟨.overrun, (taskRun s l p t).bank.pc, 0, 0⟩ ∧ (taskRun u l p t).phase = .ended ∧
         (taskRun u l p t).bank = (taskRun s l p t).bank) ∧
     (∀ atCommit : Bool,
       (if atCommit then r.endTide ≤ s.tide + 1 else ∀ l ∈ voters s, (taskRun s l p t).exc.isSome = true) →
       let posted := (voters s).filterMap fun l => ((taskRun s l p t).exc).map fun e => (l, e)
       let s0 := forAll (voters s) s fun s l => modTask s l p t fun x => { x with exc := none }
       let same (a b : ExcRec) : Prop := a = b ∨ (a.code = .overrun ∧ b.code = .overrun)
       let cause (e : ExcRec) : Word :=
         BitVec.ofNat 32 (0xC0000000 + excNo e.code * 0x1000000 + p.val * 0x100000 + t.val * 0x10000)
       let fault (e : ExcRec) (third : List Byte) : State :=
         pendStopAt (record s0 0x0C05 (d4 (cause e).toNat ++ d4 e.pc.toNat ++ third)) r.endTide (some (cause e, e.pc))
       let run := exec (.exceptionClassify p t atCommit) s
       (posted = [] → run = .next s) ∧
       (∀ l e rest, posted = (l, e) :: rest →
         ((voters s).length = 1 → run = .next (fault e [])) ∧
         ((voters s).length ≠ 1 → rest = [] → run = .next (dropLane s0 l 0x01 p.val t.val)) ∧
         ((voters s).length ≠ 1 → rest ≠ [] → ¬(∀ x ∈ rest, same e x.2) → run = .next (pendStopAt s0 r.endTide none)) ∧
         ((voters s).length ≠ 1 → rest ≠ [] → (∀ x ∈ rest, same e x.2) →
           (posted.length = (voters s).length → run = .next (fault e [])) ∧
           (∀ k, k ∈ voters s → (∀ x ∈ posted, x.1 ≠ k) → posted.length + 1 = (voters s).length →
             run = .next (fault e (d1 (laneNo k))))))))

/-- R89, R199, R201, R226: what an entry into STOPPED leaves. The state, STOPCAUSE and STOPPC, no activation under way; every output channel at
its SAFE state under its safety enable. R242, R243: what the drop of a voting lane leaves: the lane in DROPPED with its banks and memory
cleared and its self-test begun, SV_DROP, no lock word and no retain cycle in its hands; with fewer than two lanes left in RUN the
controller is STOPPED (LMODE 0b10: with none). A further cause at the instant of a drop leaves the lowest code in SV_DROP. -/
def Obligations.StopsAndDrops : Prop :=
  (∀ (s : State) (pf : Option (Word × Word)), s.ctl.everCommit = true →
     let t := enterStopped s pf
     t.ctl.state = .stopped ∧ t.ctl.pendStop = none ∧
     t.ctl.stopcause = (match pf with | some f => f.1 | none => 0x80000000) ∧
     t.ctl.stoppc = (match pf with | some f => f.2 | none => s.ctl.stoppc) ∧
     (∀ p k, ((t.ctl.rel.get p).get k).live = false) ∧
     (∀ l p k, (taskRun t l p k).phase = .idle) ∧
     (∀ d, chanDecl s d.ch = some d → d.kind = .output →
       let x := t.chans.get d.ch
       let safe : Bool := match d.safe with | .off => false | .on => true | .hold => (s.chans.get d.ch).held
       x.base = safe ∧ x.drv = (safe && x.en) ∧ x.en = enabled t d.ch)) ∧
  ((∀ (s : State) (l : LaneId) (cause p k : Nat), (lane s l).st ≠ .voting → (lane s l).fellAt = some s.up →
     let x := lane s l
     dropLane s l cause p k =
       if cause < x.cause.toNat then
         modLane s l fun _ => { x with cause := BitVec.ofNat 8 cause, dropPair := BitVec.ofNat 4 p, dropTask := BitVec.ofNat 4 k }
       else s) ∧
   ∀ (s : State) (l : LaneId) (cause p k : Nat), (lane s l).st = .voting →
     (∀ r, s.rejoin.lane = some r → (lane s r).st = .rejoining) →
     let t := dropLane s l cause p k
     (lane t l).st = .dropped ∧ (lane t l).selfTest = none ∧ (lane t l).sram = [] ∧
     (∀ q j, (taskRun t l q j).phase = .idle ∧ (taskRun t l q j).com = none) ∧ (∀ q, (pair t l q).split = false) ∧
     (lane t l).cause = BitVec.ofNat 8 cause ∧ (lane t l).dropPair = BitVec.ofNat 4 p ∧ (lane t l).dropTask = BitVec.ofNat 4 k ∧
     (∀ i q odd, t.fab.owner.get i ≠ some (.core l q odd)) ∧
     (s.ctl.retain.src = some l → s.ctl.retain.busy = true → t.ctl.retain.busy = false) ∧
     (∀ r, r ≠ l → (lane s r).st = .voting → (lane t r).st = .voting) ∧
     (s.ctl.state = .run →
       ((if benchMode s then (voters s).length = 1 else (voters s).length ≤ 2) ↔ t.ctl.state = .stopped)))

/-- R230: the Parapet's vote of one bit over the copies present. R25, R26, R194, R195, R230: the output window lifts the PQ image of every task
that has completed DONE and whose period ends at the coming boundary; at the commit instant every output channel bound to a committing task
takes the voted value of the copies of its slot, and a vote that cannot be made stops the controller; a stop that is due comes in place of
the commit. R189, R359: at a tide boundary the tide index rises by one, and the local clock has taken the ticks of 8 ns at its rate
correction that were left until train time reaches the multiple of 250 µs of that index. Concluding that the block answers a next state,
under conditions on state and operands alone, this gives the own effect of: OUTPUT_WINDOW, COMMIT_INSTANT. -/
def Obligations.CommitsAreVoted : Prop :=
  ((∀ a b c : Bool, voteBit [a, b, c] = some ((a && b) || (a && c) || (b && c))) ∧
     (∀ a b : Bool, voteBit [a, b] = if a = b then some a else none) ∧ (∀ a : Bool, voteBit [a] = none) ∧ voteBit [] = none) ∧
  (∀ (s : State), awake s = true → s.ctl.state = .run →
     (∀ (bad : Lanes Bool) (d : TaskDecl) (l : LaneId), d ∈ committing s (s.tide + 1) → (committing s (s.tide + 1)).Nodup →
       (∀ e ∈ committing s (s.tide + 1), e.pair = d.pair → e.task = d.task → e = d) →
       l ∈ timedLanes s → (taskRun s l d.pair d.task).phase = .done → (lane s l).dmg = [] → bad.get l = false →
       ∃ t, exec (.outputWindow bad) s = .next t ∧
         (taskRun t l d.pair d.task).lifted = some (pqForced s d (sectRead s l d .pq))) ∧
     (∀ (silent : Lanes Bool),
       let b := ageReceived (missWindows (toBoundary s))
       let ds := committing b b.tide
       let here := (voters b).filter fun l => !silent.get l && imageWhole b ds l
       (∀ p, s.ctl.pendStop = some p → p.tide ≤ b.tide → ∃ t, exec (.commitInstant silent) s = .next t ∧ t.ctl.state = .stopped ∧
         t.ctl.stopcause = (match p.fault with | some f => f.1 | none => 0x80000000)) ∧
       ((∀ p, s.ctl.pendStop = some p → b.tide < p.tide) → benchMode s = false → ds ≠ [] →
         ((here.length < 2 ∨ ∃ o ∈ outsOf b ds, voteBit (here.filterMap fun l => imageBit b l o.2) = none) →
           ∃ t, exec (.commitInstant silent) s = .next t ∧ t.ctl.state = .stopped) ∧
         (2 ≤ here.length → (∀ o ∈ outsOf b ds, voteBit (here.filterMap fun l => imageBit b l o.2) ≠ none) →
           ∃ t, exec (.commitInstant silent) s = .next t ∧ t.ctl.state = .run ∧
             ∀ c v, voteBit (here.filterMap fun l => imageBit b l c.2) = some v → c ∈ outsOf b ds →
               (∀ o ∈ outsOf b ds, o.1.ch = c.1.ch → o = c) → (t.chans.get c.1.ch).voted = v)))) ∧
  (∀ (s : State) (silent : Lanes Bool), awake s = true →
     s.time.clock.ns.toNat < 1000000000 → (s.tide + 2) * 250000 < 2 ^ 48 * 1000000000 →
     let b := toBoundary s
     let at_ := (s.tide + 1) * 250000
     b.tide = s.tide + 1 ∧ (trainNs s ≤ at_ → at_ ≤ trainNs b ∧ trainNs b < at_ + 9 ∧ tideNow b = b.tide) ∧
       (at_ < trainNs s → b.time.clock = s.time.clock ∧ b.up = s.up) ∧ (∃ n, b.up = s.up + 8 * n ∧ b.time.clock = clockRun s.time.clock n) ∧
       ∃ t, exec (.commitInstant silent) s = .next t ∧ t.tide = s.tide + 1 ∧ t.tideUp = s.tideUp + 1 ∧ t.up = b.up ∧ t.time.clock = b.time.clock)

/-- R190, R22, R53, R61: at a tide boundary in RUN every task whose period divides the boundary's index is released: NOW and TIDE of its
activation, the boundary at which its period ends, a fresh bank with the PC at its entry in every lane that executes timed tasks; a split
pair is joined (R255). The PI images of one section are the same in every lane (R193). No other task's activation changes. R23, R61 to R64:
at the end of the input window every released activation is ready, and each pair of every lane that executes timed tasks has the ready task
of the highest priority active, where its comparators are sound. A comparator that reports a difference whatever it sees fails the test at
the start of an activation, and the lane drops with cause 0x04 (R253). Concluding that the block answers a next state, under conditions on
state and operands alone, this gives the own effect of: TASK_RELEASE, TASK_READY. -/
def Obligations.ReleasesAndReadiness : Prop :=
  (∀ (s : State) (bad : List Nat), awake s = true → s.ctl.state = .run → MemoriesOk s → ((setup s).tasks.map fun d => (d.pair, d.task)).Nodup →
     let due (d : TaskDecl) : Prop := d ∈ (setup s).tasks ∧ s.tide % 2 ^ d.k = 0 ∧ s.ctl.runTide ≤ s.tide ∧
       ¬((relOf s d.pair d.task).live = true ∧ (relOf s d.pair d.task).endTide = s.tide + 2 ^ d.k)
     ∃ t, exec (.taskRelease bad) s = .next t ∧
       (∀ d, due d →
         (let r := relOf t d.pair d.task
          r.now = BitVec.ofNat 32 (s.tide * 250) ∧ r.tide = BitVec.ofNat 32 s.tide ∧ r.endTide = s.tide + 2 ^ d.k ∧ r.live = true) ∧
         (∀ l, runsTimed s l = true →
           (taskRun t l d.pair d.task).phase = .released ∧ (taskRun t l d.pair d.task).bank = resetBank d.entry ∧
           (taskRun t l d.pair d.task).exc = none ∧ (taskRun t l d.pair d.task).cycles = 0) ∧
         (∀ l, (pair t l d.pair).split = false) ∧
         (∀ l r, l ∈ servedLanes s → r ∈ servedLanes s → sectRead t l d .pi = sectRead t r d .pi)) ∧
       (∀ p k, (∀ d, due d → ¬(d.pair = p ∧ d.task = k)) →
         relOf t p k = relOf s p k ∧ ∀ l, (taskRun t l p k).phase = (taskRun s l p k).phase ∧ (taskRun t l p k).bank = (taskRun s l p k).bank)) ∧
  (∀ (s : State), s.ctl.state = .run →
     (∀ l p, compPasses (pair s l p).cmpX (pair s l p).testCnt = true ∧ compPasses (pair s l p).cmpY (pair s l p).testCnt = true) →
     ∃ t, exec (.taskReady []) s = .next t ∧
       (∀ l p k, runsTimed s l = true →
         (taskRun t l p k).phase = (if (taskRun s l p k).phase = .released then .ready else (taskRun s l p k).phase) ∧
         (taskRun t l p k).bank = (taskRun s l p k).bank ∧
         ((pair t l p).active = some k → (taskRun t l p k).phase = .ready ∧
           ∀ j, (taskRun t l p j).phase = .ready → prioOf s p j ≤ prioOf s p k) ∧
         ((pair t l p).active = none → (taskRun t l p k).phase ≠ .ready)) ∧
       (∀ l, runsTimed s l = false → lane t l = lane s l) ∧
       (∀ l p, (lane s l).st = .voting → (pair s l p).active = none → (∃ k, (taskRun s l p k).phase = .released) →
         (∀ r, s.rejoin.lane = some r → (lane s r).st = .rejoining) →
         (∀ k, (taskRun s l p k).phase = .released ∨ (taskRun s l p k).phase = .ready → (taskRun s l p k).cycles = 0) →
         ∃ u, exec (.taskReady [(l, p, ⟨true, 0⟩, ⟨false, 0⟩)]) s = .next u ∧ (lane u l).st = .dropped ∧ (lane u l).cause = 0x04))

/-- R238, R239: the signatures of a boundary compared over the voting lanes that hold one. A lane that two others outvote, or whose signature is
lost, drops with cause 0x05; without two equal signatures the controller enters STOPPED. The signatures are used up. R240: at the end of a
tide a voting lane that was in a channel or egress minority in it is charged once; with four charges in 256 tides it drops with cause 0x07.
R250, R251, R252: a lockstep window in which an instruction has retired closes with the two registers to be compared and both at all ones
again. Where both comparators find the two registers equal the lane goes on; where both find them unequal it fails with cause 0x02, where
one alone does with cause 0x03. Concluding that the block answers a next state, under conditions on state and operands alone, this gives the
own effect of: SIGNATURE_COMPARE, OUTPUT_PATH_JUDGE, LOCKSTEP_WINDOW_CLOSE. -/
def Obligations.LanesAreCompared : Prop :=
  (∀ (s : State) (lost : Lanes Bool),
     let seen (l : LaneId) : Option (BitVec 64) := if lost.get l then none else (lane s l).sig
     let vs := voters s
     let cleared (u : State) : State := { u with lanes := u.lanes.map fun _ x => { x with sig := none } }
     let run := exec (.signatureCompare lost) s
     ((vs.length < 2 ∨ ∀ l ∈ vs, (lane s l).sig = none) → run = .next (cleared s)) ∧
     (2 ≤ vs.length → (∃ l ∈ vs, (lane s l).sig ≠ none) →
       (∀ l r g, l ∈ vs → r ∈ vs → l ≠ r → seen l = some g → seen r = some g →
         let u := forAll (vs.filter fun k => seen k != some g) s fun s k => dropLane s k 0x05 0 0
         (s.rejoin.phase ≠ .shadow → run = .next (cleared u)) ∧
         (∀ k, (vs.all fun k => seen k == some g) = true → s.rejoin.phase = .shadow → s.rejoin.lane = some k → s.rejoin.shadowStart < s.tide →
           run = .next (cleared
             (if seen k = some g then { s with rejoin := { s.rejoin with matched := s.rejoin.matched + 1 } } else rejoinFail s 0x0A)))) ∧
       ((∀ l r g, l ∈ vs → r ∈ vs → l ≠ r → seen l = some g → seen r ≠ some g) → s.ctl.state = .run →
         run = .next (cleared (enterStopped s none))))) ∧
  (∀ (s : State), (∀ r, s.rejoin.lane = some r → (lane s r).st = .rejoining) →
     ∃ t, exec .outputPathJudge s = .next t ∧ ∀ l,
       (lane t l).chBad = false ∧ (lane t l).egBad = false ∧
       ((lane s l).st = .voting → ((lane s l).chBad = true ∨ (lane s l).egBad = true) →
         let kept := s.tideUp :: (lane s l).charges.filter fun q => decide (s.tideUp < q + 256)
         (lane t l).charges = kept ∧ ((lane t l).st = .dropped ↔ 4 ≤ kept.length) ∧
           (4 ≤ kept.length → (lane t l).cause = 0x07)) ∧
       ((lane s l).st = .voting → (lane s l).chBad = false → (lane s l).egBad = false →
         (lane t l).charges = (lane s l).charges ∧ (lane t l).st = .voting)) ∧
  ((∀ q : PairSt, (q.retired = 0 → closeWindow q = q) ∧ (q.retired ≠ 0 → closeWindow q =
     { q with closed := some (q.leader, q.checker), leader := BitVec.allOnes 64, checker := BitVec.allOnes 64, retired := 0 })) ∧
   ∀ (s : State) (l : LaneId) (p : PairId) (lerr cerr : BitVec 64) (fx fy : CompFault), runsTimed s l = true → fellNow s l = false →
     ((pair s l p).closed = none → exec (.lockstepWindowClose l p lerr cerr fx fy) s = .next s) ∧
     ∀ a b, (pair s l p).closed = some (a, b) →
       let both (f g : CompFault) : CompFault := ⟨f.differ || g.differ, f.deaf ||| g.deaf⟩
       let cx := both (pair s l p).cmpX fx
       let cy := both (pair s l p).cmpY fy
       let unequal (f : CompFault) : Bool := f.differ || decide (((a ^^^ lerr) ^^^ (b ^^^ cerr)) &&& ~~~f.deaf ≠ 0)
       exec (.lockstepWindowClose l p lerr cerr fx fy) s = .next
         (match unequal cx, unequal cy with
         | true, true => laneFails s l 0x02 p.val 0
         | false, false => modPair s l p fun q => { q with cmpX := cx, cmpY := cy, closed := none }
         | _, _ => laneFails s l 0x03 p.val 0))

/-- R213, R215, R216: at FORCE_EFFECT every force whose effect tide has come is in effect, every force whose removal's tide has come is gone or,
for an RW item whose slot still awaits its underlying value, marked ended; a force whose tide has not come stays as it is. Outside SERVICE
nothing but the table and the recorder changes. R202, R203: a STOP, RESTART, SERVICE or LEAVE command takes effect at its effect tide in the
state that its row of the transition table names, and nowhere else. Concluding that the block answers a next state, under conditions on
state and operands alone, this gives the own effect of: COMMAND_EFFECT_TIDE, FORCE_EFFECT. -/
def Obligations.ForcesAndControllerCommands : Prop :=
  (∀ (s : State), awake s = true → s.ctl.state ≠ .service →
     ∃ fs rc, exec .forceEffect s = .next { s with ctl := { s.ctl with forces := fs }, rc := rc } ∧
       (∀ x ∈ fs, x.eff ≤ s.tide → x.active = true ∧ ∀ e, x.endAt = some e → e ≤ s.tide → x.ended = true) ∧
       (∀ x ∈ s.ctl.forces, s.tide < x.eff → x.active = false → x ∈ fs) ∧
       (∀ x ∈ s.ctl.forces, x.eff ≤ s.tide → x.active = false → x.endAt = none →
         (∀ y ∈ s.ctl.forces, y.item = x.item → y = x) →
         { x with active := true, under := none } ∈ fs) ∧
       (∀ x ∈ s.ctl.forces, x.active = true → x.eff ≤ s.tide → x.endAt = none → (∀ y ∈ s.ctl.forces, y.item = x.item → y = x) → x ∈ fs)) ∧
  (∀ (s : State) (rb : BitVec 2), awake s = true →
     let taken : State := { s with ctl := { s.ctl with cmds := s.ctl.cmds.filter fun c => !decide (c.2 ≤ s.tide) } }
     ((∀ c ∈ s.ctl.cmds, s.tide < c.2) → exec (.commandEffectTide rb) s = .next s) ∧
     (∀ c e, (s.ctl.cmds.filter fun c => decide (c.2 ≤ s.tide)) = [(c, e)] →
       ∃ t, exec (.commandEffectTide rb) s = .next t ∧
         (c = .stop → s.ctl.state = .run → t.ctl.state = .stopped ∧ t.ctl.stopcause = 0x80000000) ∧
         (c = .service → s.ctl.state = .stopped → t.ctl.state = .service) ∧
         (c = .leave → s.ctl.state = .service → t.ctl.state = .stopped) ∧
         (∀ w, c = .restart w → s.ctl.state = .stopped → s.time.set = true → s.adm.cur.isSome = true → tooFew (reviveLanes s) = false →
           t.ctl.state = .run ∧ t.ctl.source = 2 ∧ t.ctl.runTide = s.tide) ∧
         (¬(c = .stop ∧ s.ctl.state = .run) → ¬(c = .service ∧ s.ctl.state = .stopped) → ¬(c = .leave ∧ s.ctl.state = .service) →
           ¬(∃ w, c = .restart w ∧ s.ctl.state = .stopped) → t = taken)))

/-- R208: what a restart leaves. Warm only with a usable retain buffer, which FALLBACK tells; the RET sections from the buffer of the later
generation, else from the image; no force but for a warm restart under POLICY FORCEKEEP; no online change, no activation, no received value
and no committed output; STOPCAUSE and STOPPC restored or reset. -/
def Obligations.RestartPreparesRun : Prop :=
  ∀ (s : State) (warm : Bool) (src : BitVec 2) (rb : BitVec 2),
    let t := restart s warm src.toNat rb
    let hot := warm && (latestBuf (spoilBuffers (reviveLanes s) rb)).isSome
    t.ctl.state = .run ∧ t.ctl.warm = hot ∧ t.ctl.fallback = (warm && !hot) ∧ t.ctl.source = src ∧ t.ctl.runTide = s.tide ∧
    t.ctl.pendStop = none ∧ t.ctl.olcs = [] ∧ (hot = false → t.ctl.forces = [] ∧ t.ctl.stopcause = 0 ∧ t.ctl.stoppc = 0 ∧
      t.ctl.retain.buf0.mark = 0 ∧ t.ctl.retain.buf1.mark = 0) ∧
    (hot = true → t.ctl.stopcause = s.ctl.retain.stopcause ∧ t.ctl.stoppc = s.ctl.retain.stoppc ∧
      ((policy s).forcekeep = false → t.ctl.forces = []) ∧
      ((policy s).forcekeep = true → t.ctl.forces.map (·.item) = (s.ctl.forces.filter fun f => !f.ended).map (·.item))) ∧
    (∀ p k, (relOf t p k).live = false ∧ (relOf t p k).committed = false) ∧
    (∀ l p k, (taskRun t l p k).phase = .idle ∧ (taskRun t l p k).com = none) ∧
    (∀ r ∈ t.net.rx, r.good = none ∧ r.pend = none) ∧ (∀ c, (t.chans.get c).everCom = false) ∧ t.ctl.retain.busy = false ∧
    (∀ l, (lane s l).st = .dropped → (lane s l).selfTest = some true → (lane s l).dbg = false → (lane t l).st = .voting)

/-- R204, R206: the three instants of a retain cycle. It starts at a boundary whose index is a multiple of 64, with none under way; when every
task is captured the buffer that does not hold the latest committed generation is written, its MARK 0x00; the MARK 0xC3 ends the cycle.
R222: once the overlay and the log hold a K item that has taken effect, the item is applied: the overlay of the booted bank's settings holds
its value alone at that word, and the log has one more entry. Concluding that the block answers a next state, under conditions on state and
operands alone, this gives the own effect of: K_OVERLAY_WRITE_DONE, RETAIN_CYCLE_START, RETAIN_CAPTURES_COMPLETE, RETAIN_WRITE_DONE. -/
def Obligations.RetainAndSettings : Prop :=
  (∀ (s : State), awake s = true →
     let r := s.ctl.retain
     let whole (b : RetBuf) : Prop := b.mark = 0xC3 ∧ b.bad = false
     (s.ctl.state = .run → s.tide % 64 = 0 → r.busy = false → ∀ l rest, voters s = l :: rest →
       exec .retainCycleStart s = .next { s with ctl := { s.ctl with retain := { r with busy := true, full := false, src := some l, caps := [] } } }) ∧
     ((s.tide % 64 ≠ 0 ∨ r.busy = true ∨ s.ctl.state ≠ .run) → exec .retainCycleStart s = .next s) ∧
     (r.busy = true → r.full = false → (∀ d ∈ (setup s).tasks, ∃ b, (d.pair, d.task, b) ∈ r.caps) →
       let latest1 : Prop := whole r.buf1 ∧ (whole r.buf0 → ¬later r.buf0.gen r.buf1.gen)
       let new : RetBuf := { body := r.caps, gen := r.lastGen + 1, digest := curDigest s, mark := 0, bad := false }
       (latest1 → exec .retainCapturesComplete s = .next { s with ctl := { s.ctl with retain := { r with full := true, buf0 := new } } }) ∧
       (¬latest1 → whole r.buf0 → exec .retainCapturesComplete s = .next { s with ctl := { s.ctl with retain := { r with full := true, buf1 := new } } })) ∧
     (r.busy = true → r.full = true → ∃ t, exec .retainWriteDone s = .next t ∧ t.ctl.retain.busy = false ∧ t.ctl.retain.full = false ∧
       (whole r.buf0 → r.buf1.mark ≠ 0xC3 → t.ctl.retain.buf1 = { r.buf1 with mark := 0xC3 } ∧ t.ctl.retain.buf0 = r.buf0 ∧
         t.ctl.retain.lastGen = r.buf1.gen) ∧
       (whole r.buf1 → r.buf0.mark ≠ 0xC3 → t.ctl.retain.buf0 = { r.buf0 with mark := 0xC3 } ∧ t.ctl.retain.buf1 = r.buf1 ∧
         t.ctl.retain.lastGen = r.buf0.gen))) ∧
  (∀ (s : State) (r : OlcReq) (n : Nat) (i : OlcItem) (p : PairId) (off : Nat), r ∈ s.ctl.olcs ++ s.ctl.olcDone →
     (∀ x ∈ s.ctl.olcs ++ s.ctl.olcDone, x.num = r.num → x = r) → r.items[n]? = some i → i.target = .kWord p off → i.outcome = .inEffect →
     ∃ t, exec (.kOverlayWriteDone r.num n) s = .next t ∧
       (∀ x ∈ t.ctl.olcs ++ t.ctl.olcDone, x.num = r.num → x.items[n]? = some { i with outcome := .applied }) ∧
       (∀ v, (p, off, v) ∈ (settingsOf (bankOf t t.boot.bank)).overlay ↔ v = i.value) ∧
       t.svc.nextLog = s.svc.nextLog + 1 ∧ t.lanes = s.lanes)

/-- R223, R242, R260 to R262, R543: the events of the lane state table. A lane that loses its supply, or is too hot, is ABSENT, with drop cause
0x08 from VOTING and REJOINING; an ABSENT lane that LMODE powers boots; a self-test in BOOTING leads to VOTING while the controller is in
COLD or SETUP and to DROPPED otherwise, a failed or late one to HALTED. A debug attach is accepted outside RUN, with three voting lanes, or
for lane A under LMODE 0b10, and drops the lane with cause 0x09; a detach resets it, and its next rejoin does not count against the limit.
Concluding that the block answers a next state, under conditions on state and operands alone, this gives the own effect of: LANE_POWER_LOSS,
LANE_SUPPLY_READY, LANE_SELF_TEST_DONE, LANE_SELF_TEST_TIMEOUT, DEBUG_ATTACH, DEBUG_DETACH, LANE_THERMAL_SHUTDOWN. -/
def Obligations.LaneLifecycle : Prop :=
  ∀ (s : State) (l : LaneId), (∀ r, s.rejoin.lane = some r ↔ (lane s r).st = .rejoining) →
    let x := lane s l
    let gone (t : State) : Prop := (lane t l).st = .absent ∧ (lane t l).dbg = false ∧ (lane t l).sram = [] ∧
      (x.st = .voting ∨ x.st = .rejoining → (lane t l).cause = 0x08) ∧ ∀ r, r ≠ l → (lane s r).st = .voting → (lane t r).st = .voting
    let halted (t : State) : Prop := (lane t l).st = .halted ∧ (lane t l).cause = 0x0B ∧ (lane t l).dropPair = 0 ∧ (lane t l).dropTask = 0 ∧ ∀ r, r ≠ l → lane t r = lane s r
    let fed : Prop := (s.pw.straps.lmode = 1 → l ≠ .c) ∧ (s.pw.straps.lmode = 2 → l = .a)
    (∃ t, exec (.lanePowerLoss l) s = .next t ∧ gone t) ∧
    (x.st ≠ .absent → ∃ t, exec (.laneThermalShutdown l) s = .next t ∧ gone t ∧ t.pw.laneHot.get l = true) ∧
    (s.pw.state = .run → x.st = .absent → fed →
      ∃ t, exec (.laneSupplyReady l) s = .next t ∧ lane t l = { x with st := .booting, selfTest := none } ∧
        t.pw.laneHot.get l = false ∧ .lane l ∉ t.pw.pllLost) ∧
    (x.st = .booting → ∀ r,
      (∃ t, exec (.laneSelfTestDone l true r) s = .next t ∧ (lane t l).selfTest = some true ∧
        (lane t l).st = (if (s.ctl.state = .cold ∨ s.ctl.state = .setup) ∧ x.dbg = false then .voting else .dropped)) ∧
      (∃ t, exec (.laneSelfTestDone l false r) s = .next t ∧ halted t) ∧
      (∃ t, exec (.laneSelfTestTimeout l) s = .next t ∧ halted t)) ∧
    (x.st = .dropped → x.selfTest = none → ∀ r,
      exec (.laneSelfTestDone l true r) s = .next (modLane s l fun x => { x with selfTest := some true }) ∧
      ∃ t, exec (.laneSelfTestDone l false r) s = .next t ∧ halted t) ∧
    (awake s = true → x.dbg = false →
      let ok : Prop := s.ctl.state ≠ .run ∨ (voters s).length = 3 ∨ (s.pw.straps.lmode = 2 ∧ l = .a)
      (ok → ∃ t, exec (.debugAttach l) s = .next t ∧ (lane t l).dbg = true ∧ t.rejoin.tapRefused.get l = false ∧
        (x.st = .voting ∨ x.st = .rejoining → (lane t l).st = .dropped ∧ (lane t l).cause = 0x09) ∧
        (x.st ≠ .voting → x.st ≠ .rejoining → (lane t l).st = x.st)) ∧
      (¬ok → ∃ t, exec (.debugAttach l) s = .next t ∧ t.lanes = s.lanes ∧ t.ctl = s.ctl ∧ t.rejoin.tapRefused.get l = true)) ∧
    (x.dbg = true → ∃ t, exec (.debugDetach l) s = .next t ∧ (lane t l).dbg = false ∧ (lane t l).uncounted = true ∧
      (x.st = .absent ∨ x.st = .booting ∨ x.st = .halted → (lane t l).st = x.st) ∧
      (x.st = .voting ∨ x.st = .dropped ∨ x.st = .rejoining → (lane t l).st = .dropped ∧ (lane t l).selfTest = none ∧ (lane t l).sram = []))

/-- R245 to R248: the phases of a rejoin. It starts in RUN with two voting lanes, for the first dropped lane whose self-test has passed and
which no debugger holds, from the lowest-lettered voting lane, and is withheld at the limit; the copy leaves every byte of CODE, K, RET and
WORK equal in the two lanes; the shadow run starts at a boundary at which every timed task is released; 16 tides later the lane votes when
every signature due has matched and the digests of both lanes, captured at S, are equal and their comparison is not spoilt, and returns to
DROPPED with cause 0x0A when they are not. R254 and R256: a pending split of a pair in SPLITMASK without ready timed work takes effect in a
voting lane, below derating step 3: both cores start at their entry addresses with fresh banks; the lockstep window closes first and is
compared, and a difference fails the lane. A pair that a release has joined splits again with its cores as they were. Concluding that the
block answers a next state, under conditions on state and operands alone, this gives the own effect of: REJOIN_START, REJOIN_COPY_DONE,
SHADOW_START, REJOIN_ENTER, SPLIT_HANDOVER. -/
def Obligations.RejoinsAndSplits : Prop :=
  (∀ (s : State) (l src : LaneId),
     (s.ctl.state = .run → 2 ≤ (voters s).length → (∀ r, (lane s r).st ≠ .rejoining) → leadLane s = some src →
       (∀ r, (lane s r).st = .dropped → (lane s r).selfTest = some true → (lane s r).dbg = false → r = l) →
       (lane s l).st = .dropped → (lane s l).selfTest = some true → (lane s l).dbg = false →
       let used := (s.rejoin.starts.filter fun t => decide (s.pw.opsec.toNat < t + s.rejoin.window.toNat * 3600)).length
       (used < s.rejoin.limit.toNat → ∃ t, exec .rejoinStart s = .next t ∧ (lane t l) = { lane s l with st := .rejoining } ∧
         t.rejoin.lane = some l ∧ t.rejoin.src = some src ∧ t.rejoin.phase = .copy ∧ t.rejoin.matched = 0 ∧
         t.rejoin.starts = (if (lane s l).uncounted then s.rejoin.starts else s.pw.opsec.toNat :: s.rejoin.starts)) ∧
       (s.rejoin.limit.toNat ≤ used → ∃ t, exec .rejoinStart s = .next t ∧ t.lanes = s.lanes ∧ t.rejoin.withheld = true ∧
         t.rejoin.phase = s.rejoin.phase ∧ (s.rejoin.withheld = true → t = s))) ∧
     (s.rejoin.lane = some l → s.rejoin.src = some src →
       (s.rejoin.phase = .copy → (lane s src).dmg = [] →
         ∃ t, exec (.rejoinCopyDone false) s = .next t ∧ t.rejoin = { s.rejoin with phase := .wait } ∧
           ∀ d ∈ (setup s).layouts, ∀ a, a < d.k ∨ (d.pq ≤ a ∧ a < d.work) →
             memRead 0 (lane t l).sram (bankBase d.pair + a) = memRead 0 (lane t src).sram (bankBase d.pair + a)) ∧
       (s.rejoin.phase = .wait → (∀ d ∈ (setup s).tasks, s.tide % 2 ^ d.k = 0) →
         ∃ t, exec .shadowStart s = .next t ∧ t.rejoin.phase = .shadow ∧ t.rejoin.shadowStart = s.tide ∧ t.rejoin.matched = 0 ∧
           t.ctl = s.ctl ∧ ∀ r, (lane t r).st = (lane s r).st) ∧
       (s.rejoin.phase = .shadow → s.rejoin.shadowStart + 16 ≤ s.tide → s.rejoin.matched = s.rejoin.due →
         (∀ d, s.rejoin.digests = some (d, d) → ∃ t, exec (.rejoinEnter true) s = .next t ∧ (lane t l) = { lane s l with st := .voting } ∧ t.rejoin.lane = none ∧
           t.rejoin.phase = .none) ∧
         (∀ ok a b, s.rejoin.digests = some (a, b) → ok = false ∨ a ≠ b →
           ∃ t, exec (.rejoinEnter ok) s = .next t ∧ (lane t l).st = .dropped ∧ (lane t l).cause = 0x0A ∧ t.rejoin.lane = none)) ∧
       (s.rejoin.phase = .shadow → s.tide < s.rejoin.shadowStart + 16 ∨ s.rejoin.matched ≠ s.rejoin.due → ∀ ok, exec (.rejoinEnter ok) s = .next s))) ∧
  (∀ (s : State) (l : LaneId) (p : PairId), (lane s l).st = .voting → (setup s).splitmask.getLsbD p.val = true → s.pw.dstep ≠ 3 →
     (pair s l p).split = false → (∀ t, (taskRun s l p t).phase ≠ .ready ∧ (taskRun s l p t).phase ≠ .released) →
     let q := closeWindow (pair s l p)
     (∀ w k, q.closed = some w → windowCause q.cmpX q.cmpY w.1 w.2 = some k → exec (.splitHandover l p) s = .next (laneFails s l k p.val 0)) ∧
     ((∀ w, q.closed = some w → windowCause q.cmpX q.cmpY w.1 w.2 = none) →
     (∀ a b, (pair s l p).splitPend = some (a, b) → exec (.splitHandover l p) s =
       .next (modPair s l p fun _ =>
         { q with closed := none, splitPend := none, split := true, resume := true, even := ⟨resetBank a, true, none⟩, odd := ⟨resetBank b, true, none⟩ })) ∧
     ((pair s l p).splitPend = none → (pair s l p).resume = true →
       ∃ t, exec (.splitHandover l p) s = .next t ∧ (pair t l p).split = true ∧ (pair t l p).resume = true ∧
         (pair t l p).tasks = (pair s l p).tasks ∧
         ((∀ r, (pair s l r).split = true ∨ r = p ∨ ((pair s l r).even.active = false ∧ (pair s l r).odd.active = false)) →
           t = modPair s l p fun _ => { q with closed := none, split := true }))))

/-- R154 to R156, R159, R185: admission. SETUP_ENTRY under an image leaves the controller in SETUP with a check in progress, and each voting
lane's result; the vote takes two results that agree and drops the lane that differs with cause 0x06; a result of 0 keeps the controller in
SETUP for the load, another ends it. The banks loaded, the effect boundary is the third after the tide of completion. R185, R187: at the
effect boundary, once the clock is set, the admitted set-up comes into force and the controller enters RUN with enough voting lanes, warm
when the program and the CODE and K images are those last admitted. Concluding that the block answers a next state, under conditions on
state and operands alone, this gives the own effect of: SETUP_ENTRY, ADMISSION_VOTE, BANK_LOAD_DONE, EFFECT_BOUNDARY. -/
def Obligations.AdmissionAndEffectBoundary : Prop :=
  (∀ (s : State) (im : AppImage), s.adm.image = some im →
     (stewardRuns s = true → (s.ctl.state = .cold ∨ s.ctl.state = .stopped ∨ s.ctl.state = .service) → ∀ flip rb,
       ∃ t, exec (.setupEntry flip rb) s = .next t ∧ t.ctl.state = .setup ∧ t.ctl.from_ = s.ctl.state ∧ t.adm.code = 0xFE ∧
         t.adm.next = none ∧ ∀ l, t.adm.results.get l =
           if (lane t l).st = .voting then some (resultOf (admitCheck t im rb) (admitDigest im) (flip.get l)) else none) ∧
     (s.ctl.state = .setup → s.adm.code = 0xFE → benchMode s = false →
       (∀ l r a b, l ≠ r → (lane s l).st = .voting → (lane s r).st = .voting → s.adm.results.get l = some a → s.adm.results.get r = some b →
         a.code = b.code → a.digest = b.digest →
         ∃ t, exec .admissionVote s = .next t ∧ t.adm.code = a.code ∧
           (a.code = 0 → ∀ g, (admitCheck s im false).good = some g → t.ctl.state = .setup ∧
             ∃ n, t.adm.next = some n ∧ n.setup = g.1 ∧ n.image = im ∧ n.digest = a.digest) ∧
           (a.code ≠ 0 → a.code ≠ 0x51 → (journalOf s).state ≠ .trialBoot → t.adm.image = none ∧
             t.ctl.state = (if s.ctl.from_ = .service then .service else .stopped)) ∧
           (∀ k c, a.code = 0 → (lane s k).st = .voting → s.rejoin.lane = none → s.adm.results.get k = some c →
             (c.code ≠ a.code ∨ c.digest ≠ a.digest) → (lane t k).st = .dropped ∧ (lane t k).cause = 0x06))) ∧
     (s.ctl.state = .setup → ∀ n, s.adm.next = some n → s.adm.effect = none →
       ∃ t, exec .bankLoadDone s = .next t ∧ t.adm.effect = some (tideNow s + 3) ∧ t.adm.next = some n ∧ t.ctl = s.ctl)) ∧
  (∀ (s : State) (n : Loaded) (e : Nat) (rb : BitVec 2), s.adm.next = some n → s.adm.effect = some e →
     let due : Prop := awake s = true ∧ s.ctl.state = .setup ∧ s.time.set = true ∧ e ≤ s.tide
     (¬due → exec (.effectBoundary rb) s = .next s) ∧
     (due → ∃ t, exec (.effectBoundary rb) s = .next t ∧ t.adm.cur = some n ∧ t.adm.next = none ∧ t.adm.effect = none ∧ t.adm.image = none ∧
       t.adm.last = some (programOf n.image, codeAndK n.image) ∧ t.ctl.everCommit = true ∧
       (tooFew (reviveLanes s) = false → t.ctl.state = .run ∧ t.ctl.runTide = s.tide ∧ t.ctl.source = (if n.append then 0 else 1)) ∧
       (tooFew (reviveLanes s) = true → t.ctl.state = .stopped) ∧
       (s.adm.last ≠ some (programOf n.image, codeAndK n.image) → t.ctl.warm = false ∧ t.ctl.fallback = false)))

/-- R267, R270, R289, R308, R647: link, and what it is worth. A vehicle port or MNT that is on gains link with event 0x0301 and loses it with
0x0302, its learned address with it; SQI follows the margin in steps; a 1000BASE-T1 port with MINSPD 0b01 that meets a trigger trains at
100BASE-T1 under POLICY PORTRATE, and records the withheld derating once without it. R285, R287: what a Breakwater violation does to its
port: it is counted, its kind is in LASTV, and the guardian isolates the port at JABBER, at the eighth violation within 16 tides, and at any
in PROBATION; an isolation lasts 4,000 × 2^e tides, probation 256 clean ones, and 240,000 clean tides in ADMITTED clear e. Concluding that
the block answers a next state, under conditions on state and operands alone, this gives the own effect of: LINK_UP, LINK_LOSS,
ISOLATION_END, PROBATION_END, GUARDIAN_EXP_RESET, SQI_UPDATE, PORT_DERATE. -/
def Obligations.LinkAndGuardian : Prop :=
  (∀ (s : State) (p : Port),
     let x := port s p
     (awake s = true → p.val < 32 ∨ p.val = 36 → x.link = false → x.speed ≠ 0 →
       exec (.linkUp p) s = .next (record (modPort s p fun x => { x with link := true, mac := none }) 0x0301 (d1 p.val ++ d1 x.speed.toNat))) ∧
     (awake s = true → 32 ≤ p.val ∧ p.val < 36 → x.link = false → x.speed ≠ 0 → (∀ f ∈ s.ring.forced, f.1 ≠ Fin.ofNat 4 p.val) →
       ∃ t, exec (.linkUp p) s = .next t ∧ (port t p).link = true ∧ (port t p).mac = none ∧
         t.ring.regain.get (Fin.ofNat 4 p.val) = some s.tideUp) ∧
     (x.link = true → ∃ t, exec (.linkLoss p) s = .next t ∧ (port t p).link = false ∧ (port t p).mac = none ∧ (port t p).sqi = 0 ∧
       (port t p).guard = x.guard ∧ (port t p).exp = x.exp ∧
       (p.val < 32 ∨ p.val = 36 → ∃ u, t = record u 0x0302 (d1 p.val))) ∧
     (x.link = true → ∀ snr : Int, ∃ t, exec (.sqiUpdate p snr) s = .next t ∧
       let m := snr - (if x.speed = 1 then 1500 else 1800)
       let lims : List Int := [100, 200, 300, 400, 500, 700, 900]
       (port t p).sqi.toNat = (lims.filter fun k => decide (k ≤ m)).length ∧
       ((port t p).sqiLow.isSome ↔ (port t p).sqi.toNat ≤ 2)) ∧
     (∀ k, derTrigger s x = some k → p.val < 32 → x.speed = 2 → (∃ d, portDecl s p = some d ∧ d.minspd = 1) →
       ((policy s).portrate = true → ∃ u, exec (.portDerate p) s = .next (if x.link then
           record (record u 0x030B (d1 p.val ++ d1 k)) 0x0302 (d1 p.val) else record u 0x030B (d1 p.val ++ d1 k)) ∧
         (port u p).speed = 1 ∧ (port u p).derated = true ∧ (port u p).link = false) ∧
       ((policy s).portrate = false → exec (.portDerate p) s = .next
         (if x.derSaid then s else record (modPort s p fun x => { x with derSaid := true }) 0x030C (d1 p.val ++ d1 k))))) ∧
  (∀ (s : State) (p : Port),
     let x := port s p
     (∀ v : Viol,
       let y := port (violate s p v) p
       let kept := s.tideUp :: x.viols.filter fun t => decide (s.tideUp < t + 16)
       y.pviol = x.pviol.inc ∧ y.lastv.toNat = violNo v ∧ y.cleanFrom = s.tideUp ∧
       (x.guard = .admitted → (8 ≤ kept.length ∨ v = .jabber) → y.guard = .isolated ∧ y.exp = x.exp ∧ y.isoEnd = s.tideUp + 4000 * 2 ^ x.exp) ∧
       (x.guard = .admitted → kept.length < 8 → v ≠ .jabber → y.guard = .admitted ∧ y.viols = kept) ∧
       (x.guard = .probation → y.guard = .isolated ∧ y.exp = min 6 (x.exp + 1) ∧ y.isoEnd = s.tideUp + 4000 * 2 ^ min 6 (x.exp + 1))) ∧
     (exec (.isolationEnd p) s = .next (if x.guard = .isolated ∧ x.isoEnd ≤ s.tideUp then
       record (modPort s p fun x => { x with guard := .probation, cleanFrom := s.tideUp, viols := [] }) 0x0304 (d1 p.val) else s)) ∧
     (exec (.probationEnd p) s = .next (if x.guard = .probation ∧ x.cleanFrom + 256 ≤ s.tideUp then
       record (modPort s p fun x => { x with guard := .admitted, viols := [] }) 0x0305 (d1 p.val) else s)) ∧
     (exec (.guardianExpReset p) s = .next (if x.guard = .admitted ∧ x.cleanFrom + 240000 ≤ s.tideUp then
       modPort s p fun x => { x with exp := 0 } else s)))

/-- R278, R284, R285, R288: a TT frame on a vehicle port with link that is not ISOLATED. Breakwater's checks in their order, each with its kind;
then FCS and header, whose failure is counted in KS_PREJ; what passes on an ADMITTED port is the latest instance of its SLOT. On an Ashlar
connection it is the latest instance if it is good (R389, R390); one that the slices reject is missed and counted. R231 to R235, R283, R298:
a transmit window of the mode in force in RUN, on a port with link, after the producing task's first commit, once in a tide: with two or
three lanes whose copies agree the frame leaves with its FCS; with two whose copies differ it is cut off before the first word that differs
with the complement of the FCS, counted, and the controller stops at the next commit instant. A frame that is not ready is given up. No
other window sends. Concluding that the block answers a next state, under conditions on state and operands alone, this gives the own effect
of: TT_WINDOW_TX, TT_FRAME_RECEIVE. -/
def Obligations.TtFrames : Prop :=
  (∀ (s : State) (p : Port) (a : Arrival) (v : Lanes SliceVerdict), awake s = true → p.val < 32 → (port s p).link = true →
     (port s p).guard ≠ .isolated → etherType a.bytes = (setup s).net.ethertype.toNat →
     let run := exec (.ttFrameReceive p a v) s
     let x := port s p
     let jab : Prop := 1542 < a.bytes.length
     let src : Prop := ∃ m, x.mac = some m ∧ srcMac a.bytes ≠ m
     (jab → run = .next (violate s p .jabber)) ∧
     (¬jab → src → run = .next (violate s p .srcmac)) ∧
     (¬jab → ¬src → (∀ w ∈ ttWindows s p true, ¬(w.2.1 ≤ a.start ∧ a.start < w.2.2)) → run = .next (violate s p .outside)) ∧
     (∀ d w0 w1, ¬jab → ¬src → ((ttWindows s p true).find? fun w => decide (w.2.1 ≤ a.start) && decide (a.start < w.2.2)) = some (d, w0, w1) →
       (w0 + 400 < a.start → run = .next (violate s p .late)) ∧
       (a.start ≤ w0 + 400 →
         (w1 < a.stop → run = .next (violate s p .overrun)) ∧
         (a.stop ≤ w1 → a.bytes.length ≠ d.frame → run = .next (violate s p .length)) ∧
         (a.stop ≤ w1 → a.bytes.length = d.frame → d.win ∈ x.accepted → run = .next (violate s p .extra)) ∧
         (a.stop ≤ w1 → a.bytes.length = d.frame → d.win ∉ x.accepted →
           ∃ t, run = .next t ∧ (port t p).pviol = x.pviol ∧ (port t p).guard = x.guard ∧
             (fcsOk a.bytes = false → (port t p).prej = x.prej.inc ∧ t.net.rx = s.net.rx) ∧
             (fcsOk a.bytes = true → ttHeaderOk s d (some s.net.mode.cur) a.bytes = false →
               (port t p).prej = x.prej.inc ∧ t.net.rx = s.net.rx ∧ (port t p).mac.isSome = true) ∧
             (fcsOk a.bytes = true → ttHeaderOk s d (some s.net.mode.cur) a.bytes = true →
               (x.guard = .probation → t.net.rx = s.net.rx) ∧
               (x.guard = .admitted → (port t p).accepted = d.win :: x.accepted ∧
                 let inst : RxInst := ⟨(a.bytes.drop 22).take d.bound, (a.bytes.drop (22 + d.bound)).take 24⟩
                 let taken (good : Bool) : Prop := t.net.rx = s.net.rx.modify (slotPos (setup s) d) fun r =>
                   { r with pend := if good then some inst else none, pendAge := 0 }
                 (connOfSlot (setup s) d true = none → taken true) ∧
                 (∀ n c, connOfSlot (setup s) d true = some (n, c) → v = ⟨none, none, none⟩ → voters s ≠ [] → n < s.net.conns.length →
                   let k := ((d.bind.bind fun b => taskDecl s b.pair b.task).map (·.k)).getD 0
                   let code := ashCheck (connSt s n) c inst (BitVec.ofNat 32 (nextFreeze s k * 250))
                   taken (code == 0) ∧ (code ≠ 0 → (connSt t n).err = (connSt s n).err.inc ∧ (connSt t n).lastErr = BitVec.ofNat 4 code)))))))) ∧
  (∀ (s : State) (p : Port) (win : Nat) (sl : Lanes SliceFault) (ready : Bool) (d : SlotDecl) (b : Binding) (w0 w1 : Nat),
     ((ttWindows s p false).find? fun w => w.1.win = win) = some (d, w0, w1) → d.bind = some b →
     let open_ : Prop := awake s = true ∧ s.ctl.state = .run ∧ (port s p).link = true ∧ win ∉ (port s p).sent ∧
       (relOf s b.pair b.task).committed = true
     let body (l : LaneId) : List Byte := ttBody s d b (connOfSlot (setup s) d false) l
     (¬open_ → exec (.ttWindowTx p win sl ready) s = .next s) ∧
     (open_ → ready = false → exec (.ttWindowTx p win sl ready) s = .next (modPort s p fun x => { x with sent := win :: x.sent })) ∧
     (open_ → ready = true → sl = ⟨.none, .none, .none⟩ →
       (∀ f, 2 ≤ (voters s).length → (∀ l ∈ voters s, body l = f) →
         exec (.ttWindowTx p win sl ready) s = .next (modPort s p fun x =>
           { x with sent := win :: x.sent, tx := some ⟨withFcs f, false⟩ })) ∧
       (∀ l r k, voters s = [l, r] → k < (wordsOfBytes (body l)).length → k < (wordsOfBytes (body r)).length →
         (wordsOfBytes (body l)).take k = (wordsOfBytes (body r)).take k → (wordsOfBytes (body l))[k]? ≠ (wordsOfBytes (body r))[k]? →
         let cut := (body l).take (4 * k)
         ∃ t, exec (.ttWindowTx p win sl ready) s = .next t ∧ (port t p).tx = some ⟨cut ++ badFcsBytes cut, true⟩ ∧
           t.rejoin.egAbort = s.rejoin.egAbort.inc ∧ (s.ctl.pendStop = none → t.ctl.pendStop = some ⟨s.tide + 1, none, false⟩))))

/-- R270, R271, R274, R285, R286, R288: a frame that is no TT frame on a vehicle port with link that is not ISOLATED: JABBER, SRCMAC and
INTRUDE, then the FCS, the token bucket of its class, and forwarding to the egress queue of its class on every port that its destination
names and that has not carried it on cut-through. R272, R275, R326, R370: outside its transmit windows a port with link that is not busy
starts the first frame of its highest queue, PTP before RC before BE, if the frame ends 96 ns before the next window; one that is still
arriving on another port is measured as 1,522 bytes (which frames a port carries on is the model's choice, log entry 92). A backbone port
starts a PTP message in the free region, and a best-effort frame where it also ends 400 ns before the pattern does and, in tides 0 and 4
modulo 8, after that tide's Sync or 2 µs. Concluding that the block answers a next state, under conditions on state and operands alone, this
gives the own effect of: FRAME_FORWARD, NON_TT_EGRESS_START. -/
def Obligations.FramesForwardedAndQueued : Prop :=
  (∀ (s : State) (p : Port) (a : Arrival), awake s = true → p.val < 32 → (port s p).link = true → (port s p).guard ≠ .isolated →
     etherType a.bytes ≠ (setup s).net.ethertype.toNat →
     let run := exec (.frameForward p a) s
     let jab : Prop := 1542 < a.bytes.length
     let src : Prop := ∃ m, (port s p).mac = some m ∧ srcMac a.bytes ≠ m
     let s0 := modPort s p fun x => { x with cutTo := [] }
     let intr : Prop := ∃ w ∈ ttWindows s p true ++ ttNext s p true,
       (w.2.1 ≤ a.start ∧ a.start < w.2.2) ∨ (a.start ≤ w.2.1 + 400 ∧ w.2.1 + 400 < a.stop)
     (jab → run = .next (violate s0 p .jabber)) ∧ (¬jab → src → run = .next (violate s0 p .srcmac)) ∧
     (¬jab → ¬src → intr → run = .next (violate s0 p .intrude)) ∧
     (¬jab → ¬src → ¬intr → fcsOk a.bytes = false → run = .next (fcsFail s0 p)) ∧
     (¬jab → ¬src → ¬intr → fcsOk a.bytes = true → etherType a.bytes ≠ 0x88F7 →
       let s1 := learn s0 p a.bytes
       let r := police s1 p (isRc a.bytes) a.bytes.length (atOffset s1 a.start)
       (r.2 = false → run = .next r.1) ∧ (r.2 = true → (port s p).guard = .probation → run = .next r.1) ∧
       (r.2 = true → (port s p).guard = .admitted →
         ∃ t, run = .next t ∧ (∀ q, q ∈ (port s p).cutTo → port t q = port r.1 q) ∧
           ∀ q, q ∈ destPorts r.1 (some p) (dstMac a.bytes) → q ∉ (port s p).cutTo →
           let f := common (bodyOf a.bytes)
           (isRc a.bytes = true → (port r.1 q).qRc.length < 16 → (port t q).qRc = (port r.1 q).qRc ++ [f]) ∧
           (isRc a.bytes = false → (port r.1 q).qBe.length < 64 → (port t q).qBe = (port r.1 q).qBe ++ [f])))) ∧
  (∀ (s : State) (p : Port) (now : Nat) (sl : Lanes SliceFault), awake s = true → (port s p).link = true →
     let x := port s p
     let bit : Nat := if x.speed = 1 then 10 else 1
     let wire (n : Nat) : Nat := now + (n + 8) * 8 * bit
     let len (f : QFrame) : Nat := f.copies.a.length + 4
     let run := exec (.nonTtEgressStart p ⟨now, false, none⟩ sl) s
     let ptp (m : QFrame) (r : List QFrame) : State := sendAt (modPort s p fun x => { x with qPtp := r }) p m sl (egressNs s p now)
     (∀ cut, exec (.nonTtEgressStart p ⟨now, true, cut⟩ sl) s = .next s) ∧
     (¬(32 ≤ p.val ∧ p.val < 36) → nextWindow s p now = none → ∀ cut, exec (.nonTtEgressStart p ⟨now, false, cut⟩ sl) s = .next s) ∧
     (∀ w, ¬(32 ≤ p.val ∧ p.val < 36) → nextWindow s p now = some w →
       let ends (n : Nat) : Nat := wire n + 96
       (∀ m r, x.qPtp = m :: r → (ends (len m) ≤ w → run = .next (ptp m r)) ∧ (w < ends (len m) → run = .next s)) ∧
       (∀ f r, x.qPtp = [] → x.qRc = f :: r → (ends (len f) ≤ w →
           run = .next (sendFrame (modPort s p fun x => { x with qRc := r }) p f sl)) ∧ (w < ends (len f) → run = .next s)) ∧
       (∀ f r, x.qPtp = [] → x.qRc = [] → x.qBe = f :: r → (ends (len f) ≤ w →
           run = .next (sendFrame (modPort s p fun x => { x with qBe := r }) p f sl)) ∧ (w < ends (len f) → run = .next s)) ∧
       (x.qPtp = [] → x.qRc = [] → x.qBe = [] → run = .next s) ∧
       (∀ q a, cutsThrough s p q a now = true → ends 1522 ≤ w → exec (.nonTtEgressStart p ⟨now, false, some (q, a)⟩ sl) s =
         .next (sendFrame (modPort s q fun y => { y with cutTo := p :: y.cutTo }) p (transit a.bytes .plain) sl))) ∧
     (∀ i, p = bbPort i →
       (∀ m r, x.qPtp = m :: r → (ringFree s i now = true → run = .next (ptp m r)) ∧ (ringFree s i now = false → run = .next s)) ∧
       (∀ f r, x.qPtp = [] → x.qBe = f :: r →
         let may : Prop := ringFree s i now = true ∧ wire (len f) + 400 ≤ s.ring.p0 + 250000 ∧
           (s.tide % 4 ≠ 0 ∨ s.ring.syncOut.get i = some s.tideUp ∨ freeFrom s + 2000 ≤ now)
         (may → run = .next (sendFrame (modPort s p fun x => { x with qBe := r }) p f sl)) ∧ (¬may → run = .next s)) ∧
       (x.qPtp = [] → x.qBe = [] → run = .next s)))

/-- R299 to R302: TRDP. In RUN with a vehicle-network address every transmit RC SLOT whose push exponent divides the tide and whose task has
committed is pushed once to its resolved destination with the next SEQ; a telegram that passes every check of R301 is the latest instance of
its SLOT; any other, and every pull request, is counted in KS_PREJ. R305 to R307: ARP, address conflicts and ICMP echo on the two
interfaces, while the steward runs. The order in which a full ARP cache gives up entries is the model's choice (log entry 20); it is not
stated here. Concluding that the block answers a next state, under conditions on state and operands alone, this gives the own effect of:
TRDP_PUSH, TRDP_RECEIVE, TRDP_PULL_REJECT, ARP_REQUEST_RECEIVE, ARP_RETRY, ARP_ENTRY_EXPIRE, ADDRESS_CONFLICT, ICMP_ECHO, ARP_REPLY. -/
def Obligations.TrdpAndAddresses : Prop :=
  (∀ (s : State),
     (awake s = true → s.ctl.state = .run → (setup s).net.vip ≠ 0 → ∀ d comId ip k b mac, (setup s).slots = [d] → d.kind = .rc comId ip k →
       d.bind = some b → d.rx = false → s.tide % 2 ^ k = 0 → (relOf s b.pair b.task).committed = true → resolve s .vehicle ip = some mac →
       s.net.trdpSeq.length = 1 → s.net.pushAt ≠ some s.tideUp → (port s (Fin.ofNat 37 d.port)).qRc.length < 16 →
       let seq := s.net.trdpSeq.getD 0 0
       ∃ t, exec .trdpPush s = .next t ∧ t.net.trdpSeq = [seq + 1] ∧ t.net.pushAt = some s.tideUp ∧
         (port t (Fin.ofNat 37 d.port)).qRc = (port s (Fin.ofNat 37 d.port)).qRc ++
           [⟨⟨telegram s d b comId ip seq mac .a, telegram s d b comId ip seq mac .b, telegram s d b comId ip seq mac .c⟩, true, false, .plain⟩]) ∧
     (s.net.pushAt = some s.tideUp → exec .trdpPush s = .next s) ∧
     (∀ p f, awake s = true → (port s p).link = true → (port s p).guard = .admitted →
       exec (.trdpPullReject p f) s = .next (modPort s p fun x => { x with prej := x.prej.inc }) ∧
       (fcsOk f = false → exec (.trdpReceive p f) s = .next (fcsFail s p)) ∧
       (fcsOk f = true → udpOf f = none → exec (.trdpReceive p f) s = .next (modPort s p fun x => { x with prej := x.prej.inc })) ∧
       ∀ src dport t, fcsOk f = true → udpOf f = some (src, dport, t) →
         let seq : Word := BitVec.ofNat 32 (beAt t 0 4)
         let want (d : SlotDecl) : Prop := ∃ c ip k, d.kind = .rc c ip k ∧ d.rx = true ∧ d.port = p.val ∧ c.toNat = beAt t 8 4 ∧
           (ip = 0 ∨ ip = src) ∧ beAt t 20 4 = d.frame
         let good (i : Nat) : Prop := dport = 17224 ∧ trdpOk t = true ∧
           (seq = 0 ∨ ∀ o, s.net.trdpRx.getD i none = some o → later seq o = true)
         ((∀ d ∈ (setup s).slots, ¬want d) → exec (.trdpReceive p f) s = .next (modPort s p fun x => { x with prej := x.prej.inc })) ∧
         (∀ i d, (setup s).slots[i]? = some d → want d → (∀ j e, j < i → (setup s).slots[j]? = some e → ¬want e) →
           (¬good i → exec (.trdpReceive p f) s = .next (modPort s p fun x => { x with prej := x.prej.inc })) ∧
           (good i → ∃ u, exec (.trdpReceive p f) s = .next u ∧ u.net.trdpRx = s.net.trdpRx.modify i (fun _ => some seq) ∧
             u.net.rx = s.net.rx.modify i fun r => { r with pend := some ⟨(t.drop 40).take d.bound, []⟩, pendAge := 0 })))) ∧
  (∀ (s : State) (i : Iface) (ip : Word) (mac : List Byte), stewardRuns s = true →
     let has (w : ArpWait) : Prop := w.iface = i ∧ w.ip = ip
     let is (e : ArpEntry) : Prop := e.iface = i ∧ e.ip = ip
     (∀ target, exec (.arpRequestReceive i target ip mac) s = .next
       (if target = ownIp s i ∧ target ≠ 0 then sendLocal s i mac 0x0806 (arpPacket s i 2 mac ip) else s)) ∧
     ((∃ w ∈ s.net.arpWait, has w) → s.net.arp.length < 64 →
       ∃ t, exec (.arpReply i ip mac) s = .next t ∧ { iface := i, ip := ip, mac := mac, at_ := s.up } ∈ t.net.arp ∧
         (∀ e ∈ t.net.arp, is e → e.mac = mac ∧ e.at_ = s.up) ∧ (∀ e ∈ s.net.arp, ¬is e → e ∈ t.net.arp) ∧ (∀ w ∈ t.net.arpWait, ¬has w)) ∧
     ((∀ w ∈ s.net.arpWait, ¬has w) → (∀ e ∈ s.net.arp, ¬is e) → exec (.arpReply i ip mac) s = .next s) ∧
     (∃ t, exec (.arpEntryExpire i ip) s = .next t ∧ ∀ e, e ∈ t.net.arp ↔ e ∈ s.net.arp ∧ ¬(is e ∧ e.at_ + 300000000000 ≤ s.up)) ∧
     (∀ w, w ∈ s.net.arpWait → has w → (∀ y ∈ s.net.arpWait, has y → y = w) → ∃ t, exec (.arpRetry i ip) s = .next t ∧
       (s.up < w.at_ + 1000000000 → t = s) ∧
       (w.at_ + 1000000000 ≤ s.up → 3 ≤ w.tries → ∀ y ∈ t.net.arpWait, ¬has y) ∧
       (w.at_ + 1000000000 ≤ s.up → w.tries < 3 → ∀ y ∈ t.net.arpWait, has y → y = { w with tries := w.tries + 1, at_ := s.up })) ∧
     (let last := s.net.conflict.get (if i = .vehicle then 0 else 1)
      ((∀ q, last = some q → q + 60000000000 ≤ s.up) → ∃ u, exec (.addressConflict i mac) s =
         .next (record u 0x030D (d1 (if i = .vehicle then 0 else 1) ++ mac.take 6)) ∧
         u.net.conflict.get (if i = .vehicle then 0 else 1) = some s.up) ∧
      (∀ q, last = some q → s.up < q + 60000000000 → exec (.addressConflict i mac) s = .next s)) ∧
     (∀ hdr msg, let parts := parseIpv4 (List.replicate 6 0 ++ mac ++ [0x08, 0x00] ++ hdr ++ msg)
       (parts = none → exec (.icmpEcho i mac hdr msg) s = .next s) ∧
       ∀ src d, parts = some (1, src, ownIp s i, d) → ownIp s i ≠ 0 → beAt d 0 2 = 0x0800 → inetSum d = 0 → 8 ≤ d.length → d.length ≤ 1480 →
         let c := s.net.icmp.get (if i = .vehicle then 0 else 1)
         let n := if c.1 = s.up / 1000000000 then c.2 else 0
         let rest := d.drop 4
         (n < 100 → ∃ u, exec (.icmpEcho i mac hdr msg) s = .next (sendLocal u i ((resolve s i src).getD mac) 0x0800
           (ipv4 1 (ownIp s i) src ([0, 0] ++ beBytes 2 (inetSum ([0, 0, 0, 0] ++ rest)) ++ rest))) ∧
           u.net.icmp.get (if i = .vehicle then 0 else 1) = (s.up / 1000000000, n + 1)) ∧
         (100 ≤ n → exec (.icmpEcho i mac hdr msg) s = .next s)))

/-- R293 to R297: a mode request. The end of a tide counts echoes; the second consecutive echoed tide decides the switch; the boundary after the
tide with MODEGO puts the mode in force; request tide 64 without a decision lapses and its word is no request until it changes. Concluding
that the block answers a next state, under conditions on state and operands alone, this gives the own effect of: MODE_ECHO_TIDE,
MODE_SWITCH, MODE_REQUEST_LAPSE. -/
def Obligations.ModeRequests : Prop :=
  ∀ (s : State),
    let m := s.net.mode
    let set (f : ModeSt) : State := { s with net := { s.net with mode := f } }
    let echo : List Nat := match (setup s).modes.find? fun d => d.mode = m.cur.toNat with
      | some d => (List.range 32).filter fun i => d.echo.getLsbD i
      | none => []
    (m.req = true → m.go = false → (∀ e, m.echoAt = some e → e.1 = s.tideUp → exec .modeEchoTide s = .next s)) ∧
    (m.req = true → m.go = false → (∀ e, m.echoAt = some e → e.1 ≠ s.tideUp) →
      let here : Option (Nat × Nat) := some (s.tideUp, m.rtide)
      let all : Prop := ∀ p ∈ echo, p ∈ m.heard
      (all → m.echo = 1 → exec .modeEchoTide s = .next (set { m with echoAt := here, echo := 2, go := true, heard := [] })) ∧
      (all → m.echo = 0 → m.rtide < 64 → exec .modeEchoTide s = .next (set { m with echoAt := here, echo := 1, rtide := m.rtide + 1, heard := [] })) ∧
      (¬all → m.rtide < 64 → exec .modeEchoTide s = .next (set { m with echoAt := here, echo := 0, rtide := m.rtide + 1, heard := [] })) ∧
      (¬all → 64 ≤ m.rtide → exec .modeEchoTide s = .next (set { m with echoAt := here, echo := 0 })) ∧
      (all → m.echo = 0 → 64 ≤ m.rtide → exec .modeEchoTide s = .next (set { m with echoAt := here, echo := 1 }))) ∧
    (m.req = true → m.go = false →
      ((∀ e, m.echoAt = some e → e.2 < 64) → exec .modeRequestLapse s = .next s) ∧
      (∀ e, m.echoAt = some e → 64 ≤ e.2 → exec .modeRequestLapse s = .next (record
        (set { m with req := false, rq := 0, echo := 0, rtide := 0, lastout := 2, dead := true, heard := [] })
        0x0308 (d1 m.rq.toNat ++ d4 (((echo.filter fun p => !m.heard.contains p).map fun p => 2 ^ p).foldl (· + ·) 0))))) ∧
    (m.req = true → m.go = true → ∀ e, m.echoAt = some e → s.tideUp < e.1 + 2 → exec .modeSwitch s = .next s) ∧
    (m.req = true → m.go = true → ∀ e, m.echoAt = some e → e.1 + 2 ≤ s.tideUp → exec .modeSwitch s = .next (record
      (set { m with cur := m.rq, req := false, rq := 0, go := false, echo := 0, rtide := 0, lastout := 1, heard := [] })
      0x0307 (d1 m.cur.toNat ++ d1 m.rq.toNat ++ d4 s.tide)))

/-- R322, R329, R330, R336, R337: the master's beacon. CABSLOT is the lowest slot whose frame carried CAB; 16 tides of FLIP set HANDOVER with
ACT 8 tides ahead; a joiner's master sets MERGE likewise once its phase to the keeper is 10 ns or less and it does not slew (R352, R374);
the frame of R329 with HOP 1 leaves on the A leg. No other node sends one. R316, R317, R319, R321, R323, R325, R330, R333, R334, R342, R356:
a beacon at a node. A bad one is counted and passed on as it came. A good one on the A-leg ingress of a node that is no master gives its
node number, the table, the pattern and the result of its claim, and goes on with the node's number as HOP; on the B leg it is passed on,
and taken where the A leg brought none. The master takes NODES from its own beacon, yields to a lower MUID on line A of its outward side and
discards a higher one. A tide without a beacon puts a node of a ring in HOLD. Concluding that the block answers a next state, under
conditions on state and operands alone, this gives the own effect of: BEACON_SEND, BEACON_RECEIVE, BEACON_MISS. -/
def Obligations.BeaconsOnTheRing : Prop :=
  (∀ (s : State) (sl : Lanes SliceFault),
     (s.ring.st ≠ .master → exec (.beaconSend sl) s = .next s) ∧
     (ringRuns s = true → s.ring.st = .master → ∃ t, exec (.beaconSend sl) s = .next t ∧ t.ring.st = .master ∧ t.ring.answer = none ∧
       t.ring.cabSeen = [] ∧ (s.ring.cabSeen = [] → t.ring.cabslot = 0) ∧
       (∀ k ∈ s.ring.cabSeen, (∀ j ∈ s.ring.cabSeen, k ≤ j) → k < 64 → t.ring.cabslot = k) ∧
       (s.ring.answer = none → t.ring.gresult = 0 ∧ t.ring.gslot = 0 ∧ t.ring.guid = 0) ∧
       (16 ≤ s.ring.flips → s.ring.handover = false → s.ring.merge = false → t.ring.handover = true ∧ t.ring.act = some (s.tide + 8)) ∧
       (s.time.phi = none → t.ring.merge = s.ring.merge) ∧
       (∀ f, s.time.phi = some f → f.natAbs ≤ 10 → s.ring.notice.isSome = true → s.time.slewing = false → s.ring.merge = false →
         s.ring.handover = false → s.ring.flips < 16 → t.ring.merge = true ∧ t.ring.act = some (s.tide + 8) ∧ t.ring.slew = false) ∧
       (∀ i, egressA s = some i → (port s (bbPort i)).link = true → 2 ≤ (voters s).length → sl = ⟨.none, .none, .none⟩ →
         (port t (bbPort i)).tx = some ⟨withFcs (beaconBytes t (ownBeacon t 1)), false⟩))) ∧
  (∀ (s : State) (i : Fin 4) (f : List Byte) (now : Nat) (sl : Lanes SliceFault), ringRuns s = true → (port s (bbPort i)).link = true →
     let b := parseBeacon f
     let me := s.boot.uid
     let run := exec (.beaconReceive i ⟨f, now, sl⟩) s
     let rej := modPort s (bbPort i) fun x => { x with prej := x.prej.inc }
     (beaconOk s f = false →
       (ingressA s = some i → run = .next (passOn rej (outEgress s) f .plain sl)) ∧
       (ingressB s = some i → run = .next (passOn rej (egressB s) f .plain sl)) ∧
       (ingressA s ≠ some i → ingressB s ≠ some i → run = .next rej)) ∧
     (beaconOk s f = true → s.ring.st ≠ .master → s.ring.inward.isSome = true → ingressA s = some i →
       (srcMac f = vehicleMac s → run = .next s) ∧
       (srcMac f ≠ vehicleMac s → s.ring.heardAt = some s.tideUp → s.ring.muid = b.muid →
         run = .next (modPort s (bbPort i) fun x => { x with pviol := x.pviol.inc })) ∧
       (srcMac f ≠ vehicleMac s → ¬(s.ring.heardAt = some s.tideUp ∧ s.ring.muid = b.muid) → followsLower s b = true → run = .next s) ∧
       (srcMac f ≠ vehicleMac s → ¬(s.ring.heardAt = some s.tideUp ∧ s.ring.muid = b.muid) → followsLower s b = false →
         ∃ t, run = .next t ∧ t.ring.inward = some (sideOfPort i) ∧ t.ring.node = b.hop + 1 ∧ t.ring.nodes = b.nodes ∧ t.ring.bl = b.bl ∧
           t.ring.epoch = b.epoch ∧ t.ring.muid = b.muid ∧ t.ring.cabslot = b.cabslot ∧ t.ring.miss = 0 ∧
           t.ring.heardAt = some s.tideUp ∧ t.ring.gotAt = some s.tideUp ∧ t.ring.p0 = now - 200 ∧
           (t.ring.roster.map fun e => (e.uid, e.st)) = b.roster ∧
           (b.guid = me → b.gresult = 1 → t.ring.st = .member ∧ t.ring.slot = b.gslot) ∧
           (b.guid = me → b.gresult = 2 → t.ring.retryAt = some (s.tideUp + 4000)) ∧
           (b.guid = me → b.gresult = 3 → t.ring.refusedEpoch = some b.epoch) ∧
           (b.guid ≠ me ∨ b.gresult = 0 → slotHeld t.ring me = none → t.ring.st = .joining ∧ t.ring.slot = 0) ∧
           (∀ e, outEgress t = some e → (port t (bbPort e)).link = true → voters s ≠ [] → sl = ⟨.none, .none, .none⟩ →
             (port t (bbPort e)).tx = some ⟨withFcs (putBytes (bodyOf f) 34 (beBytes 1 (b.hop + 1))), false⟩))) ∧
     (beaconOk s f = true → s.ring.st ≠ .master → ingressB s = some i → b.muid = s.ring.muid → ∃ t, run = .next t ∧
       t.ring.backAt = some s.tideUp ∧
       (s.ring.gotAt = some s.tideUp → t.ring = { s.ring with backAt := some s.tideUp }) ∧
       (s.ring.gotAt ≠ some s.tideUp → t.ring.gotAt = some s.tideUp ∧ t.ring.epoch = b.epoch ∧ t.ring.nodes = b.nodes ∧
         (1 ≤ s.ring.node → t.ring.node = s.ring.node) ∧ (t.ring.roster.map fun e => (e.uid, e.st)) = b.roster)) ∧
     (beaconOk s f = true → s.ring.st = .master →
       (b.muid = me → ingressB s = some i → ∃ t, run = .next t ∧ t.ring = { s.ring with
         nodes := b.hop, backAt := some s.tideUp,
         epoch := if s.ring.nodes < b.hop ∧ s.ring.masterAt + 3 < s.tideUp then s.ring.epoch + 1 else s.ring.epoch }) ∧
       (b.muid ≠ me → s.ring.muid.toNat ≤ b.muid.toNat → run = .next s) ∧
       (b.muid ≠ me → b.muid.toNat < s.ring.muid.toNat → sideOfPort i = outwardOf s → lineOfPort i = .a →
         ∃ t, run = .next t ∧ t.ring.inward = some (sideOfPort i) ∧ t.ring.muid = b.muid ∧ t.ring.st ≠ .master ∧
           (t.ring.roster.map fun e => (e.uid, e.st)) = b.roster)) ∧
     (s.ring.missAt = some s.tideUp → exec .beaconMiss s = .next s) ∧
     (s.ring.missAt ≠ some s.tideUp → ∃ t, exec .beaconMiss s = .next t ∧ t.ring.missAt = some s.tideUp ∧
       (∀ j, ingressA s = some j → s.ring.heardAt ≠ some s.tideUp → (port t (bbPort j)).pmiss = (port s (bbPort j)).pmiss.inc) ∧
       (∀ j, ingressB s = some j → s.ring.backAt ≠ some s.tideUp → (port t (bbPort j)).pmiss = (port s (bbPort j)).pmiss.inc) ∧
       (s.ring.st = .master ∨ s.ring.gotAt = some s.tideUp → t.ring = { s.ring with missAt := some s.tideUp }) ∧
       (s.ring.st ≠ .master → s.ring.gotAt ≠ some s.tideUp →
         t.ring.miss = s.ring.miss + 1 ∧ t.ring.bmiss = s.ring.bmiss.inc ∧ t.ring.roster = s.ring.roster ∧ t.ring.slot = s.ring.slot ∧
         t.ring.st = (if s.ring.st = .member ∨ s.ring.st = .joining then .hold else s.ring.st))))

/-- R283, R319, R327, R328, R338, R395: the node's own frame in its slot, in RUN after the first commit, and the check of a slot's frame: the
first good copy of a tide from the sender that the roster names is the latest instance of its SLOT, and a later copy is ignored; the master
takes a LOST slot back as ACTIVE. R316, R317, R321, R325, R326, R341, R367: what a node does with a frame at a leg's ingress by its position
in the pattern. Outside its place a frame is discarded and counted in KS_PVIOL; a node removes its own frames on the A leg, and the start
end everything on the B leg. A Sync leaves with residence time and peer delay, where the port has one; other PTP ends here, and best effort
passes in the free region. Concluding that the block answers a next state, under conditions on state and operands alone, this gives the own
effect of: RING_SLOT_TX, RING_SLOT_RECEIVE, RING_FRAME_FORWARD. -/
def Obligations.RingFrames : Prop :=
  (∀ (s : State), ringRuns s = true →
     (∀ sl d b, ownBbSlot (setup s) = some d → d.bind = some b → s.ctl.state = .run → s.ring.slot ≠ 0 → s.ring.st ≠ .joining →
       s.ring.st ≠ .alone → (relOf s b.pair b.task).committed = true →
       let conn := connOfSlot (setup s) d false
       ∃ t, exec (.ringSlotTx sl) s = .next t ∧ s.ring.slot ∈ t.ring.slotSeen ∧ (s.ring.cabOwn = true → s.ring.slot ∈ t.ring.cabSeen) ∧
         (∀ e g, outEgress s = some e → (port s (bbPort e)).link = true → 2 ≤ (voters s).length → sl = ⟨.none, .none, .none⟩ →
           (∀ l ∈ voters s, ringBody s d b conn l = g) → (port t (bbPort e)).tx = some ⟨withFcs g, false⟩)) ∧
     (∀ sl, s.ring.slot = 0 ∨ s.ring.st = .joining ∨ s.ctl.state ≠ .run → exec (.ringSlotTx sl) s = .next s) ∧
     (∀ i f v, (port s (bbPort i)).link = true → (ingressA s = some i ∨ ingressB s = some i) → isRingFrame s f = true →
       let k := beAt f 16 2
       let run := exec (.ringSlotReceive i f v) s
       let bad := modPort s (bbPort i) fun x => { x with prej := x.prej.inc }
       let good : Prop := fcsOk f = true ∧ ringHeaderOk f = true ∧ beAt f 18 2 = s.tide % 65536
       (k ∈ s.ring.slotGood → run = .next s) ∧
       (k ∉ s.ring.slotGood → (¬good ∨ k = 0 ∨ s.ring.roster.length < k) → run = .next bad) ∧
       (k ∉ s.ring.slotGood → good → 1 ≤ k →
         ∀ e, s.ring.roster[k - 1]? = some e → (e.st = .active ∨ (s.ring.st = .master ∧ e.st = .lost)) →
           ∃ t, run = .next t ∧ k ∈ t.ring.slotSeen ∧ (t.ring.roster[k - 1]?).map (·.st) = some .active ∧
             (bbSlotOf (setup s) e.uid = none → k ∈ t.ring.slotGood ∧ t.net.rx = s.net.rx) ∧
             ∀ d, bbSlotOf (setup s) e.uid = some d →
               let conn := connOfSlot (setup s) d true
               let inst : RxInst := ⟨(f.drop 22).take d.bound, (f.drop (22 + d.bound)).take 24⟩
               let taken (ok : Bool) : Prop := t.net.rx = s.net.rx.modify (slotPos (setup s) d) fun r =>
                 { r with pend := if ok then some inst else none, pendAge := 0 }
               ((f.getD 20 0).getLsbD 4 ≠ conn.isSome → t.net.rx = s.net.rx ∧ (port t (bbPort i)).prej = (port s (bbPort i)).prej.inc) ∧
               ((f.getD 20 0).getLsbD 4 = false → conn = none → taken true ∧ k ∈ t.ring.slotGood) ∧
               ((f.getD 20 0).getLsbD 4 = true → ∀ n c, conn = some (n, c) → v = ⟨none, none, none⟩ → voters s ≠ [] →
                 let kk := ((d.bind.bind fun b => taskDecl s b.pair b.task).map (·.k)).getD 0
                 let code := ashCheck (connSt s n) c inst (BitVec.ofNat 32 (nextFreeze s kk * 250))
                 taken (code == 0) ∧ (code = 0 → k ∈ t.ring.slotGood) ∧ (code ≠ 0 → t.ring.slotGood = s.ring.slotGood))))) ∧
  (∀ (s : State) (i : Fin 4) (pos : Nat) (f : List Byte) (sl : Lanes SliceFault), ringRuns s = true → (port s (bbPort i)).link = true →
     let run := exec (.ringFrameForward i pos ⟨f, sl⟩) s
     let n := beAt f 16 2
     let slots := s.ring.roster.length
     let len := s.ring.bl * 100
     let viol := modPort s (bbPort i) fun x => { x with pviol := x.pviol.inc }
     let inSlot (k : Nat) : Prop := 1 ≤ k ∧ k ≤ slots ∧ 5600 + (k - 1) * len ≤ pos ∧ pos < 5600 + k * len
     let mini : Prop := 5600 + slots * len ≤ pos ∧ pos < 6800 + slots * len
     let free : Prop := 6800 + slots * len ≤ pos
     (ingressA s ≠ some i → ingressB s ≠ some i → run = .next s) ∧
     ((ingressA s = some i ∨ ingressB s = some i) → slots ≤ 63 →
       let out (u : State) (g : Option (Fin 4) → State) : Prop :=
         (ingressA s = some i → srcMac f = vehicleMac s → run = .next u) ∧
         (ingressA s = some i → srcMac f ≠ vehicleMac s → run = .next (g (outEgress s))) ∧
         (ingressA s ≠ some i → run = .next (g (egressB s)))
       (isRingFrame s f = true →
         (pos < 5600 → n ≠ 0 → run = .next viol) ∧ (∀ k, inSlot k → n ≠ k → run = .next viol) ∧ (mini → n ≠ 0xFE → run = .next viol) ∧
         (free → n ≠ 0xFF → run = .next viol) ∧ (free → n = 0xFF → run = .next s) ∧ (pos < 5600 → n = 0 → run = .next s)) ∧
       (isRingFrame s f = false → ¬free → run = .next viol) ∧
       (∀ k, inSlot k → isRingFrame s f = true → n = k → isSync f = false → out s fun e => passOn s e f .plain sl) ∧
       (mini → isRingFrame s f = true → n = 0xFE → isSync f = false →
         let u : State := if s.ring.st = .master ∧ claimOk s f ∧ f.getD 30 0 = 1 then { s with ring := { s.ring with answer := some (parseClaim f) } } else s
         out u fun e => passOn u e f .plain sl) ∧
       (free → isRingFrame s f = false →
         (etherType f ≠ 0x88F7 → out s fun e => passOn s e f .plain sl) ∧
         (etherType f = 0x88F7 → isSync f = false → run = .next s) ∧
         (isSync f = true → peerDelay s i = none → run = .next s) ∧
         (∀ d e, isSync f = true → peerDelay s i = some d →
           (ingressA s = some i → srcMac f ≠ vehicleMac s → outEgress s = some e → ∃ t, run = .next t ∧ t.ring.syncOut.get e = some s.tideUp ∧
             t.net = (passOn s (some e) f (.residence (600 + d)) sl).net) ∧
           (ingressA s ≠ some i → egressB s = some e → ∃ t, run = .next t ∧ t.ring.syncOut.get e = some s.tideUp ∧
             t.net = (passOn s (some e) f (.residence (600 + d)) sl).net)))))

/-- R332, R334, R337: a node whose inward side is END and that has missed two beacons becomes node 1 and master under its own UID, with the next
EPOCH, and holds a slot of the table it keeps or makes; at the ACT of a handover the far end does, and every other node exchanges its sides.
R338 to R342: claims and the life of a slot. A JOINING node claims in every free mini-slot and counts a deferral; POLICY CLAIM 0 withholds
it. The master's decision follows the four cases in order. 64 tides without a frame make an ACTIVE slot LOST, 16,000 more make it FREE.
Concluding that the block answers a next state, under conditions on state and operands alone, this gives the own effect of: BECOME_MASTER,
CLAIM_SEND, CLAIM_RETRY, SLOT_LOST, SLOT_FREE, HANDOVER. -/
def Obligations.MastersAndSlots : Prop :=
  (∀ (s : State), ringRuns s = true →
     let isMaster (t : State) (sd : SideId) : Prop := t.ring.st = .master ∧ t.ring.node = 1 ∧ t.ring.muid = s.boot.uid ∧
       t.ring.epoch = s.ring.epoch + 1 ∧ t.ring.inward = some sd ∧ t.ring.hasTable = true ∧
       (s.ring.hasTable = false → t.ring.bl = (setup s).bl ∧ t.ring.roster.length = 1 + (setup s).n ∧ t.ring.slot = 1) ∧
       (s.ring.hasTable = true → t.ring.bl = s.ring.bl ∧
         (∀ k, slotHeld s.ring s.boot.uid = some k → t.ring.slot = k ∧ t.ring.roster = s.ring.roster))
     (s.ring.st ≠ .master → sideOf s (inwardOf s) = .end_ → 2 ≤ s.ring.miss → ∃ t, exec .becomeMaster s = .next t ∧ isMaster t (inwardOf s)) ∧
     ((s.ring.st = .master ∨ s.ring.miss < 2 ∨ sideOf s (inwardOf s) ≠ .end_) → exec .becomeMaster s = .next s) ∧
     (∀ a, s.ring.handover = true → s.ring.act = some a → a ≤ s.tide →
       (sideOf s (outwardOf s) = .end_ → ∃ t, exec .handover s = .next t ∧ isMaster t (outwardOf s) ∧ t.ring.handover = false) ∧
       (sideOf s (outwardOf s) ≠ .end_ → ∃ t, exec .handover s = .next t ∧ t.ring = { s.ring with
         inward := some (outwardOf s), handover := false, act := none, flips := 0, heardAt := none, backAt := none,
         st := if s.ring.st = .master then .member else s.ring.st })) ∧
     ((s.ring.handover = false ∨ s.ring.act = none ∨ (∃ a, s.ring.act = some a ∧ s.tide < a)) → exec .handover s = .next s)) ∧
  (∀ (s : State), ringRuns s = true →
     let r := s.ring
     (r.st = .joining → r.retryAt = none → r.refusedEpoch ≠ some r.epoch →
       ((policy s).claim = true → ∀ sl, exec (.claimSend ⟨true, sl⟩) s = .next { s with ring := { r with rclaim := r.rclaim.inc } }) ∧
       ((policy s).claim = true → ∀ sl, ∃ t, exec (.claimSend ⟨false, sl⟩) s = .next t ∧ t.ring = { r with sent := true } ∧
         (∀ e, outEgress s = some e → (port s (bbPort e)).link = true → 2 ≤ (voters s).length → sl = ⟨.none, .none, .none⟩ →
           (port t (bbPort e)).tx = some ⟨withFcs (claimBytes s (ownClaim s)), false⟩)) ∧
       ((policy s).claim = false → ∀ x, exec (.claimSend x) s = .next
         (if r.claimSaid then s else record { s with ring := { r with claimSaid := true } } 0x040C []))) ∧
     ((r.retryAt.isSome = true ∨ r.refusedEpoch = some r.epoch ∨ r.st ≠ .joining) → ∀ x, exec (.claimSend x) s = .next s) ∧
     (∀ q, r.retryAt = some q → exec .claimRetry s = .next (if q ≤ s.tideUp then { s with ring := { r with retryAt := none } } else s)) ∧
     (∀ c : Claim, let t := decideClaim s c
       t.ring.guid = c.uid ∧
       (∀ k, slotHeld r c.uid = some k → t.ring.gresult = 1 ∧ t.ring.gslot = k ∧ t.ring.roster = r.roster) ∧
       (slotHeld r c.uid = none → (∀ e ∈ r.roster, e.st ≠ .free) → t.ring.gresult = 2 ∧ t.ring.roster = r.roster) ∧
       (∀ k, slotHeld r c.uid = none → lowestFree r = some k →
         (r.bl * 100 < (c.frame + 20) * 8 + 400 → t.ring.gresult = 3 ∧ t.ring.roster = r.roster) ∧
         ((c.frame + 20) * 8 + 400 ≤ r.bl * 100 → t.ring.gresult = 1 ∧ t.ring.gslot = k ∧
           t.ring.roster[k - 1]? = some ⟨c.uid, .active, 0⟩ ∧ r.roster.length ≤ t.ring.roster.length ∧
           t.ring.roster.length ≤ r.roster.length + c.n ∧
           (r.roster.length ≤ 63 → fits r.roster.length r.bl r.nodes = true → t.ring.roster.length ≤ 63 ∧
             fits t.ring.roster.length r.bl r.nodes = true)))) ∧
     (r.st = .master → ∀ k e, 1 ≤ k → r.roster[k - 1]? = some e →
       (e.st = .active → exec (.slotLost k) s = .next (if 64 ≤ e.quiet then
         record { s with ring := { r with roster := r.roster.set (k - 1) { e with st := .lost } } } 0x0409 (d1 k ++ d8 e.uid.toNat) else s)) ∧
       (e.st = .lost → exec (.slotFree k) s = .next (if 16064 ≤ e.quiet then
         record { s with ring := { r with roster := r.roster.set (k - 1) ⟨0, .free, 0⟩ } } 0x040A (d1 k) else s))))

/-- R320, R343 to R347: breaks and their end. A line declared lost switches a LINKED side to the line that is still up, or to END, under POLICY
RING, a silent one being forced down for 2 ms; a line that has been back without error for 4,000 tides is restored at an ACT 4 tides ahead.
R349 to R352: junctions. A probe goes out on every line with link of an END side; both nodes take the ring with the cab, else with more
nodes, else with the lower master UID as keeper, and refuse for the first reason that holds; the joiner reports the merge to its master. At
ACT the junction sides join and every joiner node is JOINING without its table. Concluding that the block answers a next state, under
conditions on state and operands alone, this gives the own effect of: LINE_LOST, FORCED_LINK_DOWN_END, RESTORE_PROBE, RESTORE_ACT,
JUNCTION_PROBE, MERGE_DECISION, MERGE_NOTICE, MERGE_ACT. -/
def Obligations.BreaksAndMerges : Prop :=
  (∀ (s : State) (i : Fin 4), ringRuns s = true →
     let sd := sideOfPort i
     let ln := lineOfPort i
     let other := bbLink s sd (otherLine ln)
     (∀ silent, (if silent then silentIngress s i = true else (port s (bbPort i)).link = false) → sideOf s sd = .linked →
       ((policy s).ring = true → ∃ t, exec (.lineLost i silent) s = .next t ∧
         sideOf t sd = (if other then (if ln = .a then .crossA else .crossB) else .end_) ∧ sideOf t (otherSide sd) = sideOf s (otherSide sd) ∧
         t.ring.heal = s.ring.heal.inc ∧ t.ring.regain.get i = none ∧
         (silent = true → (port t (bbPort i)).link = false ∧ (i, s.up) ∈ t.ring.forced ∧ (port t (bbPort i)).piso = (port s (bbPort i)).piso.inc)) ∧
       ((policy s).ring = false → ∃ t, exec (.lineLost i silent) s = .next t ∧ sideOf t sd = .linked ∧ i ∈ t.ring.ringSaid ∧
         t.ring.heal = s.ring.heal)) ∧
     (∃ t, exec (.forcedLinkDownEnd i) s = .next t ∧ ∀ x, x ∈ t.ring.forced ↔ x ∈ s.ring.forced ∧ ¬(x.1 = i ∧ x.2 + 2000000 ≤ s.up)) ∧
     (∀ sl, exec (.restoreProbe ⟨i, false, sl⟩) s = .next { s with ring := { s.ring with
       regain := vmod s.ring.regain i fun t => t.map fun _ => s.tideUp } }) ∧
     (∀ q sl, sd = outwardOf s → idleLine s sd = some ln → s.ring.regain.get i = some q → restoreOf s sd = none →
       (q + 4000 ≤ s.tideUp → ∃ t, exec (.restoreProbe ⟨i, true, sl⟩) s = .next t ∧ restoreOf t sd = some (s.tide + 4) ∧
         ((port s (bbPort i)).link = true → 2 ≤ (voters s).length → sl = ⟨.none, .none, .none⟩ →
           (port t (bbPort i)).tx = some ⟨withFcs (probeBytes s (ownProbe s 3 (some (s.tide + 4)))), false⟩)) ∧
       (s.tideUp < q + 4000 → exec (.restoreProbe ⟨i, true, sl⟩) s = .next s)) ∧
     (∀ l, idleLine s sd = some l → bbLink s sd l = true →
       (∀ a, restoreOf s sd = some a → a ≤ s.tide → ∃ t, exec (.restoreAct sd none) s = .next t ∧ sideOf t sd = .linked ∧ restoreOf t sd = none) ∧
       (∀ p : Probe, p.kind = 3 → p.act = BitVec.ofNat 32 s.tide → ∃ t, exec (.restoreAct sd (some p)) s = .next t ∧ sideOf t sd = .linked))) ∧
  (∀ (s : State) (sd : SideId), ringRuns s = true →
     (∀ ln, sideOf s sd = .end_ → s.ring.st ≠ .alone → s.ring.dec = none → bbLink s sd ln = true → 2 ≤ (voters s).length →
       ∃ t, exec (.junctionProbe ⟨sd, ⟨.none, .none, .none⟩⟩) s = .next t ∧
         (port t (bbPort (spanPort sd ln))).tx = some ⟨withFcs (probeBytes s (ownProbe s 2 none)), false⟩) ∧
     (∀ (p : Probe) (sl : Lanes SliceFault), sideOf s sd = .end_ → s.ring.st ≠ .alone → (∃ ln, bbLink s sd ln = true) → p.kind = 2 → p.muid ≠ s.ring.muid →
       s.ring.dec = none → refusedOf s sd = none →
       let mine := ownProbe s 2 none
       let keeper : Bool := if mine.cab ≠ p.cab then mine.cab else if mine.nodes ≠ p.nodes then decide (p.nodes < mine.nodes)
         else decide (mine.muid.toNat < p.muid.toNat)
       let k := if keeper then mine else p
       let j := if keeper then p else mine
       let why : Nat := if k.cab ∧ j.cab then 1 else if 63 < k.nodes + j.nodes then 2 else if k.free + k.lost < j.nodes then 3
         else if 248000 < 6800 + k.slots * k.bl * 100 + 1600 * (k.nodes + j.nodes - 1) then 4 else 0
       ∃ t, exec (.mergeDecision sd ⟨p, sl⟩) s = .next t ∧
         (why = 0 → t.ring.dec = some ⟨sd, keeper, s.tideUp, p.muid, none⟩ ∧
           (keeper = false → s.ring.st = .master → t.ring.notice.isSome = true)) ∧
         (why ≠ 0 → t.ring.dec = none ∧ t.ring.mergeLast = 3 ∧ t.ring.mergeWhy = BitVec.ofNat 4 why ∧ refusedOf t sd = some (mine, p) ∧ t.ring.notice = none)) ∧
     (∀ f, s.ring.st = .master → claimOk s f = true → f.getD 30 0 = 4 → ∃ t, exec (.mergeNotice f) s = .next t ∧
       t.ring.notice = (s.ring.notice.or (some (BitVec.ofNat 64 (beAt f 22 8)))) ∧ t.ring.st = .master) ∧
     (∀ d a, s.ring.dec = some d → d.side = sd → d.keeper = true → d.act = some a →
       (s.tide < a → ∀ k, exec (.mergeAct ⟨sd, k⟩) s = .next s) ∧
       (a ≤ s.tide → ∀ k, ∃ t, exec (.mergeAct ⟨sd, k⟩) s = .next t ∧ sideOf t sd = sideByLinks s sd ∧ t.ring.dec = none ∧ t.ring.mergeLast = 1 ∧
         t.ring.roster = s.ring.roster ∧ t.ring.slot = s.ring.slot ∧ t.ring.st = s.ring.st)) ∧
     (∀ k, s.ring.dec = none → (refusedOf s sd).isSome = true → exec (.mergeAct ⟨sd, k⟩) s = .next s) ∧
     (∀ a k, s.ring.merge = true → s.ring.act = some a → a ≤ s.tide →
       ((∃ d, s.ring.dec = some d ∧ d.side = sd ∧ d.keeper = false) ∨ (s.ring.dec = none ∧ refusedOf s sd = none)) →
       ∃ t, exec (.mergeAct ⟨sd, k⟩) s = .next t ∧ t.ring.st = .joining ∧ t.ring.slot = 0 ∧ t.ring.roster = [] ∧ t.ring.hasTable = false ∧
         t.ring.merge = false ∧ ((∃ d, s.ring.dec = some d ∧ d.side = sd) → sideOf t sd = sideByLinks s sd ∧ t.ring.inward = some sd ∧
           t.ring.mergeLast = 2)))

/-- R269, R362, R364 to R366, R368 to R370: the PTP messages that the module sends, each with its header and the next sequenceId of its type,
port and domain: Sync in each time role, Pdelay_Req on backbone ports, Announce every 4,000 tides elsewhere, and Pdelay_Resp with the
turnaround in correctionField. A Sync and a Pdelay_Req leave a backbone port at once, with their egress time; the others are queued. The
octets that R364 does not name are those of IEEE 1588-2019 (log entry 88). R288, R363, R366, R367, R371, R372, R374: received PTP messages.
A port that is not ADMITTED delivers none. A message that a rule of R363 rejects is counted in TI_PTPREJ and changes nothing else; a Sync of
the first domain on the A-leg ingress and one of the second on the B-leg ingress give their domain's offset, corrected by the port's peer
delay, and a port without one is not used; at its junction the joiner measures its keeper; a Pdelay_Resp gives half of the round trip, which
enters the mean of the last eight values from 0 to 300 ns. Concluding that the block answers a next state, under conditions on state and
operands alone, this gives the own effect of: SYNC_SEND, SYNC_RECEIVE, PDELAY_REQ_SEND, PDELAY_REQ_RECEIVE, PDELAY_RESP_RECEIVE,
ANNOUNCE_SEND. -/
def Obligations.PtpMessages : Prop :=
  (∀ (s : State) (p : Port) (now : Nat), awake s = true → (port s p).link = true →
     let u := (setup s).net
     let bb : Prop := 32 ≤ p.val ∧ p.val < 36
     let sound : Lanes SliceFault := ⟨.none, .none, .none⟩
     let header (f : List Byte) (ty : BitVec 4) (dom : Byte) (len : Nat) (logIv : Int) : Prop :=
       f.take 6 = [0x01, 0x80, 0xC2, 0x00, 0x00, 0x0E] ∧ srcMac f = (if p.val = 36 then mntMac s else vehicleMac s) ∧
         etherType f = 0x88F7 ∧ beAt f 14 1 = ty.toNat ∧ beAt f 15 1 = 0x12 ∧ beAt f 16 2 = len ∧ beAt f 18 1 = dom.toNat ∧ beAt f 20 2 = 0 ∧
         beAt f 42 2 = p.val + 1 ∧ beAt f 44 2 = (seqIdOf s ty p dom).toNat ∧ beAt f 47 1 = (BitVec.ofInt 8 logIv).toNat
     let sent (run : Host.Outcome State Fault Refusal) (queued : Prop) (ty : BitVec 4) (dom : Byte) (len : Nat) (logIv : Int) (st : Stamp) : Prop :=
       ∃ t f, run = .next t ∧ header f ty dom len logIv ∧ seqIdOf t ty p dom = seqIdOf s ty p dom + 1 ∧ t.time.clock = s.time.clock ∧
         (queued → (port s p).qPtp.length < 4 → (port t p).qPtp = (port s p).qPtp ++ [⟨⟨f, f, f⟩, true, false, st⟩]) ∧
         (¬queued → 2 ≤ (voters s).length → (port t p).tx = some ⟨withFcs (stampBody st (egressNs s p now) f), false⟩)
     (¬bb → (s.tide % 8 = 0 → sent (exec (.syncSend ⟨p, now, sound⟩) s) True 0 u.dom1 44 (-9) (.origin 0)) ∧
       (s.tide % 8 ≠ 0 → exec (.syncSend ⟨p, now, sound⟩) s = .next s) ∧
       (s.tide % 4000 = 0 → sent (exec (.announceSend p) s) True 11 u.dom1 64 0 (.origin 0)) ∧
       (s.tide % 4000 ≠ 0 → exec (.announceSend p) s = .next s)) ∧
     (∀ i : Fin 4, p = bbPort i →
       (ringFree s i now = true → s.time.pdNext.get i ≤ s.tideUp →
         sent (exec (.pdelayReqSend ⟨i, now, sound⟩) s) False 2 u.dom1 54 (-6) (.origin 0) ∧
         ∃ t, exec (.pdelayReqSend ⟨i, now, sound⟩) s = .next t ∧ t.time.pdSent.get i = some (egressNs s p now) ∧
           t.time.pdNext.get i = s.tideUp + 64) ∧
       (s.tideUp < s.time.pdNext.get i ∨ ringFree s i now = false → exec (.pdelayReqSend ⟨i, now, sound⟩) s = .next s) ∧
       exec (.announceSend p) s = .next s ∧
       (s.ring.on = true →
         let inPlace : Prop := freeFrom s + 150 ≤ now ∧ now ≤ freeFrom s + 250
         (junctionPort s i = true → sent (exec (.syncSend ⟨p, now, sound⟩) s) False 0 u.dom1 44 (-12) (.origin 0)) ∧
         (junctionPort s i = false → ¬inPlace → exec (.syncSend ⟨p, now, sound⟩) s = .next s) ∧
         (junctionPort s i = false → inPlace → s.ring.st = .master → egressA s = some i → s.tide % 8 = 0 →
           sent (exec (.syncSend ⟨p, now, sound⟩) s) False 0 u.dom1 44 (-9) (.origin 0)) ∧
         (junctionPort s i = false → inPlace → sideOf s (outwardOf s) = .end_ → 2 ≤ s.ring.nodes → egressB s = some i → s.tide % 8 = 4 →
           sent (exec (.syncSend ⟨p, now, sound⟩) s) False 0 u.dom2 44 (-9) (.origin (secondOfs s))))) ∧
     (∀ (m : PtpMsg), (port s p).guard = .admitted → m.msgType = 2 → ptpOk s m = true →
       ((∃ q ∈ (port s p).qPtp, isResp q = true) → exec (.pdelayReqReceive p m now) s = .next s) ∧
       ((∀ q ∈ (port s p).qPtp, isResp q = false) →
         sent (exec (.pdelayReqReceive p m now) s) True 3 m.domain 54 0x7F (.turn (tideNs s now))))) ∧
  (∀ (s : State) (i : Fin 4) (m : PtpMsg) (now : Nat), awake s = true → (port s (bbPort i)).link = true → (port s (bbPort i)).guard = .admitted →
     let u := (setup s).net
     let rej : State := { s with time := { s.time with ptpRej := s.time.ptpRej.inc } }
     let ok : Prop := m.version = 2 ∧ (m.domain = u.dom1 ∨ m.domain = u.dom2) ∧ ¬(m.msgType = 0 ∧ m.twoStep = true)
     let late (x : DomainSt) : Prop := ∃ q, lookup? x.seqs m.sender = some q ∧ later m.seq q = false
     let old : Prop := late (if m.domain = u.dom1 then s.time.dom1 else s.time.dom2)
     let mean : Option Nat := match s.time.delays.get i with
       | [] => none
       | l => if l.foldl (· + ·) 0 / l.length ≤ 300 then some (l.foldl (· + ·) 0 / l.length) else none
     let sync := exec (.syncReceive (bbPort i) ⟨m, now⟩) s
     let resp := exec (.pdelayRespReceive i m now) s
     (¬ok ∨ m.msgType ≠ 0 ∨ old → sync = .next rej) ∧
     (∀ p : Port, (port s p).link = true → (port s p).guard = .admitted → ¬(32 ≤ p.val ∧ p.val < 36) →
       exec (.syncReceive p ⟨m, now⟩) s = .next rej) ∧
     (∀ p : Port, (port s p).guard ≠ .admitted → exec (.syncReceive p ⟨m, now⟩) s = .next s ∧ exec (.pdelayReqReceive p m now) s = .next s) ∧
     (∀ p, (port s p).link = true → (port s p).guard = .admitted → ¬ok ∨ m.msgType ≠ 2 → exec (.pdelayReqReceive p m now) s = .next rej) ∧
     (¬ok ∨ m.msgType ≠ 3 → resp = .next rej) ∧
     (ok → m.msgType = 3 → s.time.pdSent.get i = none → resp = .next s) ∧
     (ok → m.msgType = 3 → ∀ t1, s.time.pdSent.get i = some t1 →
       let v := Int.fdiv (tideNs s now - t1 - m.corr) 2
       (0 ≤ v → v ≤ 300 → ∃ t, resp = .next t ∧ t.time.pdSent.get i = none ∧
         t.time.delays.get i = (v.toNat :: s.time.delays.get i).take 8 ∧ (∀ j, j ≠ i → t.time.delays.get j = s.time.delays.get j)) ∧
       ((v < 0 ∨ 300 < v) → ∃ t, resp = .next t ∧ t.time.pdSent.get i = none ∧ t.time.delays = s.time.delays ∧
         (mean = none → t.time.delayBad.get i = true))) ∧
     (ok → m.msgType = 0 → ¬old → (mean = none → sync = .next s) ∧
       ∀ d, mean = some d →
         let o : Int := m.origin + m.corr + d - tideNs s now
         (junctionPort s i = true → m.domain = u.dom1 → ∀ x, s.ring.dec = some x → x.side = sideOfPort i → x.keeper = false →
           ∃ t f, sync = .next t ∧ t.time.phi = some f ∧ t.time.relab * 250000 + f = o ∧ -125000 ≤ f ∧ f < 125000 ∧
             (s.ring.notice.isSome = true → 10 < f.natAbs → t.time.slewing = true ∧ t.ring.slew = true)) ∧
         (junctionPort s i = false → m.domain = u.dom1 → ingressA s = some i → ∃ t, sync = .next t ∧
           t.time.dom1.ofs = some o ∧ t.time.dom1.lastGood = some s.tideUp ∧ t.time.dom1.gm = (m.sender >>> 16).setWidth 64 ∧
           t.time.dom2 = s.time.dom2 ∧ trainNs t = trainNs s ∧
           (s.time.act = .first → s.ring.notice = none → 1000 < o.natAbs → t.time.slewing = true) ∧
           (s.time.act = .first → s.ring.notice = none → o.natAbs ≤ 1000 → t.time.slewing = s.time.slewing)) ∧
         (junctionPort s i = false → m.domain = u.dom2 → m.domain ≠ u.dom1 → ingressB s = some i →
           ∃ t, sync = .next t ∧ t.time.dom2.ofs = some o ∧ t.time.dom2.lastGood = some s.tideUp ∧
             t.time.dom1 = s.time.dom1 ∧ trainNs t = trainNs s)))

/-- R360, R361, R371, R372, R376: the clock is set once, by a good Sync or by a master from the Headland's seconds; then it never steps. The
active domain changes after 128 tides without the first and back after 4,000 with it; 128 tides without either enter holdover, which the
first good Sync leaves; a slew ends at 10 ns. R546, R547: a reference count more than 100 ppm off latches REFFLT; after 64 s beyond 0.5 ppm
the oscillator is trimmed by one step under POLICY TRIM, which the rate correction gives up in the same tick, or the withheld step is
recorded. Concluding that the block answers a next state, under conditions on state and operands alone, this gives the own effect of:
CLOCK_SET, ACTIVE_DOMAIN_CHANGE, SLEW_END, HOLDOVER_ENTER, HOLDOVER_LEAVE, OSCILLATOR_RETRIM, REFERENCE_CHECK. -/
def Obligations.ClockAndOscillator : Prop :=
  (∀ (s : State), awake s = true →
     let T := s.time
     let heard (d : DomainSt) (n : Nat) : Prop := ∃ q, d.lastGood = some q ∧ s.tideUp ≤ q + n
     (T.set = true → ∀ x, exec (.clockSet x) s = .next s) ∧
     (s.ring.on = true → T.set = false → s.ring.st = .master → s.pw.opsec.toNat < 2 ^ 48 → ∃ t, exec (.clockSet none) s = .next t ∧
       t.time.set = true ∧ t.time.clock.sec.toNat = s.pw.opsec.toNat ∧ t.time.clock.ns = 0 ∧ t.tide = s.pw.opsec.toNat * 4000) ∧
     (s.ring.on = true → T.set = false → ∀ i m d, peerDelay s i = some d → m.msgType = 0 → ptpOk s m = true →
       m.domain = (setup s).net.dom1 → ingressA s = some i → 0 ≤ m.origin + m.corr →
       let ns := (m.origin + m.corr).toNat + d
       ns < 2 ^ 48 * 1000000000 → ∃ t, exec (.clockSet (some (i, m))) s = .next t ∧ t.time.set = true ∧ trainNs t = ns ∧
         t.tide = ns / 250000 ∧ t.time.act = .first) ∧
     (T.set = true → T.hold = false → s.ring.st ≠ .master →
       (T.act = .first → ¬heard T.dom1 127 → heard T.dom2 16 → ∃ t, exec .activeDomainChange s = .next t ∧ t.time.act = .second ∧ trainNs t = trainNs s) ∧
       (T.act = .first → heard T.dom1 127 → exec .activeDomainChange s = .next s) ∧
       (T.act = .second → heard T.dom1 16 → T.dom1.runStart + 4000 ≤ s.tideUp →
         ∃ t, exec .activeDomainChange s = .next t ∧ t.time.act = .first ∧ trainNs t = trainNs s) ∧
       (T.act = .second → s.tideUp < T.dom1.runStart + 4000 → exec .activeDomainChange s = .next s) ∧
       (¬heard T.dom1 127 → ¬heard T.dom2 127 → ∃ t, exec .holdoverEnter s = .next t ∧ t.time.hold = true ∧ t.time.act = .none ∧
         t.time.clock = T.clock) ∧
       (heard T.dom1 127 ∨ heard T.dom2 127 → exec .holdoverEnter s = .next s)) ∧
     (T.hold = true → ∀ dom2 : Bool, heard (if dom2 then T.dom2 else T.dom1) 8 → ∃ t, exec (.holdoverLeave dom2) s = .next t ∧
       t.time.hold = false ∧ t.time.act = (if dom2 then .second else .first) ∧ trainNs t = trainNs s) ∧
     (T.slewing = true →
       ((slewOfs s).natAbs ≤ 10 → ∃ t, exec .slewEnd s = .next t ∧ t.time.slewing = false ∧ t.time.clock.corr.toInt.natAbs ≤ 34359 ∧
         trainNs t = trainNs s) ∧
       (10 < (slewOfs s).natAbs → exec .slewEnd s = .next s))) ∧
  (∀ (s : State), awake s = true →
     (∀ n : Nat, s.pw.refflt = false →
       ((25002500 < n ∨ n < 24997500) → ∃ t, exec (.referenceCheck n) s = .next t ∧ t.pw.refflt = true) ∧
       (24997500 ≤ n → n ≤ 25002500 → exec (.referenceCheck n) s = .next s)) ∧
     (∀ q, s.time.overFrom = some q → q + 64000000000 ≤ s.up →
       let c := s.time.clock.corr.toInt
       ((policy s).trim = true → ∃ t, exec .oscillatorRetrim s = .next t ∧ t.time.trim = s.time.trim + (if 0 ≤ c then 1 else -1) ∧
         t.time.clock.corr.toInt = c - (if 0 ≤ c then 1718 else -1718) ∧ trainNs t = trainNs s) ∧
       ((policy s).trim = false → ∃ t, exec .oscillatorRetrim s = .next t ∧ t.time.trim = s.time.trim ∧ t.time.clock = s.time.clock ∧
         t.time.overFrom = some s.up)) ∧
     (s.time.overFrom = none → exec .oscillatorRetrim s = .next s))

/-- R431, R433, R434, R437, R438, R439, R648: the reading of a channel that is no output. The comparator goes ON above the ON threshold, OFF
below the OFF threshold and else holds; with FILTER 0 an input or wake channel accepts it at once, else once it has held for FILTER, with
the instant of the change as timestamp; a counter counts accepted rising edges of at least 10 µs while its island reports. A change starts
the wetting current, which ends after t_w. A wake island in NEAP keeps its thresholds and filter. Where a counter's limits leave the
acceptance open, the command decides it. R429, R436, R448 to R450, R456, R649: an island's supply, start, refresh and reporting. Each row of
the supply table with 0.5 V of hysteresis above its limit; an island that starts, or lost its refresh, holds its fault bit's cause until 64
refreshes, and without refresh drives its programmed safe state; a silent coupler has the class SILENT. Concluding that the block answers a
next state, under conditions on state and operands alone, this gives the own effect of: COMPARATOR_CHANGE, FILTER_ACCEPT, WETTING_END,
CHANNEL_SUPPLY_CHANGE, ISLAND_START, ISLAND_WATCHDOG_EXPIRE, ISLAND_REFRESH_RESUME, COUPLER_SILENT, ISLAND_REPORTING_AGAIN. -/
def Obligations.InputsAndIslands : Prop :=
  (∀ (s : State) (c : Chan) (mv : Nat),
     let x := s.chans.get c
     let up : Prop := x.supply ≠ .dead ∧ x.asleep = false
     let level (on off : Nat) : Bool := if on * 250 < mv then true else if mv < off * 250 then false else x.comp
     let volt : State := modIsland s c fun x => { x with volt := mv }
     (¬up → exec (.filterAccept c) s = .next s ∧ exec (.comparatorChange c mv) s = .next volt) ∧
     (∀ k : WakeCfg, x.wcfg = some k → up →
       (level k.on k.off = x.comp → exec (.comparatorChange c mv) s = .next volt) ∧
       (level k.on k.off ≠ x.comp → ∃ t, exec (.comparatorChange c mv) s = .next t ∧ let y := t.chans.get c
         y.comp = level k.on k.off ∧ y.compAt = s.up ∧ y.wetting = x.wetting ∧ y.acc = (if k.filter = 0 then level k.on k.off else x.acc)) ∧
       (x.comp ≠ x.acc → exec (.filterAccept c) s = .next (if x.compAt + k.filter * 10000 ≤ s.up then
         modChan s c fun x => { x with acc := x.comp } else s))) ∧
     (∀ d, chanDecl s c = some d → d.kind ≠ .output → x.wcfg = none → up →
       let th : Nat × Nat := match d.preset.toNat with
         | 0 => (48, 32) | 1 => (36, 26) | 2 => (52, 32) | 3 => (104, 64) | 4 => (156, 96) | 5 => (208, 128) | 6 => (240, 144)
         | _ => (d.on, d.off)
       let r := level th.1 th.2
       let us : Word := BitVec.ofNat 32 (trainNs s / 1000)
       let hold : Nat := if d.kind = .counter then max 10000 (d.filter * 10000) else d.filter * 10000
       let sure : Nat := if d.kind = .counter then max 20000 (d.filter * 10000 + 10000) else d.filter * 10000
       let counted : Word := if d.kind = .counter ∧ x.comp = true ∧ x.silent = false then x.count + 1 else x.count
       let settles : Prop := x.comp ≠ x.acc ∧ x.compAt + sure ≤ s.up
       (r = x.comp → exec (.comparatorChange c mv) s = .next volt) ∧
       (r ≠ x.comp → ∃ t, exec (.comparatorChange c mv) s = .next t ∧
         let y := t.chans.get c
         y.comp = r ∧ y.compStamp = us ∧ y.compAt = s.up ∧ y.volt = mv ∧
         (y.wetting = true ↔ (d.kind = .input ∨ d.kind = .wake) ∧ awake s = true ∧ x.supply = .full ∧ x.inSafe = false ∧ x.starting = false ∧
           x.locating = false ∧ .temp ∉ x.causes) ∧
         (d.filter = 0 → d.kind ≠ .counter → y.acc = r ∧ y.stamp = us) ∧
         (d.filter ≠ 0 ∨ d.kind = .counter →
           (settles → y.acc = x.comp ∧ y.stamp = x.compStamp ∧ y.count = counted) ∧
           (¬settles → y.acc = x.acc ∧ y.stamp = x.stamp ∧ y.count = x.count))) ∧
       (x.comp ≠ x.acc → x.compAt + hold ≤ s.up → ∃ t, exec (.filterAccept c) s = .next t ∧
         let y := t.chans.get c
         y.acc = x.comp ∧ y.stamp = x.compStamp ∧ y.count = counted) ∧
       ((x.comp = x.acc ∨ s.up < x.compAt + hold) → exec (.filterAccept c) s = .next s)) ∧
     (let tw := min ((policy s).wetTime * 10) ((160 + x.iw - 1) / x.iw)
      exec (.wettingEnd c) s = .next (if x.compAt + tw * 100000 ≤ s.up then modChan s c fun x => { x with wetting := false } else s))) ∧
  (∀ (s : State) (c : Chan),
     let x := s.chans.get c
     let up : Prop := x.supply ≠ .dead ∧ x.asleep = false
     (∀ mv,
       let new : SupplyBand := if (if x.supply = .full then 15000 else 15500) ≤ mv then .full
         else if (if x.supply = .dead then 12500 else 12000) ≤ mv then .low else .dead
       (new = x.supply → exec (.channelSupplyChange c mv) s = .next (modIsland s c fun x => { x with sv := mv })) ∧
       (new ≠ x.supply → ∃ t, exec (.channelSupplyChange c mv) s = .next t ∧
         let y := t.chans.get c
         y.supply = new ∧ (new ≠ .full → y.closed = false ∧ y.wetting = false) ∧ (x.supply = .dead → y.starting = true) ∧
         (new = .low → .supply ∈ y.causes) ∧ (new = .dead → y.causes = [] ∧ y.latched = false ∧ y.test = .idle) ∧
         (new = .full → .supply ∉ y.causes))) ∧
     (up → ∃ t, exec (.islandStart c) s = .next t ∧
       let y := t.chans.get c
       y.starting = true ∧ y.closed = false ∧ y.wetting = false ∧ y.acc = false ∧ y.fbit = true ∧ y.cfault = x.cfault.inc ∧
       y.cls = .fieldSide ∧ .safeState ∈ y.causes ∧ y.silent = false) ∧
     (¬up → exec (.islandStart c) s = .next s) ∧
     (∀ sent, awake s = true → up → x.inSafe = false → x.starting = false → ∃ t, exec (.islandWatchdogExpire ⟨c, sent⟩) s = .next t ∧
       let y := t.chans.get c
       y.inSafe = true ∧ .safeState ∈ y.causes ∧ y.wetting = false ∧ y.test = .idle ∧ y.stale = !sent ∧
       (x.supply = .full → x.latched = false → .temp ∉ x.causes → y.closed = x.prog.getD x.drvAcc)) ∧
     (∀ sent, (awake s = false ∨ ¬up ∨ x.inSafe = true ∨ x.starting = true) → exec (.islandWatchdogExpire ⟨c, sent⟩) s = .next s) ∧
     (awake s = true → up → (x.inSafe = true ∨ x.starting = true) → .parapet ∉ s.pw.pllLost → ∃ t, exec (.islandRefreshResume c) s = .next t ∧
       let y := t.chans.get c
       y.inSafe = false ∧ y.starting = false ∧ .safeState ∉ y.causes ∧ y.drvAcc = y.drv) ∧
     (awake s = true → x.silent = false → x.asleep = false → ∃ t, exec (.couplerSilent c) s = .next t ∧
       let y := t.chans.get c
       y.silent = true ∧ y.test = .idle ∧ y.locating = false ∧ (x.failDark < 2 → x.failLight < 2 → shownClass y = .silent)) ∧
     ((awake s = false ∨ x.silent = true ∨ x.asleep = true) → exec (.couplerSilent c) s = .next s) ∧
     (up → x.silent = true → ∃ t, exec (.islandReportingAgain c) s = .next t ∧ (t.chans.get c).silent = false) ∧
     (x.silent = false → exec (.islandReportingAgain c) s = .next s))

/-- R442, R443, R454, R455: overload, read-back and the fault bit. A trip opens the switch until an off drive; a cause that can stand in the
channel's kind and state makes the bit rise, once, and the class follows the table of R455: at once where the island was not refreshed, the
drive is off or the channel is a counter, else by a pulse or a held sink, whose outcome LOCALISATION_END gives; the bit falls with its last
cause, and its class with it. R444, R445, R447: test pulses of an output channel, once in a test period at its instant (met within 1 µs, log
entry 95). A dark pulse with the drive on, a light one with it off, each only with a length; the read-back at its end judges the test, and
the second failed test of a kind in a row sets the class TESTFAIL, which a passed test of that kind clears. Concluding that the block
answers a next state, under conditions on state and operands alone, this gives the own effect of: OVERLOAD_TRIP, READBACK_MISMATCH,
FAULT_BIT_RISE, LOCALISATION_END, TEST_PULSE_START, TEST_PULSE_END, FAULT_BIT_CLEAR. -/
def Obligations.ChannelFaultsAndTests : Prop :=
  (∀ (s : State) (c : Chan),
     let x := s.chans.get c
     let up : Prop := x.supply ≠ .dead ∧ x.asleep = false
     let noTacho : Prop := ∀ a b, tachoPair s = some (a, b) → c.val ≠ a ∧ c.val ≠ b
     let kind := chanKind s c
     let stands (mv : Nat) : FaultCause → Prop
       | .supply => x.supply = .low
       | .overload => x.latched = true
       | .readback => kind = some .output ∧ (decide (x.sv < 2 * mv)) ≠ islandDrive x
       | .shortfall => (∃ k, kind = some k ∧ k ≠ .output) ∧ x.comp = true
       | .safeState => x.inSafe = true ∨ x.starting = true
       | .temp => True
       | .selfCheck => True
     (x.closed = true → ∃ t, exec (.overloadTrip c) s = .next t ∧
       (t.chans.get c).closed = false ∧ (t.chans.get c).latched = true ∧ .overload ∈ (t.chans.get c).causes) ∧
     (x.closed = false → exec (.overloadTrip c) s = .next s) ∧
     (let differs : Prop := stands x.volt .readback ∧ up ∧ x.test = .idle ∧ x.rbAt + 500000 < s.up
      (differs → ∃ t, exec (.readbackMismatch c) s = .next t ∧ .readback ∈ (t.chans.get c).causes) ∧
      (¬differs → exec (.readbackMismatch c) s = .next s)) ∧
     (∀ k mv, ¬up ∨ ¬stands mv k → exec (.faultBitRise c k mv) s = .next (modIsland s c fun x => { x with volt := mv })) ∧
     (∀ k mv, up → stands mv k → noTacho ∨ (x.test = .idle ∧ x.latched = false) → ∃ t, exec (.faultBitRise c k mv) s = .next t ∧
       let y := t.chans.get c
       let rb : Bool := x.sv < 2 * mv
       y.volt = mv ∧
       (kind ≠ some .output ∨ x.fbit = true ∨ x.silent = true ∨ x.drv = false ∨ rb = true ∨ x.latched = false → k ∈ y.causes) ∧
       (x.fbit = true ∨ x.silent = true → y.cfault = x.cfault ∧ y.cls = x.cls ∧ y.fbit = x.fbit) ∧
       (x.fbit = false → x.silent = false → y.cfault = x.cfault.inc ∧
         (x.stale = true → y.cls = .watchdog) ∧
         (x.stale = false → kind = none ∨ kind = some .counter → y.cls = .fieldSide) ∧
         (x.stale = false → kind = some .output → x.drv = false → y.cls = if rb then .externalFeed else .fieldSide) ∧
         (x.stale = false → kind = some .output → x.drv = true → rb = true → y.cls = .fieldSide) ∧
         (x.stale = false → kind = some .output → x.drv = true → rb = false →
           y.locating = true ∧ y.test = .localise ∧ y.latched = false ∧ y.pulseAt = s.up) ∧
         (x.stale = false → kind = some .input ∨ kind = some .wake →
           y.locating = true ∧ y.wetting = false ∧ y.cls = .unlocalised ∧ y.pulseAt = s.up))) ∧
     (∀ d, chanDecl s c = some d → x.locating = true →
       let due := x.pulseAt + (if d.kind = .output then 20000 else 1000000)
       (∀ o, s.up < due → exec (.localisationEnd c o) s = .next s) ∧
       (∀ o, due ≤ s.up → ∃ t, exec (.localisationEnd c o) s = .next t ∧ (t.chans.get c).locating = false ∧ (t.chans.get c).test = .idle ∧
         (o = .stayed → (t.chans.get c).cls = .fieldSide) ∧
         (d.kind = .output → o = .cleared → (t.chans.get c).cls = .overloadCleared ∧ (t.chans.get c).causes = []) ∧
         (d.kind = .output → o = .clearedThenRose → noTacho → (t.chans.get c).cls = .overload ∧ (t.chans.get c).latched = true) ∧
         (d.kind ≠ .output → o ≠ .stayed → (t.chans.get c).cls = .wetting ∧ (t.chans.get c).cwet = x.cwet.inc ∧
           (t.chans.get c).iw = (if x.iw < 4 then x.iw else x.iw - 2)))) ∧
     (x.locating = false → ∀ o, exec (.localisationEnd c o) s = .next s) ∧
     (let ends (k : FaultCause) : Prop := k = .temp ∨ k = .selfCheck ∨ k = .shortfall ∨ ¬stands x.volt k
      (∀ k, up → ends k → ∃ t, exec (.faultBitClear c k) s = .next t ∧
        let y := t.chans.get c
        k ∉ y.causes ∧ ((∀ j ∈ x.causes, j = k) → x.silent = false → y.fbit = false ∧
          (x.fbit = true → x.locating = false → x.test ≠ .localise → y.cls = .none))) ∧
      (∀ k, ¬up ∨ ¬ends k → exec (.faultBitClear c k) s = .next s))) ∧
  (∀ (s : State) (c : Chan) (d : ChanDecl), chanDecl s c = some d →
     let x := s.chans.get c
     let per := d.testper * 10000000
     let at_ := trainNs s + per - (c.val * 1000000 + 100000) % per
     let able : Prop := d.kind = .output ∧ x.supply ≠ .dead ∧ x.asleep = false ∧ x.silent = false ∧ x.inSafe = false ∧ x.starting = false ∧
       x.test = .idle ∧ x.locating = false ∧ d.testper ≠ 0 ∧ awake s = true ∧ at_ % per < 1000 ∧ x.testAt ≠ some (at_ / per)
     (able → x.drv = true → d.dark ≠ 0 → ∃ t, exec (.testPulseStart c) s = .next t ∧ (t.chans.get c).test = .dark ∧
       (t.chans.get c).closed = false ∧ (t.chans.get c).latched = false ∧ (t.chans.get c).testAt = some (at_ / per) ∧
       (t.chans.get c).pulseAt = s.up) ∧
     (able → x.drv = false → d.light ≠ 0 → ∃ t, exec (.testPulseStart c) s = .next t ∧ (t.chans.get c).test = .light ∧
       (x.supply = .full → x.latched = false → .temp ∉ x.causes → (t.chans.get c).closed = x.en) ∧
       (t.chans.get c).testAt = some (at_ / per) ∧ (t.chans.get c).pulseAt = s.up) ∧
     ((¬able ∨ (x.drv = true ∧ d.dark = 0) ∨ (x.drv = false ∧ d.light = 0)) → exec (.testPulseStart c) s = .next s) ∧
     ∀ mv,
       let volt : State := modIsland s c fun x => { x with volt := mv }
       let rb : Bool := x.sv < 2 * mv
       let len := if x.test = .dark then d.dark * 10000 else d.light * 10000
       (x.test = .idle → exec (.testPulseEnd c mv) s = .next volt) ∧
       (x.test = .localise → x.pulseAt + 21000 ≤ s.up + 1000 → ∃ t, exec (.testPulseEnd c mv) s = .next t ∧ (t.chans.get c).test = .idle ∧
         (t.chans.get c).locating = x.locating ∧ (t.chans.get c).ctfail = x.ctfail) ∧
       ((x.test = .dark ∨ x.test = .light) → s.up + 1000 < x.pulseAt + len → exec (.testPulseEnd c mv) s = .next volt) ∧
       ((x.test = .dark ∨ x.test = .light) → x.pulseAt + len ≤ s.up + 1000 →
         let dark : Bool := x.test = .dark
         let pass : Bool := if dark then !rb else rb
         let before := if dark then x.failDark else x.failLight
         ∃ t, exec (.testPulseEnd c mv) s = .next t ∧
           let y := t.chans.get c
           y.test = .idle ∧ y.volt = mv ∧ y.aban = 0 ∧ y.ctfail = (if pass then x.ctfail else x.ctfail.inc) ∧
           (if dark then y.failDark else y.failLight) = (if pass then 0 else before + 1) ∧
           (if dark then y.failLight = x.failLight else y.failDark = x.failDark) ∧ y.cls = x.cls ∧
           (pass = false → 1 ≤ before → dark = true → shownClass y = .testfailDark) ∧
           (pass = false → 1 ≤ before → dark = false → x.failDark < 2 → shownClass y = .testfailLight) ∧
           (pass = true → (if dark then x.failLight else x.failDark) < 2 → shownClass y = if x.silent then .silent else x.cls)))

/-- R408, R413 to R416: the enables of the safety functions. A function whose condition fails loses its enable at that evaluation, with event
0x0701 and a count in SF_TRIP; it is restored once its restore condition has held for 16 ms and no fault bars it; an output's enable is the
AND of the enables of the declared functions that name it. R410, R412, R414, R420, R421: the tacho edges and the self-checks. An edge of CHA
or CHB moves P by one in its direction; both within one logic clock, or the 64th in a row on one channel, is a TACHO FAULT; a limit CRC, a
comparator or a rail failure of a declared function is a PARAPET FAULT: each latches and removes every enable. The fault bit of a tacho
island removes them while it is set. Concluding that the block answers a next state, under conditions on state and operands alone, this
gives the own effect of: TACHO_EDGE, ENABLE_RESTORE, QUIET_TIME_REACHED, PARAPET_TIDE_SELF_CHECK, RAIL_FAULT, TACHO_ISLAND_FAULT. -/
def Obligations.SafetyFunctions : Prop :=
  (∀ (s : State) (f : Fin 4),
     let x := s.para.funcs.get f
     let w (i : Fin 6) : Nat := (x.act.get i).toNat
     let cond : Prop := if f = 0 then speed s x.start ≤ w 1 else if f = 1 then s.para.rev.toNat ≤ w 2
       else if f = 2 then (s.para.pos - s.para.pref).toInt.natAbs ≤ w 1 else s.para.still = true
     (x.decl = true → x.en = true → ¬cond → ∃ u, evalFunc s f = record u 0x0701 (d1 f.val ++ d4 (funcValue u f).toNat) ∧
       (u.para.funcs.get f).en = false ∧ (u.para.funcs.get f).trip = x.trip.inc) ∧
     (x.decl = true → (x.en = false ∨ cond) → (evalFunc s f).para.funcs.get f = { x with holdFrom := holdsFrom s f }) ∧
     (let barred : Prop := s.para.pfault = true ∨ s.para.tfault = true ∨ s.para.tachoFltA = true ∨ s.para.tachoFltB = true ∨
        ∃ e, s.para.tachoFltEnd = some e ∧ logicNow s < e + 256000
      let held : Prop := ∃ q, holdsFrom s f = some q ∧ q + 256000 ≤ logicNow s
      (x.decl = true → x.en = false → held → ¬barred → ∃ t, exec (.enableRestore f) s = .next t ∧ (t.para.funcs.get f).en = true ∧
        (∀ g, g ≠ f → t.para.funcs.get g = s.para.funcs.get g)) ∧
      ((x.decl = false ∨ x.en = true ∨ ¬held ∨ barred) → exec (.enableRestore f) s = .next s)) ∧
     (∀ c : Chan, enabled s c = true ↔ ∀ g, (s.para.funcs.get g).decl = true → maskNames (s.para.funcs.get g).act c = true →
       (s.para.funcs.get g).en = true) ∧
     (x.decl = true → f = 2 → w 2 * 16000 ≤ quietClocks s x.start → ∃ t, exec (.quietTimeReached f) s = .next t ∧
       t.para.pref = s.para.pos ∧ t.para.pos = s.para.pos) ∧
     (x.decl = true → f = 3 → w 1 * 16000 ≤ quietClocks s x.start → s.para.still = false →
       ∃ t, exec (.quietTimeReached f) s = .next t ∧ t.para.still = true ∧ t.para.pss = s.para.pos) ∧
     (x.decl = true → f = 2 ∨ f = 3 → quietClocks s x.start < (if f = 2 then w 2 else w 1) * 16000 → exec (.quietTimeReached f) s = .next s)) ∧
  (∀ (s : State) (a b : Nat), tachoPair s = some (a, b) → a ≠ b →
     let p := s.para
     let allOff (t : State) : Prop := ∀ g, (s.para.funcs.get g).decl = true → (t.para.funcs.get g).en = false
     let step (chA v : Bool) : Prop := ∃ t, exec (if chA then .tachoEdge (some v) none else .tachoEdge none (some v)) s = .next t ∧
       let inA := if chA then v != p.chb.level else v == p.cha.level
       t.para.pos = (if inA then p.pos + 1 else p.pos - 1) ∧ t.para.lastEdge = some (logicNow s) ∧
       (if chA then t.para.cha.level = v ∧ t.para.chb = p.chb else t.para.chb.level = v ∧ t.para.cha = p.cha) ∧
       (v = true → (if chA then t.para.cha.rise else t.para.chb.rise) = some (logicNow s)) ∧
       (p.lastCh = chA → 63 ≤ p.oneRun → t.para.tfault = true) ∧
       (p.lastCh ≠ chA → p.lastEdge = some (logicNow s) → t.para.tfault = true) ∧
       ((p.lastCh = chA ∧ p.oneRun < 63) ∨ (p.lastCh ≠ chA ∧ p.lastEdge ≠ some (logicNow s)) → t.para.tfault = p.tfault)
     (∀ v, p.cha.level ≠ v → step true v) ∧ (∀ v, p.chb.level ≠ v → step false v) ∧
     (∀ v w, p.cha.level ≠ v → p.chb.level ≠ w → ∃ t, exec (.tachoEdge (some v) (some w)) s = .next t ∧ t.para.tfault = true) ∧
     (∀ v, p.cha.level = v → exec (.tachoEdge (some v) none) s = .next s) ∧
     (∀ f : Fin 4, (p.funcs.get f).decl = true → p.pfault = false →
       (∃ t, exec (.railFault f) s = .next t ∧ t.para.pfault = true ∧ allOff t) ∧
       (∀ crc, ∃ t, exec (.parapetTideSelfCheck (some (f, crc)) none) s = .next t ∧ t.para.pfault = true ∧ allOff t) ∧
       (∃ t, exec (.parapetTideSelfCheck none (some f)) s = .next t ∧ t.para.pfault = true ∧ allOff t ∧
         (p.cause = .none → t.para.cause = .comparator) ∧ (p.cause ≠ .none → t.para.cause = p.cause))) ∧
     (∀ f : Fin 4, (p.funcs.get f).decl = false → exec (.railFault f) s = .next s) ∧
     (∀ c : Chan, c.val = a → p.tachoFltA = false → ∃ t, exec (.tachoIslandFault c true) s = .next t ∧ t.para.tachoFltA = true ∧ allOff t) ∧
     (∀ c : Chan, c.val = a → p.tachoFltA = true → p.tachoFltB = false → ∃ t, exec (.tachoIslandFault c false) s = .next t ∧
       t.para.tachoFltA = false ∧ t.para.tachoFltEnd = some (logicNow s)) ∧
     (∀ (c : Chan) v, c.val ≠ a → c.val ≠ b → exec (.tachoIslandFault c v) s = .next s))

/-- R465, R470, R472 to R477, R487, R488: the head of the posting queue on the bus. A store is one WRITE beat with every byte enabled, every
other access one READ beat; CAS and XCHG drive CB_LOCK_N, and their WRITE beat follows on the same transaction. A retry is counted and
reissued. Data that returns goes to Wd of the core that waits, with tag 0x80; that of a dropped lane is discarded. An error ends the access:
a posted write enters the lowest free log entry, or is counted where none is free; a waiting core's work item ends. 64 µs after it has
become the head, an access that is not complete ends by timeout, whether it has come to the bus or not. A lock abort, at that limit or for a
lane that has dropped, is such an error and one forced release. Concluding that the block answers a next state, under conditions on state
and operands alone, this gives the own effect of: OUTBOUND_ISSUE, TARGET_RESPONSE, RETRY_REISSUE, OUTBOUND_TIMEOUT, LOCK_ABORT. -/
def Obligations.OutboundAccesses : Prop :=
  ∀ (s : State) (e : Posted) (rest : List Posted), s.br.queue = e :: rest →
    let onAd (w : Word) : Word := if s.br.bo.getLsbD e.win.toNat then w else leWord (byteOf w 3) (byteOf w 2) (byteOf w 1) (byteOf w 0)
    let core (t : State) (l : LaneId) (p : PairId) (odd : Bool) : UCore := if odd then (pair t l p).odd else (pair t l p).even
    let waits (l : LaneId) (p : PairId) (odd : Bool) (d : BitVec 4) : Prop :=
      e.agent = .core l p odd ∧ e.orphan = false ∧ isVoting s l = true ∧ (core s l p odd).active = true ∧
      (core s l p odd).wait = some ⟨e.pseq, d⟩
    let gone (t : State) : Prop := t.br.queue = rest ∧ t.br.out = none
    let gives (i : Instr) (v : Word) : Prop := ∃ t, exec i s = .next t ∧ gone t ∧ t.br.log = s.br.log ∧
      (∀ l p odd d, waits l p odd d →
        core t l p odd = { core s l p odd with bank := wordResult (core s l p odd).bank d v 0x80, wait := none }) ∧
      (e.orphan = true → t.lanes = s.lanes)
    let lanes (ag : Agent) : Nat := match ag with
      | .core .a _ _ => 1
      | .core .b _ _ => 2
      | .core .c _ _ => 3
      | .steward => 0
    let fails (i : Instr) (kind : BitVec 3) : Prop := ∃ t, exec i s = .next t ∧ gone t ∧
      (∀ v, e.kind = .store v →
        (∀ k, (s.br.log.get k).valid = false → (∀ j, j < k → (s.br.log.get j).valid = true) → t.br.pwerr = true ∧ t.br.pwlost = s.br.pwlost ∧
          ∃ x : PwEntry, t.br.log = s.br.log.set k x ∧ x.valid = true ∧ x.addr = e.addr ∧ x.kind = kind ∧ x.lane.toNat = lanes e.agent ∧
            (∀ l p odd, e.agent = .core l p odd → x.pair.toNat = p.val ∧ x.core = odd) ∧ x.win = e.win ∧ x.pseq = e.pseq ∧ x.data = onAd v) ∧
        ((∀ k, (s.br.log.get k).valid = true) → t.br.log = s.br.log ∧ t.br.pwlost = s.br.pwlost.inc)) ∧
      ((∀ v, e.kind ≠ .store v) → t.br.log = s.br.log ∧ (∀ l p odd d, waits l p odd d →
        core t l p odd = { core s l p odd with active := false, wait := none }) ∧ (e.orphan = true → t.lanes = s.lanes))
    let headLate : Prop := s.br.headAt + 64000 ≤ s.up
    (onBus s = true → s.br.mt = true → granted s = true → s.br.out = none → ∃ t o, exec (.outboundIssue .queue) s = .next t ∧ t.br.out = some o ∧ o.src = .queue ∧
      o.phase = .issued ∧ o.since = s.br.headAt ∧ t.br.queue = s.br.queue ∧
      (∀ v, e.kind = .store v → o.write = true ∧ o.lock = false ∧ t.br.lastBus = some ⟨true, e.addr, [(onAd v, 0xF)]⟩) ∧
      (e.kind = .load → o.write = false ∧ o.lock = false ∧ t.br.lastBus = some ⟨false, e.addr, [(0, 0xF)]⟩) ∧
      (∀ a b, e.kind = .cas a b ∨ e.kind = .xchg b → o.write = false ∧ o.lock = true ∧
        t.br.lastBus = some ⟨false, e.addr, [(0, 0xF)]⟩)) ∧
    (onBus s = false ∨ s.br.mt = false ∨ granted s = false ∨ (∃ o, s.br.out = some o ∧ o.phase ≠ .backedOff) →
      exec (.outboundIssue .queue) s = .next s) ∧
    (s.br.out = none → (headLate → fails .outboundTimeout 4) ∧ (¬headLate → exec .outboundTimeout s = .next s) ∧
      exec .lockAbort s = .next s ∧ exec .retryReissue s = .next s) ∧
    (∀ o, s.br.out = some o → o.src ≠ .queue → s.up < o.since + 64000 →
      (headLate → ∃ t, exec .outboundTimeout s = .next t ∧ t.br.queue = rest ∧ t.br.out = s.br.out) ∧
      (¬headLate → exec .outboundTimeout s = .next s)) ∧
    ∀ o, s.br.out = some o → o.src = .queue →
      let late : Prop := o.since + 64000 ≤ s.up
      let frees (i : Instr) : Prop := ∃ t, exec i s = .next t ∧ t.fab.frel = s.fab.frel.inc
      let ready : Prop := o.phase = .retried ∧ onBus s = true ∧ granted s = true ∧ o.ended + 80 ≤ s.up
      (late → fails .outboundTimeout 4 ∧ (o.lock = true → frees .outboundTimeout)) ∧
      (¬late → exec .outboundTimeout s = .next s) ∧
      (o.lock = true → late ∨ e.orphan = true → fails .lockAbort 4 ∧ frees .lockAbort) ∧
      (o.lock = false ∨ ¬(late ∨ e.orphan = true) → exec .lockAbort s = .next s) ∧
      (ready → exec .retryReissue s = .next { s with br := { s.br with
        out := some { o with phase := .issued }, errN := false, parked := false } }) ∧
      (¬ready → exec .retryReissue s = .next s) ∧
      (o.phase ≠ .issued → ∀ r, exec (.targetResponse r) s = .next s) ∧
      (o.phase = .issued →
        (∃ t, exec (.targetResponse .retry) s = .next t ∧ t.br.retry = s.br.retry.inc ∧ t.br.out = some { o with phase := .retried, ended := s.up } ∧
          t.br.queue = s.br.queue) ∧
        fails (.targetResponse .masterAbort) 1 ∧ fails (.targetResponse .targetAbort) 2 ∧ (∀ ws, fails (.targetResponse (.parity ws)) 3) ∧
        ∀ r w ws, (r = .done (w :: ws) ∨ ∃ n, r = .disconnect n (w :: ws)) →
          let writes (b : Word) : Prop := ∃ t, exec (.targetResponse r) s = .next t ∧ t.br.queue = s.br.queue ∧
            t.br.out = some { o with write := true, got := onAd w } ∧ t.br.lastBus = some ⟨true, e.addr, [(onAd b, 0xF)]⟩
          (∀ v, e.kind = .store v → ∃ t, exec (.targetResponse r) s = .next t ∧ gone t ∧ t.br.log = s.br.log ∧ t.lanes = s.lanes) ∧
          (e.kind = .load → gives (.targetResponse r) (onAd w)) ∧
          (∀ a b, e.kind = .cas a b → (o.write = false → onAd w = a → writes b) ∧
            (o.write = false → onAd w ≠ a → gives (.targetResponse r) (onAd w)) ∧ (o.write = true → gives (.targetResponse r) o.got)) ∧
          (∀ b, e.kind = .xchg b → (o.write = false → writes b) ∧ (o.write = true → gives (.targetResponse r) o.got)))

/-- R471, R486 to R488: the movers. A piece goes up to the next 64-byte boundary of its Corbel addresses, one beat for each word that it touches
and no more than 16, with only its own bytes enabled; a write carries the bytes of Quay. A completed piece adds to the bytes moved. At the
end STATUS and CTRL are written and NEXT followed; a descriptor without OWN ends the chain, one that is not valid stops it with error 1. A
NEXT that lies beyond Quay ends the chain (the model's choice, assumption log entry 31). Concluding that the block answers a next state,
under conditions on state and operands alone, this gives the own effect of: MOVER_DESCRIPTOR_DONE. -/
def Obligations.MoversRunTheirChains : Prop :=
  ∀ (s : State) (n : Fin 8),
    let m := s.br.movers.get n
    let d := descAt s m.desc.toNat
    let a := d.caddr + m.moved
    let k := min (d.len - m.moved) (64 - a % 64)
    let o := m.desc.toNat
    m.busy = true → MemoriesOk s →
    (d.own = true → d.bad = false → d.dir < 2 → m.moved < d.len → onBus s = true → s.br.mt = true → granted s = true → s.br.out = none → s.quayDmg = [] →
      ∃ t x b, exec (.outboundIssue (.mover n)) s = .next t ∧ t.br.out = some x ∧ x.src = .mover n ∧ x.phase = .issued ∧
        x.write = (d.dir == 0) ∧ x.lock = false ∧ t.br.lastBus = some b ∧ b.write = (d.dir == 0) ∧ b.addr.toNat = (a / 4 * 4) % 2 ^ 32 ∧
        b.beats.length = (a % 4 + k + 3) / 4 ∧ b.beats.length ≤ 16 ∧
        (d.bo = false → ∀ i j, i < b.beats.length → j < 4 →
          let p := a / 4 * 4 + 4 * i + j
          ((b.beats.getD i (0, 0)).2.getLsbD (3 - j) = true ↔ a ≤ p ∧ p < a + k) ∧
          (d.dir = 0 → a ≤ p → p < a + k →
            let q := d.qaddr + m.moved + (p - a)
            byteOf (b.beats.getD i (0, 0)).1 (3 - j) = byteOf (quayWord s (q / 4 * 4)) (q % 4)))) ∧
    (∀ x, s.br.out = some x → x.src = .mover n → x.phase = .issued → d.own = true → d.bad = false → d.dir = 0 →
      (∀ j w, (s.br.movers.get j).owner = some w → masterMasked s w = false) →
      (∀ ws, exec (.targetResponse (.done ws)) s = .next { s with br := { s.br with out := none, idleAt := s.up, movers := s.br.movers.set n { m with moved := m.moved + k } } }) ∧
      (∃ t, exec (.targetResponse .masterAbort) s = .next t ∧ (t.br.movers.get n).busy = false ∧ (t.br.movers.get n).lastErr = 2) ∧
      (∃ t, exec (.targetResponse .targetAbort) s = .next t ∧ (t.br.movers.get n).busy = false ∧ (t.br.movers.get n).lastErr = 3) ∧
      (∀ ws, ∃ t, exec (.targetResponse (.parity ws)) s = .next t ∧ (t.br.movers.get n).busy = false ∧ (t.br.movers.get n).lastErr = 4)) ∧
    ((∀ x, s.br.out = some x → x.src ≠ .mover n) → o + 32 ≤ 0x7FFF00 →
      (d.own = false → exec (.moverDescriptorDone n .none) s =
        .next { s with br := { s.br with movers := s.br.movers.set n { m with busy := false, owner := none } } }) ∧
      (d.own = true → d.bad = true → ∃ t, exec (.moverDescriptorDone n .none) s = .next t ∧ (t.br.movers.get n).busy = false ∧
        (t.br.movers.get n).lastErr = 1 ∧ (quayWord t (o + 16)).toNat = 2 ^ 31 + 2 ^ 27 + m.moved % 2 ^ 24 ∧
        quayWord t o = quayWord s o &&& 0x7FFFFFFF) ∧
      (d.own = true → d.bad = false → d.dir < 2 → m.moved < d.len → exec (.moverDescriptorDone n .none) s = .next s) ∧
      (d.own = true → d.bad = false → d.dir < 2 → d.len ≤ m.moved → ∃ t, exec (.moverDescriptorDone n .none) s = .next t ∧
        (quayWord t (o + 16)).toNat = 2 ^ 31 + m.moved % 2 ^ 24 ∧ quayWord t o = quayWord s o &&& 0x7FFFFFFF ∧
        (d.next.toNat < 0x800000 → t.br.movers.get n = { m with desc := BitVec.ofNat 23 d.next.toNat, moved := 0 }) ∧
        (0x800000 ≤ d.next.toNat → (t.br.movers.get n).busy = false)))

/-- R459, R462, R464, R466, R478 to R484: the bridge as target. It claims a READ or WRITE of another master in the window whose parity holds; a
read that meets an outbound access which holds the fabric port makes that one back off, and the 16th back-off ends it. Written words wait in
the buffer and reach Quay in order; a write under IRO, into the mover area or after its lock was taken back is rejected; a read drains the
buffer first and answers from Quay, at once or on the repeated READ within 64 µs. With CB_LOCK_N high a Quay lock is released. R466, R468,
R488, R490: the rack. As arbiter the module grants the first requester after the slot granted last, keeps the grant while the bus is locked
and parks it where nobody asks; a grant that leaves the bus idle for 16 cycles is withdrawn and counted. CB_RST_N low ends what is under way
and stops the movers that use the bus; it goes high again, as arbiter after 100 ms. A falling interrupt line is latched. Concluding that the
block answers a next state, under conditions on state and operands alone, this gives the own effect of: INBOUND_CLAIM, INBOUND_WRITE,
INBOUND_READ, INBOUND_DATA_EXPIRE, INBOUND_LOCK_TIMEOUT, RACK_ARBITRATE, GRANT_WITHDRAW, CORBEL_RESET, CORBEL_INTERRUPT, RACK_RESET_RELEASE. -/
def Obligations.InboundAndRackSignals : Prop :=
  (∀ (s : State) (addr : Word) (slot : Fin 32),
     let w := s.br.iwin
     let base := field w 31 24 * 2 ^ 24
     let q (x : Nat) : Nat := (field w 16 10 * 65536 + (x - base)) % 0x800000
     let hits (c : AddrLines) : Prop := onBus s = true ∧ s.br.mt = true ∧ w.getLsbD 0 = true ∧ base ≤ addr.toNat ∧
       addr.toNat < base + 65536 * 2 ^ field w 19 17 ∧ slot.val ≠ rackSlot s ∧ (∀ o, s.br.out = some o → o.lock = false) ∧
       (c.cbe = 6 ∨ c.cbe = 7) ∧ c.par = evenPar addr c.cbe
     let claim (t : State) (write : Bool) : Prop := t.br.claimed = some (addr, write) ∧ t.br.inResp = .accepted
     let freed : Bridge := { s.br with busLock := none, locki := none, lockDead := false }
     (∀ c, ¬hits c →
       (slot.val = rackSlot s → ∀ lock, exec (.inboundClaim addr c lock slot) s = .next { s with br := { s.br with inResp := .ignored } }) ∧
       (slot.val ≠ rackSlot s → exec (.inboundClaim addr c true slot) s =
         .next { s with br := { s.br with busLock := some slot, inResp := .ignored } }) ∧
       (slot.val ≠ rackSlot s → exec (.inboundClaim addr c false slot) s = .next { s with br := { freed with inResp := .ignored } })) ∧
     (∀ c, hits c → ∀ lock, let run := exec (.inboundClaim addr c lock slot) s
       (c.cbe = 7 → ∃ t, run = .next t ∧ claim t true ∧ t.br.out = s.br.out ∧ t.br.queue = s.br.queue) ∧
       (c.cbe = 6 → holdsPort s = false → ∃ t, run = .next t ∧ claim t false ∧ t.br.out = s.br.out) ∧
       (s.br.lockDead = false ∨ lock = false → ∃ t, run = .next t ∧
         t.br.locki = (if lock then some (s.br.locki.getD (q addr.toNat / 64 * 64)) else none)) ∧
       (c.cbe = 6 → holdsPort s = true → ∃ t, run = .next t ∧ claim t false ∧
         t.br.backoff = s.br.backoff.inc ∧
         let o := portTx s
         (o.backoffs < 15 → t.fab.frel = s.fab.frel.inc ∧
           t.br.out = some { o with phase := .backedOff, backoffs := o.backoffs + 1, ended := s.up } ∧ t.br.queue = s.br.queue) ∧
         (15 ≤ o.backoffs → t.br.out = none ∧ (o.src = .queue → t.br.queue = s.br.queue.drop 1) ∧
           ∀ n, o.src = .mover n → (t.br.movers.get n).busy = false ∧ (t.br.movers.get n).lastErr = 6))) ∧
     (s.br.claimed = some (addr, true) →
       let reject (beats : List InBeat) (ans : InResp) : Prop := ∃ t, exec (.inboundWrite addr beats false) s = .next t ∧
         t.br.inerr = s.br.inerr.inc ∧ t.br.inbuf = s.br.inbuf ∧ t.quay = s.quay ∧ t.br.inResp = ans ∧ t.br.claimed = none
       (s.br.lockDead = true ∨ w.getLsbD 1 = true → ∀ beats, reject beats .abort) ∧
       (s.br.lockDead = false → w.getLsbD 1 = false → s.br.inbuf.length < 64 → ∀ x : InBeat,
         let o := q (addr.toNat / 4 * 4)
         (0x7FFF00 ≤ o → reject [x] .accepted) ∧
         (o < 0x7FFF00 → ∃ t, exec (.inboundWrite addr [x] false) s = .next t ∧ t.br.inResp = .accepted ∧ t.quay = s.quay ∧
           t.br.errN = (s.br.errN || x.par != evenPar x.data (~~~x.be)) ∧
           t.br.inbuf = s.br.inbuf ++ [⟨o, busWord (w.getLsbD 2) x.data, busEnables (w.getLsbD 2) x.be⟩]) ∧
         ∃ t, exec (.inboundWrite addr [x] true) s = .next t ∧ t.br.inbuf = []) ∧
       (s.br.lockDead = false → w.getLsbD 1 = false → 64 ≤ s.br.inbuf.length → ∀ beats, exec (.inboundWrite addr beats false) s =
         .next { s with br := { s.br with claimed := none, idleAt := s.up, inResp := .retry } })) ∧
     (s.br.claimed = some (addr, false) → s.br.lockDead = true → ∀ n ready hit, ∃ t, exec (.inboundRead addr n ready hit) s = .next t ∧
       t.br.inResp = .abort ∧ t.br.inerr = s.br.inerr.inc) ∧
     (s.br.claimed = some (addr, false) → s.br.lockDead = false → s.quayDmg = [] → ∀ n, 1 ≤ n →
       let k := min n (min 16 ((64 - addr.toNat / 4 * 4 % 64 + 3) / 4))
       let d := drainIn { s with br := { s.br with claimed := none, idleAt := s.up } }
       let ws := (List.range k).map fun i => busWord (w.getLsbD 2) (quayWord d (q (addr.toNat / 4 * 4 + 4 * i)))
       d.br.inbuf = [] ∧
       (∀ x, s.br.inData = some x → x.addr = addr → s.up < x.at_ + 64000 → ∀ ready, exec (.inboundRead addr n ready .none) s =
         .next { d with br := { d.br with inData := none, inResp := .data (x.data.take k) } }) ∧
       ((∀ x, s.br.inData = some x → x.addr ≠ addr ∨ x.at_ + 64000 ≤ s.up) →
         exec (.inboundRead addr n true .none) s = .next { d with br := { d.br with inResp := .data ws } } ∧
         exec (.inboundRead addr n false .none) s = .next { d with br := { d.br with inData := some ⟨addr, ws, s.up⟩, inResp := .retry } })) ∧
     exec .inboundDataExpire s = .next { s with br := { s.br with inData := s.br.inData.filter fun x => decide (s.up < x.at_ + 64000) } } ∧
     (s.br.locki = none ∨ s.up ≤ s.br.lockAt + 16000 → exec .inboundLockTimeout s = .next s) ∧
     (∀ o, s.br.locki = some o → s.br.lockAt + 16000 < s.up → ∃ t, exec .inboundLockTimeout s = .next t ∧ t.br.locki = none ∧
       t.br.lockDead = true ∧ t.br.inerr = s.br.inerr.inc ∧ t.fab.frel = s.fab.frel.inc)) ∧
  (∀ (s : State),
     let b := s.br
     let set (f : Bridge) : State := { s with br := f }
     let give (f : Bridge) (k : Fin 32) (parked : Bool) : State :=
       set { f with grant := some k, lastGrant := k, parked := parked, idleAt := if f.grant = some k then f.idleAt else s.up }
     let sampled (low : Bool) : Bridge := if low then { b with busLock := if b.busLock.isSome then b.busLock else b.grant }
       else { b with busLock := none, locki := none, lockDead := false }
     (rackArbiter s = true → (∀ o, b.out = some o → o.lock = false) → ∀ (reqs : Word) (low : Bool),
       let f := sampled low
       let wants (k : Fin 32) : Prop := if k.val = rackSlot s then ownRequest s = true else reqs.getLsbD k.val = true
       (∀ k, f.busLock = some k → exec (.rackArbitrate ⟨reqs, low⟩) s = .next (give f k false)) ∧
       (f.busLock = none → (∀ i, 1 ≤ i → i ≤ 32 → wants (b.lastGrant + Fin.ofNat 32 i) →
         (∀ j, 1 ≤ j → j < i → ¬wants (b.lastGrant + Fin.ofNat 32 j)) →
           exec (.rackArbitrate ⟨reqs, low⟩) s = .next (give f (b.lastGrant + Fin.ofNat 32 i) false)) ∧
         ((∀ k, ¬wants k) → exec (.rackArbitrate ⟨reqs, low⟩) s = .next (give f b.lastGrant true)))) ∧
     (rackArbiter s = true → (∃ o, b.out = some o ∧ o.lock = true) → ∀ x,
       exec (.rackArbitrate x) s = .next (give b (Fin.ofNat 32 (rackSlot s)) false)) ∧
     (rackArbiter s = false → ∀ x, exec (.rackArbitrate x) s = .next s) ∧
     (let unused : Prop := rackArbiter s = true ∧ b.claimed = none ∧ (∀ o, b.out = some o → o.phase ≠ .issued) ∧ b.parked = false ∧
        b.idleAt + 640 ≤ s.up
      (unused → ∀ g, b.grant = some g →
        exec .grantWithdraw s = .next (record (set { b with grant := none, arbidle := b.arbidle.inc }) 0x0809 (d1 g.val))) ∧
      (¬unused ∨ b.grant = none → exec .grantWithdraw s = .next s)) ∧
     (onBus s = true → (∀ m, (b.movers.get m).busy = true → (b.movers.get m).desc.toNat + 32 ≤ 0x7FFF00) → ∃ t, exec .corbelReset s = .next t ∧ t.br.rstLow = true ∧ t.br.claimed = none ∧ t.br.locki = none ∧
       t.br.grant = none ∧ t.br.busLock = none ∧ t.br.inData = none ∧
       (b.out = none → t.br.queue = b.queue) ∧
       (∀ o, b.out = some o → (o.src = .queue → b.queue ≠ [] → t.br.out = none ∧ t.br.queue = b.queue.drop 1) ∧
         ∀ n, o.src = .mover n → t.br.out = none ∧ (t.br.movers.get n).lastErr = 8) ∧
       (∀ n, b.out = none → (b.movers.get n).busy = true → (∀ m, m ≠ n → (b.movers.get m).busy = false) →
         (descAt s (b.movers.get n).desc.toNat).own = true → (descAt s (b.movers.get n).desc.toNat).dir < 2 →
         (t.br.movers.get n).busy = false ∧ (t.br.movers.get n).lastErr = 8)) ∧
     (onBus s = false → exec .corbelReset s = .next s) ∧
     (let held : Prop := s.pw.straps.cbrole = 2 ∧ s.up < b.bootAt + 100000000
      (awake s = true → ¬held → exec .rackResetRelease s = .next (set { b with rstLow := false })) ∧
      (awake s = false ∨ held → exec .rackResetRelease s = .next s)) ∧
     (onBus s = true → ∀ i : Fin 4, ∃ t, exec (.corbelInterrupt i) s = .next t ∧ t.br.inte.getLsbD i.val = true ∧
       (∀ j, j ≠ i.val → t.br.inte.getLsbD j = b.inte.getLsbD j) ∧ t = set { b with inte := t.br.inte, intl := t.br.intl }))

/-- R500 to R503: the arbiters. The first requester in round-robin order after the last winner whose WAIT reads 8 wins; where none reads 8, the
highest priority wins, and of equals the first in that order. Losers count up to 8, the winner's count returns to 0; masked requesters take
no part. A priority that the steward writes changes no WAIT and no holder. Concluding that the block answers a next state, under conditions
on state and operands alone, this gives the own effect of: ARBITER_CONTEST, AR_PRI_WRITE. -/
def Obligations.ArbiterContests : Prop :=
  ∀ (s : State) (a : Bool) (reqs : BitVec 14),
    let arb (t : State) : Arbiter := if a then t.fab.bridgeArb else t.fab.quayArb
    let other (t : State) : Arbiter := if a then t.fab.quayArb else t.fab.bridgeArb
    let x := arb s
    let asks (q : Fin 14) : Prop := reqs.getLsbD q.val = true ∧ masked s q = false ∧ (a = true → q.val ≠ 4 ∧ q.val ≠ 13)
    let q (i : Nat) : Fin 14 := Fin.ofNat 14 (x.last.val + i)
    let full (r : Fin 14) : Prop := (x.wait.get r).val = 8
    let won (w : Fin 14) : Prop := ∃ t, exec (.arbiterContest a reqs) s = .next t ∧ other t = other s ∧ (arb t).holder = some w ∧
      (arb t).last = w ∧ (arb t).pri = x.pri ∧ t = { s with fab := t.fab } ∧
      ∀ r, (asks r → r ≠ w → ((arb t).wait.get r).val = min 8 ((x.wait.get r).val + 1)) ∧ (¬asks r → r ≠ w → (arb t).wait.get r = x.wait.get r) ∧
        ((arb t).wait.get w).val = 0
    (∀ i, 1 ≤ i → i ≤ 14 → asks (q i) → full (q i) → (∀ j, 1 ≤ j → j < i → ¬(asks (q j) ∧ full (q j))) → won (q i)) ∧
    ((∀ r, asks r → ¬full r) → ∀ i, 1 ≤ i → i ≤ 14 → asks (q i) → (∀ r, asks r → (x.pri.get r).toNat ≤ (x.pri.get (q i)).toNat) →
      (∀ j, 1 ≤ j → j < i → asks (q j) → (x.pri.get (q j)).toNat < (x.pri.get (q i)).toNat) → won (q i)) ∧
    ((∀ r, ¬asks r) → ∃ t, exec (.arbiterContest a reqs) s = .next t ∧ arb t = { x with holder := none } ∧ other t = other s) ∧
    ∀ (r : Fin 14) (v : BitVec 4),
      (stewardRuns s = true → r.val ≠ 13 → (a = true → r.val ≠ 4) → ∃ t, exec (.arPriWrite a r v) s = .next t ∧
        arb t = { x with pri := x.pri.set r v } ∧ other t = other s ∧ SlackDom.regs 6 ∉ t.pw.asleep ∧
        t = { s with fab := t.fab, pw := { s.pw with asleep := t.pw.asleep } }) ∧
      (stewardRuns s = false ∨ r.val = 13 ∨ (a = true ∧ r.val = 4) → exec (.arPriWrite a r v) s = .next s)

/-- R509 to R515, R518: the scrubber over the memories that have an address table. A sound word is left alone; an uncorrectable one is counted
and its address kept; a correctable one is counted and entered in the table, and a soft error is cured by the write-back where a hard fault
stays. An address that corrects again after a write-back becomes HARD, with event 0x0903. R516, R541: the scrubber at the sectors of the
flash devices. A correctable sector is counted, and from 4 corrected bits on the steward begins to rewrite its block; a later scrub read of
flash ends the rewrite. An uncorrectable sector is counted and its place kept, so that a later read finds it again. From derating step 1 on
the pass is deferred. R35, R38 to R40, R47, R531: register writes from outside an instruction. Writing 1 clears latched bits and counters
with their overflow bits; AR_PRI takes only the steward's writes; a register that takes no write, and an address without a register, keep
everything. A domain that is idle closes its clock gate, keeps its contents, and opens it with the next access. Concluding that the block
answers a next state, under conditions on state and operands alone, this gives the own effect of: SCRUB_READ, DOMAIN_SLACK_ENTRY,
REGISTER_WRITE. -/
def Obligations.ScrubberAndRegisterWrites : Prop :=
  (∀ (s : State) (m : MemId) (addr : Nat), awake s = true → hasTable m = true →
     let a := if m = .mram then addr / 8 * 8 else addr / 4 * 4
     let e := eccGet s m
     let at_ (i : Fin 16) : Prop := (e.table.get i).valid = true ∧ (e.table.get i).addr = BitVec.ofNat 32 a
     (dmgFind (dmgOf s m) a = .none → exec (.scrubRead m addr .none 0) s = .next s) ∧
     (dmgFind (dmgOf s m) a = .bad → ∃ t, exec (.scrubRead m addr .none 0) s = .next t ∧ (eccGet t m).unc = e.unc.inc ∧
       (eccGet t m).uaddr = BitVec.ofNat 32 a ∧ (eccGet t m).corr = e.corr ∧ (eccGet t m).table = e.table ∧ dmgOf t m = dmgOf s m) ∧
     ∀ b : Fin 72, dmgFind (dmgOf s m) a = .soft b ∨ dmgFind (dmgOf s m) a = .hard b → ∃ t, exec (.scrubRead m addr .none 0) s = .next t ∧
       (eccGet t m).corr = e.corr.inc ∧ (eccGet t m).unc = e.unc ∧
       (dmgFind (dmgOf s m) a = .soft b → dmgFind (dmgOf t m) a = .none) ∧ (dmgFind (dmgOf s m) a = .hard b → dmgOf t m = dmgOf s m) ∧
       (∀ i, at_ i → (∀ j, j < i → ¬at_ j) → (eccGet t m).tlost = e.tlost ∧ (∀ j, ¬at_ j → (eccGet t m).table.get j = e.table.get j) ∧
         let x := e.table.get i
         let y := (eccGet t m).table.get i
         y.valid = true ∧ y.addr = x.addr ∧ y.bit.toNat = b.val ∧ y.count.toNat = min 65535 (x.count.toNat + 1) ∧ y.hard = (x.hard || x.scrubbed) ∧
           y.scrubbed = true) ∧
       ((∀ i, ¬at_ i) → ∀ k, (e.table.get k).valid = false → (∀ j, j < k → (e.table.get j).valid = true) →
         (eccGet t m).tlost = e.tlost ∧ (eccGet t m).table = e.table.set k ⟨BitVec.ofNat 32 a, true, false, BitVec.ofNat 7 b.val, 1, true⟩) ∧
       ((∀ i, ¬at_ i) → (∀ k, (e.table.get k).valid = true) → (eccGet t m).tlost = e.tlost.inc ∧ (eccGet t m).table = e.table)) ∧
  (∀ (s : State) (d : BankId) (addr bits : Nat) (h : Hit), awake s = true → addr < 0x10000000 →
     let m : MemId := match d with
       | .a => .f1
       | .b => .f2
     let known : Prop := addr / 512 ∈ (bankOf s d).bad
     let scrub (p : State → Prop) : Prop := ∃ t, exec (.scrubRead m addr h bits) s = .next t ∧ p t
     (s.pw.dstep ≠ 0 → exec (.scrubRead m addr h bits) s = .next s) ∧
     (s.pw.dstep = 0 →
       (¬known → h = .none → s.boot.refresh = none → SlackDom.flash ∉ s.pw.asleep → exec (.scrubRead m addr h bits) s = .next s) ∧
       (¬known → h = .none → scrub fun t => SlackDom.flash ∉ t.pw.asleep ∧ t.boot.refresh = none ∧ bankOf t = bankOf s ∧ eccGet t m = eccGet s m) ∧
       (∀ b, ¬known → h = .soft b ∨ h = .hard b →
         (4 ≤ bits → stewardRuns s = true → scrub fun t => t.boot.refresh = some ⟨d, addr / 0x20000, bits⟩ ∧ bankOf t = bankOf s ∧
           (eccGet t m).corr = (eccGet s m).corr.inc ∧ (eccGet t m).unc = (eccGet s m).unc) ∧
         (bits < 4 → scrub fun t => t.boot.refresh = none ∧ bankOf t = bankOf s ∧ (eccGet t m).corr = (eccGet s m).corr.inc)) ∧
       (known ∨ h = .bad → scrub fun t => t.boot.refresh = none ∧ addr / 512 ∈ (bankOf t d).bad ∧ (eccGet t m).unc = (eccGet s m).unc.inc ∧
         (eccGet t m).corr = (eccGet s m).corr ∧ (bankOf t d).fw = (bankOf s d).fw ∧ (bankOf t d).app0 = (bankOf s d).app0 ∧
         (bankOf t d).app1 = (bankOf s d).app1 ∧ bankOf t (otherBank d) = bankOf s (otherBank d)))) ∧
  (∀ (s : State) (v : Word), awake s = true →
     let writes (addr : Word) (x : Option Ctx) (p : State → Prop) : Prop := ∃ t, exec (.registerWrite x addr v) s = .next t ∧ p t
     let cleared (i : Nat) (x y : Stat) : Prop := y = if v.getLsbD i then ⟨0, false⟩ else x
     (∀ x, writes 0x4400000C x fun t => (∀ j, j < 4 → t.br.inte.getLsbD j = (s.br.inte.getLsbD j && !v.getLsbD (4 + j))) ∧
       t.br.pwerr = (s.br.pwerr && !v.getLsbD 0)) ∧
     (∀ x, writes 0x44000024 x fun t => cleared 0 s.br.backoff t.br.backoff ∧ cleared 1 s.br.retry t.br.retry ∧ cleared 2 s.br.pwlost t.br.pwlost ∧
       cleared 3 s.br.inerr t.br.inerr ∧ cleared 4 s.br.arbidle t.br.arbidle) ∧
     (∀ (x : Option Ctx) (e : Fin 16), writes (BitVec.ofNat 32 (0x44000104 + 16 * e.val)) x fun t =>
       t.br.log = if v.getLsbD 31 then s.br.log.set e ⟨false, 0, 0, 0, 0, false, 0, 0, 0⟩ else s.br.log) ∧
     (∀ x, writes 0x47000100 x fun t => t.fab.qlbrk = s.fab.qlbrk &&& ~~~v) ∧
     (∀ x, writes 0x47000108 x fun t => cleared 0 s.fab.frel t.fab.frel) ∧
     (∀ (b : Bool) (q : Fin 13), (b = true → q.val ≠ 4) →
       let addr := BitVec.ofNat 32 (0x47000000 + (if b then 0x40 else 0) + 4 * q.val)
       (writes addr none fun t => (if b then t.fab.bridgeArb else t.fab.quayArb).pri.toList[q.val]? = some (v.setWidth 4)) ∧
       ∀ x, writes addr (some x) fun t => SlackDom.regs 6 ∉ t.pw.asleep ∧ t = { s with pw := { s.pw with asleep := t.pw.asleep } }) ∧
     (∀ (m : Fin 5) (x : Option Ctx), writes (BitVec.ofNat 32 (0x4780000C + 256 * m.val)) x fun t =>
       let n : MemId := if m = 0 then .lane .a else if m = 1 then .lane .b else if m = 2 then .lane .c else if m = 3 then .quay else .mram
       cleared 0 (eccGet s n).corr (eccGet t n).corr ∧ cleared 1 (eccGet s n).unc (eccGet t n).unc ∧ cleared 2 (eccGet s n).tlost (eccGet t n).tlost) ∧
     (∀ x addr, (addr.toNat % 4 ≠ 0 ∨ regAt addr.toNat = none) → exec (.registerWrite x addr v) s = .next s) ∧
     (∀ x, exec (.registerWrite x 0x40000000 v) s = .next s) ∧
     (∀ d : SlackDom, d ∉ s.pw.asleep → (∀ l p, d = .cores l p → (pair s l p).active = none ∧ (pair s l p).split = false) →
       exec (.domainSlackEntry d) s = .next { s with pw := { s.pw with asleep := d :: s.pw.asleep } }) ∧
     (∀ l p, (pair s l p).active.isSome = true ∨ (pair s l p).split = true → exec (.domainSlackEntry (.cores l p)) s = .next s) ∧
     (∀ c : Ctx, writes 0x4400000C (some c) fun t => SlackDom.regs 4 ∉ t.pw.asleep))

/-- R519 to R528: the feeds. An active feed out of limits hands over to a standby feed, with a switchover counted; without one the hold-up store
carries the bus. A feed in limits ends the hold-up or becomes standby; the preferred one is active again after HOLD seconds where POLICY
FEED lets it return. The store recharges; when it runs down every domain is reset and the module is OFF, and only the lifetime counters of
the Headland stay. Power-on samples the straps, counts a power cycle and closes the preferred feed in limits, else the other. Concluding
that the block answers a next state, under conditions on state and operands alone, this gives the own effect of: FEED_OUT_OF_LIMITS,
FEED_IN_LIMITS, FEED_RETURN, STORE_DEPLETED, POWER_ON, STORE_RECHARGED, OPERATING_SECONDS_INCREMENT. -/
def Obligations.FeedsCarryTheModule : Prop :=
  ∀ (s : State) (f : FeedId),
    let o := otherFeed f
    (s.pw.state ≠ .off → feedUsed s f = true → ∀ mv,
      let out (p : State → Prop) : Prop := ∃ t, exec (.feedOutOfLimits f mv) s = .next t ∧ (feedOf t f).inLim = false ∧
        (feedOf t f).v.toNat = min 65535 (mv / 10) ∧ feedOf t o = feedOf s o ∧ p t
      (s.pw.active = some f → isStandby s o = true → out fun t => t.pw.active = some o ∧ t.pw.swcnt = s.pw.swcnt.inc ∧ t.pw.full = false ∧
        t.pw.lastSwitch = some s.up ∧ t.pw.holdup = s.pw.holdup) ∧
      (s.pw.active = some f → isStandby s o = false → out fun t => t.pw.active = none ∧ t.pw.holdup = true ∧ t.pw.holdupAt = s.up ∧
        t.pw.holdcnt = s.pw.holdcnt.inc) ∧
      (s.pw.active ≠ some f → out fun t => t.pw.active = s.pw.active ∧ t.pw.holdup = s.pw.holdup ∧ t.pw.swcnt = s.pw.swcnt) ∧
      ∀ x, let into (p : State → Prop) : Prop := ∃ t, exec (.feedInLimits f mv x) s = .next t ∧ (feedOf t f).inLim = true ∧
          feedOf t o = feedOf s o ∧ t.pw.straps = s.pw.straps ∧ p t
        (s.pw.holdup = true → into fun t => t.pw.active = some f ∧ t.pw.holdup = false ∧ t.pw.chg = (s.pw.chg || decide (x ≠ s.pw.straps))) ∧
        (s.pw.holdup = false → (feedOf s f).inLim = false → s.pw.active ≠ some f → into fun t => t.pw.active = s.pw.active ∧
          (feedOf t f).stbyAt = some s.up)) ∧
    (s.pw.state ≠ .off → s.pw.holdup = false → s.pw.pref.toNat < 2 → f = preferred s → isStandby s f = true →
      ((policy s).feedReturn = false → s.pw.retSaid = false → ∃ u, u.pw = { s.pw with retSaid := true } ∧
        exec .feedReturn s = .next (record u 0x0111 (feedData f))) ∧
      ((policy s).feedReturn = false → s.pw.retSaid = true → exec .feedReturn s = .next s) ∧
      (∀ q, (feedOf s f).stbyAt = some q → (policy s).feedReturn = true →
        (q + (policy s).feedHold * 1000000000 ≤ s.up → ∃ u, u.pw.active = some f ∧ exec .feedReturn s = .next (record u 0x0103 (feedData f))) ∧
        (s.up < q + (policy s).feedHold * 1000000000 → exec .feedReturn s = .next s))) ∧
    (s.pw.state ≠ .off → s.pw.holdup = false → exec .storeRecharged s = .next { s with pw := { s.pw with full := true } }) ∧
    (s.pw.state ≠ .off → s.pw.holdup = true → ∃ t, exec .storeDepleted s = .next t ∧ t.pw.state = .off ∧ t.pw.opsec = s.pw.opsec ∧
      t.pw.pcyc = s.pw.pcyc ∧ t.ctl.state = .cold ∧ (∀ l, (lane t l).st = .absent) ∧ t.quay = [] ∧ t.svc.sessions = [] ∧
      t.boot.bankA = s.boot.bankA ∧ t.boot.bankB = s.boot.bankB ∧ t.svc.recs = s.svc.recs) ∧
    (s.pw.state = .off → ∀ (x : Straps) un va vb,
      let within (mv : Nat) : Prop := 16800 ≤ mv ∧ mv ≤ 30000
      let first := if x.feedcfg.getLsbD 0 then (vb, FeedId.feedB) else (va, .feedA)
      let second := if x.feedcfg.getLsbD 0 then (va, FeedId.feedA) else (vb, .feedB)
      let starts (g : FeedId) : Prop := ∃ t, exec (.powerOn x un va vb) s = .next t ∧ t.pw.state = .run ∧ t.pw.straps = x ∧ t.pw.unstable = un ∧
        t.pw.active = some g ∧ t.pw.pcyc.toNat = min (2 ^ 32 - 1) (s.pw.pcyc.toNat + 1) ∧ t.ctl.state = .cold ∧ (∀ l, (lane t l).st = .absent)
      (within first.1 → starts first.2) ∧
      (¬within first.1 → within second.1 → x.feedcfg.getLsbD 1 = false → starts second.2) ∧
      (¬within first.1 → (x.feedcfg.getLsbD 1 = true ∨ ¬within second.1) → exec (.powerOn x un va vb) s = .next s)) ∧
    (s.pw.state ≠ .off → ∃ t, exec .operatingSecondsIncrement s = .next t ∧ t.pw.opsec.toNat = min (2 ^ 32 - 1) (s.pw.opsec.toNat + 1) ∧
      t = { s with pw := { s.pw with opsec := t.pw.opsec } }) ∧
    (s.pw.state = .off → exec .operatingSecondsIncrement s = .next s ∧ exec .storeRecharged s = .next s ∧ exec .storeDepleted s = .next s)

/-- R353, R439, R440, R535 to R539: NEAP. At a boundary that is a multiple of 4,000, after the quiet time, the refusers that refuse are counted
and the entry does not begin; where none refuses the module enters NEAP unless a wake event abandons the entry, which then leaves everything
but the records as it was. In NEAP the lanes are without power, every switch is open, the islands sleep and those of wake channels watch
with their thresholds and filter. The wake latch holds 16 events; a wake event, a change to ON that a wake channel has accepted, or energy
on a port of line A from 1 s of NEAP on, starts the domains again with the controller in COLD, and the module sends on BAF and BAR.
Concluding that the block answers a next state, under conditions on state and operands alone, this gives the own effect of:
BACKBONE_ENERGY_WAKE, NEAP_ATTEMPT, WAKE_LATCH, WAKE. -/
def Obligations.NeapEntryAndWake : Prop :=
  ∀ (s : State) (i : NeapInputs),
    let due : Prop := awake s = true ∧ s.tide % 4000 = 0 ∧ max s.pw.lastWake s.pw.lastTry + (policy s).sleepQuiet * 1000000000 ≤ s.up
    let s1 : State := { s with pw := { s.pw with lastTry := s.up } }
    let stays (t : State) : Prop := t.ctl = s.ctl ∧ t.lanes = s.lanes ∧ t.chans = s.chans ∧ t.net = s.net ∧ t.ring = s.ring ∧ t.pw.state = s.pw.state
    let inNeap (t : State) : Prop := t.pw.state = .neap ∧ (∀ l, (lane t l).st = .absent) ∧ t.ctl.state = .cold ∧
      (∀ c, (t.chans.get c).closed = false ∧ (if chanKind s c = some .wake then (t.chans.get c).asleep = false ∧
        (t.chans.get c).wcfg.isSome = true else (t.chans.get c).asleep = true)) ∧ t.quay = [] ∧ t.pw.latch = [] ∧ t.ring.relay = false
    let may (src : WakeSrc) : Prop := match src with
      | .powerOn => False
      | .channel c => (s.chans.get c).wcfg.isSome = true ∧ (s.chans.get c).acc = true
      | .baf => s.pw.neapAt + 1000000000 ≤ s.up
      | .bar => s.pw.neapAt + 1000000000 ≤ s.up
      | _ => True
    (¬due → ∀ r, exec (.neapAttempt i r) s = .next s) ∧
    (due → refusers s1 i ≠ [] → ∀ r, ∃ t, exec (.neapAttempt i r) s = .next t ∧ stays t ∧ t.pw.lastTry = s.up ∧
      (∀ n : Fin 7, (∀ x ∈ refusers s1 i, x.1 ≠ n.val) → t.pw.nref.get n = s.pw.nref.get n) ∧
      ∀ x, (refusers s1 i).getLast? = some x → t.pw.reflast = BitVec.ofNat 16 (x.1 * 4096 + x.2 * 16)) ∧
    (due → refusers s1 i = [] →
      (∃ t, exec (.neapAttempt i none) s = .next t ∧ inNeap t) ∧
      ∀ b j x, s.rc.waiting = none → abortCause (refusers (record s1 0x0107 (d4 s.tide)) j) = some x →
        ∃ t, exec (.neapAttempt i (some (b, j))) s = .next t ∧ stays t ∧
          t.pw.reflast = BitVec.ofNat 16 (x.1 * 4096 + x.2 * 16 + if b then 2 else 1)) ∧
    ((policy s).sleep = false → (0, 0x01) ∈ refusers s i) ∧ (s.svc.sessions ≠ [] → (3, 0x31) ∈ refusers s i) ∧
    (s.ctl.state = .setup → (6, 0x61) ∈ refusers s i) ∧ (s.pw.full = false → (5, 0x51) ∈ refusers s i) ∧
    (i.wakeN = true → (2, 0x21) ∈ refusers s i) ∧
    (∀ src w, (s.pw.state = .neap → may src → s.pw.latch.length < 16 →
        exec (.wakeLatch src w) s = .next { s with pw := { s.pw with latch := s.pw.latch ++ [(src, w)] } }) ∧
      (s.pw.state ≠ .neap ∨ ¬may src ∨ 16 ≤ s.pw.latch.length → exec (.wakeLatch src w) s = .next s)) ∧
    (let wakes (c : Instr) (src : WakeSrc) (x : Straps) : Prop := ∃ t, exec c s = .next t ∧ t.pw.state = .run ∧ t.pw.straps = x ∧
        t.pw.lastWake = s.up ∧ t.pw.latched = !s.pw.latch.isEmpty ∧ t.pw.nlatch = BitVec.ofNat 5 s.pw.latch.length ∧
        t.pw.wakeSrc = ((s.pw.latch.head?.map (·.1)).getD src) ∧ t.ctl.state = s.ctl.state ∧ t.pw.pcyc = s.pw.pcyc ∧
        (∀ c, (t.chans.get c).asleep = false) ∧ t.ring.relay = false ∧ ∀ p : Port, p = 32 ∨ p = 33 → (port t p).speed = 2
     (s.pw.state = .neap → ∀ src x un, may src → wakes (.wake src x un) src x) ∧
     (∀ src, s.pw.state ≠ .neap ∨ ¬may src → ∀ x un, exec (.wake src x un) s = .next s) ∧
     (s.pw.state = .neap → s.up < s.pw.neapAt + 1000000000 → ∀ i, exec (.backboneEnergyWake i) s = .next s) ∧
     (s.pw.state = .neap → s.pw.neapAt + 1000000000 ≤ s.up → wakes (.backboneEnergyWake 0) .baf s.pw.straps ∧ wakes (.backboneEnergyWake 1) .bar s.pw.straps) ∧
     (exec (.backboneEnergyWake 2) s = .next s ∧ exec (.backboneEnergyWake 3) s = .next s))

/-- R313, R541, R543, R544, R631, R633: temperatures, clocks and the front panel. The derating step follows the inlet temperature with 3 °C of
hysteresis; a part that loses its PLL is recorded once, and a lane's loss makes it ABSENT; the LED test shows its pattern for 10 s; the
service button lights every LED or brings MNT up; a backbone port without link whose dwell has passed changes its PHY role and draws its
next dwell, between 16 ms and 31 ms, from the sequence of the module's UID. Concluding that the block answers a next state, under conditions
on state and operands alone, this gives the own effect of: BACKBONE_PHY_DWELL, DERATING_STEP, PLL_LOCK_LOSS, PM_LED_WRITE, LED_TEST_EXPIRE,
SERVICE_BUTTON_PRESS, SERVICE_BUTTON_HOLD. -/
def Obligations.PanelAndDerating : Prop :=
  ∀ (s : State),
    let ts : Int := ((policy s).derate : Int)
    (∀ inlet a b c, stewardRuns s = true → ∃ t, exec (.deratingStep inlet a b c) s = .next t ∧ t.pw.inlet = inlet ∧ t.pw.laneTemp = a ∧
      t.pw.ksTemp = b ∧ t.pw.ppTemp = c ∧
      let x := inlet.toInt
      (x < ts - 3 → t.pw.dstep = 0) ∧ (ts - 3 < x → x < ts → t.pw.dstep.toNat = min s.pw.dstep.toNat 1) ∧
      (ts ≤ x → x ≤ ts + 2 → t.pw.dstep = 1) ∧ (ts + 2 < x → x < ts + 5 → t.pw.dstep.toNat = max 1 (min s.pw.dstep.toNat 2)) ∧
      (ts + 5 ≤ x → x ≤ ts + 7 → t.pw.dstep = 2) ∧ (ts + 7 < x → x < ts + 10 → t.pw.dstep.toNat = max 2 s.pw.dstep.toNat) ∧
      (ts + 10 ≤ x → t.pw.dstep = 3)) ∧
    (stewardRuns s = false → ∀ x a b c, exec (.deratingStep x a b c) s = .next s) ∧
    (s.pw.state = .run → (∀ l, PllPart.lane l ∉ s.pw.pllLost → ∃ t, exec (.pllLockLoss (.lane l)) s = .next t ∧ (lane t l).st = .absent ∧
        PllPart.lane l ∈ t.pw.pllLost) ∧
      (PllPart.parapet ∉ s.pw.pllLost → ∃ t, exec (.pllLockLoss .parapet) s = .next t ∧ PllPart.parapet ∈ t.pw.pllLost) ∧
      (PllPart.keystone ∉ s.pw.pllLost → ∃ t, exec (.pllLockLoss .keystone) s = .next t ∧ PllPart.keystone ∈ t.pw.pllLost ∧ awake t = false)) ∧
    (∀ p, p ∈ s.pw.pllLost → exec (.pllLockLoss p) s = .next s) ∧
    (awake s = true → ∀ v : Word, ∃ t, exec (.pmLedWrite v) s = .next t ∧ t.pw.ledTest = v.getLsbD 31 ∧ (v.getLsbD 31 = true → leds t = v.setWidth 9) ∧
      faultRelay t = faultRelay s) ∧
    (s.pw.ledTest = true → s.pw.ledTestAt + 10000000000 ≤ s.up →
      exec .ledTestExpire s = .next { s with pw := { s.pw with ledTest := false } }) ∧
    (s.pw.ledTest = false ∨ s.up < s.pw.ledTestAt + 10000000000 → exec .ledTestExpire s = .next s) ∧
    (awake s = true → (∃ t, exec .serviceButtonPress s = .next t ∧ (s.pw.ledTest = false → leds t = BitVec.allOnes 9) ∧
        t = { s with pw := { s.pw with litUntil := s.up + 3000000000 } }) ∧
      ∃ u, exec .serviceButtonHold s = .next (record u 0x0B0D []) ∧ u.pw = { s.pw with mntForced := true } ∧ (port u mntPort).speed = 2) ∧
    (awake s = false → exec .serviceButtonPress s = .next s ∧ exec .serviceButtonHold s = .next s) ∧
    ∀ i : Fin 4, let y := port s (bbPort i)
      (ringRuns s = true → y.link = false → y.roleAt + y.dwell * 1000000 ≤ s.up → ∃ n, 16 ≤ n ∧ n ≤ 31 ∧
        n % 16 = (Config.draw s.fresh s.boot.uid.toNat).toNat % 16 ∧
        exec (.backbonePhyDwell i) s =
          .next (modPort { s with fresh := s.fresh + 1 } (bbPort i) fun x => { x with lead := !x.lead, dwell := n, roleAt := s.up })) ∧
      (y.link = true ∨ s.up < y.roleAt + y.dwell * 1000000 → exec (.backbonePhyDwell i) s = .next s)

/-- R2, R516, R580, R588 to R590, R597, R602: the boot ROM. The module as delivered boots bank A, and its controller goes from COLD to STOPPED.
The checks of R580 end with the sectors that cannot be read, and an unfinished rewrite is completed. A usable journal names the bank: ACTIVE
when it is CONFIRMED or REVERTED, the target while a staged image has starts left, ACTIVE again after the third start or a trial run; the
firmware must pass its checks. Where the ACTIVE bank fails, the other boots if OTHERVAL allows it, as REVERTED with reason 0x05; where none
passes, the recovery service starts. Without a usable journal BOOTSEL prefers a bank and a fresh journal is written. R585, R586, R596, R598:
the trial of a staged image and its fuses. VERIFY checks both images of the target bank and MIGRATE writes its settings from those of the
ACTIVE bank, which stay as they are; each success begins the next step and each failure reverts and resets. The fuses rise to the target
count, NEWVKEY fills an empty vendor slot, and CONFIRM is then answered. Concluding that the block answers a next state, under conditions on
state and operands alone, this gives the own effect of: BOOT_BANK_SELECT, TRIAL_STEP, FUSE_BURN_DONE. -/
def Obligations.BootAndTrial : Prop :=
  (∀ (s : State), awake s = true → s.boot.booted = false → s.boot.romSvc = false → s.pw.straps.ftestN = true →
     let j := journalOf s
     let sel := s.pw.straps.bootsel.toNat
     let check (b : BankId) : Byte := bootCheck s b false false
     let usable : Prop := ¬(s.boot.copy0 = none ∧ s.boot.copy1 = none)
     let active : BankId := j.active
     let other : BankId := otherBank active
     let starts (b : BankId) (src : BootSrc) (p : Journal → Prop) : Prop := ∃ t, exec .bootBankSelect s = .next t ∧ t.boot.booted = true ∧ t.boot.refresh = none ∧
       t.boot.bank = b ∧ t.boot.src = src ∧ p (journalOf t)
     let recovery : Prop := ∃ t, exec .bootBankSelect s = .next t ∧ t.boot.romSvc = true ∧ t.boot.booted = false ∧ t.ctl.state = s.ctl.state
     let again (reason : Byte) : Prop := ∃ t, exec .bootBankSelect s = .next t ∧ t.boot.booted = false ∧ (journalOf t).state = .reverted ∧
       (journalOf t).reason = reason ∧ t.ctl.state = .cold
     let fromActive (p : Journal → Prop) : Prop :=
       (check active = 0 → starts active .journal p) ∧
       (check active ≠ 0 → j.otherval = true → check other = 0 →
         starts other .fallback fun k => k.state = .reverted ∧ k.active = other ∧ k.otherval = false ∧ k.reason = 0x05) ∧
       (check active ≠ 0 → (j.otherval = false ∨ check other ≠ 0) → recovery)
     let reverted (reason : Byte) : Prop := fromActive fun k => k.state = .reverted ∧ k.reason = reason ∧ k.active = active
     let trial (step : JStep) (n : Nat) : Prop :=
       (check other = 0 → (step ≠ .verify → bootCheck s other true false = 0) → starts other .journal fun k =>
         k.state = .trialBoot ∧ k.step = step ∧ k.attempt.toNat = n ∧ k.active = active) ∧
       (check other ≠ 0 → again (check other)) ∧
       (check other = 0 → step ≠ .verify → bootCheck s other true false ≠ 0 → again (bootCheck s other true false))
     (let d := State.reset.boot
      s.boot.bankA = d.bankA → s.boot.bankB = d.bankB → s.boot.copy0 = d.copy0 → s.boot.copy1 = d.copy1 → s.boot.vkeys = d.vkeys → s.boot.rb = 0 →
       s.ctl.state = .cold → ∃ t, exec .bootBankSelect s = .next t ∧ t.boot.booted = true ∧ t.boot.bank = .a ∧ t.boot.src = .journal ∧
         t.ctl.state = .stopped) ∧
     (∀ b app second,
       let r := checkImage s (imageAt (bankOf s b) app second) app
       let lo := if app then (if second then 0x3800000 else 0x2000000) else 0
       let hi := lo + 4096 + imgLen (imageAt (bankOf s b) app second)
       let broken : Prop := ∃ k ∈ (bankOf s b).bad, lo < 512 * k + 512 ∧ 512 * k < hi
       (r ≠ 0 → bootCheck s b app second = r) ∧ (r = 0 → broken → bootCheck s b app second = 0x84) ∧ (r = 0 → ¬broken → bootCheck s b app second = 0)) ∧
     (usable → sel ≠ 2 →
       (j.state = .confirmed → j.fusepend = false → fromActive fun k => k = j) ∧ (j.state = .reverted → fromActive fun k => k = j) ∧
       (j.state = .staged → trial .verify 1) ∧ (j.state = .trialBoot → j.attempt.toNat < 3 → trial j.step (j.attempt.toNat + 1)) ∧
       (j.state = .trialBoot → j.attempt = 3 → reverted 0x01) ∧ (j.state = .trialRun → reverted 0x02)) ∧
     (usable → sel = 2 → (j.state = .trialBoot ∨ j.state = .trialRun → reverted 0x04) ∧
       (j.state ≠ .trialBoot → j.state ≠ .trialRun → fromActive fun k => k = j)) ∧
     (¬usable → let first : BankId := if sel = 1 then .b else .a
       let fresh (b : BankId) : Prop := starts b .bootsel fun k => k.state = .confirmed ∧ k.active = b ∧ k.otherval = false
       (check first = 0 → fresh first) ∧ (check first ≠ 0 → check (otherBank first) = 0 → fresh (otherBank first)) ∧
       (check first ≠ 0 → check (otherBank first) ≠ 0 → recovery))) ∧
  (∀ (s : State), stewardRuns s = true →
     let j := journalOf s
     let b := otherBank j.active
     let fails (reason : Byte) : Prop := ∃ t, exec .trialStep s = .next t ∧ t.boot.booted = false ∧ (journalOf t).state = .reverted ∧
       (journalOf t).reason = reason ∧ (journalOf t).active = j.active ∧ bankOf t j.active = bankOf s j.active
     let fw := bootCheck s b false false
     let app := bootCheck s b true false
     let old := settingsOf (bankOf s j.active)
     (j.state = .trialBoot → s.ctl.state = .cold →
       (j.step = .verify → (fw ≠ 0 → fails fw) ∧ (fw = 0 → app ≠ 0 → fails app) ∧
         (fw = 0 → app = 0 → ∃ t, exec .trialStep s = .next t ∧ (journalOf t).step = .migrate ∧ (journalOf t).state = .trialBoot)) ∧
       (j.step = .migrate →
         ((validSettings (bankOf s j.active)).isSome = true → old.fmt.toNat < hdr (bankOf s b).fw 22 2 → fails 0x03) ∧
         (((validSettings (bankOf s j.active)).isSome = false ∨ hdr (bankOf s b).fw 22 2 ≤ old.fmt.toNat) → ∃ t,
           exec .trialStep s = .next t ∧ (journalOf t).step = .admission ∧ (journalOf t).state = .trialBoot ∧ t.adm.image.isSome = true ∧
           bankOf t j.active = bankOf s j.active ∧ (settingsOf (bankOf t b)).outdef = old.outdef ∧
           (settingsOf (bankOf t b)).overlay = old.overlay ∧ (settingsOf (bankOf t b)).fmt.toNat = hdr (bankOf s b).fw 20 2 % 65536))) ∧
     (j.state ≠ .trialBoot → exec .trialStep s = .next s) ∧
     (j.fusepend = true → s.boot.rb ≤ 64 → ∃ t, exec .fuseBurnDone s = .next t ∧ t.boot.rb = max s.boot.rb (min 64 j.tsvn.toNat) ∧
       (journalOf t).fusepend = false ∧ (journalOf t).state = j.state ∧ (journalOf t).active = j.active ∧
       (∀ n key, newVKey (bankOf s j.active).fw = some (n, key) → (s.boot.vkeys.get n).prog = false → (s.boot.vkeys.get n).revoked = false →
         t.boot.vkeys = s.boot.vkeys.set n ⟨key, true, false⟩) ∧
       (newVKey (bankOf s j.active).fw = none → t.boot.vkeys = s.boot.vkeys) ∧
       (∀ w, s.svc.confirmBy = some w → t.svc.confirmBy = none ∧ ∃ r, t.svc.last = some r ∧ r.status = 0 ∧ r.cmd = 0x0064 ∧ r.session = w.1)) ∧
     (j.fusepend = false → exec .fuseBurnDone s = .next s))

/-- R603 to R615: the recorder. A full buffer that reads back right goes to the next sector of the circulating area, its oldest block leaving
where the area is full, and its foundation records to the foundation area, which loses nothing; one that reads back wrong leaves the sector
unused and waits on. An event takes a token of its code, or is counted as suppressed; tokens return every 16,000 tides, and a suppressed
count is reported 10 s after the first. While the steward does not run the Headland keeps 16 records; an event whose records do not fit is
lost. Concluding that the block answers a next state, under conditions on state and operands alone, this gives the own effect of:
CAIRN_SECTOR_PROGRAM, CAIRN_TOKEN_REFILL, SUPPRESSED_REPORT_TIMEOUT, HEADLAND_EVENT_BUFFER. -/
def Obligations.CairnKeepsRecords : Prop :=
  ∀ (s : State),
    let sectors := if 4352 ≤ s.rc.circ.length then s.rc.circ.drop 256 else s.rc.circ
    let block : Fin 17 := if 4352 ≤ s.rc.circ.length then s.rc.block + 1 else s.rc.block
    (s.rc.waiting = none ∨ stewardRuns s = false → ∀ ok, exec (.cairnSectorProgram ok) s = .next s) ∧
    (∀ w, s.rc.waiting = some w → stewardRuns s = true →
      (s.rc.fullCode = none → s.rc.found.length + w.length + s.rc.staging.length ≤ 4096 → ∃ t f, exec (.cairnSectorProgram true) s = .next t ∧
        t = { s with rc := { s.rc with waiting := none, circ := sectors ++ [some w], block := block, found := s.rc.found ++ f },
                     pw := { s.pw with asleep := t.pw.asleep } } ∧ SlackDom.flash ∉ t.pw.asleep ∧
        (∀ r ∈ f, r ∈ w) ∧ ∀ r ∈ w, foundationCode r.code = true → r ∈ f) ∧
      (s.rc.staging.length < 15 → s.rc.fullCode = none → ∃ t r, exec (.cairnSectorProgram false) s = .next t ∧
        t.rc = { s.rc with circ := sectors ++ [none], block := block, torn := s.rc.torn.inc, staging := s.rc.staging ++ [r], next := s.rc.next + 1 } ∧
        r.code = 0x0005 ∧ r.index = s.rc.next)) ∧
    (stewardRuns s = true → s.tide % 16000 = 0 → exec .cairnTokenRefill s =
      .next { s with rc := { s.rc with buckets := s.rc.buckets.map fun b => { b with tokens := min 16 (b.tokens + 1) } } }) ∧
    (s.tide % 16000 ≠ 0 → exec .cairnTokenRefill s = .next s) ∧
    (∀ code data,
      let b := bucketOf s.rc code
      (stewardRuns s = true → b.supp ≠ 0 → b.first + 10000000000 ≤ s.up → ∃ t, exec (.suppressedReportTimeout code) s = .next t ∧
        (bucketOf t.rc code).supp = 0 ∧ (bucketOf t.rc code).tokens = b.tokens ∧ s.rc.found.length ≤ t.rc.found.length) ∧
      (b.supp = 0 ∨ s.up < b.first + 10000000000 → exec (.suppressedReportTimeout code) s = .next s) ∧
      (stewardRuns s = true → 256 ≤ code.toNat → foundationCode code = false → b.code = code →
        (b.tokens = 0 → (record s code data).rc.staging = s.rc.staging ∧ (record s code data).rc.next = s.rc.next ∧
          (record s code data).rc.supp = s.rc.supp.inc ∧ (bucketOf (record s code data).rc code).supp = lifeInc b.supp) ∧
        (0 < b.tokens → b.supp = 0 → s.rc.staging.length < 15 → data.length ≤ 8 → s.rc.fullCode = none → ∃ r,
          (record s code data).rc.staging = s.rc.staging ++ [r] ∧ r.code = code ∧ r.index = s.rc.next ∧ r.data = dataWord data ∧
          r.opsec = s.pw.opsec ∧ r.pcyc = s.pw.pcyc ∧ (bucketOf (record s code data).rc code).tokens = b.tokens - 1)) ∧
      (s.pw.state ≠ .off → stewardRuns s = false →
        let n := max 1 ((data.length + 7) / 8)
        (s.rc.fbuf.length + n ≤ 16 → ∃ rs, exec (.headlandEventBuffer code data) s = .next { s with rc := { s.rc with fbuf := s.rc.fbuf ++ rs } } ∧
          rs.length = n ∧ ∀ k r, rs[k]? = some r → r.code = (if k = 0 then code else 0) ∧ r.data = dataWord (data.drop (8 * k)) ∧
            r.ttime.getLsbD 61 = true) ∧
        (16 < s.rc.fbuf.length + n → exec (.headlandEventBuffer code data) s =
          .next { s with rc := { s.rc with fbufLost := s.rc.fbufLost + 1 } })) ∧
      (stewardRuns s = true → exec (.headlandEventBuffer code data) s = .next s))

/-- R549, R552, R554, R556, R558, R560, R561, R563: what every command of a session meets before it is executed. What R304 does not accept is no
datagram; badly formed ones, and those on a vehicle port, are counted and discarded; a request for another module is relayed from MNT and
discarded on the backbone; without a session it answers 0x0006; a wrong TAG is counted and recorded; a repeated SEQ brings the stored reply
again; an older one 0x000C; then the factory password, the role and the controller state can forbid it, and a forbidden command changes
nothing of the module. -/
def Obligations.SessionCommandsAreGuarded : Prop :=
  ∀ (s : State) (c : Instr) (e : Env) (cmd : Nat) (role : Role) (states : List CtlState), sessionCommand c = some (e, cmd, role, states) →
    let again (r : Reply) : Prop := exec c s = .next { s with svc := { s.svc with last := some r } }
    let answers (session : Word) (status : Nat) (keyed : Bool) : Prop :=
      ∃ t, exec c s = .next t ∧ Sent t s e cmd session status .empty keyed ∧ t = { s with svc := { s.svc with last := t.svc.last } }
    let on : Prop := serving s = true ∧ ipTaken s e = true
    (serving s = false ∨ ipTaken s e = false → exec c s = .next s) ∧
    (on → (wellFormed e = false ∨ e.iface = .vehicle) →
      exec c s = .next { s with svc := { s.svc with svcRej := s.svc.svcRej.inc } }) ∧
    (on → wellFormed e = true → e.iface = .backbone → e.target ≠ s.boot.uid → exec c s = .next s) ∧
    (on → wellFormed e = true → e.iface = .mnt → e.target ≠ 0 → e.target ≠ s.boot.uid → s.boot.romSvc = false →
      s.svc.relays.length < 8 → ∃ t, exec c s = .next t ∧
        t.svc.relays = s.svc.relays ++ [⟨e.net.mac, e.ip, e.port, e.target, e.seq, BitVec.ofNat 16 cmd, e.session, s.up⟩] ∧
        t.svc.relayed = some (requestBytes e cmd ++ e.tag) ∧ t.ctl = s.ctl) ∧
    (Arrives s e → session? s e.session = none → answers e.session 6 false) ∧
    (Arrives s e → ∀ x, session? s e.session = some x →
      let authentic : Prop := e.tag ≠ zeroTag ∧ e.tag = tagOf x.key (requestBytes e cmd)
      (¬authentic → exec c s =
        .next (record { s with svc := { s.svc with macFail := s.svc.macFail.inc } } 0x0B05 (d4 x.id.toNat ++ d1 (ifaceNo e.iface)))) ∧
      (authentic → x.last = some e.seq → ∀ r, x.reply = some r → again r) ∧
      (authentic → x.last = some e.seq → x.reply = none → exec c s = .next s) ∧
      (authentic → ∀ l, x.last = some l → l ≠ e.seq → later e.seq l = false → answers x.id 0x000C true) ∧
      (InSession s e cmd x →
        let factory : Prop := x.factory = true ∧ cmd ≠ 0x0003 ∧ cmd ≠ 0x0004 ∧ cmd ≠ 0x0010
        let forbids (status : Nat) : Prop := ∃ t, exec c s = .next t ∧ Sent t s e cmd x.id status .empty true ∧
          t = { s with svc := { s.svc with sessions := t.svc.sessions, last := t.svc.last } } ∧
          t.svc.sessions.map (·.id) = s.svc.sessions.map (·.id)
        (factory → forbids 9) ∧ (¬factory → roleNo x.role < roleNo role → forbids 1) ∧
        (¬factory → roleNo role ≤ roleNo x.role → states ≠ [] → s.ctl.state ∉ states → forbids 2)))

/-- R553 to R559, R564: logins. HELLO gives a fresh nonce, which serves one LOGIN within 10 s. A right proof opens a session and clears the
failures; a wrong one is counted, and the 5th and each later one locks the role out for 60 s, doubling up to 3,600 s. A locked role answers
0x0003 and a session beyond the limits 0x0005. LOGOUT, 60 s without a request and a new password close sessions. Concluding that the block
answers a next state, under conditions on state and operands alone, this gives the own effect of: HELLO, LOGIN, LOGOUT, PASSWD,
SESSION_IDLE_TIMEOUT, LOCKOUT_END. -/
def Obligations.LoginsOpenSessions : Prop :=
  ∀ (s : State) (e : Env) (role : Role) (nc : List Byte), Arrives s e →
    let bare (i : Instr) (cmd : Nat) (status : Nat) (b : ReplyBody) (p : State → Prop) : Prop := ∃ t, exec i s = .next t ∧ p t ∧
      Sent t s e cmd e.session status b false
    let ns := (List.range 16).map (Config.draw s.fresh)
    let others := s.svc.nonces.filter fun x => !(x.role == role && x.nc == nc)
    let n := s.svc.nonces.find? fun n => n.role = role ∧ n.nc = nc ∧ s.up ≤ n.at_ + 10000000000
    let open_ (t : State) : Prop := t.svc.sessions = s.svc.sessions ∧ t.svc.nonces = others
    (nc.length = 16 → bare (.hello e role nc) 1 0 (.hello (saltOf s role) ns s.boot.uid (lockSeconds s role)) fun t =>
      t.svc.nonces.head? = some ⟨role, nc, ns, s.up⟩ ∧ t.fresh = s.fresh + 1 ∧ t.svc.sessions = s.svc.sessions) ∧
    (nc.length ≠ 16 → bare (.hello e role nc) 1 7 .empty fun t => t.svc.nonces = s.svc.nonces) ∧
    (∀ proof, roleLocked s role = true → bare (.login e role nc proof) 2 3 (.seconds (lockSeconds s role)) open_) ∧
    (∀ proof, roleLocked s role = false → sessionLimit s role = true → bare (.login e role nc proof) 2 5 .empty fun t =>
      open_ t ∧ t.svc.authFail = s.svc.authFail ∧ t.svc.recs = s.svc.recs) ∧
    (roleLocked s role = false → sessionLimit s role = false → ∀ proof,
      let right : Prop := ∃ m h, n = some m ∧ hashOf s role = some h ∧ proof =
        Config.kmac256 h (m.ns ++ nc ++ beBytes 8 s.boot.uid.toNat ++ d1 (roleNo role)) 32 (strBytes "SAHDAL LOGIN")
      (right → ∀ m h, n = some m → hashOf s role = some h → ∃ t id, exec (.login e role nc proof) s = .next t ∧ id ≠ 0 ∧
        (∀ y ∈ s.svc.sessions, y.id ≠ id) ∧ t.svc.nonces = others ∧ t.svc.sessCnt = s.svc.sessCnt.inc ∧
        t.svc.sessions = s.svc.sessions ++ [⟨id, role, Config.kmac256 h (nc ++ m.ns) 32 (strBytes "SAHDAL SESSION"), none, none, s.up, e.iface,
          e.ip, role == .owner && s.svc.facPw⟩] ∧
        Sent t s e 2 id 0 (.session id) true ∧
        ∀ i, recIdx role = some i → (t.svc.recs.get i).fails = 0 ∧ (t.svc.recs.get i).lockEnd = none) ∧
      (¬right → bare (.login e role nc proof) 2 4 .empty fun t => open_ t ∧ t.svc.authFail = s.svc.authFail.inc ∧
        (recIdx role = none → t.svc.recs = s.svc.recs) ∧
        ∀ i, recIdx role = some i →
          let k := (s.svc.recs.get i).fails + 1
          (t.svc.recs.get i).fails = k ∧
          (k < 5 → (t.svc.recs.get i).lockEnd = (s.svc.recs.get i).lockEnd) ∧
          (5 ≤ k → (t.svc.recs.get i).lockEnd = some (s.pw.opsec + BitVec.ofNat 32 (min 3600 (60 * 2 ^ (k - 5))))))) ∧
    (∀ x, InSession s e 3 x → Answered (.logout e) s e 3 x 0 .empty fun t => ∀ y ∈ t.svc.sessions, y.id ≠ x.id) ∧
    (∀ x masked, InSession s e 4 x → x.role = .owner →
      ((role = .view ∨ masked.length < 12 ∨ 64 < masked.length) → Answered (.passwd e role masked) s e 4 x 7 .empty fun t =>
        t.svc.recs = s.svc.recs) ∧
      (role ≠ .view → 12 ≤ masked.length → masked.length ≤ 64 → Answered (.passwd e role masked) s e 4 x 0 .empty fun t =>
        (∀ i, recIdx role = some i → t.svc.recs = s.svc.recs.set i ⟨ns, some (Config.shake256 (ns ++ unmask x e.seq masked)), 0, none⟩) ∧
        (role = .owner → t.svc.facPw = false) ∧ ∀ y ∈ t.svc.sessions, y.role = role → y.id = x.id)) ∧
    (∀ x, session? s x.id = some x →
      (x.idleFrom + 60000000000 ≤ s.up → ∃ t, exec (.sessionIdleTimeout x.id) s = .next t ∧ ∀ y ∈ t.svc.sessions, y.id ≠ x.id) ∧
      (s.up < x.idleFrom + 60000000000 → exec (.sessionIdleTimeout x.id) s = .next s)) ∧
    (roleLocked s role = true → exec (.lockoutEnd role) s = .next s) ∧
    (∀ i, recIdx role = some i → roleLocked s role = false →
      exec (.lockoutEnd role) s = .next { s with svc := { s.svc with recs := s.svc.recs.set i { s.svc.recs.get i with lockEnd := none } } })

/-- R203, R209, R212, R213, R216 to R218, R563, R566, R567: forces and online changes accepted. A FORCE or UNFORCE of items that the admitted
set-up contains takes effect at the third boundary after its acceptance and enters the change log; a foreign item answers 0x0007, a table
that would pass 256 entries 0x0008, and in SERVICE all but CHOUT items 0x0002. An OLC enters the queue of 16 with the next request number
where its tide lies 2 to 40,000 ahead. The lists answer with what stands in the tables. Concluding that the block answers a next state,
under conditions on state and operands alone, this gives the own effect of: FORCE, UNFORCE, FORCELIST, OLC, OLCSTAT. -/
def Obligations.ForcesAndChangesAccepted : Prop :=
  ∀ (s : State) (e : Env) (x : Session),
    let eff := tideNow s + 3
    let logs (t : State) : Prop := t.svc.nextLog = s.svc.nextLog + 1
    let same (t : State) : Prop := t.ctl = s.ctl ∧ t.svc.log = s.svc.log
    (∀ items, Granted s (.force e items) e 0x20 x →
      let no (status : Nat) : Prop := Answered (.force e items) s e 0x20 x status .empty same
      let foreign : Prop := s.ctl.state = .service ∧ ((∃ f ∈ items, f.kind ≠ 4) ∨ s.svc.calWork.isSome = true)
      (foreign → no 2) ∧ (¬foreign → (items = [] ∨ 16 < items.length ∨ forceItems s items = none) → no 7) ∧
      (¬foreign → items ≠ [] → items.length ≤ 16 → ∀ is, forceItems s items = some is →
        let total := (((liveForces s).map (·.item)) ++ is.map (·.1)).eraseDups.length
        (256 < total → no 8) ∧
        (total ≤ 256 → Answered (.force e items) s e 0x20 x 0 (.tide eff) fun t => logs t ∧
          t.ctl = { s.ctl with forces := s.ctl.forces ++ is.map fun i => ⟨i.1, i.2, eff, false, none, false, none⟩ }))) ∧
    (∀ items, Granted s (.unforce e items) e 0x21 x →
      let ends (named : ForceItem → Prop) : Prop := Answered (.unforce e items) s e 0x21 x 0 (.tide eff) fun t => logs t ∧
        t.ctl.forces.length = s.ctl.forces.length ∧ ∀ (k : Nat) f, s.ctl.forces[k]? = some f →
          (named f.item → f.ended = false → f.endAt = none → t.ctl.forces[k]? = some { f with endAt := some eff }) ∧
          (¬(named f.item ∧ f.ended = false ∧ f.endAt = none) → t.ctl.forces[k]? = some f)
      (items = none → ends fun i => s.ctl.state ≠ .service ∨ ∃ c, i = .chout c) ∧
      (∀ fs, items = some fs →
        let foreign : Prop := s.ctl.state = .service ∧ ∃ f ∈ fs, f.kind ≠ 4
        let no (status : Nat) : Prop := Answered (.unforce e items) s e 0x21 x status .empty same
        (foreign → no 2) ∧ (¬foreign → (fs = [] ∨ 16 < fs.length ∨ forceItems s fs = none) → no 7) ∧
        (¬foreign → fs ≠ [] → fs.length ≤ 16 → ∀ is, forceItems s fs = some is → ends fun i => ∃ y ∈ is, y.1 = i))) ∧
    (∀ first, Granted s (.forcelist e first) e 0x22 x → Answered (.forcelist e first) s e 0x22 x 0
      (.forces (((s.ctl.forces.filter fun f => !f.ended).drop first).take 64)) fun t => t.ctl = s.ctl) ∧
    (∀ named items, Granted s (.olc e named items) e 0x30 x →
      let ahead := (named - BitVec.ofNat 32 (tideNow s)).toNat
      let no (status : Nat) : Prop := Answered (.olc e named items) s e 0x30 x status .empty same
      let bad : Prop := items = [] ∨ 64 < items.length ∨ ahead < 2 ∨ 40000 < ahead ∨ olcItems s items = none
      (bad → no 7) ∧ (¬bad → 16 ≤ s.ctl.olcs.length → no 8) ∧
      (¬bad → s.ctl.olcs.length < 16 → ∀ is, olcItems s items = some is →
        Answered (.olc e named items) s e 0x30 x 0 (.count s.ctl.olcNext.toNat) fun t => logs t ∧ t.ctl.olcNext = s.ctl.olcNext + 1 ∧
          ∃ r : OlcReq, t.ctl.olcs = s.ctl.olcs ++ [r] ∧ r.num = s.ctl.olcNext ∧ r.tide = named ∧ r.items = is)) ∧
    (∀ num, Granted s (.olcstat e num) e 0x31 x →
      (∀ r, ((s.ctl.olcs ++ s.ctl.olcDone).find? fun r => r.num = num) = some r →
        Answered (.olcstat e num) s e 0x31 x 0 (.outcomes (r.items.map fun i => i.outcome)) fun t => t.ctl = s.ctl) ∧
      ((∀ r ∈ s.ctl.olcs ++ s.ctl.olcDone, r.num ≠ num) → Answered (.olcstat e num) s e 0x31 x 7 .empty fun t => t.ctl = s.ctl))

/-- R203, R228, R563, R568 to R570, R572, R592 to R594, R598, R600: controller commands, loads and updates as they arrive. STOP, RESTART,
SERVICE and LEAVE are answered with the effect tide at which they act; REBOOT is answered and resets the module; one load or update is open
at a time; blocks are written once; UPDEND stages a complete update, and CONFIRM makes the target bank the ACTIVE one in one journal write.
Concluding that the block answers a next state, under conditions on state and operands alone, this gives the own effect of: STOP, RESTART,
SERVICE, LEAVE, REBOOT, APPBEGIN, APPBLOCK, APPEND, UPDBEGIN, UPDBLOCK, UPDQUERY, UPDEND, CONFIRM. -/
def Obligations.LoadsAndControlAccepted : Prop :=
  ∀ (s : State) (e : Env) (x : Session),
    let j := journalOf s
    let trial : Prop := j.state = .staged ∨ j.state = .trialBoot ∨ j.state = .trialRun
    let accepts (i : Instr) (cmd : Nat) (c : CtlCmd) : Prop := Answered i s e cmd x 0 (.tide (tideNow s + 3)) fun t =>
      t.ctl.cmds = s.ctl.cmds ++ [(c, tideNow s + 3)] ∧ t.ctl.state = s.ctl.state ∧ t.svc.nextLog = s.svc.nextLog + 1
    let no (i : Instr) (cmd status : Nat) : Prop := Answered i s e cmd x status .empty fun t => t.ctl = s.ctl ∧ t.boot = s.boot ∧ t.adm = s.adm
    (Granted s (.stop e) e 0x40 x → accepts (.stop e) 0x40 .stop) ∧
    (∀ w, Granted s (.restart e w) e 0x41 x → (restartForbidden s = true → no (.restart e w) 0x41 2) ∧
      (restartForbidden s = false → accepts (.restart e w) 0x41 (.restart w))) ∧
    (Granted s (.service e) e 0x42 x → accepts (.service e) 0x42 .service) ∧
    (Granted s (.leave e) e 0x43 x → (s.svc.calWork.isSome = true → no (.leave e) 0x43 2) ∧
      (s.svc.calWork = none → accepts (.leave e) 0x43 .leave)) ∧
    (Granted s (.reboot e) e 0x44 x → Answered (.reboot e) s e 0x44 x 0 .empty fun t =>
      t.ctl.state = .cold ∧ t.boot.booted = false ∧ t.svc.sessions = [] ∧ ∀ l, (lane t l).st = .absent) ∧
    (∀ n, Granted s (.appbegin e n) e 0x50 x →
      (trial → no (.appbegin e n) 0x50 0xB) ∧ (¬trial → s.boot.seq.isSome = true → no (.appbegin e n) 0x50 5) ∧
      (¬trial → s.boot.seq = none → (n = 0 ∨ 0x1800000 < n) → no (.appbegin e n) 0x50 7) ∧
      (¬trial → s.boot.seq = none → 1 ≤ n → n ≤ 0x1800000 → Answered (.appbegin e n) s e 0x50 x 0 .empty fun t =>
        t.boot = { s.boot with seq := some ⟨.app, x.id, n, []⟩ })) ∧
    (∀ k n, Granted s (.updbegin e k n) e 0x60 x →
      let lengthOk : Prop := (k = 1 ∧ 1 ≤ n ∧ n ≤ 0x2000000) ∨ (k = 2 ∧ 0x2000000 < n ∧ n ≤ 0x3800000)
      let may : Prop := (j.state = .confirmed ∧ j.fusepend = false) ∨ j.state = .reverted
      (¬may → no (.updbegin e k n) 0x60 0xB) ∧ (may → s.boot.seq.isSome = true → no (.updbegin e k n) 0x60 5) ∧
      (may → s.boot.seq = none → ¬lengthOk → no (.updbegin e k n) 0x60 7) ∧
      (may → s.boot.seq = none → lengthOk → Answered (.updbegin e k n) s e 0x60 x 0 .empty fun t =>
        t.boot.seq = some ⟨.upd k, x.id, n, []⟩ ∧ journalOf t = { j with gen := j.gen + 1, state := .confirmed, slip := true, otherval := false })) ∧
    (∀ (upd : Bool) o data, let c : Instr := if upd then .updblock e o data else .appblock e o data
      let cmd := if upd then 0x61 else 0x51
      Granted s c e cmd x → ∀ q, s.boot.seq = some q → (q.session ≠ x.id → no c cmd 5) ∧
        (q.session = x.id → ((∃ k, q.kind = .upd k) ↔ upd = true) →
          let fits : Prop := o % 1024 = 0 ∧ 1 ≤ data.length ∧ data.length ≤ 1024 ∧ o + data.length ≤ q.length
          let p := placeOf s q.kind o
          (¬fits → no c cmd 7) ∧
          (fits → (∀ b ∈ q.blocks, b.1 ≠ o) → MemoriesOk s → ∃ n, Answered c s e cmd x 0 (.count n) fun t =>
            (∃ q2 : LoadSeq, t.boot.seq = some q2 ∧ (o, data.length) ∈ q2.blocks ∧ q2.length = q.length ∧ q2.session = x.id) ∧
            flashRead t p.1 p.2 data.length = data ∧ MemoriesOk t) ∧
          (fits → (q.blocks.find? fun b => b.1 = o) = some (o, data.length) →
            (flashRead s p.1 p.2 data.length = data → ∃ n, Answered c s e cmd x 0 (.count n) fun t => t.boot = s.boot) ∧
            (flashRead s p.1 p.2 data.length ≠ data → no c cmd 0xA)))) ∧
    (Granted s (.append e) e 0x52 x → ∀ q, s.boot.seq = some q → q.kind = .app → q.session = x.id →
      (s.adm.image.isSome = true → no (.append e) 0x52 5) ∧
      (s.adm.image = none → ∃ t im, exec (.append e) s = .next t ∧ t.adm.image = some im ∧ t.adm.append = true ∧ t.boot.seq = none ∧
        t.svc.appendBy = some (x.id, e) ∧ t.svc.last = s.svc.last ∧ t.svc.nextLog = s.svc.nextLog + 1)) ∧
    (Granted s (.updquery e) e 0x62 x →
      (s.boot.seq = none → Answered (.updquery e) s e 0x62 x 0 (.count 0) fun t => t.boot = s.boot) ∧
      (∀ q k, s.boot.seq = some q → q.kind = .upd k → q.blocks = [] → Answered (.updquery e) s e 0x62 x 0 (.count 0) fun t => t.boot = s.boot)) ∧
    (Granted s (.updend e) e 0x63 x → ∀ q k, s.boot.seq = some q → q.kind = .upd k → q.session = x.id →
      ((lowestGap s q k).2 = false → no (.updend e) 0x63 7) ∧
      ((lowestGap s q k).2 = true → Answered (.updend e) s e 0x63 x 0 (.count 1) fun t => t.boot.seq = none ∧ (journalOf t).state = .staged ∧
        (journalOf t).slip = false ∧ (journalOf t).active = j.active ∧ (journalOf t).kind = k ∧
        (k = 1 → (bankOf t (otherBank j.active)).app0 = appInForce (bankOf s j.active)) ∧ bankOf t j.active = bankOf s j.active)) ∧
    (Granted s (.confirm e) e 0x64 x →
      (j.state ≠ .trialRun → no (.confirm e) 0x64 0xB) ∧
      (j.state = .trialRun →
        let b := otherBank j.active
        let svn := bankSvn (bankOf s b)
        let done (t : State) : Prop := (journalOf t).state = .confirmed ∧ (journalOf t).active = b ∧
          ((journalOf t).otherval = true ↔ max s.boot.rb svn ≤ bankSvn (bankOf s j.active)) ∧ (journalOf t).gen = j.gen + 1 ∧
          t.svc.nextLog = s.svc.nextLog + 1
        (s.boot.rb < svn ∨ keyPending s b = true → ∃ t, exec (.confirm e) s = .next t ∧ done t ∧ (journalOf t).fusepend = true ∧
          t.svc.confirmBy = some (x.id, e) ∧ t.svc.last = s.svc.last) ∧
        (svn ≤ s.boot.rb → keyPending s b = false → Answered (.confirm e) s e 0x64 x 0 (.count 0) fun t =>
          done t ∧ (journalOf t).fusepend = false)))

/-- R563, R565, R571, R582, R584, R616: reads and key slots. STATUS and READ change nothing; READ answers with the words at its addresses in
order, of the lane registers, Quay, or a lane's memory, and 0x0007 outside them. RECREAD and LOGREAD answer with the entries from an index
on, the oldest index held and the next one. A key slot is filled once and revoked once, never the last of its kind. Concluding that the
block answers a next state, under conditions on state and operands alone, this gives the own effect of: KEYSLOT_INSTALL, KEYSLOT_REVOKE,
STATUS, READ, RECREAD, LOGREAD. -/
def Obligations.ReadsAndKeySlots : Prop :=
  ∀ (s : State) (e : Env) (x : Session),
    let calm (t : State) : Prop := t.ctl = s.ctl ∧ t.boot = s.boot ∧ t.quay = s.quay ∧ t.svc.log = s.svc.log ∧ t.rc = s.rc
    (Granted s (.status e) e 0x10 x → Answered (.status e) s e 0x10 x 0 (.words [regGet s .svCtrl, regGet s .svLane, regGet s .svAdmit,
      regGet s .svForce, regGet s .svOlc, regGet s .pmStat, regGet s .tiStat, regGet s .ksRing, BitVec.ofNat 32 (tideNow s), s.pw.opsec,
      s.pw.pcyc, BitVec.ofNat 32 (bankNo s.boot.bank), s.boot.fwVer, s.boot.appVer, BitVec.ofNat 32 (jstateNo (journalOf s).state)]) calm) ∧
    (∀ items, Granted s (.read e items) e 0x11 x →
      let total := (items.map (·.n)).foldl (· + ·) 0
      let shape : Prop := 1 ≤ items.length ∧ items.length ≤ 32 ∧ total ≤ 352 ∧ ∀ i ∈ items, 1 ≤ i.n ∧ i.n ≤ 256 ∧ i.addr.toNat % 4 = 0
      (¬shape → Answered (.read e items) s e 0x11 x 7 .empty calm) ∧
      (shape → s.quayDmg = [] → (∀ i ∈ items, i.space = .quay ∧ 0x20000000 ≤ i.addr.toNat ∧ i.addr.toNat + 4 * i.n ≤ 0x20800000) →
        Answered (.read e items) s e 0x11 x 0
          (.words (items.flatMap fun i => (List.range i.n).map fun k => quayWord s (i.addr.toNat + 4 * k - 0x20000000))) calm) ∧
      (∀ i p l, items = [i] → shape → i.space = .bank (some l) p → (lane s l).dmg = [] → i.addr.toNat + 4 * i.n ≤ 0x200000 →
        Answered (.read e items) s e 0x11 x 0
          (.words ((List.range i.n).map fun k => memWord 0 (lane s l).sram (bankBase p + (i.addr.toNat + 4 * k)))) calm) ∧
      (∀ i l, items = [i] → shape → i.space = .regs l → regAt i.addr.toNat = none → Answered (.read e items) s e 0x11 x 7 .empty calm)) ∧
    (∀ area first n, Granted s (.recread e area first n) e 0x70 x →
      (1 < area.toNat ∨ n = 0 ∨ 40 < n → Answered (.recread e area first n) s e 0x70 x 7 .empty calm) ∧
      (area.toNat ≤ 1 → 1 ≤ n → n ≤ 40 →
        let l := if area = 0 then circRecords s else
          (s.rc.found.zipIdx.filter fun r => !s.boot.bankA.bad.contains ((0x6000000 + 512 * (r.2 / 16)) / 512)).map fun r => r.1
        Answered (.recread e area first n) s e 0x70 x 0
          (.entries (((l.filter fun r => r.index == first || later r.index first).take n).map recordBytes)
            ((l.head?.map fun r => r.index).getD s.rc.next) s.rc.next) calm)) ∧
    (∀ first n, Granted s (.logread e first n) e 0x71 x →
      (n = 0 ∨ 20 < n → Answered (.logread e first n) s e 0x71 x 7 .empty calm) ∧
      (1 ≤ n → n ≤ 20 → Answered (.logread e first n) s e 0x71 x 0
        (.entries (((s.svc.log.filter fun r => r.index == first || later r.index first).take n).map entryBytes)
          ((s.svc.log.head?.map fun r => r.index).getD s.svc.nextLog) s.svc.nextLog) calm)) ∧
    (∀ n key, Granted s (.keyslotInstall e n key) e 0x05 x →
      let k := s.boot.okeys.get n
      let may : Prop := k.prog = false ∧ k.revoked = false ∧ key.length = 68 ∧ key.take 4 = Config.xmssOid
      (¬may → Answered (.keyslotInstall e n key) s e 0x05 x 7 .empty calm) ∧
      (may → Answered (.keyslotInstall e n key) s e 0x05 x 0 (.count 1) fun t =>
        t.boot = { s.boot with okeys := s.boot.okeys.set n ⟨key, true, false⟩ } ∧ t.svc.nextLog = s.svc.nextLog + 1)) ∧
    (∀ (vendor : Bool) (n : Fin 4), Granted s (.keyslotRevoke e vendor n) e 0x05 x →
      let keys := if vendor then s.boot.vkeys else s.boot.okeys
      let k := keys.get n
      let may : Prop := k.prog = true ∧ k.revoked = false ∧ ∃ m, m ≠ n ∧ (keys.get m).prog = true ∧ (keys.get m).revoked = false
      (¬may → Answered (.keyslotRevoke e vendor n) s e 0x05 x 7 .empty calm) ∧
      (may → Answered (.keyslotRevoke e vendor n) s e 0x05 x 0 (.count 2) fun t => t.svc.nextLog = s.svc.nextLog + 1 ∧
        (if vendor then t.boot.vkeys else t.boot.okeys) = keys.set n { k with revoked := true } ∧
        (if vendor then t.boot.okeys = s.boot.okeys else t.boot.vkeys = s.boot.vkeys)))

/-- R560 to R562, R569, R572, R573: calibration and relay. A calibration works on a copy that its session owns: CALPOINT changes one target of
the copy by the trim that the measured value gives (assumption log entry 8), CALWRITE puts it into force in both mirrors with the next
generation and FACTORY 0, CALABORT drops it. A request for another module takes one of 8 relay entries and leaves on the backbone; its reply
frees the entry and is forwarded on MNT unchanged, and after 2 s the entry is freed with 0x0010. Concluding that the block answers a next
state, under conditions on state and operands alone, this gives the own effect of: CALSTART, CALPOINT, CALREAD, CALWRITE, CALABORT,
RELAY_REQUEST, RELAY_REPLY, RELAY_TIMEOUT, BACKBONE_SERVICE_REQUEST. -/
def Obligations.CalibrationAndRelay : Prop :=
  ∀ (s : State) (e : Env) (x : Session),
    let no (i : Instr) (cmd status : Nat) : Prop := Answered i s e cmd x status .empty fun t => t.svc.cal = s.svc.cal ∧ t.svc.calWork = s.svc.calWork
    (Granted s (.calstart e) e 0x80 x → (s.svc.calWork.isSome = true → no (.calstart e) 0x80 5) ∧
      (s.svc.calWork = none → Answered (.calstart e) s e 0x80 x 0 (.words (calWords s.svc.cal)) fun t =>
        t.svc.calWork = some (x.id, s.svc.cal, []) ∧ t.svc.cal = s.svc.cal)) ∧
    (Granted s (.calread e) e 0x82 x → Answered (.calread e) s e 0x82 x 0
      (.words (calWords s.svc.cal ++ ((s.svc.calWork.map fun w => calWords w.2.1).getD []))) fun t => t.svc.calWork = s.svc.calWork) ∧
    (∀ i cmd, (i, cmd) ∈ [(.calwrite e, 0x83), (.calabort e, 0x84)] ∨ (∃ a b v, (i, cmd) = (.calpoint e a b v, 0x81)) → Granted s i e cmd x →
      (s.svc.calWork = none → no i cmd 7) ∧ (∀ w, s.svc.calWork = some w → w.1 ≠ x.id → no i cmd 5)) ∧
    (∀ c pts, s.svc.calWork = some (x.id, c, pts) →
      (∀ target step v, Granted s (.calpoint e target step v) e 0x81 x →
        (49 < target ∨ step = 0 ∨ 2 < step → no (.calpoint e target step v) 0x81 7) ∧
        (target ≤ 49 → 1 ≤ step → step ≤ 2 → ∃ g o, Answered (.calpoint e target step v) s e 0x81 x 0 (.words [g, o]) fun t =>
          t.svc.cal = s.svc.cal ∧ ∃ d : CalRec, t.svc.calWork = some (x.id, d, pts ++ [(target, step, v)]) ∧
            (∀ h : target < 48, d = { c with isl := c.isl.set target (g, o) }) ∧
            (∀ h : 48 ≤ target, d = { c with feeds := c.feeds.set (Fin.ofNat 2 (target - 48)) (g, o) }))) ∧
      (Granted s (.calwrite e) e 0x83 x →
        let d : CalRec := { c with gen := s.svc.cal.gen + 1, opsec := s.pw.opsec, factory := false }
        Answered (.calwrite e) s e 0x83 x 0 (.count d.gen.toNat) fun t => t.svc.cal = d ∧ t.svc.calMirA = d ∧ t.svc.calMirB = d ∧
          t.svc.calWork = none ∧ t.svc.nextLog = s.svc.nextLog + 1) ∧
      (Granted s (.calabort e) e 0x84 x → Answered (.calabort e) s e 0x84 x 0 .empty fun t => t.svc.calWork = none ∧ t.svc.cal = s.svc.cal)) ∧
    let carries (f : QFrame) (m : List Byte) : Prop := ∃ pre post, ∀ l : LaneId, f.copies.get l = pre ++ m ++ post
    (∀ cmd : BitVec 16, serving s = true → s.boot.romSvc = false → ipTaken s e = true → wellFormed e = true → e.iface = .mnt → e.target ≠ 0 → e.target ≠ s.boot.uid →
      (s.svc.relays.length < 8 → let m := requestBytes e cmd.toNat ++ e.tag
        let u : State := { s with svc := { s.svc with
          relays := s.svc.relays ++ [⟨e.net.mac, e.ip, e.port, e.target, e.seq, cmd, e.session, s.up⟩], relayed := some m } }
        (outEgress s = none → exec (.relayRequest e cmd) s = .next u) ∧
        ∀ i, outEgress s = some i → ∃ f, carries f m ∧ exec (.relayRequest e cmd) s = .next (enqBe u (bbPort i) f)) ∧
      (8 ≤ s.svc.relays.length → ∃ t, exec (.relayRequest e cmd) s = .next t ∧ t.svc.relays = s.svc.relays ∧
        Sent t s e cmd.toNat e.session 0x0011 .empty false)) ∧
    (∀ cmd : BitVec 16, (e.target = 0 ∨ e.target = s.boot.uid ∨ e.iface ≠ .mnt ∨ ipTaken s e = false) → exec (.relayRequest e cmd) s = .next s) ∧
    (stewardRuns s = true → ∀ (k : Nat) (r : Relay) frame, s.svc.relays[k]? = some r →
      (s.up < r.since + 2000000000 → exec (.relayTimeout k) s = .next s ∧
        ((s.svc.relays.find? fun y => y.target = r.target ∧ y.seq = r.seq) = some r → ∃ f, carries f frame ∧ exec (.relayReply r.target r.seq frame) s =
          .next (enqBe { s with svc := { s.svc with relayed := some frame, relays := s.svc.relays.erase r } } mntPort f))) ∧
      (r.since + 2000000000 ≤ s.up → ∃ h : ReplyHead, h.sport = 50420 ∧ h.ttl = 64 ∧ h.df = true ∧ exec (.relayTimeout k) s =
        .next { s with svc := { s.svc with
          relays := s.svc.relays.eraseIdx k
          last := some ⟨h, r.ip, r.port, .mnt, r.cmd, s.boot.uid, r.sess, r.seq, 0x0010, .empty, false⟩ } })) ∧
    (∀ req, e.iface ≠ .backbone → exec (.backboneServiceRequest e req) s = .next s) ∧
    (e.iface = .backbone → exec (.backboneServiceRequest e .status) s = exec (.status e) s ∧
      exec (.backboneServiceRequest e .stop) s = exec (.stop e) s ∧ (∀ items, exec (.backboneServiceRequest e (.force items)) s = exec (.force e items) s) ∧
      (∀ items, exec (.backboneServiceRequest e (.read items)) s = exec (.read e items) s) ∧
      exec (.backboneServiceRequest e .confirm) s = exec (.confirm e) s ∧
      (∀ role nc, exec (.backboneServiceRequest e (.hello role nc)) s = exec (.hello e role nc) s))

/-- R359, and the model's own choice of what the block does without a command (assumption log entry 11): on an empty queue the awake block takes
one tick of 8 ns, in which the local clock advances by 8 ns and the rate correction in units of 2^-32 ns; one whose time clock stands, or
that is in NEAP, counts the Headland's time only, and one in OFF stands. -/
def Obligations.IdleBlockTicks : Prop :=
  ∀ (s : State), s.pending = [] →
    let value (c : Clock) : Int := ((c.sec.toNat * 1000000000 + c.ns.toNat) * 4294967296 + c.frac.toNat * 65536 + c.ext.toNat : Nat)
    (awake s = true → s.time.clock.ns.toNat < 1000000000 → s.time.clock.sec.toNat + 1 < 2 ^ 48 → ∃ c, step s =
      .next { s with up := s.up + 8, time := { s.time with clock := c } } ∧ value c = value s.time.clock + 8 * 4294967296 + s.time.clock.corr.toInt ∧
        c.ns.toNat < 1000000000 ∧ c.corr = s.time.clock.corr) ∧
    (awake s = false → s.pw.state ≠ .off → step s = .next { s with up := s.up + 8 }) ∧
    (s.pw.state = .off → step s = .next s)

/-- The reset state, as far as the spec gives it: COLD, lanes ABSENT, no set-up admitted (CODE 0xFF), STOPCAUSE 0, every statistical counter 0,
the priorities of the arbitration table with every WAIT 0, head words idle, an empty posting queue, the trust fields at delivery, the
factory password in force, the memories in canonical form, and an empty queue of commands. -/
def Obligations.ResetStateAsTheSpecGivesIt : Prop :=
  let s := State.reset
  s.pending = [] ∧ s.ctl.state = .cold ∧ s.ctl.stopcause = 0 ∧ s.ctl.stoppc = 0 ∧ s.ctl.forces = [] ∧ s.ctl.olcs = [] ∧
    (∀ l, (lane s l).st = .absent ∧ (lane s l).egMin = ⟨0, false⟩ ∧ (lane s l).chMin = ⟨0, false⟩) ∧ s.adm.code = 0xFF ∧ s.adm.cur = none ∧
    s.fab.quayArb.pri = #v[8, 8, 8, 6, 10, 4, 4, 4, 4, 4, 4, 4, 4, 15] ∧ (∀ q, s.fab.quayArb.wait.get q = 0 ∧ s.fab.bridgeArb.wait.get q = 0) ∧
    (∀ n, headWord (s.br.movers.get n) = 0xFFFFFFFF) ∧ s.br.queue = [] ∧ s.br.nextSeq = 0 ∧ (∀ i, (s.br.log.get i).valid = false) ∧
    s.boot.rb = 0 ∧ (s.boot.vkeys.get 0).prog = true ∧ (∀ n, n ≠ 0 → (s.boot.vkeys.get n).prog = false) ∧
    (∀ n, (s.boot.vkeys.get n).revoked = false ∧ (s.boot.okeys.get n).prog = false ∧ (s.boot.okeys.get n).revoked = false) ∧
    s.svc.facPw = true ∧ s.svc.sessions = [] ∧ (s.svc.recs.get 0).hash = none ∧ (s.svc.recs.get 1).hash = none ∧ (s.svc.recs.get 2).hash.isSome = true ∧
    s.time.set = false ∧ s.ring.slot = 0 ∧ s.ring.relay = true ∧ s.pw.reflast = 0xF000 ∧ (∀ n, s.pw.nref.get n = ⟨0, false⟩) ∧ MemoriesOk s

/-- The canonical form of every memory is kept by every step: from a state whose memories list rising addresses only, and no byte that an
unlisted address reads as, each command and each tick leads to such a state. -/
def Obligations.MemoriesStayCanonical : Prop :=
  ∀ s t : State, MemoriesOk s → step s = .next t → MemoriesOk t

/-- R582: a fuse, once burnt, cannot be cleared: no step lowers the anti-rollback counter, and a key slot that is programmed keeps its key and
stays programmed, and one that is revoked stays revoked. -/
def Obligations.FusesAreNeverCleared : Prop :=
  ∀ s t : State, s.boot.rb ≤ 64 → step s = .next t →
    s.boot.rb ≤ t.boot.rb ∧ t.boot.rb ≤ 64 ∧
    ∀ n : Fin 4,
      ((s.boot.vkeys.get n).prog = true → (t.boot.vkeys.get n).prog = true ∧ (t.boot.vkeys.get n).key = (s.boot.vkeys.get n).key) ∧
      ((s.boot.vkeys.get n).revoked = true → (t.boot.vkeys.get n).revoked = true) ∧
      ((s.boot.okeys.get n).prog = true → (t.boot.okeys.get n).prog = true ∧ (t.boot.okeys.get n).key = (s.boot.okeys.get n).key) ∧
      ((s.boot.okeys.get n).revoked = true → (t.boot.okeys.get n).revoked = true)

/-- Every command is answered with a next state, in every state, and leaves the queue of the waiting commands as it is. -/
def Obligations.CommandsCompleteAndKeepTheQueue : Prop :=
  ∀ (c : Instr) (s : State), ∃ t, exec c s = .next t ∧ t.pending = s.pending
end

