-- ==== Sys2Proof/Laws/State.lean ====
section
/-! SUPPORT. What each update of the state changes: one lemma for each field it leaves. -/

namespace Sys2Proof.Machine

@[simp] theorem lanes_get_set {α : Type} (t : Lanes α) (l r : LaneId) (x : α) :
    (t.set l x).get r = if r = l then x else t.get r := by cases l <;> cases r <;> rfl

@[simp] theorem lane_modLane (s : State) (l r : LaneId) (f : LaneSt → LaneSt) :
    lane (modLane s l f) r = if r = l then f (lane s l) else lane s r := by simp [lane, modLane]

theorem vmod_get {α : Type} {n : Nat} (v : Vector α n) (i j : Fin n) (f : α → α) :
    (vmod v i f).get j = if j = i then f (v.get i) else v.get j := by
  simp only [vmod, Vector.get, Vector.set]
  rcases v with ⟨a, h⟩
  by_cases e : j = i
  · subst e; simp [Fin.cast]
  · have q : (i : Nat) ≠ j := fun h => e (Fin.ext h.symm)
    simp [e, Array.getElem_set, q, Fin.cast]

@[simp] theorem pair_modPair (s : State) (l r : LaneId) (p q : PairId) (f : PairSt → PairSt) :
    pair (modPair s l p f) r q = if r = l ∧ q = p then f (pair s l p) else pair s r q := by
  by_cases h : r = l
  · subst h; simp [pair, modPair, vmod_get]
  · simp [pair, modPair, h]

@[simp] theorem taskRun_modTask (s : State) (l r : LaneId) (p q : PairId) (t k : TaskId) (f : TaskRun → TaskRun) :
    taskRun (modTask s l p t f) r q k = if r = l ∧ q = p ∧ k = t then f (taskRun s l p t) else taskRun s r q k := by
  by_cases h : r = l ∧ q = p
  · obtain ⟨rfl, rfl⟩ := h; simp [taskRun, modTask, vmod_get]
  · simp [taskRun, modTask, h]; intro a b; exact absurd ⟨a, b⟩ h

@[simp] theorem lane_modPair (s : State) (l r : LaneId) (p : PairId) (f : PairSt → PairSt) :
    lane (modPair s l p f) r = if r = l then { lane s l with pairs := vmod (lane s l).pairs p f } else lane s r := by
  simp [modPair]

@[simp] theorem port_modPort (s : State) (p q : Port) (f : PortSt → PortSt) :
    port (modPort s p f) q = if q = p then f (port s p) else port s q := by simp [port, modPort, vmod_get]

@[simp] theorem chans_modChan (s : State) (c k : Chan) (f : ChanSt → ChanSt) :
    (modChan s c f).chans.get k = if k = c then f (s.chans.get c) else s.chans.get k := by simp [modChan, vmod_get]

@[simp] theorem modLane_pending (s : State) (l : LaneId) (f : LaneSt → LaneSt) : (modLane s l f).pending = s.pending := rfl
@[simp] theorem modLane_fresh (s : State) (l : LaneId) (f : LaneSt → LaneSt) : (modLane s l f).fresh = s.fresh := rfl
@[simp] theorem modLane_up (s : State) (l : LaneId) (f : LaneSt → LaneSt) : (modLane s l f).up = s.up := rfl
@[simp] theorem modLane_tide (s : State) (l : LaneId) (f : LaneSt → LaneSt) : (modLane s l f).tide = s.tide := rfl
@[simp] theorem modLane_tideUp (s : State) (l : LaneId) (f : LaneSt → LaneSt) : (modLane s l f).tideUp = s.tideUp := rfl
@[simp] theorem modLane_rejoin (s : State) (l : LaneId) (f : LaneSt → LaneSt) : (modLane s l f).rejoin = s.rejoin := rfl
@[simp] theorem modLane_ctl (s : State) (l : LaneId) (f : LaneSt → LaneSt) : (modLane s l f).ctl = s.ctl := rfl
@[simp] theorem modLane_adm (s : State) (l : LaneId) (f : LaneSt → LaneSt) : (modLane s l f).adm = s.adm := rfl
@[simp] theorem modLane_net (s : State) (l : LaneId) (f : LaneSt → LaneSt) : (modLane s l f).net = s.net := rfl
@[simp] theorem modLane_ring (s : State) (l : LaneId) (f : LaneSt → LaneSt) : (modLane s l f).ring = s.ring := rfl
@[simp] theorem modLane_time (s : State) (l : LaneId) (f : LaneSt → LaneSt) : (modLane s l f).time = s.time := rfl
@[simp] theorem modLane_chans (s : State) (l : LaneId) (f : LaneSt → LaneSt) : (modLane s l f).chans = s.chans := rfl
@[simp] theorem modLane_para (s : State) (l : LaneId) (f : LaneSt → LaneSt) : (modLane s l f).para = s.para := rfl
@[simp] theorem modLane_br (s : State) (l : LaneId) (f : LaneSt → LaneSt) : (modLane s l f).br = s.br := rfl
@[simp] theorem modLane_fab (s : State) (l : LaneId) (f : LaneSt → LaneSt) : (modLane s l f).fab = s.fab := rfl
@[simp] theorem modLane_ecc (s : State) (l : LaneId) (f : LaneSt → LaneSt) : (modLane s l f).ecc = s.ecc := rfl
@[simp] theorem modLane_quay (s : State) (l : LaneId) (f : LaneSt → LaneSt) : (modLane s l f).quay = s.quay := rfl
@[simp] theorem modLane_quayDmg (s : State) (l : LaneId) (f : LaneSt → LaneSt) : (modLane s l f).quayDmg = s.quayDmg := rfl
@[simp] theorem modLane_mramDmg (s : State) (l : LaneId) (f : LaneSt → LaneSt) : (modLane s l f).mramDmg = s.mramDmg := rfl
@[simp] theorem modLane_pw (s : State) (l : LaneId) (f : LaneSt → LaneSt) : (modLane s l f).pw = s.pw := rfl
@[simp] theorem modLane_svc (s : State) (l : LaneId) (f : LaneSt → LaneSt) : (modLane s l f).svc = s.svc := rfl
@[simp] theorem modLane_boot (s : State) (l : LaneId) (f : LaneSt → LaneSt) : (modLane s l f).boot = s.boot := rfl
@[simp] theorem modLane_rc (s : State) (l : LaneId) (f : LaneSt → LaneSt) : (modLane s l f).rc = s.rc := rfl
@[simp] theorem modPair_pending (s : State) (l : LaneId) (p : PairId) (f : PairSt → PairSt) : (modPair s l p f).pending = s.pending := rfl
@[simp] theorem modPair_fresh (s : State) (l : LaneId) (p : PairId) (f : PairSt → PairSt) : (modPair s l p f).fresh = s.fresh := rfl
@[simp] theorem modPair_up (s : State) (l : LaneId) (p : PairId) (f : PairSt → PairSt) : (modPair s l p f).up = s.up := rfl
@[simp] theorem modPair_tide (s : State) (l : LaneId) (p : PairId) (f : PairSt → PairSt) : (modPair s l p f).tide = s.tide := rfl
@[simp] theorem modPair_tideUp (s : State) (l : LaneId) (p : PairId) (f : PairSt → PairSt) : (modPair s l p f).tideUp = s.tideUp := rfl
@[simp] theorem modPair_rejoin (s : State) (l : LaneId) (p : PairId) (f : PairSt → PairSt) : (modPair s l p f).rejoin = s.rejoin := rfl
@[simp] theorem modPair_ctl (s : State) (l : LaneId) (p : PairId) (f : PairSt → PairSt) : (modPair s l p f).ctl = s.ctl := rfl
@[simp] theorem modPair_adm (s : State) (l : LaneId) (p : PairId) (f : PairSt → PairSt) : (modPair s l p f).adm = s.adm := rfl
@[simp] theorem modPair_net (s : State) (l : LaneId) (p : PairId) (f : PairSt → PairSt) : (modPair s l p f).net = s.net := rfl
@[simp] theorem modPair_ring (s : State) (l : LaneId) (p : PairId) (f : PairSt → PairSt) : (modPair s l p f).ring = s.ring := rfl
@[simp] theorem modPair_time (s : State) (l : LaneId) (p : PairId) (f : PairSt → PairSt) : (modPair s l p f).time = s.time := rfl
@[simp] theorem modPair_chans (s : State) (l : LaneId) (p : PairId) (f : PairSt → PairSt) : (modPair s l p f).chans = s.chans := rfl
@[simp] theorem modPair_para (s : State) (l : LaneId) (p : PairId) (f : PairSt → PairSt) : (modPair s l p f).para = s.para := rfl
@[simp] theorem modPair_br (s : State) (l : LaneId) (p : PairId) (f : PairSt → PairSt) : (modPair s l p f).br = s.br := rfl
@[simp] theorem modPair_fab (s : State) (l : LaneId) (p : PairId) (f : PairSt → PairSt) : (modPair s l p f).fab = s.fab := rfl
@[simp] theorem modPair_ecc (s : State) (l : LaneId) (p : PairId) (f : PairSt → PairSt) : (modPair s l p f).ecc = s.ecc := rfl
@[simp] theorem modPair_quay (s : State) (l : LaneId) (p : PairId) (f : PairSt → PairSt) : (modPair s l p f).quay = s.quay := rfl
@[simp] theorem modPair_quayDmg (s : State) (l : LaneId) (p : PairId) (f : PairSt → PairSt) : (modPair s l p f).quayDmg = s.quayDmg := rfl
@[simp] theorem modPair_mramDmg (s : State) (l : LaneId) (p : PairId) (f : PairSt → PairSt) : (modPair s l p f).mramDmg = s.mramDmg := rfl
@[simp] theorem modPair_pw (s : State) (l : LaneId) (p : PairId) (f : PairSt → PairSt) : (modPair s l p f).pw = s.pw := rfl
@[simp] theorem modPair_svc (s : State) (l : LaneId) (p : PairId) (f : PairSt → PairSt) : (modPair s l p f).svc = s.svc := rfl
@[simp] theorem modPair_boot (s : State) (l : LaneId) (p : PairId) (f : PairSt → PairSt) : (modPair s l p f).boot = s.boot := rfl
@[simp] theorem modPair_rc (s : State) (l : LaneId) (p : PairId) (f : PairSt → PairSt) : (modPair s l p f).rc = s.rc := rfl
@[simp] theorem modTask_pending (s : State) (l : LaneId) (p : PairId) (t : TaskId) (f : TaskRun → TaskRun) : (modTask s l p t f).pending = s.pending := rfl
@[simp] theorem modTask_fresh (s : State) (l : LaneId) (p : PairId) (t : TaskId) (f : TaskRun → TaskRun) : (modTask s l p t f).fresh = s.fresh := rfl
@[simp] theorem modTask_up (s : State) (l : LaneId) (p : PairId) (t : TaskId) (f : TaskRun → TaskRun) : (modTask s l p t f).up = s.up := rfl
@[simp] theorem modTask_tide (s : State) (l : LaneId) (p : PairId) (t : TaskId) (f : TaskRun → TaskRun) : (modTask s l p t f).tide = s.tide := rfl
@[simp] theorem modTask_tideUp (s : State) (l : LaneId) (p : PairId) (t : TaskId) (f : TaskRun → TaskRun) : (modTask s l p t f).tideUp = s.tideUp := rfl
@[simp] theorem modTask_rejoin (s : State) (l : LaneId) (p : PairId) (t : TaskId) (f : TaskRun → TaskRun) : (modTask s l p t f).rejoin = s.rejoin := rfl
@[simp] theorem modTask_ctl (s : State) (l : LaneId) (p : PairId) (t : TaskId) (f : TaskRun → TaskRun) : (modTask s l p t f).ctl = s.ctl := rfl
@[simp] theorem modTask_adm (s : State) (l : LaneId) (p : PairId) (t : TaskId) (f : TaskRun → TaskRun) : (modTask s l p t f).adm = s.adm := rfl
@[simp] theorem modTask_net (s : State) (l : LaneId) (p : PairId) (t : TaskId) (f : TaskRun → TaskRun) : (modTask s l p t f).net = s.net := rfl
@[simp] theorem modTask_ring (s : State) (l : LaneId) (p : PairId) (t : TaskId) (f : TaskRun → TaskRun) : (modTask s l p t f).ring = s.ring := rfl
@[simp] theorem modTask_time (s : State) (l : LaneId) (p : PairId) (t : TaskId) (f : TaskRun → TaskRun) : (modTask s l p t f).time = s.time := rfl
@[simp] theorem modTask_chans (s : State) (l : LaneId) (p : PairId) (t : TaskId) (f : TaskRun → TaskRun) : (modTask s l p t f).chans = s.chans := rfl
@[simp] theorem modTask_para (s : State) (l : LaneId) (p : PairId) (t : TaskId) (f : TaskRun → TaskRun) : (modTask s l p t f).para = s.para := rfl
@[simp] theorem modTask_br (s : State) (l : LaneId) (p : PairId) (t : TaskId) (f : TaskRun → TaskRun) : (modTask s l p t f).br = s.br := rfl
@[simp] theorem modTask_fab (s : State) (l : LaneId) (p : PairId) (t : TaskId) (f : TaskRun → TaskRun) : (modTask s l p t f).fab = s.fab := rfl
@[simp] theorem modTask_ecc (s : State) (l : LaneId) (p : PairId) (t : TaskId) (f : TaskRun → TaskRun) : (modTask s l p t f).ecc = s.ecc := rfl
@[simp] theorem modTask_quay (s : State) (l : LaneId) (p : PairId) (t : TaskId) (f : TaskRun → TaskRun) : (modTask s l p t f).quay = s.quay := rfl
@[simp] theorem modTask_quayDmg (s : State) (l : LaneId) (p : PairId) (t : TaskId) (f : TaskRun → TaskRun) : (modTask s l p t f).quayDmg = s.quayDmg := rfl
@[simp] theorem modTask_mramDmg (s : State) (l : LaneId) (p : PairId) (t : TaskId) (f : TaskRun → TaskRun) : (modTask s l p t f).mramDmg = s.mramDmg := rfl
@[simp] theorem modTask_pw (s : State) (l : LaneId) (p : PairId) (t : TaskId) (f : TaskRun → TaskRun) : (modTask s l p t f).pw = s.pw := rfl
@[simp] theorem modTask_svc (s : State) (l : LaneId) (p : PairId) (t : TaskId) (f : TaskRun → TaskRun) : (modTask s l p t f).svc = s.svc := rfl
@[simp] theorem modTask_boot (s : State) (l : LaneId) (p : PairId) (t : TaskId) (f : TaskRun → TaskRun) : (modTask s l p t f).boot = s.boot := rfl
@[simp] theorem modTask_rc (s : State) (l : LaneId) (p : PairId) (t : TaskId) (f : TaskRun → TaskRun) : (modTask s l p t f).rc = s.rc := rfl
@[simp] theorem modChan_pending (s : State) (c : Chan) (f : ChanSt → ChanSt) : (modChan s c f).pending = s.pending := rfl
@[simp] theorem modChan_fresh (s : State) (c : Chan) (f : ChanSt → ChanSt) : (modChan s c f).fresh = s.fresh := rfl
@[simp] theorem modChan_up (s : State) (c : Chan) (f : ChanSt → ChanSt) : (modChan s c f).up = s.up := rfl
@[simp] theorem modChan_tide (s : State) (c : Chan) (f : ChanSt → ChanSt) : (modChan s c f).tide = s.tide := rfl
@[simp] theorem modChan_tideUp (s : State) (c : Chan) (f : ChanSt → ChanSt) : (modChan s c f).tideUp = s.tideUp := rfl
@[simp] theorem modChan_lanes (s : State) (c : Chan) (f : ChanSt → ChanSt) : (modChan s c f).lanes = s.lanes := rfl
@[simp] theorem modChan_rejoin (s : State) (c : Chan) (f : ChanSt → ChanSt) : (modChan s c f).rejoin = s.rejoin := rfl
@[simp] theorem modChan_ctl (s : State) (c : Chan) (f : ChanSt → ChanSt) : (modChan s c f).ctl = s.ctl := rfl
@[simp] theorem modChan_adm (s : State) (c : Chan) (f : ChanSt → ChanSt) : (modChan s c f).adm = s.adm := rfl
@[simp] theorem modChan_net (s : State) (c : Chan) (f : ChanSt → ChanSt) : (modChan s c f).net = s.net := rfl
@[simp] theorem modChan_ring (s : State) (c : Chan) (f : ChanSt → ChanSt) : (modChan s c f).ring = s.ring := rfl
@[simp] theorem modChan_time (s : State) (c : Chan) (f : ChanSt → ChanSt) : (modChan s c f).time = s.time := rfl
@[simp] theorem modChan_para (s : State) (c : Chan) (f : ChanSt → ChanSt) : (modChan s c f).para = s.para := rfl
@[simp] theorem modChan_br (s : State) (c : Chan) (f : ChanSt → ChanSt) : (modChan s c f).br = s.br := rfl
@[simp] theorem modChan_fab (s : State) (c : Chan) (f : ChanSt → ChanSt) : (modChan s c f).fab = s.fab := rfl
@[simp] theorem modChan_ecc (s : State) (c : Chan) (f : ChanSt → ChanSt) : (modChan s c f).ecc = s.ecc := rfl
@[simp] theorem modChan_quay (s : State) (c : Chan) (f : ChanSt → ChanSt) : (modChan s c f).quay = s.quay := rfl
@[simp] theorem modChan_quayDmg (s : State) (c : Chan) (f : ChanSt → ChanSt) : (modChan s c f).quayDmg = s.quayDmg := rfl
@[simp] theorem modChan_mramDmg (s : State) (c : Chan) (f : ChanSt → ChanSt) : (modChan s c f).mramDmg = s.mramDmg := rfl
@[simp] theorem modChan_pw (s : State) (c : Chan) (f : ChanSt → ChanSt) : (modChan s c f).pw = s.pw := rfl
@[simp] theorem modChan_svc (s : State) (c : Chan) (f : ChanSt → ChanSt) : (modChan s c f).svc = s.svc := rfl
@[simp] theorem modChan_boot (s : State) (c : Chan) (f : ChanSt → ChanSt) : (modChan s c f).boot = s.boot := rfl
@[simp] theorem modChan_rc (s : State) (c : Chan) (f : ChanSt → ChanSt) : (modChan s c f).rc = s.rc := rfl
@[simp] theorem modPort_pending (s : State) (p : Port) (f : PortSt → PortSt) : (modPort s p f).pending = s.pending := rfl
@[simp] theorem modPort_fresh (s : State) (p : Port) (f : PortSt → PortSt) : (modPort s p f).fresh = s.fresh := rfl
@[simp] theorem modPort_up (s : State) (p : Port) (f : PortSt → PortSt) : (modPort s p f).up = s.up := rfl
@[simp] theorem modPort_tide (s : State) (p : Port) (f : PortSt → PortSt) : (modPort s p f).tide = s.tide := rfl
@[simp] theorem modPort_tideUp (s : State) (p : Port) (f : PortSt → PortSt) : (modPort s p f).tideUp = s.tideUp := rfl
@[simp] theorem modPort_lanes (s : State) (p : Port) (f : PortSt → PortSt) : (modPort s p f).lanes = s.lanes := rfl
@[simp] theorem modPort_rejoin (s : State) (p : Port) (f : PortSt → PortSt) : (modPort s p f).rejoin = s.rejoin := rfl
@[simp] theorem modPort_ctl (s : State) (p : Port) (f : PortSt → PortSt) : (modPort s p f).ctl = s.ctl := rfl
@[simp] theorem modPort_adm (s : State) (p : Port) (f : PortSt → PortSt) : (modPort s p f).adm = s.adm := rfl
@[simp] theorem modPort_ring (s : State) (p : Port) (f : PortSt → PortSt) : (modPort s p f).ring = s.ring := rfl
@[simp] theorem modPort_time (s : State) (p : Port) (f : PortSt → PortSt) : (modPort s p f).time = s.time := rfl
@[simp] theorem modPort_chans (s : State) (p : Port) (f : PortSt → PortSt) : (modPort s p f).chans = s.chans := rfl
@[simp] theorem modPort_para (s : State) (p : Port) (f : PortSt → PortSt) : (modPort s p f).para = s.para := rfl
@[simp] theorem modPort_br (s : State) (p : Port) (f : PortSt → PortSt) : (modPort s p f).br = s.br := rfl
@[simp] theorem modPort_fab (s : State) (p : Port) (f : PortSt → PortSt) : (modPort s p f).fab = s.fab := rfl
@[simp] theorem modPort_ecc (s : State) (p : Port) (f : PortSt → PortSt) : (modPort s p f).ecc = s.ecc := rfl
@[simp] theorem modPort_quay (s : State) (p : Port) (f : PortSt → PortSt) : (modPort s p f).quay = s.quay := rfl
@[simp] theorem modPort_quayDmg (s : State) (p : Port) (f : PortSt → PortSt) : (modPort s p f).quayDmg = s.quayDmg := rfl
@[simp] theorem modPort_mramDmg (s : State) (p : Port) (f : PortSt → PortSt) : (modPort s p f).mramDmg = s.mramDmg := rfl
@[simp] theorem modPort_pw (s : State) (p : Port) (f : PortSt → PortSt) : (modPort s p f).pw = s.pw := rfl
@[simp] theorem modPort_svc (s : State) (p : Port) (f : PortSt → PortSt) : (modPort s p f).svc = s.svc := rfl
@[simp] theorem modPort_boot (s : State) (p : Port) (f : PortSt → PortSt) : (modPort s p f).boot = s.boot := rfl
@[simp] theorem modPort_rc (s : State) (p : Port) (f : PortSt → PortSt) : (modPort s p f).rc = s.rc := rfl
@[simp] theorem modCore_pending (s : State) (x : Ctx) (f : UCore → UCore) : (modCore s x f).pending = s.pending := rfl
@[simp] theorem modCore_fresh (s : State) (x : Ctx) (f : UCore → UCore) : (modCore s x f).fresh = s.fresh := rfl
@[simp] theorem modCore_up (s : State) (x : Ctx) (f : UCore → UCore) : (modCore s x f).up = s.up := rfl
@[simp] theorem modCore_tide (s : State) (x : Ctx) (f : UCore → UCore) : (modCore s x f).tide = s.tide := rfl
@[simp] theorem modCore_tideUp (s : State) (x : Ctx) (f : UCore → UCore) : (modCore s x f).tideUp = s.tideUp := rfl
@[simp] theorem modCore_rejoin (s : State) (x : Ctx) (f : UCore → UCore) : (modCore s x f).rejoin = s.rejoin := rfl
@[simp] theorem modCore_ctl (s : State) (x : Ctx) (f : UCore → UCore) : (modCore s x f).ctl = s.ctl := rfl
@[simp] theorem modCore_adm (s : State) (x : Ctx) (f : UCore → UCore) : (modCore s x f).adm = s.adm := rfl
@[simp] theorem modCore_net (s : State) (x : Ctx) (f : UCore → UCore) : (modCore s x f).net = s.net := rfl
@[simp] theorem modCore_ring (s : State) (x : Ctx) (f : UCore → UCore) : (modCore s x f).ring = s.ring := rfl
@[simp] theorem modCore_time (s : State) (x : Ctx) (f : UCore → UCore) : (modCore s x f).time = s.time := rfl
@[simp] theorem modCore_chans (s : State) (x : Ctx) (f : UCore → UCore) : (modCore s x f).chans = s.chans := rfl
@[simp] theorem modCore_para (s : State) (x : Ctx) (f : UCore → UCore) : (modCore s x f).para = s.para := rfl
@[simp] theorem modCore_br (s : State) (x : Ctx) (f : UCore → UCore) : (modCore s x f).br = s.br := rfl
@[simp] theorem modCore_fab (s : State) (x : Ctx) (f : UCore → UCore) : (modCore s x f).fab = s.fab := rfl
@[simp] theorem modCore_ecc (s : State) (x : Ctx) (f : UCore → UCore) : (modCore s x f).ecc = s.ecc := rfl
@[simp] theorem modCore_quay (s : State) (x : Ctx) (f : UCore → UCore) : (modCore s x f).quay = s.quay := rfl
@[simp] theorem modCore_quayDmg (s : State) (x : Ctx) (f : UCore → UCore) : (modCore s x f).quayDmg = s.quayDmg := rfl
@[simp] theorem modCore_mramDmg (s : State) (x : Ctx) (f : UCore → UCore) : (modCore s x f).mramDmg = s.mramDmg := rfl
@[simp] theorem modCore_pw (s : State) (x : Ctx) (f : UCore → UCore) : (modCore s x f).pw = s.pw := rfl
@[simp] theorem modCore_svc (s : State) (x : Ctx) (f : UCore → UCore) : (modCore s x f).svc = s.svc := rfl
@[simp] theorem modCore_boot (s : State) (x : Ctx) (f : UCore → UCore) : (modCore s x f).boot = s.boot := rfl
@[simp] theorem modCore_rc (s : State) (x : Ctx) (f : UCore → UCore) : (modCore s x f).rc = s.rc := rfl

end Sys2Proof.Machine
end

