-- ==== Sys2Proof/Laws/Codes.lean ====
section
/-! SUPPORT. What an event record and a read with its error-correcting code leave unchanged. -/

namespace Sys2Proof.Machine

/-- An event changes the recorder alone. -/
theorem record_only (s : State) (code : BitVec 16) (data : List Byte) :
    ∃ r, record s code data = { s with rc := r } := by
  have hst : ∀ (s : State) c d, ∃ r, stageEvent s c d = { s with rc := r } := fun s c d => ⟨_, rfl⟩
  have hput : ∀ (s : State) c d, ∃ r, putEvent s c d = { s with rc := r } := by
    intro s c d
    obtain ⟨r, h⟩ := hst s c d
    simp only [putEvent, h, sayFull]
    split
    · exact ⟨r, rfl⟩
    · exact ⟨_, rfl⟩
  have hrep : ∀ (s : State) b, ∃ r, reportSuppressed s b = { s with rc := r } := by
    intro s b
    obtain ⟨r, h⟩ := hput s 0x0002 (leBytes 2 b.code.toNat ++ leBytes 4 b.supp.toNat ++ leBytes 2 (min 65535 ((b.last - b.first) / 1000000000)))
    simp only [reportSuppressed, h]
    exact ⟨_, rfl⟩
  simp only [record, recordRunning, headlandRecord]
  split
  · split
    · exact hput s code data
    · split
      · exact ⟨_, rfl⟩
      · split
        · exact (hput _ code data).imp fun r h => by rw [h]
        · obtain ⟨r, h⟩ := hrep s (bucketOf s.rc code)
          rw [h]
          exact (hput _ code data).imp fun r h => by rw [h]
  · split <;> exact ⟨_, rfl⟩

/-- A read with its code changes the EC_ registers and the recorder alone. -/
theorem eccRead_only (s : State) (m : MemId) (a : Nat) (r : Reader) (h : Hit) :
    ∃ e c, (eccRead s m a r h).1 = { s with ecc := e, rc := c } := by
  have hp : ∀ (s : State) m e, ∃ e', eccPut s m e = { s with ecc := e' } := by intro s m e; cases m <;> exact ⟨_, rfl⟩
  have hr : ∀ (s : State) m e c d, ∃ e' r', record (eccPut s m e) c d = { s with ecc := e', rc := r' } := by
    intro s m e c d
    obtain ⟨e', h⟩ := hp s m e
    obtain ⟨r', h'⟩ := record_only (eccPut s m e) c d
    exact ⟨e', r', by rw [h', h]⟩
  have hc : ∀ b, ∃ e c, eccCorrect s m a b = { s with ecc := e, rc := c } := by
    intro b
    simp only [eccCorrect]
    repeat' split
    all_goals first | exact hr _ _ _ _ _ | exact (hp s m _).imp fun e h => ⟨s.rc, by rw [h]⟩
  cases h
  · exact ⟨s.ecc, s.rc, rfl⟩
  · exact hc _
  · exact hc _
  · exact hr _ _ _ _ _

/-- A pair's read of a word changes nothing but the damage of its lane, the EC_ registers and the recorder. -/
theorem readWord_only (s : State) (c : Core) (ea : Nat) (h : Hit) :
    ∃ d e r, (readWord s c ea h).1 = { modLane s c.x.lane (fun y => { y with dmg := d }) with ecc := e, rc := r } := by
  simp only [readWord]
  obtain ⟨e, r, h'⟩ := eccRead_only (modLane s c.x.lane fun y => { y with dmg := dmgMeet y.dmg (ea / 4 * 4) h }) (.lane c.x.lane)
    (ea / 4 * 4) .pair (dmgFind (lane (modLane s c.x.lane fun y => { y with dmg := dmgMeet y.dmg (ea / 4 * 4) h }) c.x.lane).dmg (ea / 4 * 4))
  exact ⟨_, e, r, by rw [h']; rfl⟩

@[simp] theorem readWord_sram (s : State) (c : Core) (ea : Nat) (h : Hit) (l : LaneId) :
    (lane (readWord s c ea h).1 l).sram = (lane s l).sram := by
  obtain ⟨d, e, r, h'⟩ := readWord_only s c ea h
  rw [h']
  simp only [lane, modLane, lanes_get_set]
  split <;> simp [*]

@[simp] theorem readWord_pairs (s : State) (c : Core) (ea : Nat) (h : Hit) (l : LaneId) :
    (lane (readWord s c ea h).1 l).pairs = (lane s l).pairs := by
  obtain ⟨d, e, r, h'⟩ := readWord_only s c ea h
  rw [h']
  simp only [lane, modLane, lanes_get_set]
  split <;> simp [*]

end Sys2Proof.Machine
end

