-- ==== Sys2Proof/Laws/Factory.lean ====
section
/-! SUPPORT. The firmware that leaves the factory passes the checks of R580 (R2). -/

namespace Sys2Proof.Machine

open Config

/-- A lookup in the listed bytes of a block. -/
theorem memFind_listed (d : Byte) (i : Nat) : ∀ (b : List Byte) (n : Nat), n ≤ i →
    ((memFind (((b.zipIdx n).filter fun x => x.1 != d).map fun x => (x.2, x.1)) i).getD d) = b.getD (i - n) d := by
  intro b
  induction b with
  | nil => intro n _; simp [memFind]
  | cons x r ih =>
    intro n hn
    simp only [List.zipIdx_cons, List.filter_cons]
    by_cases hi : n = i
    · subst hi
      by_cases hx : x = d
      · subst hx
        have none : ∀ (b : List Byte) (m : Nat), n < m → (memFind (((b.zipIdx m).filter fun y => y.1 != x).map fun y => (y.2, y.1)) n) = none := by
          intro b
          induction b with
          | nil => intro m _; simp [memFind]
          | cons y q ih2 =>
            intro m hm
            simp only [List.zipIdx_cons, List.filter_cons]
            split
            · simp only [List.map_cons, memFind]
              rw [if_neg (by omega)]
              exact ih2 (m + 1) (by omega)
            · exact ih2 (m + 1) (by omega)
        simp [none r (n + 1) (by omega)]
      · simp [hx, memFind]
    · have step := ih (n + 1) (by omega)
      have e : (x :: r).getD (i - n) d = r.getD (i - (n + 1)) d := by
        have : i - n = (i - (n + 1)) + 1 := by omega
        rw [this]; rfl
      split
      · simp only [List.map_cons, memFind, if_neg hi, e]; exact step
      · rw [e]; exact step

theorem factoryFw_read (i : Nat) : memRead 0xFF factoryFw i = factoryFirmware.getD i 0xFF := by
  have h := memFind_listed 0xFF i factoryFirmware 0 (Nat.zero_le _)
  simpa [memRead, factoryFw] using h

theorem factoryFw_readN (o n : Nat) : memReadN 0xFF factoryFw o n = (List.range n).map fun i => factoryFirmware.getD (o + i) 0xFF := by
  simp only [memReadN, factoryFw_read]

theorem factoryHead_length : factoryHead.length = 512 := by decide +kernel

theorem factory_head (i : Nat) (h : i < 512) : factoryFirmware.getD i 0xFF = factoryHead.getD i 0xFF := by
  simp only [factoryFirmware, List.append_assoc, List.getD_eq_getElem?_getD]
  rw [List.getElem?_append_left (by rw [factoryHead_length]; exact h)]

theorem factory_headN (o n : Nat) (h : o + n ≤ 512) :
    memReadN 0xFF factoryFw o n = (List.range n).map fun i => factoryHead.getD (o + i) 0xFF := by
  rw [factoryFw_readN]
  refine List.map_congr_left fun i hi => factory_head _ ?_
  have := List.mem_range.mp hi; omega


/-- A range of zeros of the header. -/
theorem factory_zeros (o n : Nat) (h : o + n ≤ 512) (z : ((List.range n).all fun i => factoryHead.getD (o + i) 0xFF == 0) = true) :
    zeros factoryFw o n = true := by
  simp only [zeros]
  rw [factory_headN o n h, List.all_map]
  exact z

theorem leNat_four (n : Nat) (h : n < 2 ^ 32) : leNat (four n) = n := by
  simp [four, List.range_succ, leNat]
  omega

theorem payload_lt : factoryPayload.length < 0x1FFF000 := by simp [factoryPayload]; exact Nat.mod_lt _ (by decide)

theorem factory_len : imgLen factoryFw = factoryPayload.length := by
  have h : memReadN 0xFF factoryFw 16 4 = four factoryPayload.length := by
    rw [factory_headN 16 4 (by decide)]; rfl
  rw [imgLen, hdr, h, leNat_four _ (Nat.lt_trans payload_lt (by decide))]

/-- Two consecutive entries of the directory. -/
theorem factory_dir0 : dirEntry factoryFw 0 = ⟨0x11, 0, 0, factoryPayload.length / 2⟩ := by
  have p := payload_lt
  have a : memReadN 0xFF factoryFw 132 4 = four 0 := by rw [factory_headN 132 4 (by decide)]; rfl
  have b : memReadN 0xFF factoryFw 136 4 = four (factoryPayload.length / 2) := by rw [factory_headN 136 4 (by decide)]; rfl
  have c : memReadN 0xFF factoryFw 128 1 = [0x11] := by rw [factory_headN 128 1 (by decide)]; rfl
  have d : memReadN 0xFF factoryFw 129 1 = [0] := by rw [factory_headN 129 1 (by decide)]; rfl
  simp only [dirEntry, hdr, Nat.mul_zero, Nat.add_zero, a, b, c, d]
  rw [leNat_four _ (by decide), leNat_four _ (by omega)]; rfl

theorem factory_dir1 : dirEntry factoryFw 1 = ⟨0x12, 0, factoryPayload.length / 2, factoryPayload.length - factoryPayload.length / 2⟩ := by
  have p := payload_lt
  have a : memReadN 0xFF factoryFw 148 4 = four (factoryPayload.length / 2) := by rw [factory_headN 148 4 (by decide)]; rfl
  have b : memReadN 0xFF factoryFw 152 4 = four (factoryPayload.length - factoryPayload.length / 2) := by rw [factory_headN 152 4 (by decide)]; rfl
  have c : memReadN 0xFF factoryFw 144 1 = [0x12] := by rw [factory_headN 144 1 (by decide)]; rfl
  have d : memReadN 0xFF factoryFw 145 1 = [0] := by rw [factory_headN 145 1 (by decide)]; rfl
  simp only [dirEntry, hdr, Nat.mul_one, a, b, c, d]
  rw [leNat_four _ (by omega), leNat_four _ (by omega)]; rfl


/-- A part of the image that lies behind others. -/
theorem factory_part (pre mid post : List Byte) (h : factoryFirmware = pre ++ mid ++ post) :
    memReadN 0xFF factoryFw pre.length mid.length = mid := by
  rw [factoryFw_readN]
  apply List.ext_getElem
  · simp
  · intro i h1 h2
    have : i < mid.length := h2
    have g : ¬ pre.length + i < pre.length := by omega
    simp [h, List.getD_eq_getElem?_getD, List.getElem?_append, this, g]

theorem factorySig_length : factorySig.length = 2820 := by simp [factorySig]

theorem factory_tail : zeros factoryFw 3332 764 = true := by
  have h := factory_part (factoryHead ++ factorySig) (List.replicate 764 0) factoryPayload rfl
  rw [List.length_append, factoryHead_length, factorySig_length, List.length_replicate] at h
  simp only [zeros, h]
  decide +kernel

theorem factory_signature : memReadN 0xFF factoryFw 512 2820 = factorySig := by
  have h := factory_part factoryHead factorySig (List.replicate 764 0 ++ factoryPayload) (by simp only [factoryFirmware, List.append_assoc, List.nil_append, List.append_nil])
  rwa [factoryHead_length, factorySig_length] at h

theorem factory_message : memReadN 0xFF factoryFw 0 512 ++ memReadN 0xFF factoryFw 4096 (imgLen factoryFw) = factoryHead ++ factoryPayload := by
  have a := factory_part [] factoryHead (factorySig ++ List.replicate 764 0 ++ factoryPayload) (by simp only [factoryFirmware, List.append_assoc, List.nil_append, List.append_nil])
  have b := factory_part (factoryHead ++ factorySig ++ List.replicate 764 0) factoryPayload [] (by simp only [factoryFirmware, List.append_assoc, List.nil_append, List.append_nil])
  rw [factoryHead_length] at a
  simp only [List.length_append, factoryHead_length, factorySig_length, List.length_replicate] at b
  rw [factory_len]
  rw [show memReadN 0xFF factoryFw 0 512 = factoryHead from a, show memReadN 0xFF factoryFw 4096 factoryPayload.length = factoryPayload from b]

/-- Bytes of the header by value. -/
theorem factory_hdr (o n v : Nat) (h : o + n ≤ 512) (e : leNat ((List.range n).map fun i => factoryHead.getD (o + i) 0xFF) = v) :
    hdr factoryFw o n = v := by rw [hdr, factory_headN o n h]; exact e

theorem factory_headerOk : headerOk factoryFw false = true := by
  have p := payload_lt
  have m : memReadN 0xFF factoryFw 0 4 = [0x53, 0x44, 0x49, 0x4D] := by rw [factory_headN 0 4 (by decide)]; rfl
  have z (o n : Nat) (h : o + n ≤ 512) (e : ((List.range n).all fun i => factoryHead.getD (o + i) 0xFF == 0) = true) := factory_zeros o n h e
  have dirs : ((List.range 16).all fun i =>
      if i < 2 then zeros factoryFw (130 + 16 * i) 2 && zeros factoryFw (140 + 16 * i) 4 &&
          decide ((dirEntry factoryFw i).off + (dirEntry factoryFw i).len ≤ imgLen factoryFw)
      else zeros factoryFw (128 + 16 * i) 16) = true := by
    rw [List.all_eq_true]
    intro i hi
    have hi := List.mem_range.mp hi
    split
    · rename_i h2
      have : i = 0 ∨ i = 1 := by omega
      rcases this with rfl | rfl
      · rw [z _ _ (by decide) (by decide +kernel), z _ _ (by decide) (by decide +kernel), factory_dir0, factory_len]
        simp; omega
      · rw [z _ _ (by decide) (by decide +kernel), z _ _ (by decide) (by decide +kernel), factory_dir1, factory_len]
        simp; omega
    · rename_i h2
      refine z _ _ (by omega) ?_
      have all : ((List.range 16).all fun i => decide (i < 2) || (List.range 16).all fun j => factoryHead.getD (128 + 16 * i + j) 0xFF == 0) = true := by
        decide +kernel
      have := List.all_eq_true.mp all i (List.mem_range.mpr hi)
      simpa [h2] using this
  have d2 : hdr factoryFw 24 1 = 2 := factory_hdr _ _ _ (by decide) (by decide +kernel)
  simp only [headerOk, m, d2, factory_hdr 4 2 1 (by decide) (by decide +kernel), factory_hdr 6 1 1 (by decide) (by decide +kernel),
    z 26 2 (by decide) (by decide +kernel), z 28 68 (by decide) (by decide +kernel), z 96 32 (by decide) (by decide +kernel),
    z 384 128 (by decide) (by decide +kernel), factory_tail]
  have e : Min.min 16 2 = 2 := rfl
  simp only [dirs]
  rw [factory_len]
  simp [fwSlot]
  omega

/-- Checks 1 to 5 of R580 pass for the firmware of the factory, with V0 as delivered and no fuse burnt (R2, R582). -/
theorem factory_check (s : State) (k : s.boot.vkeys.get 0 = ⟨vendorKey, true, false⟩) (r : s.boot.rb = 0) :
    checkImage s factoryFw false = 0 := by
  have slot : keySlot s factoryFw = some ⟨vendorKey, true, false⟩ := by
    simp only [keySlot, factory_hdr 7 1 0 (by decide) (by decide +kernel)]
    simpa using k
  have key : keyOk s factoryFw false = true := by
    simp [keyOk, slot, slotActive, factory_hdr 7 1 0 (by decide) (by decide +kernel)]
  have oid : vendorKey.take 4 = xmssOid := by simp [vendorKey, xmssOid]
  have sig : sigOk s factoryFw = true := by
    simp only [sigOk, slot, factory_message, factory_signature, oid, xmssVerify]
    simp
  have part : partOk factoryFw false = true := by
    simp only [partOk, factory_hdr 8 2 0x4832 (by decide) (by decide +kernel), factory_hdr 10 1 1 (by decide) (by decide +kernel)]
    decide +kernel
  simp [checkImage, factory_headerOk, part, key, sig, r]

end Sys2Proof.Machine
end

