-- ==== Sys2Proof/Laws/Memory.lean ====
section
/-! SUPPORT. The memories: reading after writing, and the canonical form that every operation keeps. -/

namespace Sys2Proof.Machine

/-- What the canonical form says: addresses strictly rising from `lo`, and no entry with the default byte. -/
theorem memOk_iff (d : Byte) (lo : Nat) (m : Memory) :
    memOk d lo m = true ↔ m.Pairwise (fun a b => a.1 < b.1) ∧ ∀ c ∈ m, lo ≤ c.1 ∧ c.2 ≠ d := by
  induction m generalizing lo with
  | nil => simp [memOk]
  | cons c r ih =>
    obtain ⟨k, v⟩ := c
    simp only [memOk, Bool.and_eq_true, decide_eq_true_eq, ih, List.pairwise_cons, List.mem_cons, forall_eq_or_imp]
    constructor
    · rintro ⟨⟨hk, hv⟩, hp, hm⟩
      exact ⟨⟨fun c hc => (hm c hc).1, hp⟩, ⟨hk, hv⟩, fun c hc => ⟨by have := (hm c hc).1; omega, (hm c hc).2⟩⟩
    · rintro ⟨⟨hl, hp⟩, ⟨hk, hv⟩, hm⟩
      exact ⟨⟨hk, hv⟩, hp, fun c hc => ⟨hl c hc, (hm c hc).2⟩⟩

theorem memWf_iff (d : Byte) (m : Memory) :
    Memory.wf d m = true ↔ m.Pairwise (fun a b => a.1 < b.1) ∧ ∀ c ∈ m, c.2 ≠ d := by simp [Memory.wf, memOk_iff]

theorem memOk_of_le {d : Byte} {lo lo' : Nat} {m : Memory} (h : memOk d lo m = true) (hl : lo' ≤ lo) : memOk d lo' m = true := by
  rw [memOk_iff] at h ⊢
  exact ⟨h.1, fun c hc => ⟨Nat.le_trans hl (h.2 c hc).1, (h.2 c hc).2⟩⟩

/-- Below its first address a memory lists nothing. -/
theorem memFind_below {d : Byte} {lo a : Nat} {m : Memory} (h : memOk d lo m = true) (ha : a < lo) : memFind m a = none := by
  induction m generalizing lo with
  | nil => rfl
  | cons c r ih =>
    obtain ⟨k, v⟩ := c
    simp only [memOk, Bool.and_eq_true, decide_eq_true_eq] at h
    have hk : k ≠ a := by omega
    simp [memFind, hk, ih h.2 (by omega)]

/-- A write keeps the canonical form. -/
theorem memWrite_ok {d : Byte} {lo : Nat} {m : Memory} (h : memOk d lo m = true) {a : Nat} (ha : lo ≤ a) (b : Byte) :
    memOk d lo (memWrite d m a b) = true := by
  induction m generalizing lo with
  | nil => by_cases hb : b = d <;> simp [memWrite, memOk, hb, ha]
  | cons c r ih =>
    obtain ⟨k, v⟩ := c
    have h' := h
    simp only [memOk, Bool.and_eq_true, decide_eq_true_eq] at h'
    obtain ⟨⟨hk, hv⟩, hr⟩ := h'
    simp only [memWrite]
    split
    · rename_i hlt
      simp [memOk, hk, hv, ih hr (show k + 1 ≤ a by omega)]
    · split
      · rename_i hge he
        subst he
        split
        · exact memOk_of_le hr (by omega)
        · rename_i hb; simp [memOk, hk, hb, hr]
      · split
        · exact h
        · rename_i hge hne hb
          simp [memOk, ha, hb, hv, hr, show a + 1 ≤ k by omega]

/-- A read after a write of the same address gives the byte written. -/
theorem memRead_memWrite_same {d : Byte} {lo : Nat} {m : Memory} (h : memOk d lo m = true) (a : Nat) (b : Byte) :
    memRead d (memWrite d m a b) a = b := by
  induction m generalizing lo with
  | nil => by_cases hb : b = d <;> simp [memWrite, memRead, memFind, hb]
  | cons c r ih =>
    obtain ⟨k, v⟩ := c
    simp only [memOk, Bool.and_eq_true, decide_eq_true_eq] at h
    simp only [memWrite]
    split
    · have hka : k ≠ a := by omega
      simpa [memRead, memFind, hka] using ih h.2
    · split
      · rename_i he
        subst he
        split
        · rename_i hb; simp [memRead, memFind_below h.2 (Nat.lt_succ_self _), hb]
        · simp [memRead, memFind]
      · split
        · rename_i hge hne hb
          have hka : k ≠ a := hne
          simp [memRead, memFind, hka, memFind_below h.2 (show a < k + 1 by omega), hb]
        · simp [memRead, memFind]

/-- A write leaves every other address. -/
theorem memRead_memWrite_other (d : Byte) (m : Memory) {a a' : Nat} (b : Byte) (ha : a' ≠ a) :
    memRead d (memWrite d m a b) a' = memRead d m a' := by
  induction m with
  | nil => by_cases hb : b = d <;> simp [memWrite, memRead, memFind, hb, ha.symm]
  | cons c r ih =>
    obtain ⟨k, v⟩ := c
    simp only [memRead] at ih ⊢
    simp only [memWrite]
    split
    · by_cases hka : k = a' <;> simp [memFind, hka, ih]
    · split
      · rename_i he
        subst he
        split <;> simp [memFind, ha.symm]
      · split
        · rfl
        · simp [memFind, ha.symm]

theorem memWriteN_ok {d : Byte} {lo : Nat} {m : Memory} (h : memOk d lo m = true) {a : Nat} (ha : lo ≤ a) (b : List Byte) :
    memOk d lo (memWriteN d m a b) = true := by
  induction b generalizing m a with
  | nil => exact h
  | cons x r ih => exact ih (memWrite_ok h ha x) (by omega)

/-- What stands at an address after bytes were written from `a` upwards. -/
theorem memRead_memWriteN {d : Byte} {lo : Nat} {m : Memory} (h : memOk d lo m = true) {a : Nat} (ha : lo ≤ a) (b : List Byte) (k : Nat) :
    memRead d (memWriteN d m a b) k =
      if a ≤ k ∧ k < a + b.length then b.getD (k - a) 0 else memRead d m k := by
  induction b generalizing m a with
  | nil => simp only [memWriteN, List.length_nil]; rw [if_neg (by omega)]
  | cons x r ih =>
    simp only [memWriteN, ih (memWrite_ok h ha x) (show lo ≤ a + 1 by omega), List.length_cons]
    by_cases hk : k = a
    · subst hk
      rw [if_neg (by omega), if_pos (by omega), memRead_memWrite_same h]; simp
    · rw [memRead_memWrite_other d m x hk]
      by_cases hin : a + 1 ≤ k ∧ k < a + 1 + r.length
      · have e : k - a = (k - (a + 1)) + 1 := by omega
        rw [if_pos hin, if_pos (by omega), e, List.getD_cons_succ]
      · rw [if_neg hin, if_neg (by omega)]

theorem memWriteWord_ok {d : Byte} {lo : Nat} {m : Memory} (h : memOk d lo m = true) {a : Nat} (ha : lo ≤ a) (w : Word) (be : BitVec 4) :
    memOk d lo (memWriteWord d m a w be) = true := by
  have st : ∀ {m : Memory} (i : Nat), memOk d lo m = true →
      memOk d lo (if be.getLsbD i then memWrite d m (a + i) (byteOf w i) else m) = true := by
    intro m i h
    split
    · exact memWrite_ok h (by omega) _
    · exact h
  exact st 3 (st 2 (st 1 (st 0 h)))

/-- A word write changes no byte outside its word, nor one that its byte enables leave out. -/
theorem memRead_memWriteWord_other (d : Byte) (m : Memory) (a : Nat) (w : Word) (be : BitVec 4) (k : Nat)
    (hk : ∀ i < 4, be.getLsbD i = true → k ≠ a + i) : memRead d (memWriteWord d m a w be) k = memRead d m k := by
  have st : ∀ (m : Memory) (i : Nat), i < 4 →
      memRead d (if be.getLsbD i then memWrite d m (a + i) (byteOf w i) else m) k = memRead d m k := by
    intro m i hi
    split
    · rename_i hb; exact memRead_memWrite_other d m _ (hk i hi hb)
    · rfl
  simp only [memWriteWord]
  rw [st _ 3 (by omega), st _ 2 (by omega), st _ 1 (by omega), st _ 0 (by omega)]

theorem memErase_ok {d : Byte} {lo : Nat} {m : Memory} (h : memOk d lo m = true) (a b : Nat) : memOk d lo (memErase m a b) = true := by
  rw [memOk_iff] at h ⊢
  exact ⟨h.1.filter _, fun c hc => h.2 c (List.mem_filter.mp hc).1⟩

/-- A memory with a range taken from another is in canonical form when both are. -/
theorem memTake_ok {d : Byte} {lo : Nat} {m src : Memory} (h : memOk d lo m = true) (hs : memOk d lo src = true) (a b : Nat) :
    memOk d lo (memTake m src a b) = true := by
  rw [memOk_iff] at h hs ⊢
  constructor
  · simp only [memTake, List.pairwise_append, List.mem_append, List.mem_filter, Bool.and_eq_true, decide_eq_true_eq]
    refine ⟨⟨h.1.filter _, hs.1.filter _, ?_⟩, h.1.filter _, ?_⟩
    · rintro x ⟨-, hx⟩ y ⟨-, hy, -⟩; omega
    · rintro x (⟨-, hx⟩ | ⟨-, hx, hx'⟩) y ⟨-, hy, hy'⟩ <;> omega
  · intro c hc
    simp only [memTake, List.mem_append, List.mem_filter] at hc
    rcases hc with (⟨hc, -⟩ | ⟨hc, -⟩) | ⟨hc, -⟩
    · exact h.2 c hc
    · exact hs.2 c hc
    · exact h.2 c hc

/-- The listed bytes of a block at `a` rise and hold no default. -/
theorem memListed_ok (d : Byte) (a n : Nat) (b : List Byte) :
    memOk d a (((b.zipIdx n).filter fun x => x.1 != d).map fun x => (a + x.2, x.1)) = true := by
  suffices h : ∀ (b : List Byte) (n : Nat),
      memOk d (a + n) (((b.zipIdx n).filter fun x => x.1 != d).map fun x => (a + x.2, x.1)) = true from
    memOk_of_le (h b n) (by omega)
  intro b
  induction b with
  | nil => intro n; rfl
  | cons x r ih =>
    intro n
    simp only [List.zipIdx_cons, List.filter_cons]
    split
    · rename_i hx
      have hx' : x ≠ d := by simpa using hx
      simp only [List.map_cons, memOk, Bool.and_eq_true, decide_eq_true_eq]
      exact ⟨⟨Nat.le_refl _, hx'⟩, ih (n + 1)⟩
    · exact memOk_of_le (ih (n + 1)) (by omega)

theorem memOfBytes_wf (a : Nat) (b : List Byte) : Memory.wf 0 (memOfBytes a b) = true :=
  memOk_of_le (memListed_ok 0 a 0 b) (Nat.zero_le _)

theorem factoryFw_wf : Memory.wf 0xFF factoryFw = true := by
  have h := memListed_ok 0xFF 0 0 Config.factoryFirmware
  simpa [Memory.wf, factoryFw] using h

/-- The memories are in canonical form at reset. -/
theorem reset_memoriesOk : MemoriesOk State.reset := by
  refine ⟨fun l => by cases l <;> rfl, rfl, fun b => ?_⟩
  cases b
  · exact ⟨factoryFw_wf, rfl, rfl⟩
  · exact ⟨rfl, rfl, rfl⟩

end Sys2Proof.Machine
end

