-- ==== Sys2Proof/Laws/Ops.lean ====
section
/-! SUPPORT. What the shared operations change: one lemma for each operation that names the only part of the state it touches. -/

namespace Sys2Proof.Machine

/-- What every round keeps, a loop keeps. -/
theorem forAll_keeps {α : Type} (P : State → Prop) (l : List α) (s : State) (f : State → α → State) (h : P s)
    (hf : ∀ t x, x ∈ l → P t → P (f t x)) : P (forAll l s f) := by
  induction l generalizing s with
  | nil => exact h
  | cons a r ih => exact ih (f s a) (hf s a (by simp) h) fun t x hx => hf t x (by simp [hx])

@[simp] theorem forAll_nil {α : Type} (s : State) (f : State → α → State) : forAll [] s f = s := rfl

@[simp] theorem forAll_cons {α : Type} (a : α) (l : List α) (s : State) (f : State → α → State) :
    forAll (a :: l) s f = forAll l (f s a) f := rfl

@[simp] theorem record_pending (s : State) (c : BitVec 16) (d : List Byte) : (record s c d).pending = s.pending := by
  obtain ⟨r, h⟩ := record_only s c d; rw [h]
@[simp] theorem record_fresh (s : State) (c : BitVec 16) (d : List Byte) : (record s c d).fresh = s.fresh := by
  obtain ⟨r, h⟩ := record_only s c d; rw [h]
@[simp] theorem record_up (s : State) (c : BitVec 16) (d : List Byte) : (record s c d).up = s.up := by
  obtain ⟨r, h⟩ := record_only s c d; rw [h]
@[simp] theorem record_tide (s : State) (c : BitVec 16) (d : List Byte) : (record s c d).tide = s.tide := by
  obtain ⟨r, h⟩ := record_only s c d; rw [h]
@[simp] theorem record_tideUp (s : State) (c : BitVec 16) (d : List Byte) : (record s c d).tideUp = s.tideUp := by
  obtain ⟨r, h⟩ := record_only s c d; rw [h]
@[simp] theorem record_lanes (s : State) (c : BitVec 16) (d : List Byte) : (record s c d).lanes = s.lanes := by
  obtain ⟨r, h⟩ := record_only s c d; rw [h]
@[simp] theorem record_rejoin (s : State) (c : BitVec 16) (d : List Byte) : (record s c d).rejoin = s.rejoin := by
  obtain ⟨r, h⟩ := record_only s c d; rw [h]
@[simp] theorem record_ctl (s : State) (c : BitVec 16) (d : List Byte) : (record s c d).ctl = s.ctl := by
  obtain ⟨r, h⟩ := record_only s c d; rw [h]
@[simp] theorem record_adm (s : State) (c : BitVec 16) (d : List Byte) : (record s c d).adm = s.adm := by
  obtain ⟨r, h⟩ := record_only s c d; rw [h]
@[simp] theorem record_net (s : State) (c : BitVec 16) (d : List Byte) : (record s c d).net = s.net := by
  obtain ⟨r, h⟩ := record_only s c d; rw [h]
@[simp] theorem record_ring (s : State) (c : BitVec 16) (d : List Byte) : (record s c d).ring = s.ring := by
  obtain ⟨r, h⟩ := record_only s c d; rw [h]
@[simp] theorem record_time (s : State) (c : BitVec 16) (d : List Byte) : (record s c d).time = s.time := by
  obtain ⟨r, h⟩ := record_only s c d; rw [h]
@[simp] theorem record_chans (s : State) (c : BitVec 16) (d : List Byte) : (record s c d).chans = s.chans := by
  obtain ⟨r, h⟩ := record_only s c d; rw [h]
@[simp] theorem record_para (s : State) (c : BitVec 16) (d : List Byte) : (record s c d).para = s.para := by
  obtain ⟨r, h⟩ := record_only s c d; rw [h]
@[simp] theorem record_br (s : State) (c : BitVec 16) (d : List Byte) : (record s c d).br = s.br := by
  obtain ⟨r, h⟩ := record_only s c d; rw [h]
@[simp] theorem record_fab (s : State) (c : BitVec 16) (d : List Byte) : (record s c d).fab = s.fab := by
  obtain ⟨r, h⟩ := record_only s c d; rw [h]
@[simp] theorem record_ecc (s : State) (c : BitVec 16) (d : List Byte) : (record s c d).ecc = s.ecc := by
  obtain ⟨r, h⟩ := record_only s c d; rw [h]
@[simp] theorem record_quay (s : State) (c : BitVec 16) (d : List Byte) : (record s c d).quay = s.quay := by
  obtain ⟨r, h⟩ := record_only s c d; rw [h]
@[simp] theorem record_quayDmg (s : State) (c : BitVec 16) (d : List Byte) : (record s c d).quayDmg = s.quayDmg := by
  obtain ⟨r, h⟩ := record_only s c d; rw [h]
@[simp] theorem record_mramDmg (s : State) (c : BitVec 16) (d : List Byte) : (record s c d).mramDmg = s.mramDmg := by
  obtain ⟨r, h⟩ := record_only s c d; rw [h]
@[simp] theorem record_pw (s : State) (c : BitVec 16) (d : List Byte) : (record s c d).pw = s.pw := by
  obtain ⟨r, h⟩ := record_only s c d; rw [h]
@[simp] theorem record_svc (s : State) (c : BitVec 16) (d : List Byte) : (record s c d).svc = s.svc := by
  obtain ⟨r, h⟩ := record_only s c d; rw [h]
@[simp] theorem record_boot (s : State) (c : BitVec 16) (d : List Byte) : (record s c d).boot = s.boot := by
  obtain ⟨r, h⟩ := record_only s c d; rw [h]

/-- A bank of the flash changes with nothing else of the state but itself. -/
theorem modBank_only (s : State) (b : BankId) (f : BankSt → BankSt) : ∃ x, modBank s b f = { s with boot := x } := by
  cases b <;> exact ⟨_, rfl⟩

@[simp] theorem bankOf_modBank (s : State) (b d : BankId) (f : BankSt → BankSt) :
    bankOf (modBank s b f) d = if d = b then f (bankOf s b) else bankOf s d := by cases b <;> cases d <;> rfl

theorem setFeed_only (s : State) (f : FeedId) (g : FeedSt → FeedSt) : ∃ p, setFeed s f g = { s with pw := p } := ⟨_, rfl⟩

theorem wake_only (s : State) (d : SlackDom) : ∃ p, wake s d = { s with pw := p } := by
  simp only [wake]
  split
  · exact ⟨_, rfl⟩
  · exact ⟨s.pw, rfl⟩

/-- A requester that stalls changes the domains' waking alone. -/
theorem stallOn_only (s : State) (d : SlackDom) (who : Agent) : ∃ p, stallOn s d who = { s with pw := p } := by
  simp only [stallOn]
  split <;> exact ⟨_, rfl⟩

theorem wakeFor_only (s : State) (l : LaneId) (a : Nat) : ∃ p, wakeFor s l a = { s with pw := p } := by
  simp only [wakeFor]
  split
  · exact wake_only s _
  · exact ⟨s.pw, rfl⟩

/-- The boot journal and the recorder are all that the journal's operations touch. -/
theorem writeJournal_only (s : State) (f : Journal → Journal) : ∃ b, writeJournal s f = { s with boot := b } := by
  simp only [writeJournal]
  split <;> split <;> exact ⟨_, rfl⟩

theorem revertJournal_only (s : State) (reason : Byte) : ∃ b r, revertJournal s reason = { s with boot := b, rc := r } := by
  obtain ⟨b, h⟩ := writeJournal_only s fun j => { j with state := .reverted, step := .none, attempt := 0, reason := reason }
  obtain ⟨r, h'⟩ := record_only (writeJournal s fun j => { j with state := .reverted, step := .none, attempt := 0, reason := reason })
    0x0A09 (d1 reason.toNat)
  exact ⟨b, r, by rw [revertJournal, h', h]⟩

/-- The answers of the service change the service alone. -/
theorem sendBare_only (s : State) (e : Env) (cmd status : Nat) (b : ReplyBody) : ∃ v, sendBare s e cmd status b = { s with svc := v } := ⟨_, rfl⟩

theorem setSession_only (s : State) (id : Word) (f : Session → Session) : ∃ v, setSession s id f = { s with svc := v } := ⟨_, rfl⟩

theorem logChange_only (s : State) (peer : Option (Role × SvcIface × Word)) (cmd status : Nat) (details : List Word) :
    ∃ v, logChange s peer cmd status details = { s with svc := v } := ⟨_, rfl⟩

/-- A store into lane SRAM changes lanes alone, and keeps the memory of every lane in canonical form. -/
theorem writeSram_only (s : State) (l : LaneId) (ea : Nat) (w : Word) (be : BitVec 4) :
    ∃ ls, writeSram s l ea w be = { s with lanes := ls } := by
  simp only [writeSram]
  repeat' split
  all_goals exact ⟨_, rfl⟩

theorem writeSram_wf (s : State) (l r : LaneId) (ea : Nat) (w : Word) (be : BitVec 4)
    (h : ∀ x, Memory.wf 0 (lane s x).sram = true) : Memory.wf 0 (lane (writeSram s l ea w be) r).sram = true := by
  have put : ∀ (t : State) (y : LaneId), (∀ x, Memory.wf 0 (lane t x).sram = true) → ∀ x,
      Memory.wf 0 (lane (modLane t y fun z => { z with sram := memWriteWord 0 z.sram ea w be, dmg := dmgCure z.dmg ea }) x).sram = true := by
    intro t y ht x
    rw [lane_modLane]
    split
    · exact memWriteWord_ok (ht y) (Nat.zero_le _) w be
    · exact ht x
  simp only [writeSram]
  repeat' split
  all_goals first | exact put _ _ (put s l h) r | exact put s l h r

/-- A write into Quay keeps its canonical form. -/
theorem quayWord_wf (m : Memory) (a : Nat) (w : Word) (be : BitVec 4) (h : Memory.wf 0 m = true) :
    Memory.wf 0 (memWriteWord 0 m a w be) = true := memWriteWord_ok h (Nat.zero_le _) w be

end Sys2Proof.Machine
end

