-- ==== Sys2Proof/Laws/Skeleton.lean ====
section
/-! SUPPORT. The instruction skeleton: what an executing core does with each outcome of its instruction's body. -/

namespace Sys2Proof.Machine

theorem coreOf_ctx {s : State} {x : Ctx} {c : Core} (h : coreOf s x = some c) : c.x = x := by
  simp only [coreOf] at h
  repeat' split at h
  all_goals first | (simp only [Option.some.injEq] at h; subst h; rfl) | simp at h

/-- The bank of an executing core is the one that the state holds for it. -/
theorem coreOf_bank {s : State} {x : Ctx} {c : Core} (h : coreOf s x = some c) : bankIn s c = c.bank := by
  simp only [coreOf] at h
  repeat' split at h
  all_goals first | (simp only [Option.some.injEq] at h; subst h; simp [bankIn, taskRun, *]) | simp at h

/-- Where no exception meets the fetch and the word at the PC is the instruction's, it does what its body says from the state after the
fetch. -/
theorem runInstr_executes {s : State} {x : Ctx} {c : Core} {spelt : Word → Bool} (cost : Nat) (legal : Bool)
    (body : State → Core → Act) (h : Executes s x c) (hw : spelt (wordAtPc s c) = true) :
    runInstr x spelt cost legal body s =
      if legal then applyAct c cost (body (afterFetch s c) c) else raiseExc (afterFetch s c) c cost .illegal 0 0 := by
  obtain ⟨hc, hr, hf⟩ := h
  have hx := coreOf_ctx hc
  simp only [wordAtPc, afterFetch, hx] at hw
  simp only [runInstr, hc, hr, afterFetch, hx]
  generalize fetchCheck s c c.bank.pc.toNat x.fetch = r at hf hw ⊢
  obtain ⟨r1, r2⟩ := r
  simp only at hf hw
  subst hf
  simp [hw]

theorem modPair_modPair (s : State) (l : LaneId) (p : PairId) (f g : PairSt → PairSt) :
    modPair (modPair s l p f) l p g = modPair s l p fun q => g (f q) := by
  have hv : ∀ (v : Vector PairSt 8), vmod (vmod v p f) p g = vmod v p fun q => g (f q) := by
    intro v; simp only [vmod]; ext i hi; simp [Vector.get, Vector.set, Fin.cast, Array.getElem_set]
  cases l <;> simp [modPair, modLane, Lanes.set, Lanes.get, hv]

theorem modPair_const (s : State) (l : LaneId) (p : PairId) (f : PairSt → PairSt) :
    modPair s l p f = modPair s l p fun _ => f (pair s l p) := rfl

@[simp] theorem closeWindow_tasks (q : PairSt) : (closeWindow q).tasks = q.tasks := by
  simp only [closeWindow]; split <;> rfl

/-- An instruction that retires leaves everything but its core. -/
theorem complete_onlyCore (s : State) (c : Core) (cost : Nat) (b : Bank) (ws : List Word) :
    bankIn (complete s c cost b ws) c = b ∧ OnlyCore cost [] s (complete s c cost b ws) c := by
  obtain ⟨x, timed, bank⟩ := c
  cases timed with
  | some k =>
    constructor
    · simp only [bankIn, complete, putBank, retire, modTask, modPair_modPair, taskRun, pair_modPair, and_self, if_true]
      split <;> simp [closeWindow_tasks, vmod_get]
    · refine ⟨_, by simp only [complete, putBank, retire, modTask, modPair_modPair]; exact modPair_const _ _ _ _, ?_⟩
      simp only [PairKept]
      split
      · rename_i h
        simp [closeWindow, vmod_get] at h ⊢
        refine ⟨by omega, ?_⟩
        intro j hj; simp [hj]
      · rename_i h
        simp [vmod_get] at h ⊢
        refine ⟨by omega, ?_⟩
        intro j hj; simp [hj]
  | none =>
    constructor
    · cases h : x.odd <;> simp [bankIn, complete, putBank, h]
    · refine ⟨_, by simp only [complete, putBank]; exact modPair_const _ _ _ _, ?_⟩
      cases h : x.odd <;> simp [PairKept, h]

/-- A legal instruction whose body retires completes from the state that the body leaves. -/
theorem completes_of_go {s s2 : State} {x : Ctx} {c : Core} {i : Instr} {cost : Nat} {body : State → Core → Act} {b : Bank}
    {ws : List Word} {legal : Bool} (h : Executes s x c) (hl : legal = true)
    (he : exec i s = .next (runInstr x (spells i) cost legal body s)) (hb : body (afterFetch s c) c = .go s2 b ws) :
    CompletesFrom i s s2 c cost [] b := by
  intro hw
  refine ⟨_, he, ?_⟩
  rw [runInstr_executes _ _ _ h hw, hl, if_pos rfl, hb]
  exact complete_onlyCore _ _ _ _ _

/-- A legal instruction whose body raises an exception raises it. -/
theorem raises_of_raise {s s2 : State} {x : Ctx} {c : Core} {i : Instr} {cost : Nat} {body : State → Core → Act} {legal : Bool}
    {e : ExcCode} {a : Word} {m : BitVec 16} (h : Executes s x c) (hl : legal = true)
    (he : exec i s = .next (runInstr x (spells i) cost legal body s)) (hb : body (afterFetch s c) c = .raise s2 e a m) :
    Raises i s s2 c cost e a m := by
  intro hw
  rw [he, runInstr_executes _ _ _ h hw, hl, if_pos rfl, hb]; rfl

/-- An instruction that is not legal raises EX_ILLEGAL. -/
theorem raises_of_illegal {s : State} {x : Ctx} {c : Core} {i : Instr} {cost : Nat} {body : State → Core → Act} {legal : Bool}
    (h : Executes s x c) (hl : legal = false) (he : exec i s = .next (runInstr x (spells i) cost legal body s)) :
    Raises i s (afterFetch s c) c cost .illegal 0 0 := by
  intro hw
  rw [he, runInstr_executes _ _ _ h hw, hl]; rfl

end Sys2Proof.Machine
end

