-- ==== Sys2Proof/WellFormed.lean ====
section
/-! DEFINITION. Which commands the environment can bring: the sizes that the spec gives to datagrams, frames, nonces, addresses and numbers.
`exec` is total on every command; this file says which of them are well formed. -/

namespace Sys2Proof

open Sys2Proof.Machine

/-- BODY at most 1,408 bytes, TAG 32 bytes, an address of 6 bytes, an IPv4 header of at most 60 and a UDP header of 8 (R550, R551). -/
def envOk (e : Env) : Bool := decide (e.body.length ≤ 1408) && e.tag.length == 32 && e.net.mac.length == 6 && decide (e.net.hdr.length ≤ 60) && e.net.udp.length == 8

/-- A client nonce has 16 bytes (R556). -/
def nonceOk (n : List Byte) : Bool := n.length == 16

/-- A proof is a KMAC256 of 256 bits (R556). -/
def proofOk (p : List Byte) : Bool := p.length == 32

/-- A hardware address has 6 bytes. -/
def macOk (m : List Byte) : Bool := m.length == 6

/-- An Ethernet frame: at most 1,522 bytes with its FCS (R275). -/
def frameOk (b : List Byte) : Bool := decide (b.length ≤ 1522)

/-- Backbone slots are numbered 1 to 63 (R324). -/
def backboneSlot (k : Nat) : Bool := decide (1 ≤ k) && decide (k ≤ 63)

/-- Event codes of the subsystems 0x00 to 0x0C (R605). -/
def eventOk (c : BitVec 16) : Bool := decide (c.toNat < 0x0D00)

/-- Corrected bits go with a correctable flash sector, 1 to 8 of them (R509); other memories correct one bit in a word. -/
def bitsOk (m : MemId) (hit : Hit) (bits : Nat) : Bool :=
  match m, hit with
  | .f1, .soft _ | .f1, .hard _ | .f2, .soft _ | .f2, .hard _ => decide (1 ≤ bits) && decide (bits ≤ 8)
  | _, _ => bits == 0

/-- The well-formed commands. -/
def Instr.wellFormed : Instr → Bool
  | .add _ _ => true
  | .addi _ _ => true
  | .sub _ _ => true
  | .subi _ _ => true
  | .adds _ _ => true
  | .subs _ _ => true
  | .neg _ _ => true
  | .mul _ _ => true
  | .mulh _ _ => true
  | .div _ _ => true
  | .divu _ _ => true
  | .rem _ _ => true
  | .abs _ _ => true
  | .min _ _ => true
  | .max _ _ => true
  | .and _ _ => true
  | .andi _ _ => true
  | .or _ _ => true
  | .ori _ _ => true
  | .xor _ _ => true
  | .xori _ _ => true
  | .not _ _ => true
  | .limit _ _ => true
  | .shl _ _ => true
  | .shr _ _ => true
  | .sar _ _ => true
  | .rol _ _ => true
  | .sel _ _ => true
  | .mov _ _ => true
  | .movi _ _ => true
  | .movhi _ _ => true
  | .cmp _ _ => true
  | .cmpi _ _ => true
  | .bset _ _ => true
  | .bclr _ _ => true
  | .btst _ _ => true
  | .bld _ _ => true
  | .bst _ _ => true
  | .band _ _ => true
  | .bor _ _ => true
  | .bxor _ _ => true
  | .bnot _ _ => true
  | .bmov _ _ => true
  | .edge _ _ => true
  | .fadd _ _ => true
  | .fsub _ _ => true
  | .fmul _ _ => true
  | .fdiv _ _ => true
  | .fsqrt _ _ => true
  | .fmin _ _ => true
  | .fmax _ _ => true
  | .fabs _ _ => true
  | .fneg _ _ => true
  | .fcmp _ _ => true
  | .ftoi _ _ => true
  | .itof _ _ => true
  | .flim _ _ => true
  | .fscale _ _ => true
  | .ldw _ _ => true
  | .ldh _ _ => true
  | .ldhu _ _ => true
  | .ldb _ _ => true
  | .ldbu _ _ => true
  | .ldq _ _ => true
  | .ldt _ _ => true
  | .stw _ _ => true
  | .sth _ _ => true
  | .stb _ _ => true
  | .stq _ _ => true
  | .stt _ _ => true
  | .br _ _ => true
  | .bt _ _ => true
  | .bf _ _ => true
  | .call _ _ => true
  | .ret _ _ => true
  | .loop _ _ => true
  | .endl _ _ => true
  | .jtab _ _ => true
  | .done _ _ => true
  | .ton _ _ => true
  | .tof _ _ => true
  | .tp _ _ => true
  | .ctu _ _ => true
  | .ctd _ _ => true
  | .now _ _ => true
  | .tide _ _ => true
  | .age _ _ => true
  | .qchk _ _ => true
  | .subst _ _ => true
  | .fence _ _ => true
  | .ldx _ _ => true
  | .stx _ _ => true
  | .cas _ _ => true
  | .xchg _ _ => true
  | .rdsys _ _ => true
  | .wrsys _ _ => true
  | .arpri _ _ => true
  | .split _ _ => true
  | .join _ _ => true
  | .sig _ _ => true
  | .trap _ _ => true
  | .nop _ _ => true
  | .deadlineOverrun _ _ _ => true
  | .exceptionClassify _ _ _ => true
  | .outputWindow _ => true
  | .commitInstant _ => true
  | .taskRelease _ => true
  | .taskReady _ => true
  | .signatureCompare _ => true
  | .outputPathJudge => true
  | .lockstepWindowClose _ _ _ _ _ _ => true
  | .lanePowerLoss _ => true
  | .laneSupplyReady _ => true
  | .laneSelfTestDone _ _ _ => true
  | .laneSelfTestTimeout _ => true
  | .rejoinStart => true
  | .rejoinCopyDone _ => true
  | .shadowStart => true
  | .rejoinEnter _ => true
  | .splitHandover _ _ => true
  | .debugAttach _ => true
  | .debugDetach _ => true
  | .setupEntry _ _ => true
  | .admissionVote => true
  | .bankLoadDone => true
  | .effectBoundary _ => true
  | .commandEffectTide _ => true
  | .forceEffect => true
  | .kOverlayWriteDone _ _ => true
  | .retainCycleStart => true
  | .retainCapturesComplete => true
  | .retainWriteDone => true
  | .linkUp _ => true
  | .linkLoss _ => true
  | .ttWindowTx _ win _ _ => decide (win < 16)
  | .ttFrameReceive _ arr _ => frameOk arr.bytes
  | .isolationEnd _ => true
  | .probationEnd _ => true
  | .guardianExpReset _ => true
  | .frameForward _ arr => frameOk arr.bytes
  | .nonTtEgressStart _ _ _ => true
  | .trdpPush => true
  | .trdpReceive _ frame => frameOk frame
  | .trdpPullReject _ frame => frameOk frame
  | .arpRequestReceive _ _ _ mac => macOk mac
  | .arpRetry _ _ => true
  | .arpEntryExpire _ _ => true
  | .addressConflict _ mac => macOk mac
  | .icmpEcho _ mac hdr msg => macOk mac && decide (hdr.length + msg.length ≤ 1500)
  | .modeEchoTide => true
  | .modeSwitch => true
  | .modeRequestLapse => true
  | .sqiUpdate _ _ => true
  | .portDerate _ => true
  | .backbonePhyDwell _ => true
  | .beaconSend _ => true
  | .beaconReceive _ rx => frameOk rx.bytes
  | .beaconMiss => true
  | .ringSlotTx _ => true
  | .ringSlotReceive _ frame _ => frameOk frame
  | .ringFrameForward _ _ rx => frameOk rx.bytes
  | .becomeMaster => true
  | .claimSend _ => true
  | .claimRetry => true
  | .slotLost k => backboneSlot k
  | .slotFree k => backboneSlot k
  | .handover => true
  | .lineLost _ _ => true
  | .forcedLinkDownEnd _ => true
  | .restoreProbe _ => true
  | .restoreAct _ _ => true
  | .junctionProbe _ => true
  | .mergeDecision _ _ => true
  | .mergeNotice frame => frameOk frame
  | .mergeAct _ => true
  | .backboneEnergyWake _ => true
  | .syncSend _ => true
  | .syncReceive _ _ => true
  | .pdelayReqSend _ => true
  | .pdelayReqReceive _ _ _ => true
  | .pdelayRespReceive _ _ _ => true
  | .announceSend _ => true
  | .clockSet _ => true
  | .activeDomainChange => true
  | .slewEnd => true
  | .holdoverEnter => true
  | .holdoverLeave _ => true
  | .oscillatorRetrim => true
  | .referenceCheck _ => true
  | .comparatorChange _ _ => true
  | .filterAccept _ => true
  | .wettingEnd _ => true
  | .channelSupplyChange _ _ => true
  | .islandStart _ => true
  | .islandWatchdogExpire _ => true
  | .islandRefreshResume _ => true
  | .overloadTrip _ => true
  | .readbackMismatch _ => true
  | .faultBitRise _ _ _ => true
  | .localisationEnd _ _ => true
  | .couplerSilent _ => true
  | .testPulseStart _ => true
  | .testPulseEnd _ _ => true
  | .tachoEdge _ _ => true
  | .enableRestore _ => true
  | .quietTimeReached _ => true
  | .parapetTideSelfCheck _ _ => true
  | .railFault _ => true
  | .tachoIslandFault _ _ => true
  | .outboundIssue _ => true
  | .targetResponse _ => true
  | .retryReissue => true
  | .outboundTimeout => true
  | .inboundClaim _ _ _ _ => true
  | .inboundWrite _ _ _ => true
  | .inboundRead _ _ _ _ => true
  | .inboundDataExpire => true
  | .inboundLockTimeout => true
  | .lockAbort => true
  | .rackArbitrate _ => true
  | .grantWithdraw => true
  | .corbelReset => true
  | .corbelInterrupt _ => true
  | .moverDescriptorDone _ _ => true
  | .arbiterContest _ _ => true
  | .scrubRead m _ hit bits => bitsOk m hit bits
  | .domainSlackEntry _ => true
  | .feedOutOfLimits _ _ => true
  | .feedInLimits _ _ _ => true
  | .feedReturn => true
  | .storeDepleted => true
  | .powerOn _ _ _ _ => true
  | .neapAttempt _ _ => true
  | .wakeLatch _ _ => true
  | .wake _ _ _ => true
  | .deratingStep _ _ _ _ => true
  | .laneThermalShutdown _ => true
  | .pllLockLoss _ => true
  | .bootBankSelect => true
  | .trialStep => true
  | .fuseBurnDone => true
  | .cairnSectorProgram _ => true
  | .cairnTokenRefill => true
  | .suppressedReportTimeout _ => true
  | .headlandEventBuffer code _ => eventOk code
  | .hello e _ nc => envOk e && nonceOk nc
  | .login e _ nc proof => envOk e && nonceOk nc && proofOk proof
  | .logout e => envOk e
  | .passwd e _ _ => envOk e
  | .keyslotInstall e _ _ => envOk e
  | .keyslotRevoke e _ _ => envOk e
  | .status e => envOk e
  | .read e _ => envOk e
  | .force e _ => envOk e
  | .unforce e _ => envOk e
  | .forcelist e _ => envOk e
  | .olc e _ _ => envOk e
  | .olcstat e _ => envOk e
  | .stop e => envOk e
  | .restart e _ => envOk e
  | .service e => envOk e
  | .leave e => envOk e
  | .reboot e => envOk e
  | .appbegin e _ => envOk e
  | .appblock e _ _ => envOk e
  | .append e => envOk e
  | .updbegin e _ _ => envOk e
  | .updblock e _ _ => envOk e
  | .updquery e => envOk e
  | .updend e => envOk e
  | .confirm e => envOk e
  | .recread e _ _ _ => envOk e
  | .logread e _ _ => envOk e
  | .calstart e => envOk e
  | .calpoint e _ _ _ => envOk e
  | .calread e => envOk e
  | .calwrite e => envOk e
  | .calabort e => envOk e
  | .sessionIdleTimeout _ => true
  | .relayRequest e _ => envOk e
  | .relayReply _ _ frame => frameOk frame
  | .relayTimeout _ => true
  | .backboneServiceRequest e _ => envOk e && e.iface == .backbone
  | .arPriWrite _ _ _ => true
  | .pmLedWrite _ => true
  | .ledTestExpire => true
  | .registerWrite _ _ _ => true
  | .serviceButtonPress => true
  | .serviceButtonHold => true
  | .unassignedOpcode _ op => opUnassigned op.toNat
  | .setupClassInstruction _ op => opSetup op.toNat
  | .faultBitClear _ _ => true
  | .islandReportingAgain _ => true
  | .rackResetRelease => true
  | .arpReply _ _ mac => macOk mac
  | .storeRecharged => true
  | .lockoutEnd _ => true
  | .operatingSecondsIncrement => true

end Sys2Proof
end

