-- ==== Sys2Proof/Tests/Slice0.lean ====
section
/-! SUPPORT. The model's own tests, and a state and operands that meet the hypotheses of each statement. -/

namespace Sys2Proof.Tests

open Sys2Proof Sys2Proof.Machine

set_option Elab.async false

/-- The layout of pair 0 in the test set-up: 4 KiB for each space. -/
def demoLayout : LayoutDecl := ⟨0, 0x1000, 0x2000, 0x3000, 0x4000, 0x5000, 0x6000, 0⟩

/-- Task 0 of pair 0: one section of 64 bytes in each space, period of one tide. -/
def demoTask : TaskDecl := ⟨0, 0, 1, 0, 0, ⟨0, 64⟩, ⟨0, 64⟩, ⟨0, 64⟩, ⟨0, 64⟩, false, 1⟩

def demoSetup : Setup := { emptySetup with layouts := [demoLayout], tasks := [demoTask], net := { emptyNet with mip := 7 } }

def demoImage : AppImage := { words := [], segs := [], outdef := [], trust := 0, version := 1, svn := 0 }

def demoLoaded : Loaded := { setup := demoSetup, image := demoImage, digest := 0, tags := [], append := false }

/-- A lane in VOTING whose pair 0 runs task 0 at address 0. -/
def demoLane : LaneSt :=
  { resetLane with
      st := .voting
      pairs := vmod resetLane.pairs 0 fun q =>
        { q with active := some 0, tasks := vmod q.tasks 0 fun r => { r with phase := .ready } } }

/-- The module in RUN with three lanes in VOTING. -/
def demo : State :=
  { State.reset with
      lanes := ⟨demoLane, demoLane, demoLane⟩
      adm := { resetAdm with cur := some demoLoaded }
      ctl := { resetCtl with state := .run }
      pw := { resetPower with state := .run }
      boot := { resetBoot with booted := true } }

def ctx : Ctx := ⟨.a, 0, false, .none, .none⟩

/-- The bank of the running task with registers of choice. -/
def demoWith (f : Bank → Bank) : State := modTask demo .a 0 0 fun r => { r with bank := f r.bank }

def demoCore (f : Bank → Bank) : Core := ⟨ctx, some 0, f (resetBank 0)⟩

def fa (d s1 s2 : BitVec 4) : FormA := ⟨d, s1, s2, 0, false, 0, 0⟩

theorem demo_executes : coreOf demo ctx = some (demoCore id) ∧
    (fetchCheck demo (demoCore id) 0 .none).2 = none := by
  constructor
  · rfl
  · decide

/-- A state with an instruction word at the first address of CODE in lane A. -/
def withWord (w : Word) (s : State) : State := modLane s .a fun x => { x with sram := memWriteWord 0 x.sram 0 w 0xF }

/-- The demo with registers of choice and an instruction word under the PC. -/
def coded (w : Word) (f : Bank → Bank) : State := withWord w (demoWith f)

/-- The bank of lane A's task 0 of pair 0 after a command. -/
def bankAfter (o : Host.Outcome State Fault Refusal) : Bank :=
  match o with
  | .next t => (taskRun t .a 0 0).bank
  | _ => resetBank 0

theorem leBytes_length (n v : Nat) : (leBytes n v).length = n := by
  induction n generalizing v with
  | zero => rfl
  | succ n ih => simp [leBytes, ih]

/-- A frame that was given its FCS carries it. -/
theorem fcsOk_withFcs (xs : List Byte) (h : 14 ≤ xs.length) : fcsOk (withFcs xs) = true := by
  have hf : (fcsBytes xs).length = 4 := leBytes_length ..
  have hl : (withFcs xs).length - 4 = xs.length := by simp [withFcs, hf]
  have hn : 18 ≤ (withFcs xs).length := by simp only [withFcs, List.length_append, hf]; omega
  simp only [fcsOk, bodyOf, hl, decide_eq_true hn, Bool.true_and]
  simp [withFcs]

/-- Two register values of choice on the executing core. -/
def regs (v1 v2 : Word) (b : Bank) : Bank := wrW (wrW b 1 v1 0x92) 2 v2 0xC0

def world (v1 v2 : Word) : State := demoWith (regs v1 v2)

theorem world_executes (v1 v2 : Word) : Executes (world v1 v2) ctx (demoCore (regs v1 v2)) := ⟨rfl, rfl, rfl⟩

/-- Pair 0 of lane A split, with untimed work on its even core at the first address of lane-common program memory. -/
def untimed : State :=
  modPair demo .a 0 fun q => { q with active := none, split := true, even := { bank := regs 0x20000000 5 (resetBank 0x1000000), active := true, wait := none } }

def untimedCore : Core := ⟨ctx, none, regs 0x20000000 5 (resetBank 0x1000000)⟩

theorem untimed_executes : Executes untimed ctx untimedCore := ⟨rfl, rfl, rfl⟩

def fb (d s1 : BitVec 4) (imm : BitVec 16) : FormB := ⟨d, s1, false, imm⟩
def fc (d base : BitVec 4) (disp : BitVec 17) : FormC := ⟨d, base, disp⟩
def fe (d s1 s2 : BitVec 4) (bit : BitVec 5) : FormE := ⟨d, s1, s2, bit, 0⟩

/-- A state whose memories list nothing, with the flash as it leaves the factory, has its memories in canonical form. -/
theorem memoriesOk_of_empty (s : State) (hl : ∀ l, (lane s l).sram = []) (hq : s.quay = []) (ha : s.boot.bankA = resetBoot.bankA)
    (hb : s.boot.bankB = resetBoot.bankB) : MemoriesOk s := by
  refine ⟨fun l => by rw [hl l]; rfl, by rw [hq]; rfl, fun k => ?_⟩
  have h := reset_memoriesOk.2.2 k
  cases k <;> simpa [bankOf, ha, hb, State.reset] using h

/-- The untimed core with an instruction word under its PC. -/
def untimedCoded (w : Word) : State := modLane untimed .a fun x => { x with sram := memWriteWord 0 x.sram commonBase w 0xF }

/-- Instruction words from the encoding diagrams of 03_instruction_encoding_and_timing.md, at least one of each form and family, with what they
stand for: ADD W3, W1, W2 and so on. -/
def timedWords : List (Word × Instr) :=
  [(0x02624000, .add ctx (fa 3 1 2)), (0x0462FFFF, .addi ctx (fb 3 1 0xFFFF)), (0x306201F8, .shl ctx ⟨3, 1, 0, 0, true, 31, 0⟩),
   (0x40624400, .cmp ctx ⟨3, 1, 2, 2, false, 0, 0⟩), (0x44621F00, .bset ctx (fe 3 1 0 31)), (0x50624000, .band ctx (fe 3 1 2 0)),
   (0x5A624001, .edge ctx ⟨3, 1, 2, 1⟩), (0x60624000, .fadd ctx (fa 3 1 2)), (0x80620004, .ldw ctx (fc 3 1 4)), (0x9063FFFC, .stw ctx (fc 3 1 0x1FFFC)),
   (0xA0000002, .br ctx ⟨0, 2⟩), (0xA2E00002, .bt ctx ⟨7, 2⟩), (0xAA000008, .loop ctx ⟨0, 8⟩), (0xB0000000, .done ctx ⟨0, 0⟩),
   (0xB2224003, .ton ctx ⟨false, 1, 1, false, 2, 3⟩), (0xBC600000, .now ctx (fa 3 0 0)), (0xC2620F1F, .qchk ctx (fb 3 1 0x0F1F)),
   (0xC4624000, .subst ctx (fa 3 1 2)), (0xD0600002, .rdsys ctx (fb 3 0 2)), (0xDC000007, .trap ctx (fb 0 0 7)), (0xDE000000, .nop ctx (fa 0 0 0)),
   (0x02624007, .add ctx ⟨3, 1, 2, 0, false, 0, 7⟩), (0x00000000, .unassignedOpcode ctx 0), (0xE0000000, .setupClassInstruction ctx 0x70)]

def untimedWords : List (Word × Instr) :=
  [(0xC6000000, .fence ctx (fa 0 0 0)), (0xC8620004, .ldx ctx (fc 3 1 4)), (0xCA620004, .stx ctx (fc 3 1 4)), (0xCC624000, .cas ctx (fa 3 1 2)),
   (0xCE620000, .xchg ctx (fa 3 1 0)), (0xD4020001, .arpri ctx (fb 0 1 1)), (0xD8000000, .join ctx (fa 0 0 0))]

/-- The word that a core fetches spells the command that it is asked to execute, which every statement about an instruction asks for. -/
theorem witness_InstructionWords :
    (∀ p ∈ timedWords, commandOf ctx p.1 = p.2 ∧ spells p.2 (wordAtPc (coded p.1 id) (demoCore id)) = true ∧
      (fetchCheck (coded p.1 id) (demoCore id) 0 .none).2 = none ∧ fetchReady (coded p.1 id) (demoCore id) = true) ∧
    (∀ p ∈ untimedWords, commandOf ctx p.1 = p.2 ∧ spells p.2 (wordAtPc (untimedCoded p.1) untimedCore) = true ∧
      (fetchCheck (untimedCoded p.1) untimedCore 0x1000000 .none).2 = none ∧ fetchReady (untimedCoded p.1) untimedCore = true) := by
  decide +kernel

/-- WordsSpellCommands: an assigned opcode outside the set-up class, and another. -/
theorem witness_WordsSpellCommands : opUnassigned (opOf 0x02624000) = false ∧ opSetup (opOf 0x02624000) = false ∧ opUnassigned (opOf 0) = true ∧
    opSetup (opOf 0xE0000000) = true := by decide +kernel

/-- IntegerInstructionResults: every form, a divisor that is 0 and one that is not, the last condition code and the first reserved one. -/
theorem witness_IntegerInstructionResults :
    Executes (world 7 2) ctx (demoCore (regs 7 2)) ∧ legalA3 (fa 3 1 2) = true ∧ (rdW (regs 7 2 (resetBank 0)) 2).v ≠ 0 ∧
    legalA2 (fa 3 1 0) = true ∧ legalB (fb 3 0 0x8000) = true ∧ (fb 3 0 0x8000).s1 = 0 ∧
    legalShift ⟨3, 1, 0, 0, true, 31, 0⟩ = true ∧ legalShift (fa 3 1 2) = true ∧ legalA4 ⟨3, 1, 2, 7, false, 0, 0⟩ = true ∧
    bitField 7 = true ∧ intCond 9 7 2 = some true ∧ intCond (cmpiCond (fb 3 1 0x9FFF)) 7 (cmpImm 9 0xFFF) ≠ none ∧
    Executes (world 0x80000000 0) ctx (demoCore (regs 0x80000000 0)) ∧ (rdW (regs 0x80000000 0 (resetBank 0)) 2).v = 0 ∧
    10 ≤ (10 : BitVec 4).toNat := by
  refine ⟨world_executes _ _, ?_, ?_, ?_, ?_, ?_, ?_, ?_, ?_, ?_, ?_, ?_, world_executes _ _, ?_, ?_⟩ <;> decide

/-- HardWiredRegistersAndTags: two registers other than W0 and B0. -/
theorem witness_HardWiredRegistersAndTags : (1 : BitVec 4) ≠ 0 ∧ (1 : BitVec 4) ≠ 7 ∧ (7 : BitVec 4).toNat < 8 := by decide

/-- BitResults: the forms with a bit number of 0 and of 31. -/
theorem witness_BitResults :
    Executes (world 1 31) ctx (demoCore (regs 1 31)) ∧ legalE (fe 3 1 0 31) = true ∧ (fe 3 1 0 31).s2 = 0 ∧
    legalE (fe 7 1 2 0) = true ∧ (fe 7 1 2 0).bit = 0 ∧ bitField 7 = true ∧ bitField 1 = true ∧ bitField 2 = true ∧ (fe 7 1 0 0).s2 = 0 :=
  ⟨world_executes _ _, by decide⟩

/-- RealInstructionResults: an invalid sum, a comparison code, quiet and signalling NaNs, subnormals, overflow and underflow. -/
theorem witness_RealInstructionResults :
    Executes (world 0x7F800000 0xFF800000) ctx (demoCore (regs 0x7F800000 0xFF800000)) ∧ (fAdd 0x7F800000 0xFF800000).2.1 = true ∧
    (fAdd 0x3F800000 0x3F800000).2.1 = false ∧ legalA3 (fa 3 1 2) = true ∧ legalA2 (fa 3 1 0) = true ∧
    legalShift ⟨3, 1, 0, 0, true, 31, 0⟩ = true ∧ legalA4 ⟨3, 1, 2, 4, false, 0, 0⟩ = true ∧ fcmpCode 11 = true ∧ bitField 7 = true ∧
    fIsSnan 0x7FA00000 = true ∧ field 0x7FC00000 30 23 = 255 ∧ field 0x7FC00000 22 0 ≠ 0 ∧ (0x7FC00000 : Word).getLsbD 22 = true ∧
    field 0x007FFFFF 30 23 = 0 ∧ realFinite 0x7F7FFFFF = true ∧ (2 : Int) ^ 328 ≤ realScaled 0x7F7FFFFF + realScaled 0x7F7FFFFF ∧
    realFinite 0x00800000 = true ∧ (0 : Int) < realScaled 0x00800000 * realScaled 0x00800000 ∧
    realScaled 0x00800000 * realScaled 0x00800000 < (2 : Int) ^ 273 ∧ realScaled 0x3F800000 < realScaled 0x40000000 := by
  refine ⟨world_executes _ _, ?_, ?_, ?_, ?_, ?_, ?_, ?_, ?_, ?_, ?_, ?_, ?_, ?_, ?_, ?_, ?_, ?_, ?_, ?_⟩ <;> decide +kernel

/-- The same core with FINVTRAP 1. -/
theorem witness_RealInstructionResults_trap :
    let u := { demo with adm := { demo.adm with cur := some { demoLoaded with setup := { demoSetup with tasks := [{ demoTask with trap := true }] } } } }
    Executes u ctx (demoCore id) ∧ finvTrap (afterFetch u (demoCore id)) (demoCore id) = true := ⟨⟨rfl, rfl, rfl⟩, by decide +kernel⟩

/-- RealRoundsToNearest: a tie, and a conversion that is not invalid. -/
theorem witness_RealRoundsToNearest :
    realFinite 0x4B800000 = true ∧ realFinite 0x3F800000 = true ∧ realFinite (fAdd 0x4B800000 0x3F800000).1 = true ∧
    realScaled (fAdd 0x4B800000 0x3F800000).1 ≠ 0 ∧ (fToInt 0x3F000000).2.1 = false ∧ 0 < realScaled 0x00800000 := by
  refine ⟨?_, ?_, ?_, ?_, ?_, ?_⟩ <;> decide +kernel

/-- BankAccessRules: at the first and the last byte of each space, by the executing task and by untimed work. -/
theorem witness_BankAccessRules :
    access demo (demoCore id) (.load true) 4 0xFFC = .error .access ∧ access demo (demoCore id) (.load true) 4 0x1000 = .ok (.bank 0x1000) ∧
    access demo (demoCore id) (.store true) 4 0x1FFC = .error .access ∧ access demo (demoCore id) .tagLoad 4 0x2000 = .ok (.bank 0x2000) ∧
    access demo (demoCore id) .tagStore 4 0x303C = .ok (.bank 0x303C) ∧ access demo (demoCore id) .tagStore 4 0x3040 = .error .access ∧
    access demo (demoCore id) (.store true) 4 0x4000 = .ok (.bank 0x4000) ∧ access demo (demoCore id) (.store false) 1 0x503F = .ok (.bank 0x503F) ∧
    access demo (demoCore id) (.store true) 4 0x4002 = .error .align ∧ access demo (demoCore id) (.load true) 4 0x6000 = .error .mem ∧
    access untimed untimedCore (.load true) 4 0x4000 = .error .access := by
  refine ⟨?_, ?_, ?_, ?_, ?_, ?_, ?_, ?_, ?_, ?_, ?_⟩ <;> rfl

/-- LoadResults: a permitted access, one that is not, a word that reads right and one that does not. -/
theorem witness_LoadResults :
    Executes (world 0x4000 0) ctx (demoCore (regs 0x4000 0)) ∧
    access (world 0x4000 0) (demoCore (regs 0x4000 0)) (.load true) 4 0x4000 = .ok (.bank 0x4000) ∧
    access (world 0x4000 0) (demoCore (regs 0x4000 0)) .tagLoad 8 0x4038 = .ok (.bank 0x4038) ∧
    access (world 0x4000 0) (demoCore (regs 0x4000 0)) .tagLoad 8 0x2004 = .error .align ∧
    (readWord (world 0x4000 0) (demoCore (regs 0x4000 0)) 0x4000 .none).2 = true ∧
    (readWord (world 0x4000 0) (demoCore (regs 0x4000 0)) 0x4000 .bad).2 = false ∧ bitField 7 = true := by
  refine ⟨world_executes _ _, ?_, ?_, ?_, ?_, ?_, ?_⟩ <;> rfl

/-- An RW force on the first word of the task's RET section. -/
def forcedWorld : State :=
  { demo with ctl := { demo.ctl with forces := [⟨.slot .ret 0 0 0 true, 9, 0, true, none, false, some (0, 0)⟩] } }

/-- StoreAndEdgeEffects: canonical memories, a free slot, and one that a force holds. -/
theorem witness_StoreAndEdgeEffects :
    MemoriesOk (world 0x4000 9) ∧ Executes (world 0x4000 9) ctx (demoCore (regs 0x4000 9)) ∧
    access (world 0x4000 9) (demoCore (regs 0x4000 9)) (.store true) 4 0x4000 = .ok (.bank 0x4000) ∧
    storeForced (world 0x4000 9) (demoCore (regs 0x4000 9)) (.bank 0x4000) 4 = false ∧
    access (world 0x4000 9) (demoCore (regs 0x4000 9)) (.store true) 4 0x6000 = .error .mem ∧
    storeForced forcedWorld (demoCore id) (.bank 0x4000) 4 = true ∧
    ownBlock (world 0x4000 0x4000) (demoCore (regs 0x4000 0x4000)) 4 0x403C = .ok 0x403C ∧
    ownBlock (world 0x4000 0x4000) (demoCore (regs 0x4000 0x4000)) 4 0x4040 = .error .access ∧
    rwForced forcedWorld 0 0 0x4000 4 = true ∧ bitField 7 = true := by
  refine ⟨memoriesOk_of_empty _ (fun l => by cases l <;> rfl) rfl rfl rfl, world_executes _ _, ?_, ?_, ?_, ?_, ?_, ?_, ?_, ?_⟩ <;> rfl

def fd (a : BitVec 4) (off : BitVec 21) : FormD := ⟨a, off⟩

/-- A bank whose return and loop stacks hold `n` and `m` entries. -/
def stackWorld (n m : Nat) (b : Bank) : Bank := { b with ret := List.replicate n 8, loops := List.replicate m ⟨2, 4⟩ }

/-- FlowAndWorkEndResults: empty and full stacks, the last run of a loop, tables inside and outside CODE, and both kinds of work. -/
theorem witness_FlowAndWorkEndResults :
    Executes (demoWith (stackWorld 7 3)) ctx (demoCore (stackWorld 7 3)) ∧ (stackWorld 7 3 (resetBank 0)).ret.length < 8 ∧
    (stackWorld 7 3 (resetBank 0)).loops.length < 4 ∧ Executes (demoWith (stackWorld 8 4)) ctx (demoCore (stackWorld 8 4)) ∧
    8 ≤ (stackWorld 8 4 (resetBank 0)).ret.length ∧ 4 ≤ (stackWorld 8 4 (resetBank 0)).loops.length ∧ (stackWorld 8 4 (resetBank 0)).ret = 8 :: List.replicate 7 8 ∧
    (stackWorld 8 4 (resetBank 0)).loops = ⟨2, 4⟩ :: List.replicate 3 ⟨2, 4⟩ ∧ 1 < (2 : BitVec 16).toNat ∧ (1 : BitVec 16).toNat ≤ 1 ∧
    (resetBank 0).ret = [] ∧ (resetBank 0).loops = [] ∧ legalDA (fd 0 0x1FFFFF) = true ∧ legalD0 (fd 0 0) = true ∧
    legalLoop (fd 0 0xFFFF) = true ∧ legalJtab (fd 3 1) = true ∧ bitField (fd 7 1).a = true ∧
    (fetchCheck demo (demoCore id) 0xFFC .none).2 = none ∧ (fetchCheck demo (demoCore id) 0x1000 .none).2 = some .access ∧
    (demoCore id).timed = some 0 ∧ legalA0 (fa 0 0 0) = true ∧ Executes untimed ctx untimedCore ∧ untimedCore.timed = none := by
  refine ⟨⟨rfl, rfl, rfl⟩, ?_, ?_, ⟨rfl, rfl, rfl⟩, ?_, ?_, rfl, rfl, ?_, ?_, rfl, rfl, ?_, ?_, ?_, ?_, ?_, rfl, rfl, rfl, ?_, untimed_executes, rfl⟩ <;> decide

/-- TimerAndCounterResults: a block of the task's own, one that is not, and words that read wrong. -/
theorem witness_TimerAndCounterResults :
    MemoriesOk (world 0x4000 0) ∧ Executes (world 0x4000 0) ctx (demoCore (regs 0x4000 0)) ∧ legalT ⟨false, 1, 1, false, 2, 3⟩ = true ∧
    ownBlock (world 0x4000 0) (demoCore (regs 0x4000 0)) 16 0x4030 = .ok 0x4030 ∧
    ownBlock (world 0x4000 0) (demoCore (regs 0x4000 0)) 16 0x4040 = .error .access ∧
    (readBlock (world 0x4000 0) (demoCore (regs 0x4000 0)) 0x4030).2 = true ∧
    (readBlock (world 0x4000 0) ⟨{ ctx with data := .bad }, some 0, regs 0x4000 0 (resetBank 0)⟩ 0x4030).2 = false ∧
    (5 : Word).getLsbD 0 = true ∧ (5 : Word).getLsbD 1 = false ∧ (2 : Word).getLsbD 0 = false ∧ (2 : Word).getLsbD 1 = true := by
  refine ⟨memoriesOk_of_empty _ (fun l => by cases l <;> rfl) rfl rfl rfl, world_executes _ _, ?_, ?_, ?_, ?_, ?_, ?_, ?_, ?_, ?_⟩ <;> rfl

/-- TimeAndQualityResults: both kinds of work, a checked tag, and a source with and without VALID. -/
theorem witness_TimeAndQualityResults :
    Executes (world 1 2) ctx (demoCore (regs 1 2)) ∧ (demoCore (regs 1 2)).timed = some 0 ∧ Executes untimed ctx untimedCore ∧
    untimedCore.timed = none ∧ legalA1 (fa 3 0 0) = true ∧ legalA2 (fa 3 1 0) = true ∧ legalB (fb 3 1 0x0F1F) = true ∧
    (0x0F1F : BitVec 16) &&& 0xF0E0 = 0 ∧ legalA3 (fa 3 1 2) = true ∧ (rdW (regs 1 2 (resetBank 0)) 1).t.getLsbD 7 = true ∧
    (rdW (resetBank 0) 1).t.getLsbD 7 = false := by
  refine ⟨world_executes _ _, rfl, untimed_executes, rfl, ?_, ?_, ?_, ?_, ?_, ?_, ?_⟩ <;> decide

/-- SharedMemoryResults: a Quay word, a register, the outbound window with a free and a full queue, and an address without either. -/
theorem witness_SharedMemoryResults :
    Executes untimed ctx untimedCore ∧ sharedPlace untimed untimedCore .ldx 0x20000000 0 = .ok (.quay 0) ∧
    sharedPlace untimed untimedCore .stx 0x207FFFFC 0 = .ok (.quay 0x7FFFFC) ∧ sharedPlace untimed untimedCore .ldx 0x20000002 0 = .error .align ∧
    (∃ r, sharedPlace untimed untimedCore .ldx 0x44000024 0 = .ok (.reg r)) ∧ (∃ r, sharedPlace untimed untimedCore .stx 0x44000024 1 = .ok (.reg r)) ∧
    sharedPlace untimed untimedCore .cas 0x80000000 0 = .ok (.corbel 0) ∧ sharedPlace untimed untimedCore .xchg 0xBFFFFFFC 0 = .ok (.corbel 0x3FFFFFFC) ∧
    sharedPlace untimed untimedCore .ldx 0xC0000000 0 = .error .mem ∧ untimed.br.queue.length < 16 ∧
    16 ≤ (List.replicate 16 (⟨0, .steward, .load, 0, 0, false⟩ : Posted)).length ∧ (quayHit untimed 0 .untimed .none).2 = true ∧
    (quayHit untimed 0 .untimed .bad).2 = false ∧ legalA3 (fa 3 1 2) = true ∧ legalA2 (fa 3 1 0) = true ∧ legalA0 (fa 0 0 0) = true ∧
    (∀ e ∈ untimed.br.queue, e.agent = .core .a 0 false → e.kind = .load) ∧
    ¬(∀ e ∈ [(⟨0, .core .a 0 false, .store 1, 0, 0, false⟩ : Posted)], e.agent = .core .a 0 false → e.kind = .load) := by
  refine ⟨untimed_executes, rfl, rfl, rfl, ⟨_, rfl⟩, ⟨_, rfl⟩, rfl, rfl, rfl, ?_, ?_, rfl, rfl, ?_, ?_, ?_, ?_, ?_⟩ <;> decide

/-- SystemAndIllegalInstructions: each register number, entry addresses that fit and that do not, and one illegal form of each kind. -/
theorem witness_SystemAndIllegalInstructions :
    Executes demo ctx (demoCore id) ∧ (demoCore id).timed = some 0 ∧ Executes untimed ctx untimedCore ∧ untimedCore.timed = none ∧
    legalB (fb 3 0 5) = true ∧ 6 ≤ (fb 3 0 6).imm.toNat ∧ (fb 3 0 1).imm = 1 ∧ legalB (fb 0 1 2) = true ∧ (fb 0 1 5).imm ≠ 2 ∧
    (resetBank 0).ret.length ≤ 8 ∧ (resetBank 0).loops.length ≤ 4 ∧ (0x010C : BitVec 16).toNat % 256 < 14 ∧ (0x010C : BitVec 16).toNat / 256 < 2 ∧
    assigned true 0x0C = true ∧ arpriLegal 0x010C = true ∧ arpriLegal 0x0200 = false ∧
    (0x1000000 ≤ (0x17FFFFC : Word).toNat ∧ (0x17FFFFC : Word).toNat < 0x1800000 ∧ (0x17FFFFC : Word).toNat % 4 = 0) ∧
    ¬(0x1000000 ≤ (0x1800000 : Word).toNat ∧ (0x1800000 : Word).toNat < 0x1800000 ∧ (0x1800000 : Word).toNat % 4 = 0) ∧
    opUnassigned 0x0 = true ∧ 0x70 ≤ (0x7D : BitVec 7).toNat ∧ legalA3 ⟨3, 1, 2, 0, false, 0, 7⟩ = false ∧ legalA2 (fa 3 1 2) = false ∧
    legalA1 (fa 3 1 0) = false ∧ legalA0 (fa 3 0 0) = false ∧ legalShift ⟨3, 1, 2, 0, true, 0, 0⟩ = false ∧
    legalA4 ⟨3, 1, 2, 3, false, 1, 0⟩ = false ∧ legalB ⟨3, 1, true, 0⟩ = false ∧ legalE ⟨3, 1, 0, 0, 1⟩ = false ∧
    legalT ⟨true, 0, 0, false, 0, 0⟩ = false ∧ legalDA (fd 1 0) = false ∧ legalD0 (fd 0 1) = false ∧ legalLoop (fd 0 0) = false ∧
    legalJtab (fd 0 0) = false ∧ bitField 8 = false ∧ fcmpCode 6 = false ∧ decide ((10 : BitVec 4).toNat < 10) = false := by
  refine ⟨⟨rfl, rfl, rfl⟩, rfl, untimed_executes, rfl, ?_⟩; decide

/-- ExceptionsAndTheirClasses: a timed task, its core in a rejoining lane, untimed work, and records that agree, differ and are missing. -/
theorem witness_ExceptionsAndTheirClasses :
    (demoCore id).timed = some 0 ∧ (lane demo .a).st ≠ .rejoining ∧
    (lane (modLane demo .a fun x => { x with st := .rejoining }) .a).st = .rejoining ∧ untimedCore.timed = none ∧
    (let posting (es : List (LaneId × ExcRec)) : State := es.foldl (fun s x => modTask s x.1 0 0 fun r => { r with exc := some x.2 })
       { demo with ctl := { demo.ctl with rel := demo.ctl.rel.set 0 ((demo.ctl.rel.get 0).set 0 ⟨0, 0, 1, true, 0, false⟩) } }
     let posted (s : State) := (voters s).filterMap fun l => ((taskRun s l 0 0).exc).map fun e => (l, e)
     let o : ExcRec := ⟨.overrun, 4, 0, 0⟩
     let m : ExcRec := ⟨.mem, 4, 8, 0⟩
     (posting []).ctl.state = .run ∧ (relOf (posting []) 0 0).live = true ∧ (relOf (posting []) 0 0).endTide ≤ (posting []).tide + 1 ∧
     runsTimed (posting []) .a = true ∧ (taskRun (posting []) .a 0 0).phase = .ready ∧ posted (posting []) = [] ∧
     posted (posting [(.a, m)]) = [(.a, m)] ∧ (voters (posting [])).length ≠ 1 ∧ posted (posting [(.a, m), (.b, o)]) = [(.a, m), (.b, o)] ∧
     posted (posting [(.a, m), (.b, m), (.c, m)]) = [(.a, m), (.b, m), (.c, m)] ∧
     (∀ l ∈ voters (posting [(.a, m), (.b, m), (.c, m)]), (taskRun (posting [(.a, m), (.b, m), (.c, m)]) l 0 0).exc.isSome = true) ∧
     (posted (posting [(.a, o), (.b, o)])).length + 1 = (voters (posting [(.a, o), (.b, o)])).length) := by
  refine ⟨rfl, ?_, rfl, rfl, rfl, rfl, ?_, rfl, rfl, rfl, rfl, ?_, rfl, rfl, ?_, rfl⟩ <;> decide +kernel

/-- The demo with another set-up in force. -/
def withSetup (u : Setup) : State := { demo with adm := { demo.adm with cur := some { demoLoaded with setup := u } } }

def setVoting (s : State) (l : LaneId) (st : LaneState) : State := modLane s l fun x => { x with st := st }

def outChan : ChanDecl := ⟨5, .output, 0, 0, 0, 0, 100, 100, 10, .hold, some ⟨0, 0, false, 0⟩, 2⟩

/-- Task 0 has completed DONE in the first `n` lanes, its image lifted with the bits given, and commits at boundary 1. -/
def lifting (bits : List (LaneId × Bool)) : State :=
  bits.foldl (fun s x => modTask s x.1 0 0 fun r => { r with phase := .done, lifted := some ((if x.2 then [0x90, 1, 0, 0] else [0x90, 0, 0, 0]) ++ List.replicate 60 0) })
    (let s := withSetup { demoSetup with chans := [outChan] }
     { s with ctl := { s.ctl with rel := s.ctl.rel.set 0 ((s.ctl.rel.get 0).set 0 ⟨0, 0, 1, true, 0, false⟩) } })

/-- What CommitTakesVotedValues calls `here`, with no lane silent. -/
def presentAt (s : State) : List LaneId :=
  let b := ageReceived (missWindows (toBoundary s))
  (voters b).filter fun l => imageWhole b (committing b b.tide) l

/-- StopsAndDrops: an output channel after the first commit; the drop of one of three, of two and of one lane. -/
theorem witness_StopsAndDrops :
    (let s := { lifting [] with ctl := { (lifting []).ctl with everCommit := true } }
     s.ctl.everCommit = true ∧ chanDecl s 5 = some outChan ∧ outChan.kind = .output) ∧
    (lane demo .a).st = .voting ∧ (∀ r, demo.rejoin.lane = some r → (lane demo r).st = .rejoining) ∧ demo.ctl.state = .run ∧
    benchMode demo = false ∧ (voters demo).length = 3 ∧ (voters (setVoting demo .b .dropped)).length ≤ 2 ∧
    (let s : State := { setVoting (setVoting demo .b .absent) .c .absent with pw := { demo.pw with straps := { openStraps with lmode := 2 } } }
     benchMode s = true ∧ (voters s).length = 1 ∧ (lane s .a).st = .voting) ∧
    (let s : State := { demo with ctl := { demo.ctl with retain := { resetRetain with src := some .a, busy := true } } }
     s.ctl.retain.src = some .a ∧ s.ctl.retain.busy = true) := by
  refine ⟨⟨rfl, rfl, rfl⟩, rfl, ?_, rfl, rfl, rfl, ?_, ⟨rfl, rfl, rfl⟩, rfl, rfl⟩
  · intro r h; simp [demo, State.reset, resetRejoin] at h
  · decide

/-- CommitsAreVoted: a task to lift, a due stop and a later one, a commit that two copies agree on, that one lane alone presents, and that two
differ on. -/
theorem witness_CommitsAreVoted :
    awake demo = true ∧ demo.ctl.state = .run ∧ committing (lifting [(.a, true)]) ((lifting [(.a, true)]).tide + 1) = [demoTask] ∧
    LaneId.a ∈ timedLanes (lifting [(.a, true)]) ∧ (taskRun (lifting [(.a, true)]) .a 0 0).phase = .done ∧ (lane (lifting [(.a, true)]) .a).dmg = [] ∧
    (let b := ageReceived (missWindows (toBoundary (lifting [])))
     b.tide = 1 ∧ committing b b.tide = [demoTask] ∧ outsOf b [demoTask] = [(outChan, ⟨0, 0, false, 0⟩)]) ∧
    presentAt (lifting [(.a, true), (.b, true), (.c, false)]) = [.a, .b, .c] ∧
    (presentAt (lifting [(.a, true), (.b, true), (.c, false)])).filterMap
      (fun l => imageBit (lifting [(.a, true), (.b, true), (.c, false)]) l ⟨0, 0, false, 0⟩) = [true, true, false] ∧
    voteBit [true, true, false] = some true ∧ voteBit [true, false] = none ∧
    (presentAt (setVoting (setVoting demo .b .dropped) .c .dropped)).length < 2 ∧
    (∃ p : PendStop, p.tide ≤ 1) ∧ (∃ p : PendStop, 1 < p.tide) ∧ demo.time.clock.ns.toNat < 1000000000 ∧
    (demo.tide + 2) * 250000 < 2 ^ 48 * 1000000000 ∧ (demo.tide + 1) * 250000 ≥ trainNs demo := by
  refine ⟨rfl, rfl, ?_, ?_, ?_, ?_, ⟨?_, ?_, ?_⟩, ?_, ?_, rfl, rfl, ?_, ⟨⟨1, none, false⟩, Nat.le_refl 1⟩, ⟨⟨2, none, false⟩, by decide⟩, ?_, ?_, ?_⟩ <;>
    decide +kernel

/-- ReleasesAndReadiness: a task that is due at boundary 0, a lane that executes timed tasks and one that does not. -/
theorem witness_ReleasesAndReadiness :
    awake demo = true ∧ demo.ctl.state = .run ∧ MemoriesOk demo ∧ ((setup demo).tasks.map fun d => (d.pair, d.task)).Nodup ∧
    demoTask ∈ (setup demo).tasks ∧ demo.tide % 2 ^ demoTask.k = 0 ∧ demo.ctl.runTide ≤ demo.tide ∧ (relOf demo 0 0).live = false ∧
    runsTimed demo .a = true ∧ LaneId.a ∈ servedLanes demo ∧ runsTimed (setVoting demo .b .dropped) .b = false := by
  refine ⟨rfl, rfl, memoriesOk_of_empty _ (fun l => by cases l <;> rfl) rfl rfl rfl, ?_, ?_, rfl, ?_, rfl, rfl, ?_, rfl⟩ <;> decide +kernel

/-- The demo with lane signatures. -/
def signed (a b c : Option (BitVec 64)) : State :=
  let put (s : State) (l : LaneId) (g : Option (BitVec 64)) : State := modLane s l fun x => { x with sig := g }
  put (put (put demo .a a) .b b) .c c

/-- LanesAreCompared: signatures that agree, one that does not, none; a charged lane at the fourth charge and below; both lockstep verdicts. -/
theorem witness_LanesAreCompared :
    (voters (signed none none none)).length = 3 ∧ (∀ l ∈ voters (signed none none none), (lane (signed none none none) l).sig = none) ∧
    (∃ l ∈ voters (signed (some 1) (some 1) (some 2)), (lane (signed (some 1) (some 1) (some 2)) l).sig ≠ none) ∧
    LaneId.a ∈ voters (signed (some 1) (some 1) (some 2)) ∧ LaneId.b ∈ voters (signed (some 1) (some 1) (some 2)) ∧
    (lane (signed (some 1) (some 1) (some 2)) .a).sig = (lane (signed (some 1) (some 1) (some 2)) .b).sig ∧
    (lane (signed (some 1) (some 2) (some 3)) .a).sig ≠ (lane (signed (some 1) (some 2) (some 3)) .b).sig ∧
    demo.rejoin.phase ≠ .shadow ∧
    (let s : State := { signed (some 1) (some 1) (some 2) with
       rejoin := { resetRejoin with lane := some .c, phase := .shadow, shadowStart := 0 }, tide := 1, lanes := (setVoting (signed (some 1) (some 1) (some 2)) .c .rejoining).lanes }
     s.rejoin.phase = .shadow ∧ s.rejoin.shadowStart < s.tide ∧ (voters s).all (fun k => (lane s k).sig == some 1) = true) ∧
    (∀ r, demo.rejoin.lane = some r → (lane demo r).st = .rejoining) ∧
    (let s := modLane demo .a fun x => { x with chBad := true, charges := [0, 0, 0] }
     (lane s .a).chBad = true ∧ 4 ≤ (s.tideUp :: (lane s .a).charges.filter fun q => decide (s.tideUp < q + 256)).length) ∧
    (lane demo .a).chBad = false ∧ (lane demo .a).egBad = false ∧ runsTimed demo .a = true ∧ (pair demo .a 0).split = false := by
  refine ⟨rfl, ?_, ?_, ?_, ?_, rfl, ?_, ?_, ⟨rfl, ?_, rfl⟩, ?rj, ⟨rfl, ?_⟩, rfl, rfl, rfl, rfl⟩
  case rj => intro r h; simp [demo, State.reset, resetRejoin] at h
  all_goals decide +kernel

/-- The demo with forces or commands in its tables. -/
def withForces (f : List Force) : State := { demo with ctl := { demo.ctl with forces := f } }
def withCmds (st : CtlState) (c : List (CtlCmd × Nat)) : State := { demo with ctl := { demo.ctl with state := st, cmds := c } }

/-- ForcesAndControllerCommands: forces before, at and after their tide, and each command in the state of its row and in another. -/
theorem witness_ForcesAndControllerCommands :
    awake demo = true ∧ demo.ctl.state ≠ .service ∧
    (let n : Force := ⟨.chin 3, 1, 0, false, none, false, none⟩
     n ∈ (withForces [n]).ctl.forces ∧ n.eff ≤ (withForces [n]).tide ∧ n.active = false ∧ ∀ y ∈ (withForces [n]).ctl.forces, y.item = n.item → y = n) ∧
    (let n : Force := ⟨.chin 3, 1, 1, false, none, false, none⟩; (withForces [n]).tide < n.eff) ∧
    (let n : Force := ⟨.chin 3, 1, 0, true, none, false, none⟩; n ∈ (withForces [n]).ctl.forces ∧ n.active = true ∧ n.endAt = none) ∧
    (∀ c ∈ (withCmds .run [(.stop, 1)]).ctl.cmds, (withCmds .run [(.stop, 1)]).tide < c.2) ∧
    ((withCmds .run [(.stop, 0)]).ctl.cmds.filter fun c => decide (c.2 ≤ (withCmds .run [(.stop, 0)]).tide)) = [(.stop, 0)] ∧
    ((withCmds .stopped [(.service, 0)]).ctl.cmds.filter fun c => decide (c.2 ≤ 0)) = [(.service, 0)] ∧
    ((withCmds .service [(.leave, 0)]).ctl.cmds.filter fun c => decide (c.2 ≤ 0)) = [(.leave, 0)] ∧
    (let s : State := { withCmds .stopped [(.restart true, 0)] with time := { resetTime with set := true } }
     s.ctl.state = .stopped ∧ s.time.set = true ∧ s.adm.cur.isSome = true ∧ tooFew (reviveLanes s) = false) ∧
    (¬((CtlCmd.stop : CtlCmd) = .stop ∧ (withCmds .service [(.stop, 0)]).ctl.state = .run)) := by
  refine ⟨rfl, ?_, ?_, ?_, ?_, ?_, rfl, rfl, rfl, ⟨rfl, rfl, rfl, rfl⟩, ?_⟩ <;> decide +kernel

/-- A retain buffer that a restart can use under the demo's digest. -/
def goodBuf : RetBuf := { resetBuf with mark := 0xC3, gen := 5 }
def withRetain (r : Retain) (f : Bool) : State :=
  { withSetup { demoSetup with policy := { demoSetup.policy with forcekeep := f } } with ctl := { demo.ctl with retain := r } }

/-- RestartPreparesRun: warm with and without a usable buffer, both values of FORCEKEEP, and a dropped lane that votes again. -/
theorem witness_RestartPreparesRun :
    (latestBuf (spoilBuffers (reviveLanes (withRetain { resetRetain with buf0 := goodBuf } true)) 0)).isSome = true ∧
    (latestBuf (spoilBuffers (reviveLanes (withRetain { resetRetain with buf0 := goodBuf } true)) 1)).isSome = false ∧
    (policy (withRetain resetRetain true)).forcekeep = true ∧ (policy (withRetain resetRetain false)).forcekeep = false ∧
    (let s := modLane demo .c fun x => { x with st := .dropped, selfTest := some true }
     (lane s .c).st = .dropped ∧ (lane s .c).selfTest = some true ∧ (lane s .c).dbg = false) := ⟨rfl, rfl, rfl, rfl, rfl, rfl, rfl⟩

/-- RetainAndSettings: the three instants, each buffer as the latest, and a K item that has taken effect. -/
theorem witness_RetainAndSettings :
    awake demo = true ∧ demo.ctl.state = .run ∧ demo.tide % 64 = 0 ∧ demo.ctl.retain.busy = false ∧ voters demo = .a :: [.b, .c] ∧
    ({ demo with tide := 1 } : State).tide % 64 ≠ 0 ∧
    (let r : Retain := { resetRetain with busy := true, caps := [(0, 0, [])], buf1 := goodBuf }
     r.busy = true ∧ r.full = false ∧ (∀ d ∈ (setup (withRetain r true)).tasks, ∃ b, (d.pair, d.task, b) ∈ r.caps) ∧
     (r.buf1.mark = 0xC3 ∧ r.buf1.bad = false) ∧ ¬(r.buf0.mark = 0xC3 ∧ r.buf0.bad = false)) ∧
    (let r : Retain := { resetRetain with busy := true, full := true, buf0 := goodBuf }
     r.busy = true ∧ r.full = true ∧ r.buf0.mark = 0xC3 ∧ r.buf0.bad = false ∧ r.buf1.mark ≠ 0xC3) ∧
    (let i : OlcItem := ⟨.kWord 0 8, 7, 6, .inEffect⟩
     let r : OlcReq := ⟨1, 3, [i], .maint, .mnt, 0⟩
     let s : State := { demo with ctl := { demo.ctl with olcs := [r] } }
     r ∈ s.ctl.olcs ++ s.ctl.olcDone ∧ (∀ x ∈ s.ctl.olcs ++ s.ctl.olcDone, x.num = r.num → x = r) ∧ r.items[0]? = some i ∧
     i.target = .kWord 0 8 ∧ i.outcome = .inEffect) := by
  refine ⟨rfl, rfl, rfl, rfl, rfl, ?_, ⟨rfl, rfl, ?_, ?_, ?_⟩, ⟨rfl, rfl, rfl, rfl, ?_⟩, ?_⟩
  case refine_2 =>
    intro d hd
    have h : d = demoTask := by simpa [setup, setup?, withRetain, withSetup, demoSetup] using hd
    exact ⟨[], by subst h; decide⟩
  all_goals decide +kernel

/-- Two lanes in VOTING, lane C dropped after a self-test that has passed. -/
def oneDropped : State := modLane demo .c fun x => { x with st := .dropped, selfTest := some true }

def rejoining (ph : RejoinPhase) (st : Nat) : State :=
  { setVoting demo .c .rejoining with rejoin := { resetRejoin with lane := some .c, src := some .a, phase := ph, shadowStart := st }, tide := 16 }

/-- LaneLifecycle: each lane state that an event starts from, both answers to a debug attach, and lane A alone under LMODE 0b10. -/
theorem witness_LaneLifecycle :
    (∀ r, demo.rejoin.lane = some r ↔ (lane demo r).st = .rejoining) ∧
    (∀ r, (rejoining .copy 0).rejoin.lane = some r ↔ (lane (rejoining .copy 0) r).st = .rejoining) ∧ (lane demo .a).st ≠ .absent ∧
    demo.pw.state = .run ∧ (lane (setVoting demo .a .absent) .a).st = .absent ∧ demo.pw.straps.lmode = 0 ∧
    (lane (setVoting demo .c .booting) .c).st = .booting ∧
    (let s := modLane demo .c fun x => { x with st := .dropped, selfTest := none }
     (lane s .c).st = .dropped ∧ (lane s .c).selfTest = none) ∧
    awake demo = true ∧ (lane demo .a).dbg = false ∧ (demo.ctl.state ≠ .run ∨ (voters demo).length = 3 ∨ (demo.pw.straps.lmode = 2 ∧ LaneId.a = .a)) ∧
    ¬(oneDropped.ctl.state ≠ .run ∨ (voters oneDropped).length = 3 ∨ (oneDropped.pw.straps.lmode = 2 ∧ LaneId.c = .a)) ∧
    (lane (modLane demo .c fun x => { x with dbg := true }) .c).dbg = true := by
  refine ⟨?_, ?_, ?_, rfl, rfl, rfl, rfl, ⟨rfl, rfl⟩, rfl, rfl, ?_, ?_, rfl⟩
  · intro r; cases r <;> simp [demo, State.reset, resetRejoin, demoLane, lane, Lanes.get]
  · intro r; cases r <;> simp [rejoining, setVoting, modLane, demo, State.reset, demoLane, lane, Lanes.get, Lanes.set]
  all_goals decide +kernel

/-- RejoinsAndSplits: a start below and at the limit, each phase before and at its instant, and both kinds of split. -/
theorem witness_RejoinsAndSplits :
    oneDropped.ctl.state = .run ∧ 2 ≤ (voters oneDropped).length ∧ (∀ r, (lane oneDropped r).st ≠ .rejoining) ∧ leadLane oneDropped = some .a ∧
    (∀ r, (lane oneDropped r).st = .dropped → (lane oneDropped r).selfTest = some true → (lane oneDropped r).dbg = false → r = .c) ∧
    (lane oneDropped .c).st = .dropped ∧ (lane oneDropped .c).selfTest = some true ∧ (lane oneDropped .c).dbg = false ∧
    (let used (n : List Nat) := (n.filter fun t => decide (oneDropped.pw.opsec.toNat < t + oneDropped.rejoin.window.toNat * 3600)).length
     used [0, 0] < oneDropped.rejoin.limit.toNat ∧ oneDropped.rejoin.limit.toNat ≤ used [0, 0, 0]) ∧
    (rejoining .copy 0).rejoin.lane = some .c ∧ (rejoining .copy 0).rejoin.src = some .a ∧ (rejoining .copy 0).rejoin.phase = .copy ∧
    (lane (rejoining .copy 0) .a).dmg = [] ∧ demoLayout ∈ (setup (rejoining .copy 0)).layouts ∧
    (∀ d ∈ (setup (rejoining .wait 0)).tasks, (rejoining .wait 0).tide % 2 ^ d.k = 0) ∧
    (rejoining .shadow 0).rejoin.shadowStart + 16 ≤ (rejoining .shadow 0).tide ∧
    (rejoining .shadow 1).tide < (rejoining .shadow 1).rejoin.shadowStart + 16 ∧
    (let s := modPair (withSetup { demoSetup with splitmask := 1 }) .a 0 fun q =>
       { q with active := none, tasks := vmod q.tasks 0 fun r => { r with phase := .idle } }
     (lane s .a).st = .voting ∧ (setup s).splitmask.getLsbD 0 = true ∧ s.pw.dstep ≠ 3 ∧ (pair s .a 0).split = false ∧
     (∀ t, (taskRun s .a 0 t).phase ≠ .ready ∧ (taskRun s .a 0 t).phase ≠ .released) ∧
     (pair (modPair s .a 0 fun q => { q with splitPend := some (0x1000000, 0x17FFFFC) }) .a 0).splitPend = some (0x1000000, 0x17FFFFC) ∧
     (pair (modPair s .a 0 fun q => { q with resume := true }) .a 0).resume = true ∧
     (∀ q, q = 0 ∨ ((pair s .a q).even.active = false ∧ (pair s .a q).odd.active = false))) := by
  refine ⟨rfl, ?_, ?_, rfl, ?_, rfl, rfl, rfl, ⟨?_, ?_⟩, rfl, rfl, rfl, rfl, ?_, ?_, ?_, ?_, rfl, ?_, ?_, rfl, ?_, rfl, rfl, ?_⟩
  case refine_2 => intro r; cases r <;> decide +kernel
  case refine_3 => intro r; cases r <;> decide +kernel
  all_goals decide +kernel

def someImage : AppImage := demoImage
def admitting (f : Adm → Adm) (st : CtlState) : State :=
  { demo with adm := f { demo.adm with image := some someImage }, ctl := { demo.ctl with state := st } }

/-- AdmissionAndEffectBoundary: each state that an entry starts from, results that agree and that differ, both outcomes, and the boundary. -/
theorem witness_AdmissionAndEffectBoundary :
    (admitting id .cold).adm.image = some someImage ∧ stewardRuns (admitting id .cold) = true ∧ (admitting id .cold).ctl.state = .cold ∧
    (admitting id .stopped).ctl.state = .stopped ∧ (admitting id .service).ctl.state = .service ∧
    (let ok : AdmResult := ⟨0, 0, 0, 0xFFFF, 7⟩
     let no : AdmResult := ⟨0x10, 0, 0, 3, 7⟩
     let s := admitting (fun a => { a with code := 0xFE, results := ⟨some ok, some ok, some no⟩ }) .setup
     let u := admitting (fun a => { a with code := 0xFE, results := ⟨some no, some no, some no⟩ }) .setup
     s.ctl.state = .setup ∧ s.adm.code = 0xFE ∧ benchMode s = false ∧ LaneId.a ≠ .b ∧ (lane s .a).st = .voting ∧ (lane s .b).st = .voting ∧
     s.adm.results.get .a = some ok ∧ s.adm.results.get .b = some ok ∧ s.rejoin.lane = none ∧ s.adm.results.get .c = some no ∧ no.code ≠ ok.code ∧
     u.adm.results.get .a = some no ∧ no.code ≠ 0 ∧ no.code ≠ 0x51 ∧ (journalOf u).state ≠ .trialBoot) ∧
    (let s := admitting (fun a => { a with next := some demoLoaded }) .setup
     s.adm.next = some demoLoaded ∧ s.adm.effect = none) ∧
    (let s : State := { admitting (fun a => { a with next := some demoLoaded, effect := some 0 }) .setup with time := { resetTime with set := true } }
     awake s = true ∧ s.ctl.state = .setup ∧ s.time.set = true ∧ s.adm.effect = some 0 ∧ 0 ≤ s.tide ∧ tooFew (reviveLanes s) = false ∧
     tooFew (reviveLanes (setVoting (setVoting s .a .halted) .b .halted)) = true ∧
     s.adm.last ≠ some (programOf demoLoaded.image, codeAndK demoLoaded.image)) := by
  refine ⟨rfl, rfl, rfl, rfl, rfl, ⟨rfl, rfl, rfl, ?_, rfl, rfl, rfl, rfl, rfl, rfl, ?_, rfl, ?_, ?_, ?_⟩, ⟨rfl, rfl⟩,
    ⟨rfl, rfl, rfl, rfl, ?_, rfl, rfl, ?_⟩⟩ <;> decide +kernel

/-- A vehicle port that is on, with link where `l` says so. -/
def withPort (p : Port) (f : PortSt → PortSt) : State := modPort demo p fun x => f { x with link := true, speed := 2 }

def demoPort : PortDecl := ⟨3, 2, false, 0, 100, 1, 4⟩

/-- LinkAndGuardian: ports of every kind with and without link, both policies, and each guardian state at its count and its end. -/
theorem witness_LinkAndGuardian :
    awake demo = true ∧ (port (modPort demo 31 fun x => { x with speed := 2 }) 31).link = false ∧ (port (modPort demo 36 fun x => { x with speed := 1 }) 36).speed ≠ 0 ∧
    (∀ f ∈ demo.ring.forced, f.1 ≠ 3) ∧ (port (withPort 3 id) 3).link = true ∧
    (let s (b : Bool) : State := modPort (withSetup { demoSetup with ports := [demoPort], policy := { demoSetup.policy with portrate := b } }) 3 fun x =>
       { x with link := true, speed := 2, losses := [0, 0, 0] }
     derTrigger (s true) (port (s true) 3) = some 2 ∧ (port (s true) 3).speed = 2 ∧ portDecl (s true) 3 = some demoPort ∧ demoPort.minspd = 1 ∧
     (policy (s true)).portrate = true ∧ (policy (s false)).portrate = false) ∧
    (port (withPort 3 fun x => { x with viols := List.replicate 7 0 }) 3).guard = .admitted ∧
    8 ≤ (0 :: (List.replicate 7 0).filter fun t => decide (0 < t + 16)).length ∧ (0 :: (List.replicate 6 0).filter fun t => decide (0 < t + 16)).length < 8 ∧
    (port (withPort 3 fun x => { x with guard := .probation }) 3).guard = .probation ∧
    (port (withPort 3 fun x => { x with guard := .isolated, isoEnd := 0 }) 3).isoEnd ≤ demo.tideUp ∧
    (let s : State := { withPort 3 (fun x => { x with guard := .probation }) with tideUp := 256 }; (port s 3).cleanFrom + 256 ≤ s.tideUp) ∧
    (let s : State := { withPort 3 (fun x => { x with exp := 6 }) with tideUp := 240000 }; (port s 3).cleanFrom + 240000 ≤ s.tideUp) := by
  refine ⟨rfl, rfl, ?_, ?_, rfl, ⟨rfl, rfl, rfl, rfl, rfl, rfl⟩, rfl, ?_, ?_, rfl, ?_, ?_, ?_⟩ <;> decide +kernel

/-- A transmit and a receive TT SLOT of port 3, both with a window from 100 µs to 120 µs. -/
def txSlot : SlotDecl := ⟨.tt 1000 200, 0, 3, false, 1, 7, 68, some ⟨0, 0, false, 0⟩, 0, 16, 5⟩
def rxSlot : SlotDecl := { txSlot with rx := true, win := 2, slotId := 8 }
def ttWorld (f : PortSt → PortSt) : State :=
  let s := modPort (withSetup { demoSetup with slots := [txSlot, rxSlot] }) 3 fun x => f { x with link := true, speed := 2, mac := some (List.replicate 6 2) }
  { s with ctl := { s.ctl with rel := s.ctl.rel.set 0 ((s.ctl.rel.get 0).set 0 ⟨0, 0, 1, true, 0, true⟩) } }

/-- A TT frame for `rxSlot`: its source address, its SLOT identifier and its length as given. -/
def ttFrame (src : Byte) (sid : Nat) (n : Nat) : List Byte :=
  withFcs (List.replicate 6 0xFF ++ List.replicate 6 src ++ beBytes 2 (setup (ttWorld id)).net.ethertype.toNat ++ [1, 0] ++ beBytes 2 sid ++
    [0, 0, 0, 0] ++ List.replicate (n - 26) 0)

/-- TtFrames: each check at its limit, and a window that sends, that does not, and that two lanes differ on. -/
theorem witness_TtFrames :
    awake (ttWorld id) = true ∧ (port (ttWorld id) 3).link = true ∧ (port (ttWorld id) 3).guard ≠ .isolated ∧
    etherType (ttFrame 2 8 68) = (setup (ttWorld id)).net.ethertype.toNat ∧ 1542 < (ttFrame 2 8 1543).length ∧
    srcMac (ttFrame 3 8 68) ≠ List.replicate 6 2 ∧ srcMac (ttFrame 2 8 68) = List.replicate 6 2 ∧ ttWindows (ttWorld id) 3 true = [(rxSlot, 100000, 120000)] ∧
    ¬(100000 ≤ 120000 ∧ 120000 < 120000) ∧ 100000 + 400 < 100401 ∧ 100400 ≤ 100000 + 400 ∧ 120000 < 120001 ∧ (ttFrame 2 8 67).length ≠ rxSlot.frame ∧
    (ttFrame 2 8 68).length = rxSlot.frame ∧ rxSlot.win ∈ (port (ttWorld fun x => { x with accepted := [2] }) 3).accepted ∧
    rxSlot.win ∉ (port (ttWorld id) 3).accepted ∧ fcsOk (ttFrame 2 8 68) = true ∧ fcsOk (List.replicate 68 0) = false ∧
    ttHeaderOk (ttWorld id) rxSlot (some 0) (ttFrame 2 8 68) = true ∧ ttHeaderOk (ttWorld id) rxSlot (some 0) (ttFrame 2 9 68) = false ∧
    (port (ttWorld fun x => { x with guard := .probation }) 3).guard = .probation ∧
    ((ttWindows (ttWorld id) 3 false).find? fun w => w.1.win = 1) = some (txSlot, 100000, 120000) ∧ txSlot.bind = some ⟨0, 0, false, 0⟩ ∧
    (relOf (ttWorld id) 0 0).committed = true ∧ (relOf demo 0 0).committed = false ∧ 2 ≤ (voters (ttWorld id)).length ∧
    (∀ l ∈ voters (ttWorld id), ttBody (ttWorld id) txSlot ⟨0, 0, false, 0⟩ none l = ttBody (ttWorld id) txSlot ⟨0, 0, false, 0⟩ none .a) ∧
    voters (setVoting (ttWorld id) .c .dropped) = [.a, .b] := by
  refine ⟨rfl, rfl, ?_, ?_, ?_, ?_, ?_, ?_, ?_, ?_, ?_, ?_, ?_, ?_, ?_, ?_, ?_, ?_, ?_, ?_, rfl, ?_, rfl, rfl, rfl, ?_, ?_, ?_⟩ <;> decide +kernel

/-- A frame that is no TT frame, from the learned address. -/
def beFrame (src : Byte) (n : Nat) : List Byte :=
  withFcs (List.replicate 6 0xFF ++ List.replicate 6 src ++ [0x08, 0x06] ++ List.replicate (n - 18) 0)

/-- Port 3 as `ttWorld` has it, with both limits declared, a full bucket, and link on port 4. -/
def beWorld (f : PortSt → PortSt) : State :=
  let s := withSetup { demoSetup with slots := [txSlot, rxSlot], ports := [{ demoPort with rc := 100, be := 100 }, { demoPort with port := 4 }] }
  modPort (modPort s 4 fun x => { x with link := true, speed := 2 }) 3 fun x =>
    f { x with link := true, speed := 2, mac := some (List.replicate 6 2), rcTok := 1000000, beTok := 1000000 }

def rcBody : List Byte :=
  padFrame (List.replicate 6 0xFF ++ List.replicate 6 2 ++ [0x08, 0x00] ++ ipv4 17 9 8 (udp 17224 17224 (trdpHeader 5 7 16 ++ List.replicate 16 0)))
def rcFrame : List Byte := withFcs rcBody

theorem rcFrame_fcsOk : fcsOk rcFrame = true := fcsOk_withFcs _ (by decide +kernel)

/-- PTP messages that wait for port 3: a Sync and a Pdelay_Resp. -/
def qSync : QFrame := syncMessage demo 3 0 (-9) 0
def qResp : QFrame := pdelayResp demo 3 ⟨2, 2, 0, false, 5, 77, 0, 0⟩ 0

/-- FramesForwardedAndQueued: each check at its limit, both classes, a full bucket and an empty one, and queues before and at a window. -/
theorem witness_FramesForwardedAndQueued :
    awake (beWorld id) = true ∧ (port (beWorld id) 3).link = true ∧ (port (beWorld id) 3).guard ≠ .isolated ∧
    etherType (beFrame 2 64) ≠ (setup (beWorld id)).net.ethertype.toNat ∧ 1542 < (beFrame 2 1543).length ∧ srcMac (beFrame 3 64) ≠ List.replicate 6 2 ∧
    (∃ w ∈ ttWindows (beWorld id) 3 true, w.2.1 ≤ 119999 ∧ 119999 < w.2.2) ∧
    (∀ w ∈ ttWindows (beWorld id) 3 true, ¬((w.2.1 ≤ 0 ∧ 0 < w.2.2) ∨ (0 ≤ w.2.1 + 400 ∧ w.2.1 + 400 < 100400))) ∧
    fcsOk (beFrame 2 64) = true ∧ fcsOk (List.replicate 64 0) = false ∧ etherType (beFrame 2 64) ≠ 0x88F7 ∧
    (police (learn (beWorld id) 3 (beFrame 2 64)) 3 false 64 0).2 = true ∧
    (police (learn (beWorld fun x => { x with beTok := 0 }) 3 (beFrame 2 64)) 3 false 64 0).2 = false ∧
    (port (beWorld fun x => { x with guard := .probation }) 3).guard = .probation ∧ (port (beWorld id) 3).guard = .admitted ∧
    4 ∈ destPorts (beWorld id) (some 3) (dstMac (beFrame 2 64)) ∧ isRc rcFrame = true ∧ isRc (beFrame 2 64) = false ∧
    (port (beWorld id) 4).qRc.length < 16 ∧ (port (beWorld id) 4).qBe.length < 64 ∧
    nextWindow (beWorld id) 3 98000 = some 100000 ∧ 98000 + (60 + 4 + 8) * 8 * 1 + 96 ≤ 100000 ∧ 100000 < 99500 + (qSync.copies.a.length + 4 + 8) * 8 * 1 + 96 ∧
    (port (beWorld fun x => { x with qBe := [common []] }) 3).qBe = [common []] ∧ (port (beWorld fun x => { x with qRc := [common []] }) 3).qRc = [common []] ∧
    (port (beWorld fun x => { x with qPtp := [qSync] }) 3).qPtp = [qSync] ∧
    (port (beWorld id) 3).qPtp = [] ∧ (port (beWorld id) 3).qRc = [] ∧ (port (beWorld id) 3).qBe = [] := by
  refine ⟨rfl, rfl, ?_, ?_, ?_, ?_, ?_, ?_, ?_, ?_, ?_, ?_, ?_, rfl, rfl, ?_, ?_, ?_, ?_, ?_, ?_, ?_, ?_, rfl, rfl, rfl, rfl, rfl, rfl⟩ <;> decide +kernel

/-- An RC transmit SLOT to 10.0.0.9, and an RC receive SLOT for COMID 7 from any source. -/
def rcSlot : SlotDecl := ⟨.rc 7 0x0A000009 0, 0, 3, false, 0, 1, 16, some ⟨0, 0, false, 0⟩, 0, 16, 5⟩
def rcRxSlot : SlotDecl := ⟨.rc 7 0 0, 0, 3, true, 0, 2, 16, none, 8, 16, 6⟩
def rcWorld (sl : SlotDecl) (last : Option Word) : State :=
  let s := modPort (withSetup { demoSetup with slots := [sl], net := { demoSetup.net with vip := 8 } }) 3 fun x => { x with link := true, speed := 2 }
  { s with ctl := { s.ctl with rel := s.ctl.rel.set 0 ((s.ctl.rel.get 0).set 0 ⟨0, 0, 1, true, 0, true⟩) },
           net := { s.net with trdpSeq := [4], trdpRx := [last], arp := [⟨.vehicle, 0x0A000009, List.replicate 6 2, 0⟩] } }

/-- What a vehicle interface waits for, with the number of its requests. -/
def arpWorld (e : List ArpEntry) (w : List ArpWait) : State := { rcWorld rcSlot none with net := { (rcWorld rcSlot none).net with arp := e, arpWait := w } }

/-- TrdpAndAddresses: a push, a telegram that passes and one that does not, and each state of the cache, of a wait and of the rate limits. -/
theorem witness_TrdpAndAddresses :
    awake (rcWorld rcSlot none) = true ∧ (rcWorld rcSlot none).ctl.state = .run ∧ (setup (rcWorld rcSlot none)).net.vip ≠ 0 ∧
    (setup (rcWorld rcSlot none)).slots = [rcSlot] ∧ rcSlot.kind = .rc 7 0x0A000009 0 ∧ rcSlot.bind = some ⟨0, 0, false, 0⟩ ∧
    (rcWorld rcSlot none).tide % 2 ^ 0 = 0 ∧ (relOf (rcWorld rcSlot none) 0 0).committed = true ∧
    resolve (rcWorld rcSlot none) .vehicle 0x0A000009 = some (List.replicate 6 2) ∧ (rcWorld rcSlot none).net.trdpSeq.length = 1 ∧
    (port (rcWorld rcSlot none) (Fin.ofNat 37 rcSlot.port)).qRc.length < 16 ∧ (port (rcWorld rcSlot none) 3).guard = .admitted ∧
    (∃ src t, udpOf rcFrame = some (src, 17224, t) ∧ trdpOk t = true ∧ beAt t 8 4 = 7 ∧ beAt t 20 4 = rcRxSlot.frame ∧
      later (BitVec.ofNat 32 (beAt t 0 4)) 4 = true ∧ later (BitVec.ofNat 32 (beAt t 0 4)) 5 = false) ∧ fcsOk rcFrame = true ∧
    (setup (rcWorld rcRxSlot (some 4))).slots[0]? = some rcRxSlot ∧ rcRxSlot.kind = .rc 7 0 0 ∧ rcRxSlot.rx = true ∧
    (rcWorld rcRxSlot (some 4)).net.trdpRx.getD 0 none = some 4 ∧ stewardRuns (rcWorld rcSlot none) = true ∧
    ownIp (rcWorld rcSlot none) .vehicle = 8 ∧
    (let w : ArpWait := ⟨.vehicle, 9, 3, 0⟩
     (∃ x ∈ (arpWorld [] [w]).net.arpWait, x.iface = .vehicle ∧ x.ip = 9) ∧ (arpWorld [] [w]).net.arp.length < 64 ∧ 3 ≤ w.tries ∧
     (∀ y ∈ (arpWorld [] [w]).net.arpWait, y.iface = .vehicle ∧ y.ip = 9 → y = w) ∧ ({ w with tries := 2 } : ArpWait).tries < 3) ∧
    (∀ x ∈ (arpWorld [] []).net.arpWait, ¬(x.iface = .vehicle ∧ x.ip = 9)) ∧ (∀ x ∈ (arpWorld [] []).net.arp, ¬(x.iface = .vehicle ∧ x.ip = 9)) ∧
    (rcWorld rcSlot none).net.conflict.get 0 = none ∧ (rcWorld rcSlot none).up < 0 + 60000000000 ∧
    (let c := (rcWorld rcSlot none).net.icmp.get 0; (if c.1 = (rcWorld rcSlot none).up / 1000000000 then c.2 else 0) < 100) := by
  refine ⟨rfl, rfl, ?_, rfl, rfl, rfl, rfl, rfl, ?_, rfl, ?_, rfl, ⟨9, trdpHeader 5 7 16 ++ List.replicate 16 0, ?_, ?_, ?_, ?_, ?_, ?_⟩, rcFrame_fcsOk, rfl, rfl, rfl, rfl, rfl,
    rfl, ⟨?_, ?_, ?_, ?_, ?_⟩, ?_, ?_, rfl, ?_, ?_⟩ <;> decide +kernel

/-- The mode in force echoes on port 3. -/
def modeWorld (f : ModeSt → ModeSt) : State :=
  let s := withSetup { demoSetup with modes := [⟨0, true, 2, 8, 0⟩] }
  { s with net := { s.net with mode := f { s.net.mode with req := true, rq := 1, rtide := 1 } } }

/-- ModeRequests: a tide with and without its echo, at the second echo, at request tide 63 and 64, and a decided switch. -/
theorem witness_ModeRequests :
    (modeWorld id).net.mode.req = true ∧ (modeWorld id).net.mode.go = false ∧
    (let echo := (List.range 32).filter fun i => (8 : Word).getLsbD i
     (∀ p ∈ echo, p ∈ (modeWorld fun m => { m with heard := [3] }).net.mode.heard) ∧ ¬(∀ p ∈ echo, p ∈ (modeWorld id).net.mode.heard)) ∧
    (modeWorld fun m => { m with echo := 1 }).net.mode.echo = 1 ∧ (modeWorld id).net.mode.echo = 0 ∧
    (modeWorld fun m => { m with rtide := 63 }).net.mode.rtide < 64 ∧ 64 ≤ (modeWorld fun m => { m with rtide := 64 }).net.mode.rtide ∧
    (modeWorld fun m => { m with go := true }).net.mode.go = true := by
  refine ⟨rfl, rfl, ⟨?_, ?_⟩, rfl, rfl, ?_, ?_, rfl⟩ <;> decide +kernel

/-- A node of the ring with link on every backbone port. -/
def ringWorld (u : Setup) (f : Ring → Ring) : State :=
  let s := (List.range 4).foldl (fun s i => modPort s (bbPort (Fin.ofNat 4 i)) fun x => { x with link := true, speed := 2 }) (withSetup u)
  { s with ring := f { s.ring with on := true, relay := false, sideF := .linked, sideR := .linked, inward := some .f, bl := 20, nodes := 2, muid := 9, node := 2 } }

def ringNode (f : Ring → Ring) : State := ringWorld demoSetup f

def roster1 : List RosterEntry := [⟨9, .active, 0⟩]
def beaconBody (f : Beacon → Beacon) : List Byte :=
  beaconBytes (ringNode id) (f (ownBeacon (ringNode fun r => { r with st := .master, node := 1, roster := roster1, hasTable := true }) 1))
def demoBeacon (f : Beacon → Beacon) : List Byte := withFcs (beaconBody f)

theorem demoBeacon_ok : beaconOk (ringNode id) (demoBeacon id) = true := by
  have hf : fcsOk (demoBeacon id) = true := fcsOk_withFcs _ (by decide +kernel)
  have hl : (demoBeacon id).length = 625 := by
    have hb : (beaconBody id).length = 621 := by decide +kernel
    simp only [demoBeacon, withFcs, List.length_append, hb]
    exact congrArg (621 + ·) (leBytes_length ..)
  have ha : isRingFrame (ringNode id) (demoBeacon id) = true := by decide +kernel
  have hh : ringHeaderOk (demoBeacon id) = true := by decide +kernel
  have hs : (ringSlotId (demoBeacon id) == 0) = true := by decide +kernel
  have h1 : decide (1 ≤ beAt (demoBeacon id) 36 1) = true := by decide +kernel
  have h2 : decide (beAt (demoBeacon id) 36 1 ≤ 63) = true := by decide +kernel
  rw [beaconOk, hf, hl, ha, hh, hs, h1, h2]; rfl

/-- BeaconsOnTheRing: a master with and without CAB, claim and handover, and a node that meets a good beacon, one of each master, and none. -/
theorem witness_BeaconsOnTheRing :
    (ringNode id).ring.st ≠ .master ∧ ringRuns (ringNode id) = true ∧ (ringNode fun r => { r with st := .master }).ring.st = .master ∧
    (ringNode id).ring.cabSeen = [] ∧ (∀ j ∈ (ringNode fun r => { r with cabSeen := [63] }).ring.cabSeen, 63 ≤ j) ∧ (ringNode id).ring.answer = none ∧
    16 ≤ (ringNode fun r => { r with flips := 16 }).ring.flips ∧ (ringNode id).ring.handover = false ∧ (ringNode id).ring.merge = false ∧
    (∃ i, egressA (ringNode id) = some i ∧ (port (ringNode id) (bbPort i)).link = true) ∧ 2 ≤ (voters (ringNode id)).length ∧
    beaconOk (ringNode id) (demoBeacon id) = true ∧ beaconOk (ringNode id) [] = false ∧ (ringNode id).ring.inward.isSome = true ∧
    ingressA (ringNode id) = some 0 ∧ (ringNode id).ring.heardAt ≠ some (ringNode id).tideUp ∧ (ringNode id).ring.missAt ≠ some (ringNode id).tideUp ∧
    (parseBeacon (demoBeacon fun b => { b with guid := 1, gresult := 3 })).guid = (ringNode id).boot.uid ∧
    (parseBeacon (demoBeacon fun b => { b with guid := 1, gresult := 3 })).gresult = 3 ∧
    (parseBeacon (demoBeacon fun b => { b with guid := 1, gresult := 1 })).gresult = 1 ∧
    (parseBeacon (demoBeacon fun b => { b with guid := 1, gresult := 2 })).gresult = 2 ∧
    (parseBeacon (demoBeacon id)).gresult = 0 ∧ slotHeld (ringNode fun r => { r with roster := roster1 }).ring 1 = none ∧
    ingressB (ringNode id) = some 3 ∧ (parseBeacon (demoBeacon fun b => { b with muid := 1 })).muid = 1 ∧ (1 : BitVec 64).toNat < (ringNode id).ring.muid.toNat ∧
    (parseBeacon (demoBeacon fun b => { b with muid := 10 })).muid ≠ (ringNode id).boot.uid ∧ (ringNode id).ring.muid.toNat ≤ (10 : BitVec 64).toNat ∧
    sideOfPort 1 = outwardOf (ringNode id) ∧ lineOfPort 1 = .a ∧ (∃ e, outEgress (ringNode id) = some e) := by
  refine ⟨?_, rfl, rfl, rfl, ?_, rfl, ?_, rfl, rfl, ⟨1, ?_, ?_⟩, ?_, demoBeacon_ok, ?_, rfl, ?_, ?_, ?_, ?_, ?_, ?_, ?_, ?_, ?_, ?_, ?_, ?_, ?_, ?_, ?_, ?_, ⟨1, ?_⟩⟩ <;> decide +kernel

/-- The module's own backbone SLOT, and the one of the node with UID 9. -/
def bbTx : SlotDecl := ⟨.backbone 0, 0, 0, false, 0, 1, 100, some ⟨0, 0, false, 0⟩, 0, 16, 5⟩
def bbRx : SlotDecl := ⟨.backbone 9, 0, 0, true, 0, 2, 100, none, 8, 16, 6⟩

/-- The node of a roster of two, in RUN with what task 0 has committed. -/
def ringRun (f : Ring → Ring) : State :=
  let s := ringWorld { demoSetup with slots := [bbTx, bbRx] } fun r => f { r with st := .member, slot := 2, roster := [⟨9, .active, 3⟩, ⟨1, .active, 0⟩] }
  { s with ctl := { s.ctl with rel := s.ctl.rel.set 0 ((s.ctl.rel.get 0).set 0 ⟨0, 0, 1, true, 0, true⟩) },
           net := { s.net with rx := [⟨none, 0, none, 0⟩, ⟨none, 0, none, 0⟩] } }

/-- The frame of slot `k`, with or without an Ashlar trailer. -/
def slotBody (k : Nat) (atr : Bool) : List Byte := ringHead (ringRun id) k false atr false false 0 ++ List.replicate 74 0
def slotFrame (k : Nat) (atr : Bool) : List Byte := withFcs (slotBody k atr)

theorem slotFrame_fcsOk (k : Nat) (atr : Bool) : fcsOk (slotFrame k atr) = true :=
  fcsOk_withFcs _ (by simp only [slotBody, List.length_append, List.length_replicate]; omega)

/-- RingFrames: a slot to send, a frame that is accepted, one of each kind that is not, and a frame at each part of the tide. -/
theorem witness_RingFrames :
    ringRuns (ringRun id) = true ∧ ownBbSlot (setup (ringRun id)) = some bbTx ∧ bbTx.bind = some ⟨0, 0, false, 0⟩ ∧
    (ringRun id).ctl.state = .run ∧ (ringRun id).ring.slot ≠ 0 ∧ (ringRun id).ring.st ≠ .joining ∧ (ringRun id).ring.st ≠ .alone ∧
    (relOf (ringRun id) 0 0).committed = true ∧ (ringRun fun r => { r with cabOwn := true }).ring.cabOwn = true ∧
    (∃ e, outEgress (ringRun id) = some e ∧ (port (ringRun id) (bbPort e)).link = true) ∧ 2 ≤ (voters (ringRun id)).length ∧
    (∀ l ∈ voters (ringRun id), ringBody (ringRun id) bbTx ⟨0, 0, false, 0⟩ none l = ringBody (ringRun id) bbTx ⟨0, 0, false, 0⟩ none .a) ∧
    connOfSlot (setup (ringRun id)) bbTx false = none ∧
    (ringRun fun r => { r with slot := 0 }).ring.slot = 0 ∧ ingressA (ringRun id) = some 0 ∧ (port (ringRun id) (bbPort 0)).link = true ∧
    isRingFrame (ringRun id) (slotFrame 1 false) = true ∧ beAt (slotFrame 1 false) 16 2 = 1 ∧ ringHeaderOk (slotFrame 1 false) = true ∧
    beAt (slotFrame 1 false) 18 2 = (ringRun id).tide % 65536 ∧ beAt (slotFrame 1 false) 18 2 ≠ { ringRun id with tide := 1 }.tide % 65536 ∧
    1 ∉ (ringRun id).ring.slotSeen ∧ 1 ∈ (ringRun fun r => { r with slotSeen := [1] }).ring.slotSeen ∧
    (ringRun id).ring.roster[1 - 1]? = some ⟨9, .active, 3⟩ ∧ bbSlotOf (setup (ringRun id)) 9 = some bbRx ∧
    ((slotFrame 1 false).getD 20 0).getLsbD 4 = (connOfSlot (setup (ringRun id)) bbRx true).isSome ∧
    ((slotFrame 1 true).getD 20 0).getLsbD 4 ≠ (connOfSlot (setup (ringRun id)) bbRx true).isSome ∧
    ingressA (ringRun id) ≠ some 1 ∧ ingressB (ringRun id) ≠ some 1 ∧ ingressB (ringRun id) = some 3 ∧
    (let slots := (ringRun id).ring.roster.length
     let len := (ringRun id).ring.bl * 100
     5599 < 5600 ∧ (5600 + (1 - 1) * len ≤ 5600 ∧ 5600 < 5600 + 1 * len) ∧ (5600 + (2 - 1) * len ≤ 5600 + 2 * len - 1 ∧ 5600 + 2 * len - 1 < 5600 + 2 * len) ∧
     slots = 2 ∧ (5600 + slots * len ≤ 5600 + slots * len ∧ 5600 + slots * len < 6800 + slots * len)) ∧
    beAt (slotFrame 2 false) 16 2 = 2 ∧ isRingFrame (ringRun id) (beFrame 2 64) = false ∧ isSync (slotFrame 1 false) = false ∧
    srcMac (slotFrame 1 false) = vehicleMac (ringRun id) ∧ srcMac (beFrame 3 64) ≠ vehicleMac (ringRun id) := by
  refine ⟨?_, rfl, rfl, rfl, ?_, ?_, ?_, rfl, rfl, ⟨1, ?_, ?_⟩, ?_, ?_, rfl, rfl, ?_, ?_, ?_, ?_, ?_, ?_, ?_, ?_, ?_, rfl, rfl, ?_, ?_, ?_, ?_, ?_,
    ?_, ?_, ?_, ?_, ?_, ?_⟩ <;> decide +kernel

/-- MastersAndSlots: each end of a turn of mastership, each state of a claim and each case of the master's decision, a slot at both limits. -/
theorem witness_MastersAndSlots :
    (let s := ringRun fun r => { r with sideF := .end_, sideR := .end_, miss := 2 }
     ringRuns s = true ∧ s.ring.st ≠ .master ∧ sideOf s (inwardOf s) = .end_ ∧ 2 ≤ s.ring.miss ∧ slotHeld s.ring s.boot.uid = some 2) ∧
    (ringRun fun r => { r with miss := 1 }).ring.miss < 2 ∧ sideOf (ringRun id) (inwardOf (ringRun id)) ≠ .end_ ∧
    (ringRun fun r => { r with hasTable := true }).ring.hasTable = true ∧ (ringRun id).ring.hasTable = false ∧
    (let s := ringRun fun r => { r with handover := true, act := some 0, sideF := .end_, sideR := .end_ }
     s.ring.handover = true ∧ s.ring.act = some 0 ∧ 0 ≤ s.tide ∧ sideOf s (outwardOf s) = .end_) ∧
    sideOf (ringRun id) (outwardOf (ringRun id)) ≠ .end_ ∧ (ringRun id).ring.handover = false ∧
    (let s := ringRun fun r => { r with st := .joining }
     s.ring.st = .joining ∧ s.ring.retryAt = none ∧ s.ring.refusedEpoch ≠ some s.ring.epoch) ∧
    (policy (ringWorld { demoSetup with policy := { demoSetup.policy with claim := true } } id)).claim = true ∧
    (policy (ringWorld { demoSetup with policy := { demoSetup.policy with claim := false } } id)).claim = false ∧
    (ringRun fun r => { r with retryAt := some 0 }).ring.retryAt.isSome = true ∧
    (let r := (ringRun fun r => { r with roster := [⟨9, .active, 3⟩, ⟨0, .free, 0⟩] }).ring
     slotHeld r 9 = some 1 ∧ slotHeld r 1 = none ∧ lowestFree r = some 2 ∧ r.bl * 100 < (226 + 20) * 8 + 400 ∧ (180 + 20) * 8 + 400 ≤ r.bl * 100 ∧
     r.roster.length ≤ 63 ∧ fits r.roster.length r.bl r.nodes = true) ∧
    (slotHeld (ringRun id).ring 5 = none ∧ ∀ e ∈ (ringRun id).ring.roster, e.st ≠ .free) ∧
    (let r := (ringRun fun r => { r with st := .master, roster := [⟨9, .active, 64⟩, ⟨8, .lost, 16064⟩] }).ring
     r.st = .master ∧ r.roster[1 - 1]? = some ⟨9, .active, 64⟩ ∧ r.roster[2 - 1]? = some ⟨8, .lost, 16064⟩) := by
  refine ⟨⟨?_, ?_, ?_, ?_, ?_⟩, ?_, ?_, rfl, rfl, ⟨rfl, rfl, ?_, ?_⟩, ?_, rfl, ⟨rfl, rfl, ?_⟩, rfl, rfl, rfl, ⟨?_, ?_, ?_, ?_, ?_, ?_, ?_⟩, ⟨?_, ?_⟩,
    ⟨rfl, rfl, rfl⟩⟩ <;> decide +kernel

def otherProbe (muid : BitVec 64) (nodes : Nat) : Probe := ⟨2, false, false, 0, muid, nodes, 3, 4, 20, 0xFFFFFFFF, 0, 0⟩

/-- What MergeDecision calls `why`, for a ring of this node and a probe. -/
def whyOf (s : State) (p : Probe) : Nat × Bool :=
  let mine := ownProbe s 2 none
  let keeper : Bool := if mine.cab ≠ p.cab then mine.cab else if mine.nodes ≠ p.nodes then decide (p.nodes < mine.nodes)
    else decide (mine.muid.toNat < p.muid.toNat)
  let k := if keeper then mine else p
  let j := if keeper then p else mine
  (if k.cab ∧ j.cab then 1 else if 63 < k.nodes + j.nodes then 2 else if k.free + k.lost < j.nodes then 3
    else if 248000 < 6800 + k.slots * k.bl * 100 + 1600 * (k.nodes + j.nodes - 1) then 4 else 0, keeper)

/-- An END side with link on line A and room in the roster. -/
def endSide (f : Ring → Ring) : State :=
  ringRun fun r => f { r with sideR := .end_, roster := [⟨9, .active, 3⟩, ⟨1, .active, 0⟩, ⟨0, .free, 0⟩, ⟨0, .free, 0⟩, ⟨0, .free, 0⟩] }

/-- BreaksAndMerges: a line that is lost, silent and down; a line restored; a side that is an END, a merge that holds and one refused. -/
theorem witness_BreaksAndMerges :
    ringRuns (ringRun id) = true ∧
    (port (modPort (ringRun id) (bbPort 0) fun x => { x with link := false }) (bbPort 0)).link = false ∧ silentIngress (ringRun id) 0 = true ∧
    sideOf (ringRun id) (sideOfPort 0) = .linked ∧
    (policy (ringWorld { demoSetup with policy := { demoSetup.policy with ring := true } } id)).ring = true ∧
    (policy (ringWorld { demoSetup with policy := { demoSetup.policy with ring := false } } id)).ring = false ∧
    (let s : State := { ringRun (fun r => { r with sideR := .crossA, regain := ⟨#[some 0, some 0, some 0, some 0], rfl⟩ }) with tideUp := 4000 }
     sideOfPort 1 = outwardOf s ∧ idleLine s (sideOfPort 1) = some (lineOfPort 1) ∧ s.ring.regain.get 1 = some 0 ∧ restoreOf s (sideOfPort 1) = none ∧
     0 + 4000 ≤ s.tideUp ∧ (ringRun id).tideUp < 0 + 4000 ∧ (port s (bbPort 1)).link = true ∧ bbLink s (sideOfPort 1) .a = true) ∧
    restoreOf (ringRun fun r => { r with sideR := .crossA, restoreR := some 0 }) .r = some 0 ∧
    ({ otherProbe 9 1 with kind := 3, act := 0 } : Probe).act = BitVec.ofNat 32 (ringRun id).tide ∧
    sideOf (endSide id) .r = .end_ ∧ (endSide id).ring.st ≠ .alone ∧ (endSide id).ring.dec = none ∧ bbLink (endSide id) .r .a = true ∧
    2 ≤ (voters (endSide id)).length ∧ (otherProbe 8 3).muid ≠ (endSide id).ring.muid ∧ refusedOf (endSide id) .r = none ∧
    whyOf (endSide id) (otherProbe 8 3) = (0, false) ∧ whyOf (endSide id) (otherProbe 10 2) = (0, true) ∧ whyOf (endSide id) (otherProbe 10 62) = (2, false) ∧
    whyOf (endSide id) (otherProbe 10 1) = (0, true) ∧ whyOf (ringRun id) (otherProbe 10 1) = (3, true) ∧
    whyOf (endSide fun r => { r with cabslot := 1 }) { otherProbe 8 3 with cab := true } = (1, false) ∧
    whyOf (endSide id) { otherProbe 8 3 with slots := 63, bl := 50 } = (4, false) ∧
    (let d : MergeDec := ⟨.r, true, 0, 8, some 0⟩
     let s := endSide fun r => { r with dec := some d }
     s.ring.dec = some d ∧ d.side = .r ∧ d.keeper = true ∧ d.act = some 0) ∧
    (let s := endSide fun r => { r with merge := true, act := some 0, dec := some ⟨.r, false, 0, 8, some 0⟩ }
     s.ring.merge = true ∧ s.ring.act = some 0 ∧ 0 ≤ s.tide ∧ (∀ d, s.ring.dec = some d → d.keeper = false) ∧ (∃ d, s.ring.dec = some d ∧ d.side = .r)) := by
  refine ⟨?_, ?_, ?_, ?_, rfl, rfl, ⟨?_, ?_, rfl, rfl, ?_, ?_, ?_, ?_⟩, rfl, ?_, rfl, ?_, rfl, ?_, ?_, ?_, rfl, ?_, ?_, ?_, ?_, ?_, ?_, ?_,
    ⟨rfl, rfl, rfl, rfl⟩, rfl, rfl, ?_, fun d h => by cases h; rfl, ⟨_, rfl, rfl⟩⟩ <;> decide +kernel

/-- BreaksAndMerges: the frame by which a master learns of a merge. -/
def noticeBody : List Byte := claimBytes (ringRun id) ⟨8, 4, 0, 0⟩

theorem witness_BreaksAndMerges_notice :
    claimOk (ringRun id) (withFcs noticeBody) = true ∧ (withFcs noticeBody).getD 30 0 = 4 ∧ (ringRun fun r => { r with st := .master }).ring.st = .master := by
  have hb : noticeBody.length = 60 := by decide +kernel
  have hf : fcsOk (withFcs noticeBody) = true := fcsOk_withFcs _ (by omega)
  have hl : (withFcs noticeBody).length = 64 := by
    simp only [withFcs, List.length_append, hb]; exact congrArg (60 + ·) (leBytes_length ..)
  have ha : isRingFrame (ringRun id) (withFcs noticeBody) = true := by decide +kernel
  have hh : ringHeaderOk (withFcs noticeBody) = true := by decide +kernel
  have hs : (ringSlotId (withFcs noticeBody) == 0xFE) = true := by decide +kernel
  refine ⟨?_, by decide +kernel, rfl⟩
  rw [claimOk, hf, hl, ha, hh, hs]; rfl

/-- A module with link on vehicle port 3 and on the backbone ports, and time set. -/
def timeWorld (f : TimeSt → TimeSt) (g : Ring → Ring) : State :=
  let s := modPort (ringRun g) 3 fun x => { x with link := true, speed := 2 }
  { s with time := f { s.time with set := true } }

def ptpMsg (ty : BitVec 4) (dom : Byte) : PtpMsg := ⟨ty, 2, dom, false, 5, 77, 0, 0⟩
def dom1Of : Byte := (setup (timeWorld id id)).net.dom1
def dom2Of : Byte := (setup (timeWorld id id)).net.dom2
def domAt (q : Nat) : DomainSt := { resetTime.dom1 with lastGood := some q, runStart := 0 }

/-- PtpMessages: each port kind and time role, a message that passes and one that does not, a port with and without a mean delay. -/
theorem witness_PtpMessages :
    awake (timeWorld id id) = true ∧ (port (timeWorld id id) 3).link = true ∧ ¬(32 ≤ (3 : Port).val ∧ (3 : Port).val < 36) ∧
    (port (timeWorld id id) 3).qPtp.length < 4 ∧ (timeWorld id id).tide % 4000 = 0 ∧ { timeWorld id id with tide := 4 }.tide % 8 = 4 ∧
    (port (timeWorld id id) (bbPort 1)).link = true ∧ (timeWorld id id).ring.on = true ∧
    junctionPort (timeWorld id fun r => { r with sideR := .end_ }) 1 = true ∧ junctionPort (timeWorld id id) 1 = false ∧
    (timeWorld id fun r => { r with st := .master }).ring.st = .master ∧ egressA (timeWorld id fun r => { r with st := .master, node := 1 }) = some 1 ∧
    (∃ i, sideOf (timeWorld id fun r => { r with sideR := .end_, node := 2 }) (outwardOf (timeWorld id fun r => { r with sideR := .end_, node := 2 })) = .end_ ∧
      egressB (timeWorld id fun r => { r with sideR := .end_, node := 2 }) = some i ∧
      junctionPort (timeWorld id fun r => { r with sideR := .end_, node := 2 }) i = false) ∧ 2 ≤ (timeWorld id id).ring.nodes ∧
    ptpOk (timeWorld id id) (ptpMsg 2 dom1Of) = true ∧ (ptpMsg 2 dom1Of).msgType = 2 ∧
    (∃ q ∈ (port (modPort (timeWorld id id) 3 fun x => { x with qPtp := [qResp] }) 3).qPtp, isResp q = true) ∧
    (∀ q ∈ (port (timeWorld id id) 3).qPtp, isResp q = false) ∧
    ((ptpMsg 0 dom1Of).version = 2 ∧ (ptpMsg 0 dom1Of).domain = dom1Of ∧ ¬((ptpMsg 0 dom1Of).msgType = 0 ∧ (ptpMsg 0 dom1Of).twoStep = true)) ∧
    ({ ptpMsg 0 dom1Of with version := 1 } : PtpMsg).version ≠ 2 ∧ ingressA (timeWorld id id) = some 0 ∧ ingressB (timeWorld id id) = some 3 ∧
    junctionPort (timeWorld id id) 0 = false ∧ junctionPort (timeWorld id id) 3 = false ∧
    peerDelay (timeWorld id id) 0 = none ∧
    (let s := timeWorld (fun t => { t with delays := ⟨#[[300], [301], [100], [0]], rfl⟩, act := .first }) id
     peerDelay s 0 = some 300 ∧ peerDelay s 1 = none ∧ peerDelay s 3 = some 0 ∧ s.time.act = .first ∧ s.ring.notice = none ∧
     1000 < ((2000000 : Int) + 0 + 300 - (trainNs s : Int)).natAbs ∧ ((700 : Int) + 0 + 300 - (trainNs s : Int)).natAbs ≤ 1000) ∧
    dom2Of ≠ dom1Of ∧ lookup? (timeWorld id id).time.dom1.seqs 77 = none ∧
    (∃ q, lookup? (timeWorld (fun t => { t with dom1 := { t.dom1 with seqs := [(77, 5)] } }) id).time.dom1.seqs (ptpMsg 0 dom1Of).sender = some q ∧
      later (ptpMsg 0 dom1Of).seq q = false) := by
  refine ⟨?_, rfl, ?_, ?_, ?_, ?_, rfl, rfl, ?_, ?_, rfl, ?_, ⟨2, ?_, ?_, ?_⟩, ?_, ?_, rfl, ⟨qResp, ?_, ?_⟩, ?_, ⟨rfl, rfl, ?_⟩, ?_, rfl, ?_, ?_,
    ?_, rfl, ⟨?_, ?_, ?_, rfl, rfl, ?_, ?_⟩, ?_, rfl, ⟨5, rfl, ?_⟩⟩ <;> decide +kernel

/-- ClockAndOscillator: a clock that is set and one that is not, each domain at its limit, holdover, a slew at its end, and each count. -/
theorem witness_ClockAndOscillator :
    awake (timeWorld id id) = true ∧ (timeWorld id id).time.set = true ∧ (timeWorld id id).ring.on = true ∧
    (timeWorld (fun t => { t with set := false }) fun r => { r with st := .master }).time.set = false ∧
    (timeWorld id id).pw.opsec.toNat < 2 ^ 48 ∧
    (let s := timeWorld (fun t => { t with set := false, delays := ⟨#[[300], [], [], []], rfl⟩ }) id
     peerDelay s 0 = some 300 ∧ (ptpMsg 0 dom1Of).msgType = 0 ∧ ptpOk s (ptpMsg 0 dom1Of) = true ∧ (ptpMsg 0 dom1Of).domain = (setup s).net.dom1 ∧
     ingressA s = some 0 ∧ 0 ≤ (ptpMsg 0 dom1Of).origin + (ptpMsg 0 dom1Of).corr ∧
     ((ptpMsg 0 dom1Of).origin + (ptpMsg 0 dom1Of).corr).toNat + 300 < 2 ^ 48 * 1000000000) ∧
    (timeWorld id id).time.hold = false ∧ (timeWorld id id).ring.st ≠ .master ∧
    (let s : State := { timeWorld (fun t => { t with act := .first, dom1 := domAt 1, dom2 := domAt 113 }) id with tideUp := 129 }
     s.time.act = .first ∧ (¬∃ q, s.time.dom1.lastGood = some q ∧ s.tideUp ≤ q + 127) ∧ ∃ q, s.time.dom2.lastGood = some q ∧ s.tideUp ≤ q + 16) ∧
    (let s : State := { timeWorld (fun t => { t with act := .first, dom1 := domAt 2 }) id with tideUp := 129 }
     ∃ q, s.time.dom1.lastGood = some q ∧ s.tideUp ≤ q + 127) ∧
    (let s : State := { timeWorld (fun t => { t with act := .second, dom1 := domAt 3984 }) id with tideUp := 4000 }
     s.time.act = .second ∧ (∃ q, s.time.dom1.lastGood = some q ∧ s.tideUp ≤ q + 16) ∧ s.time.dom1.runStart + 4000 ≤ s.tideUp) ∧
    (timeWorld (fun t => { t with dom1 := domAt 0 }) id).tideUp < (domAt 0).runStart + 4000 ∧
    (let s : State := { timeWorld (fun t => { t with dom1 := domAt 0, dom2 := domAt 0 }) id with tideUp := 128 }
     (¬∃ q, s.time.dom1.lastGood = some q ∧ s.tideUp ≤ q + 127) ∧ ¬∃ q, s.time.dom2.lastGood = some q ∧ s.tideUp ≤ q + 127) ∧
    (let s : State := { timeWorld (fun t => { t with hold := true, dom1 := domAt 0 }) id with tideUp := 8 }
     s.time.hold = true ∧ ∃ q, (if false then s.time.dom2 else s.time.dom1).lastGood = some q ∧ s.tideUp ≤ q + 8) ∧
    (let s (o : Int) := timeWorld (fun t => { t with slewing := true, act := .first, dom1 := { t.dom1 with ofs := some o } }) id
     (s 10).time.slewing = true ∧ (slewOfs (s 10)).natAbs ≤ 10 ∧ 10 < (slewOfs (s (-11))).natAbs) ∧
    (timeWorld id id).pw.refflt = false ∧ 25002500 < 25002501 ∧ 24997499 < 24997500 ∧
    (let s : State := { timeWorld (fun t => { t with overFrom := some 0 }) id with up := 64000000000 }
     s.time.overFrom = some 0 ∧ 0 + 64000000000 ≤ s.up) ∧
    (policy (withSetup { demoSetup with policy := { demoSetup.policy with trim := true } })).trim = true ∧
    (policy (withSetup { demoSetup with policy := { demoSetup.policy with trim := false } })).trim = false ∧ (timeWorld id id).time.overFrom = none := by
  have h (a b n : Nat) (hn : b + n < a) : ¬∃ q, some b = some q ∧ a ≤ q + n := by rintro ⟨q, h1, h2⟩; cases h1; omega
  refine ⟨?_, rfl, rfl, rfl, ?_, ⟨?_, rfl, ?_, rfl, ?_, ?_, ?_⟩, rfl, ?_, ⟨rfl, h _ _ _ ?_, ⟨_, rfl, ?_⟩⟩, ⟨_, rfl, ?_⟩, ⟨rfl, ⟨_, rfl, ?_⟩, ?_⟩, ?_,
    ⟨h _ _ _ ?_, h _ _ _ ?_⟩, ⟨rfl, ⟨_, rfl, ?_⟩⟩, ⟨rfl, ?_, ?_⟩, rfl, ?_, ?_, ⟨rfl, ?_⟩, rfl, rfl, rfl⟩ <;> decide +kernel

def inChan (k : ChanKind) (filter : Nat) : ChanDecl := ⟨6, k, 4, 0, 0, filter, 0, 0, 0, .off, none, 2⟩

/-- Channel 5 an output, channel 6 of the kind given, both islands supplied. -/
def chanWorld (k : ChanKind) (filter : Nat) (f : ChanSt → ChanSt) : State :=
  let s := withSetup { demoSetup with chans := [outChan, inChan k filter] }
  modChan (modChan s 5 fun x => f { x with supply := .full, volt := 30000 }) 6 fun x => f { x with supply := .full, volt := 30000 }

/-- InputsAndIslands: readings above, below and between the thresholds, each kind, each row of the supply table, an island up and down. -/
theorem witness_InputsAndIslands :
    chanDecl (chanWorld .input 0 id) 6 = some (inChan .input 0) ∧ (inChan .input 0).kind ≠ .output ∧
    ((chanWorld .input 0 id).chans.get 6).supply ≠ .dead ∧ ((chanWorld .input 0 id).chans.get 6).asleep = false ∧
    156 * 250 < 39001 ∧ 23999 < 96 * 250 ∧ ¬(156 * 250 < 39000) ∧ ¬(24000 < 96 * 250) ∧ ((chanWorld .input 0 id).chans.get 6).comp = false ∧
    chanDecl (chanWorld .counter 0 id) 6 = some (inChan .counter 0) ∧ (inChan .input 3).filter ≠ 0 ∧
    ((chanWorld .counter 0 fun x => { x with comp := true }).chans.get 6).comp ≠ ((chanWorld .counter 0 fun x => { x with comp := true }).chans.get 6).acc ∧
    ((chanWorld .input 0 fun x => { x with asleep := true }).chans.get 6).asleep = true ∧
    (let new (b : SupplyBand) (mv : Nat) : SupplyBand := if (if b = .full then 15000 else 15500) ≤ mv then .full
       else if (if b = .dead then 12500 else 12000) ≤ mv then .low else .dead
     new .full 15000 = .full ∧ new .full 14999 = .low ∧ new .low 15499 = .low ∧ new .low 15500 = .full ∧ new .low 11999 = .dead ∧
     new .dead 12499 = .dead ∧ new .dead 12500 = .low) ∧
    ((chanWorld .input 0 id).chans.get 6).inSafe = false ∧ ((chanWorld .input 0 fun x => { x with starting := false }).chans.get 6).starting = false ∧
    ((chanWorld .input 0 fun x => { x with inSafe := true }).chans.get 6).inSafe = true ∧ PllPart.parapet ∉ (chanWorld .input 0 id).pw.pllLost ∧
    ((chanWorld .input 0 id).chans.get 6).silent = false ∧ ((chanWorld .input 0 fun x => { x with silent := true }).chans.get 6).silent = true := by
  refine ⟨rfl, ?_, ?_, rfl, ?_, ?_, ?_, ?_, rfl, rfl, ?_, ?_, rfl, ⟨?_, ?_, ?_, ?_, ?_, ?_, ?_⟩, rfl, rfl, rfl, ?_, rfl, rfl⟩ <;> decide +kernel

/-- ChannelFaultsAndTests: a switch closed and open, each cause's condition, every kind of channel, and tests that pass and fail. -/
theorem witness_ChannelFaultsAndTests :
    ((chanWorld .input 0 fun x => { x with closed := true }).chans.get 5).closed = true ∧ ((chanWorld .input 0 id).chans.get 5).closed = false ∧
    chanKind (chanWorld .input 0 id) 5 = some .output ∧ ((chanWorld .input 0 id).chans.get 5).supply ≠ .dead ∧
    ((chanWorld .input 0 id).chans.get 5).asleep = false ∧ ((chanWorld .input 0 id).chans.get 5).test = .idle ∧
    chanDecl (chanWorld .input 0 id) 5 = some outChan ∧ ((chanWorld .input 0 id).chans.get 5).latched = false ∧ tachoPair (chanWorld .input 0 id) = none ∧
    ((chanWorld .input 0 fun x => { x with fbit := true }).chans.get 5).fbit = true ∧ ((chanWorld .input 0 id).chans.get 5).fbit = false ∧
    ((chanWorld .input 0 fun x => { x with drv := true }).chans.get 5).drv = true ∧ ((chanWorld .input 0 id).chans.get 5).drv = false ∧
    chanDecl (chanWorld .counter 0 id) 6 = some (inChan .counter 0) ∧ chanDecl (chanWorld .wake 0 id) 6 = some (inChan .wake 0) ∧
    ((chanWorld .input 0 fun x => { x with locating := true }).chans.get 5).locating = true ∧ FaultCause.temp ≠ .overload ∧ FaultCause.temp ≠ .supply ∧
    FaultCause.temp ≠ .safeState ∧ (∀ j ∈ ((chanWorld .input 0 fun x => { x with causes := [.temp] }).chans.get 5).causes, j = .temp) ∧
    ((chanWorld .input 0 fun x => { x with latched := true, supply := .low, inSafe := true }).chans.get 5).latched = true ∧
    ((chanWorld .input 0 fun x => { x with latched := true, supply := .low, inSafe := true }).chans.get 5).supply = .low ∧
    (let x := (chanWorld .input 0 fun x => { x with drv := true, starting := false }).chans.get 5
     outChan.kind = .output ∧ x.supply ≠ .dead ∧ x.asleep = false ∧ x.silent = false ∧ x.inSafe = false ∧ x.starting = false ∧ x.test = .idle ∧
     x.locating = false ∧ outChan.testper ≠ 0 ∧ awake (chanWorld .input 0 id) = true ∧ x.drv = true ∧ outChan.dark ≠ 0 ∧ outChan.light ≠ 0 ∧
     x.supply = .full ∧ x.latched = false ∧ FaultCause.temp ∉ x.causes) ∧
    ({ outChan with dark := 0 } : ChanDecl).dark = 0 ∧ ((chanWorld .input 0 fun x => { x with test := .dark, failDark := 1 }).chans.get 5).test = .dark ∧
    ((chanWorld .input 0 fun x => { x with test := .light }).chans.get 5).test = .light := by
  refine ⟨rfl, rfl, rfl, ?_, rfl, rfl, rfl, rfl, rfl, rfl, rfl, rfl, rfl, rfl, rfl, rfl, ?_, ?_, ?_, ?_, rfl, rfl,
    ⟨rfl, ?_, rfl, rfl, rfl, rfl, rfl, rfl, ?_, rfl, rfl, ?_, ?_, rfl, rfl, ?_⟩, rfl, rfl, rfl⟩ <;> decide +kernel

/-- Every function declared on tacho channels 10 and 11, with the limits given. -/
def paraWorld (lim1 lim2 : Word) (en : Bool) (f : Parapet → Parapet) : State :=
  let ws : Vector Word 6 := ⟨#[0x00000A0B, lim1, lim2, 0, 0, 0], rfl⟩
  let fn : FuncSt := ⟨true, ws, ws, en, 0, some 0, ⟨0, false⟩⟩
  { demo with para := f { demo.para with funcs := ⟨#[fn, fn, fn, fn], rfl⟩ }, up := 32000000 }

/-- SafetyFunctions: conditions that hold and fail, a restore that is due and one that is barred, a tacho edge, the 64th in a row, each fault. -/
theorem witness_SafetyFunctions :
    ((paraWorld 0 0 true id).para.funcs.get 1).decl = true ∧ ((paraWorld 0 0 true id).para.funcs.get 1).en = true ∧
    ¬((paraWorld 0 0 true fun p => { p with rev := 1 }).para.rev.toNat ≤ 0) ∧ (paraWorld 0 1 true fun p => { p with rev := 1 }).para.rev.toNat ≤ 1 ∧
    ((paraWorld 0 0 false id).para.funcs.get 1).en = false ∧
    (∃ q, holdsFrom (paraWorld 0 0 false id) 1 = some q ∧ q + 256000 ≤ logicNow (paraWorld 0 0 false id)) ∧
    ¬((paraWorld 0 0 false id).para.pfault = true ∨ (paraWorld 0 0 false id).para.tfault = true ∨ (paraWorld 0 0 false id).para.tachoFltA = true ∨
      (paraWorld 0 0 false id).para.tachoFltB = true ∨ ∃ e, (paraWorld 0 0 false id).para.tachoFltEnd = some e ∧ logicNow (paraWorld 0 0 false id) < e + 256000) ∧
    (paraWorld 0 0 false fun p => { p with pfault := true }).para.pfault = true ∧
    (0 : Nat) * 16000 ≤ quietClocks (paraWorld 0 0 true id) 0 ∧ (paraWorld 0 0 true id).para.still = false ∧
    quietClocks (paraWorld 0 33 true id) 0 < 33 * 16000 ∧
    tachoPair (paraWorld 0 0 true id) = some (10, 11) ∧ (10 : Nat) ≠ 11 ∧ (paraWorld 0 0 true id).para.cha.level ≠ true ∧ (paraWorld 0 0 true id).para.chb.level ≠ true ∧
    (paraWorld 0 0 true fun p => { p with lastCh := true, oneRun := 63 }).para.lastCh = true ∧ 63 ≤ (paraWorld 0 0 true fun p => { p with oneRun := 63 }).para.oneRun ∧
    (paraWorld 0 0 true fun p => { p with oneRun := 62 }).para.oneRun < 63 ∧ (paraWorld 0 0 true id).para.cha.level = false ∧
    (demo.para.funcs.get 0).decl = false ∧ (paraWorld 0 0 true id).para.pfault = false ∧ (paraWorld 0 0 true id).para.tachoFltA = false ∧
    (paraWorld 0 0 true fun p => { p with tachoFltA := true }).para.tachoFltB = false ∧ (12 : Chan).val ≠ 10 ∧ (12 : Chan).val ≠ 11 ∧ (10 : Chan).val = 10 := by
  refine ⟨rfl, rfl, ?_, ?_, rfl, ⟨0, rfl, ?_⟩, ?_, rfl, ?_, rfl, ?_, rfl, ?_, ?_, ?_, rfl, ?_, ?_, rfl, rfl, rfl, rfl, rfl, ?_, ?_, rfl⟩
  case refine_4 => rintro (h | h | h | h | ⟨e, h, -⟩) <;> cases h
  all_goals decide +kernel

/-- A rack master whose posting queue holds the entries given. -/
def bus (q : List Posted) (o : Option OutTx) (role : BitVec 2) : State :=
  { demo with pw := { demo.pw with straps := { openStraps with cbrole := role, slot := 3 } },
              br := { demo.br with mt := true, rstLow := false, queue := q, out := o } }

/-- The bus with pair 0 of lane A split and its even core waiting for access 7. -/
def busWait (k : AccKind) : State :=
  modPair (bus [⟨7, .core .a 0 false, k, 0x100, 2, false⟩] none 1) .a 0 fun q =>
    { q with active := none, split := true, even := { bank := resetBank 0, active := true, wait := some ⟨7, 4⟩ } }

def tx (src : OutSrc) (ph : OutPhase) (n : Nat) (lock : Bool) : OutTx := ⟨src, ph, n, false, lock, 0, 0, 0⟩

/-- OutboundAccesses: a head of each kind, waited for and orphaned, on the bus and off it, in each phase, with room in the log and without. -/
theorem witness_OutboundAccesses :
    (∃ e, (busWait .load).br.queue = [e] ∧ e.agent = .core .a 0 false ∧ e.orphan = false ∧ isVoting (busWait .load) .a = true ∧
      (pair (busWait .load) .a 0).split = true ∧ (pair (busWait .load) .a 0).even.active = true ∧
      (pair (busWait .load) .a 0).even.wait = some ⟨e.pseq, 4⟩ ∧ e.kind = .load) ∧
    (∃ e : Posted, e.orphan = true) ∧ (∃ e : Posted, e.kind = .store 5) ∧ (∃ e : Posted, e.kind = .cas 0 5) ∧ (∃ e : Posted, e.kind = .xchg 5) ∧
    onBus (busWait .load) = true ∧ (busWait .load).br.mt = true ∧ (busWait .load).br.out = none ∧ onBus demo = false ∧
    (∀ k, ((busWait .load).br.log.get k).valid = false) ∧
    (bus [] (some (tx .queue .issued 0 false)) 1).br.out = some (tx .queue .issued 0 false) ∧ (tx .queue .issued 0 false).src = .queue ∧
    (tx .queue .issued 0 true).lock = true ∧ (tx .queue .issued 0 false).lock = false ∧ (tx .queue .retried 0 false).phase = .retried ∧
    (tx .queue .issued 0 false).phase = .issued ∧ (tx .queue .issued 0 false).write = false ∧ ({ tx .queue .issued 0 true with write := true } : OutTx).write = true := by
  refine ⟨⟨_, rfl, rfl, rfl, rfl, rfl, rfl, rfl, rfl⟩, ⟨⟨0, .steward, .load, 0, 0, true⟩, rfl⟩, ⟨⟨0, .steward, .store 5, 0, 0, true⟩, rfl⟩,
    ⟨⟨0, .steward, .cas 0 5, 0, 0, true⟩, rfl⟩, ⟨⟨0, .steward, .xchg 5, 0, 0, true⟩, rfl⟩, ?_, rfl, rfl, ?_, ?_, rfl, rfl, rfl, rfl, rfl, rfl, rfl, rfl⟩ <;>
    decide +kernel

/-- Mover 0 at the descriptor at Quay 0, whose first four words are given. -/
def moving (ctrl qaddr caddr next : Word) (moved : Nat) (o : Option OutTx) : State :=
  let s := bus [] o 1
  let put (m : Memory) (a : Nat) (w : Word) : Memory := memWriteWord 0 m a w 15
  { s with quay := put (put (put (put [] 0 ctrl) 4 qaddr) 8 caddr) 12 next,
           br := { s.br with movers := s.br.movers.set 0 ⟨true, some .steward, 0, 0, moved, 0⟩ } }

/-- MoversRunTheirChains: a piece to issue in each direction, one that is answered, and every kind of descriptor at its end. -/
theorem witness_MoversRunTheirChains :
    (let s := moving 0x80000050 0x40 0x3C 0xFFFFFFFF 0 none
     let d := descAt s (s.br.movers.get 0).desc.toNat
     (s.br.movers.get 0).busy = true ∧ MemoriesOk s ∧ d.own = true ∧ d.bad = false ∧ d.dir = 0 ∧ (s.br.movers.get 0).moved < d.len ∧ onBus s = true ∧
     s.br.mt = true ∧ s.br.out = none ∧ s.quayDmg = [] ∧ d.bo = false ∧ (∀ x, s.br.out = some x → x.src ≠ .mover 0) ∧
     (s.br.movers.get 0).desc.toNat + 32 ≤ 0x7FFF00 ∧ 0x800000 ≤ d.next.toNat) ∧
    (let s := moving 0x80000050 0x40 0x3C 0x20 80 none
     let d := descAt s (s.br.movers.get 0).desc.toNat
     d.own = true ∧ d.bad = false ∧ d.dir < 2 ∧ d.len ≤ (s.br.movers.get 0).moved ∧ d.next.toNat < 0x800000) ∧
    (let s := moving 0x80000050 0x40 0x3C 0xFFFFFFFF 0 (some (tx (.mover 0) .issued 0 false))
     s.br.out = some (tx (.mover 0) .issued 0 false) ∧ ∀ j w, (s.br.movers.get j).owner = some w → masterMasked s w = false) ∧
    (descAt (moving 0x00000050 0x40 0x3C 0xFFFFFFFF 0 none) 0).own = false ∧ (descAt (moving 0x80000000 0x40 0x3C 0xFFFFFFFF 0 none) 0).bad = true ∧
    (descAt (moving 0x80000050 0x40 0x3C 0x24 0 none) 0).bad = true ∧ (descAt (moving 0xA0000050 0x40 0x3C 0x20 0 none) 0).dir = 1 := by
  refine ⟨⟨rfl, ⟨fun l => by cases l <;> rfl, ?_, ?_⟩, ?_, ?_, ?_, ?_, ?_, rfl, rfl, rfl, ?_, ?_, ?_, ?_⟩, ⟨?_, ?_, ?_, ?_, ?_⟩, ⟨rfl, ?_⟩, ?_, ?_, ?_, ?_⟩
  case refine_2 => exact fun k => match k with
    | .a => reset_memoriesOk.2.2 .a
    | .b => reset_memoriesOk.2.2 .b
  case refine_9 => intro x h; cases h
  case refine_17 =>
    have all : (fins 8).all (fun j => match ((moving 0x80000050 0x40 0x3C 0xFFFFFFFF 0 (some (tx (.mover 0) .issued 0 false))).br.movers.get j).owner with
      | some w => !masterMasked (moving 0x80000050 0x40 0x3C 0xFFFFFFFF 0 (some (tx (.mover 0) .issued 0 false))) w
      | none => true) = true := by decide +kernel
    intro j w h
    have := List.all_eq_true.mp all j (List.mem_ofFn.mpr ⟨j, rfl⟩)
    rw [h] at this
    simpa using this
  all_goals decide +kernel

/-- The bridge as target with a window of 64 KiB at 0x20000000 onto Quay 0. -/
def target (f : Bridge → Bridge) : State := { bus [] none 2 with br := f { (bus [] none 2).br with iwin := 0x20000001 } }

/-- InboundAndRackSignals: an address that hits and one that does not, a port that is held, a claim, both limits of the buffer and of back-off, and
each state of the arbiter. -/
theorem witness_InboundAndRackSignals :
    (let s := target id
     let w := s.br.iwin
     onBus s = true ∧ s.br.mt = true ∧ w.getLsbD 0 = true ∧ field w 31 24 * 2 ^ 24 ≤ (0x2000FFFC : Word).toNat ∧
     (0x2000FFFC : Word).toNat < field w 31 24 * 2 ^ 24 + 65536 * 2 ^ field w 19 17 ∧ (4 : Fin 32).val ≠ rackSlot s ∧
     ¬((0x20010000 : Word).toNat < field w 31 24 * 2 ^ 24 + 65536 * 2 ^ field w 19 17) ∧ (∀ o, s.br.out = some o → o.lock = false) ∧ holdsPort s = false ∧
     s.br.lockDead = false ∧ s.br.inbuf.length < 64 ∧ s.quayDmg = [] ∧ w.getLsbD 1 = false ∧ (∀ x, s.br.inData = some x → x.addr ≠ 0x20000000) ∧
     s.br.locki = none ∧ rackArbiter s = true ∧ s.br.busLock = none) ∧
    holdsPort (target fun b => { b with out := some (tx (.mover 0) .issued 0 false) }) = true ∧ (tx (.mover 0) .issued 14 false).backoffs < 15 ∧
    15 ≤ (tx (.mover 0) .issued 15 false).backoffs ∧ (tx (.mover 0) .issued 15 false).lock = false ∧
    (target fun b => { b with claimed := some (0x20000000, true) }).br.claimed = some (0x20000000, true) ∧
    (target fun b => { b with claimed := some (0x20000000, false), inData := some ⟨0x20000000, [5], 0⟩ }).br.inData = some ⟨0x20000000, [5], 0⟩ ∧
    (target fun b => { b with iwin := 0x20000003 }).br.iwin.getLsbD 1 = true ∧ 64 ≤ (target fun b => { b with inbuf := List.replicate 64 ⟨0, 0, 0⟩ }).br.inbuf.length ∧
    (target fun b => { b with locki := some 0 }).br.locki = some 0 ∧ (target fun b => { b with busLock := some 4 }).br.busLock = some 4 ∧
    rackArbiter demo = false ∧ (target fun b => { b with grant := some 4 }).br.grant = some 4 ∧ awake (target id) = true ∧
    (bus [⟨7, .steward, .load, 0, 0, false⟩] (some (tx .queue .issued 0 false)) 2).br.queue ≠ [] := by
  refine ⟨⟨?_, rfl, ?_, ?_, ?_, ?_, ?_, fun o h => (by cases h), ?_, rfl, ?_, rfl, ?_, fun x h => (by cases h), rfl, ?_, rfl⟩, ?_, ?_, ?_, rfl, rfl, rfl, ?_, ?_,
    rfl, rfl, ?_, rfl, ?_, ?_⟩ <;> decide +kernel

/-- An arbiter whose requesters 0 and 1 have waited as given. -/
def arbWorld (w0 w1 : Fin 9) (p0 p1 : BitVec 4) : State :=
  { demo with fab := { demo.fab with quayArb := { demo.fab.quayArb with
      wait := (demo.fab.quayArb.wait.set 0 w0).set 1 w1, pri := (demo.fab.quayArb.pri.set 0 p0).set 1 p1, last := 13 } } }

/-- ArbiterContests: requesters that ask, one that has waited 8, none that has, equal priorities and unequal ones, and none that asks. -/
theorem witness_ArbiterContests :
    (3 : BitVec 14).getLsbD 0 = true ∧ masked (arbWorld 0 8 0 0) 0 = false ∧ masked (arbWorld 0 8 0 0) 1 = false ∧
    Fin.ofNat 14 ((arbWorld 0 8 0 0).fab.quayArb.last.val + 1) = 0 ∧ Fin.ofNat 14 ((arbWorld 0 8 0 0).fab.quayArb.last.val + 2) = 1 ∧
    ((arbWorld 0 8 0 0).fab.quayArb.wait.get 1).val = 8 ∧ ((arbWorld 0 8 0 0).fab.quayArb.wait.get 0).val ≠ 8 ∧
    ((arbWorld 7 0 3 4).fab.quayArb.pri.get 0).toNat < ((arbWorld 7 0 3 4).fab.quayArb.pri.get 1).toNat ∧
    ((arbWorld 7 0 4 4).fab.quayArb.pri.get 0).toNat ≤ ((arbWorld 7 0 4 4).fab.quayArb.pri.get 1).toNat ∧
    (∀ r : Fin 14, (0 : BitVec 14).getLsbD r.val ≠ true) ∧ stewardRuns demo = true ∧ stewardRuns State.reset = false := by
  decide +kernel

/-- Bad, soft and hard words of Quay, with a table that holds `t`. -/
def damaged (h : Hit) (t : List EccEntry) : State :=
  { demo with quayDmg := [(8, h)], ecc := { demo.ecc with quay := { demo.ecc.quay with
      table := Vector.ofFn fun i => (t[i.val]?).getD ⟨0, false, false, 0, 0, false⟩ } } }

/-- ScrubberAndRegisterWrites: a sound word, each kind of damage, a table with the address, with room and without, and each kind of register. -/
theorem witness_ScrubberAndRegisterWrites :
    awake demo = true ∧ hasTable .quay = true ∧ dmgFind (dmgOf demo .quay) 8 = .none ∧ dmgFind (dmgOf (damaged .bad []) .quay) 8 = .bad ∧
    dmgFind (dmgOf (damaged (.soft 3) []) .quay) 8 = .soft 3 ∧ dmgFind (dmgOf (damaged (.hard 3) []) .quay) 8 = .hard 3 ∧
    (let e := eccGet (damaged (.hard 3) [⟨8, true, false, 3, 1, true⟩]) .quay
     (e.table.get 0).valid = true ∧ (e.table.get 0).addr = BitVec.ofNat 32 8) ∧
    (∀ i, ((eccGet (damaged (.hard 3) []) .quay).table.get i).valid = false) ∧
    (∀ i, ((eccGet (damaged (.hard 3) (List.replicate 16 ⟨4, true, false, 3, 1, true⟩)) .quay).table.get i).valid = true) ∧
    (∀ i, ((eccGet (damaged (.hard 3) (List.replicate 16 ⟨4, true, false, 3, 1, true⟩)) .quay).table.get i).addr ≠ 8) ∧
    (2 : Word).toNat % 4 ≠ 0 ∧ regAt (0xF0000000 : Word).toNat = none ∧ SlackDom.regs 4 ∉ demo.pw.asleep ∧ (pair demo .a 1).active = none ∧
    (pair demo .a 1).split = false ∧ (pair demo .a 0).active.isSome = true := by
  decide +kernel

/-- Bank A with an uncorrectable sector 7 in its firmware slot. -/
def worn : State := modBank demo .a fun b => { b with bad := [7] }

/-- ScrubberAndRegisterWrites, flash: a sector known to be bad and one that is not, a rewrite under way and none, and derating. -/
theorem witness_ScrubberAndRegisterWrites_flash :
    awake worn = true ∧ 4095 / 512 ∈ (bankOf worn .a).bad ∧ ¬(4096 / 512 ∈ (bankOf worn .a).bad) ∧ 0xFFFFFFF < 0x10000000 ∧ worn.pw.dstep = 0 ∧
    worn.boot.refresh = none ∧ stewardRuns worn = true ∧ { worn with pw := { worn.pw with dstep := 1 } }.pw.dstep ≠ 0 := by
  decide +kernel

def powered (f : Power → Power) : State :=
  { demo with pw := f { demo.pw with active := some .feedA, pref := 0, feedA := ⟨2400, true, none⟩, feedB := ⟨2400, true, some 0⟩, holdup := false } }

/-- FeedsCarryTheModule: an active feed with and without a standby, both POLICY FEED answers before and at HOLD, hold-up, off, and voltages at
each limit. -/
theorem witness_FeedsCarryTheModule :
    (powered id).pw.state ≠ .off ∧ feedUsed (powered id) .feedA = true ∧ (powered id).pw.active = some .feedA ∧ isStandby (powered id) .feedB = true ∧
    isStandby (powered fun p => { p with feedB := ⟨0, false, none⟩ }) .feedB = false ∧ (powered id).pw.active ≠ some .feedB ∧
    (powered fun p => { p with active := none, holdup := true }).pw.holdup = true ∧ (powered id).pw.holdup = false ∧
    (feedOf (powered fun p => { p with feedB := ⟨0, false, none⟩ }) .feedB).inLim = false ∧ (powered id).pw.pref.toNat < 2 ∧
    (powered fun p => { p with active := some .feedB }).pw.pref.toNat < 2 ∧ FeedId.feedA = preferred (powered fun p => { p with active := some .feedB }) ∧
    isStandby (powered fun p => { p with active := some .feedB }) .feedA = true ∧ (powered id).pw.retSaid = false ∧ (powered fun p => { p with retSaid := true }).pw.retSaid = true ∧
    (policy (withSetup { demoSetup with policy := { demoSetup.policy with feedReturn := true, feedHold := 2 } })).feedReturn = true ∧
    (policy (withSetup { demoSetup with policy := { demoSetup.policy with feedReturn := false } })).feedReturn = false ∧
    (feedOf (powered fun p => { p with active := some .feedB, feedA := ⟨2400, true, some 0⟩ }) .feedA).stbyAt = some 0 ∧
    0 + 2 * 1000000000 ≤ { powered id with up := 2000000000 }.up ∧ (powered id).up < 0 + 2 * 1000000000 ∧ State.reset.pw.state = .off ∧
    (16800 ≤ 16800 ∧ 16800 ≤ 30000) ∧ (16800 ≤ 30000 ∧ 30000 ≤ 30000) ∧ ¬(16800 ≤ 16799 ∧ 16799 ≤ 30000) ∧ ¬(16800 ≤ 30001 ∧ 30001 ≤ 30000) ∧
    openStraps.feedcfg.getLsbD 0 = false ∧ ({ openStraps with feedcfg := 3 } : Straps).feedcfg.getLsbD 0 = true := by
  decide +kernel

def quiet : NeapInputs := ⟨false, false, false, false⟩
def sleepy (p : Policy → Policy) (f : Power → Power) : State :=
  let s := withSetup { demoSetup with policy := p { demoSetup.policy with sleep := true, sleepQuiet := 60 } }
  { s with up := 60000000000, pw := f { s.pw with full := true, lastSwitch := none } }

/-- NeapEntryAndWake: an entry that is due, one that is not, each refuser, none, a wake event that abandons the entry, and NEAP itself. -/
theorem witness_NeapEntryAndWake :
    (awake (sleepy id id) = true ∧ (sleepy id id).tide % 4000 = 0 ∧
      max (sleepy id id).pw.lastWake (sleepy id id).pw.lastTry + (policy (sleepy id id)).sleepQuiet * 1000000000 ≤ (sleepy id id).up) ∧
    { sleepy id id with tide := 1 }.tide % 4000 ≠ 0 ∧
    (let s1 : State := { sleepy id id with pw := { (sleepy id id).pw with lastTry := (sleepy id id).up } }
     refusers s1 quiet = [] ∧ refusers s1 { quiet with wakeN := true } ≠ [] ∧ s1.rc.waiting = none ∧
     abortCause (refusers (record s1 0x0107 (d4 (sleepy id id).tide)) { quiet with button := true }) = some (2, 0x23)) ∧
    (policy (sleepy (fun p => { p with sleep := false }) id)).sleep = false ∧
    { sleepy id id with svc := { demo.svc with sessions := [⟨1, .owner, [], none, none, 0, .mnt, 0, false⟩] } }.svc.sessions ≠ [] ∧
    (setVoting { sleepy id id with ctl := { (sleepy id id).ctl with state := .setup } } .a .voting).ctl.state = .setup ∧
    (sleepy id fun p => { p with full := false }).pw.full = false ∧ ({ quiet with wakeN := true } : NeapInputs).wakeN = true ∧
    (sleepy id fun p => { p with state := .neap }).pw.state = .neap ∧ (sleepy id fun p => { p with state := .neap }).pw.latch.length < 16 ∧
    16 ≤ (sleepy id fun p => { p with state := .neap, latch := List.replicate 16 (.wakeN, 0) }).pw.latch.length ∧ WakeSrc.wakeN ≠ .powerOn := by
  decide +kernel

/-- PanelAndDerating: inlet temperatures at each limit, parts with and without lock, the LED test before and at its end, ports with and without link. -/
theorem witness_PanelAndDerating :
    stewardRuns demo = true ∧ stewardRuns State.reset = false ∧ demo.pw.state = .run ∧ PllPart.lane .a ∉ demo.pw.pllLost ∧
    PllPart.parapet ∉ demo.pw.pllLost ∧ PllPart.keystone ∉ demo.pw.pllLost ∧
    PllPart.keystone ∈ (powered fun p => { p with pllLost := [.keystone] }).pw.pllLost ∧ awake demo = true ∧ awake State.reset = false ∧
    (powered fun p => { p with ledTest := true, ledTestAt := 0 }).pw.ledTest = true ∧ 0 + 10000000000 ≤ { demo with up := 10000000000 }.up ∧
    { demo with up := 9999999999 }.up < 0 + 10000000000 ∧ demo.pw.ledTest = false ∧ (0x80000000 : Word).getLsbD 31 = true ∧
    ringRuns (ringRun id) = true ∧ (port (modPort (ringRun id) (bbPort 0) fun x => { x with link := false }) (bbPort 0)).link = false ∧
    (port (ringRun id) (bbPort 0)).link = true ∧
    (let x (b : Byte) := b.toInt
     let ts : Int := ((policy demo).derate : Int)
     x (BitVec.ofInt 8 (ts - 4)) < ts - 3 ∧ ts - 3 < x (BitVec.ofInt 8 (ts - 2)) ∧ x (BitVec.ofInt 8 (ts - 1)) < ts ∧ x (BitVec.ofInt 8 ts) = ts ∧
     x (BitVec.ofInt 8 (ts + 2)) ≤ ts + 2 ∧ ts + 2 < x (BitVec.ofInt 8 (ts + 3)) ∧ x (BitVec.ofInt 8 (ts + 4)) < ts + 5 ∧
     x (BitVec.ofInt 8 (ts + 5)) = ts + 5 ∧ x (BitVec.ofInt 8 (ts + 7)) ≤ ts + 7 ∧ x (BitVec.ofInt 8 (ts + 9)) < ts + 10 ∧
     ts + 10 ≤ x (BitVec.ofInt 8 (ts + 10))) := by
  decide +kernel


/-- The boot ROM before firmware runs, with a journal and the images of bank A and bank B. -/
def bootWorld (j : Option Journal) (a b : Memory) : State :=
  let boot : Boot :=
    { demo.boot with
        booted := false, romSvc := false, copy0 := j, copy1 := none
        bankA := { demo.boot.bankA with fw := a }, bankB := { demo.boot.bankB with fw := b } }
  { demo with boot := boot, pw := { demo.pw with straps := { openStraps with ftestN := true, bootsel := 0 } } }

/-- BootAndTrial, the boot ROM: every journal state, no usable journal, BOOTSEL, and a bank that fails its checks. Which signatures are
good the model leaves open, so an image that passes is any whose checks hold. -/
theorem witness_BootAndTrial_rom :
    (let s := bootWorld (some freshJournal) [] []
     awake s = true ∧ s.boot.booted = false ∧ s.boot.romSvc = false ∧ s.pw.straps.ftestN = true ∧ ¬(s.boot.copy0 = none ∧ s.boot.copy1 = none) ∧
     s.pw.straps.bootsel.toNat ≠ 2 ∧ (journalOf s).state = .confirmed ∧ (journalOf s).fusepend = false ∧ (journalOf s).otherval = false ∧
     headerOk (bankOf s (journalOf s).active).fw false = false) ∧ (∀ s m, headerOk m false = false → checkImage s m false = 0x83) ∧
    (∀ st n, journalOf (bootWorld (some { freshJournal with state := st, attempt := n }) [] []) = { freshJournal with state := st, attempt := n }) ∧
    ({ bootWorld (some freshJournal) [] [] with pw := { demo.pw with straps := { openStraps with bootsel := 2 } } }).pw.straps.bootsel.toNat = 2 ∧
    ((bootWorld none [] []).boot.copy0 = none ∧ (bootWorld none [] []).boot.copy1 = none) ∧
    (∀ m, headerOk m false = true → partOk m false = true → keyOk demo m false = true → sigOk demo m = true → checkImage demo m false = 0) := by
  have h0 (m : Memory) : ¬((imgSvn m).toNat < demo.boot.rb) := Nat.not_lt_zero _
  exact ⟨by decide +kernel, fun s m h => by simp [checkImage, h], fun st n => rfl, by decide +kernel, ⟨rfl, rfl⟩,
    fun m h1 h2 h3 h4 => by simp [checkImage, h1, h2, h3, h4, h0 m]⟩

/-- R580, check 6: sector 7 lies in the header of the firmware image; sector 8 would be the first beyond an image without a payload. -/
theorem witness_BootAndTrial_sectors :
    (∃ k ∈ (bankOf worn .a).bad, 0 < 512 * k + 512 ∧ 512 * k < 0 + 4096 + 0) ∧ ¬(∃ k ∈ (bankOf demo .a).bad, 0 < 512 * k + 512 ∧ 512 * k < 4096) ∧
    sectorIn 0 4096 7 = true ∧ sectorIn 0 4096 8 = false ∧ sectorIn 0x2000000 4096 0xFFFF = false ∧ sectorIn 0x2000000 4096 0x10000 = true := by
  decide +kernel

/-- The firmware runs and a trial stands at the step given. -/
def trialWorld (j : Journal) (b : Memory) (c : CtlState) : State :=
  { demo with boot := { demo.boot with copy0 := some j, copy1 := none, bankA := emptyBank, bankB := { emptyBank with fw := b } },
              ctl := { demo.ctl with state := c } }

/-- BootAndTrial, the trial: each step, no trial, and fuses to burn and none. -/
theorem witness_BootAndTrial_trial :
    (let s := trialWorld { freshJournal with state := .trialBoot, step := .verify } [] .cold
     stewardRuns s = true ∧ (journalOf s).state = .trialBoot ∧ s.ctl.state = .cold ∧ (journalOf s).step = .verify ∧
     headerOk (bankOf s (otherBank (journalOf s).active)).fw false = false) ∧
    (let s := trialWorld { freshJournal with state := .trialBoot, step := .migrate } [] .cold
     (journalOf s).step = .migrate ∧ (validSettings (bankOf s (journalOf s).active)).isSome = false) ∧
    (let s := trialWorld freshJournal [] .run
     (journalOf s).state ≠ .trialBoot ∧ (journalOf s).fusepend = false) ∧
    (let s := trialWorld { freshJournal with fusepend := true, tsvn := 3 } [] .run
     (journalOf s).fusepend = true ∧ s.boot.rb ≤ 64 ∧ newVKey (bankOf s (journalOf s).active).fw = none) := by
  decide +kernel

def aRec (code : BitVec 16) : Record := ⟨0, 0, 0, 0, code, 0⟩
def recWorld (f : Recorder → Recorder) : State := { demo with rc := f demo.rc }

/-- CairnKeepsRecords: a buffer that waits, tokens at a refill and between, a code with tokens, without and with a suppressed count, and a steward
that does not run. -/
theorem witness_CairnKeepsRecords :
    (let s := recWorld fun r => { r with waiting := some [aRec 0x0703] }
     s.rc.waiting = some [aRec 0x0703] ∧ stewardRuns s = true ∧ s.rc.fullCode = none ∧ s.rc.found.length + 1 + s.rc.staging.length ≤ 4096 ∧
     s.rc.staging.length < 15) ∧
    demo.rc.waiting = none ∧ demo.tide % 16000 = 0 ∧ { demo with tide := 15999 }.tide % 16000 ≠ 0 ∧
    (let s : State := { recWorld (fun r => { r with buckets := [⟨0x0401, 0, 5, 0, 0⟩] }) with up := 10000000000 }
     stewardRuns s = true ∧ (bucketOf s.rc 0x0401).supp ≠ 0 ∧ (bucketOf s.rc 0x0401).first + 10000000000 ≤ s.up ∧ (bucketOf s.rc 0x0401).tokens = 0 ∧
     (bucketOf s.rc 0x0401).code = 0x0401) ∧
    (bucketOf demo.rc 0x0401).supp = 0 ∧ 0 < (bucketOf demo.rc 0x0401).tokens ∧ (bucketOf demo.rc 0x0401).code = 0x0401 ∧
    256 ≤ (0x0401 : BitVec 16).toNat ∧ foundationCode 0x0401 = false ∧
    (let s (n : Nat) : State := { recWorld (fun r => { r with fbuf := List.replicate n (aRec 1) }) with boot := { demo.boot with booted := false } }
     (s 0).pw.state ≠ .off ∧ stewardRuns (s 0) = false ∧ (s 15).rc.fbuf.length < 16 ∧ 16 ≤ (s 16).rc.fbuf.length) := by
  decide +kernel

/-- An open session of the owner, and a request in it. -/
def session1 : Session := ⟨1, .owner, [], none, none, 0, .mnt, 9, false⟩
def bareHead : NetHead := ⟨List.replicate 6 2, (ipv4 17 9 7 []).take 20, beBytes 2 700 ++ beBytes 2 50420 ++ [0, 72, 0, 0]⟩
def bareEnv : Env := ⟨.mnt, 9, 700, 1, 1, 0, 1, 1, 1, 0, [], [], true, bareHead⟩
def envOf (cmd : Nat) : Env := { bareEnv with tag := tagOf [] (requestBytes bareEnv cmd) }

/-- What KMAC256 gives is open in the model, so a request is authentic where the TAG of these bytes is not the zero TAG, which no request in a
session may carry (R556). -/
def TagsNotZero : Prop := ∀ cmd, tagOf [] (requestBytes bareEnv cmd) ≠ zeroTag

/-- The module in a controller state, with that session. -/
def svcWorld (c : CtlState) (f : State → State) : State :=
  f { demo with ctl := { demo.ctl with state := c }, svc := { demo.svc with sessions := [session1] } }

theorem envOf_inSession (nz : TagsNotZero) (s : State) (cmd : Nat) (h : session? s 1 = some session1) : InSession s (envOf cmd) cmd session1 :=
  ⟨h, nz cmd, rfl, (by intro h; cases h), (by intro _ h; cases h)⟩

theorem bareHead_taken (s : State) (cmd : Nat) (hm : ownIp s .mnt = 7) : ipTaken s (envOf cmd) = true := by
  have h : beAt bareHead.hdr 16 4 = 7 := by decide +kernel
  have h1 : (bareHead.hdr.length == 20 && bareHead.hdr.headD 0 == 0x45 && inetSum bareHead.hdr == 0 && beAt bareHead.hdr 6 2 % 16384 == 0 &&
      beAt bareHead.hdr 9 1 == 17 && beAt bareHead.hdr 12 4 == (9 : Word).toNat) = true := by decide +kernel
  have h2 : (beAt bareHead.udp 0 2 == (700 : BitVec 16).toNat && beAt bareHead.udp 2 2 == svcPort) = true := by decide +kernel
  simp only [Bool.and_eq_true] at h1 h2
  simp only [ipTaken, envOf, bareEnv, svcIp, hm, h, h1, h2]
  decide

theorem envOf_arrives (s : State) (cmd : Nat) (hm : ownIp s .mnt = 7) (hs : serving s = true) (hr : s.boot.romSvc = false) : Arrives s (envOf cmd) :=
  ⟨hs, hr, bareHead_taken s cmd hm, rfl, Or.inl ⟨rfl, Or.inl rfl⟩⟩

/-- A request of the owner is granted in a controller state that its command allows. -/
theorem granted_of (nz : TagsNotZero) (s : State) (i : Instr) (cmd : Nat) (role : Role) (states : List CtlState)
    (hi : sessionCommand i = some (envOf cmd, cmd, role, states)) (hm : ownIp s .mnt = 7) (hs : serving s = true) (hr : s.boot.romSvc = false)
    (hx : session? s 1 = some session1) (hc : states = [] ∨ s.ctl.state ∈ states) : Granted s i (envOf cmd) cmd session1 :=
  ⟨role, states, hi, envOf_arrives s cmd hm hs hr, envOf_inSession nz s cmd hx, rfl, by cases role <;> decide, hc⟩

/-- Every command of a session is granted in a state of its own. -/
theorem granted_somewhere (nz : TagsNotZero) (i : Instr) (cmd : Nat) (role : Role) (states : List CtlState)
    (hi : sessionCommand i = some (envOf cmd, cmd, role, states)) :
    Granted (svcWorld (states.headD .run) id) i (envOf cmd) cmd session1 := by
  refine granted_of nz _ i cmd role states hi rfl rfl rfl rfl ?_
  cases states with
  | nil => exact Or.inl rfl
  | cons c l => exact Or.inr (List.mem_cons_self ..)

/-- SessionCommandsAreGuarded: each check that a request can fail, and one that it passes. -/
theorem witness_SessionCommandsAreGuarded (nz : TagsNotZero) :
    (∀ e, sessionCommand (.stop e) = some (e, 0x40, .engineer, [.run])) ∧ serving State.reset = false ∧ serving (svcWorld .run id) = true ∧
    wellFormed { bareEnv with version := 2 } = false ∧ ({ bareEnv with iface := .vehicle } : Env).iface = .vehicle ∧ wellFormed bareEnv = true ∧
    ({ bareEnv with iface := .backbone, target := 5 } : Env).target ≠ (svcWorld .run id).boot.uid ∧ (5 : BitVec 64) ≠ 0 ∧
    (svcWorld .run id).boot.romSvc = false ∧ (svcWorld .run id).svc.relays.length < 8 ∧ Arrives (svcWorld .run id) (envOf 0x40) ∧
    session? (svcWorld .run id) 2 = none ∧ session? (svcWorld .run id) 1 = some session1 ∧
    ({ envOf 0x40 with tag := (envOf 0x40).tag ++ [0] } : Env).tag ≠ tagOf session1.key (requestBytes bareEnv 0x40) ∧
    InSession (svcWorld .run id) (envOf 0x40) 0x40 session1 ∧
    (let x : Session := { session1 with last := some 1, reply := some ⟨⟨[], [], 7, 50420, 64, true⟩, 9, 700, .mnt, 0x40, 1, 1, 1, 0, .empty, true⟩ }
     x.last = some (envOf 0x40).seq ∧ x.reply.isSome = true) ∧ (2 : Word) ≠ (envOf 0x40).seq ∧ later (envOf 0x40).seq (2 : Word) = false ∧
    (({ session1 with factory := true } : Session).factory = true ∧ 0x40 ≠ 0x0003 ∧ 0x40 ≠ 0x0004 ∧ 0x40 ≠ 0x0010) ∧
    roleNo .view < roleNo .engineer ∧ roleNo .engineer ≤ roleNo session1.role ∧ (svcWorld .stopped id).ctl.state ∉ [CtlState.run] := by
  refine ⟨fun e => rfl, rfl, rfl, rfl, rfl, rfl, by decide, by decide, rfl, by decide, envOf_arrives _ _ rfl rfl rfl, rfl, rfl, ?_, envOf_inSession nz _ _ rfl,
    ⟨rfl, rfl⟩, by decide, by decide, ⟨rfl, by decide, by decide, by decide⟩, by decide, by decide, by decide⟩
  intro h
  have := congrArg List.length h
  simp [envOf, session1] at this

def someNonce : List Byte := List.replicate 16 7

/-- LoginsOpenSessions: a nonce that fits, one that has aged, roles locked and not, and the limits of a session. -/
theorem witness_LoginsOpenSessions (nz : TagsNotZero) :
    Arrives (svcWorld .run id) (envOf 1) ∧ someNonce.length = 16 ∧ ([] : List Byte).length ≠ 16 ∧
    roleLocked (svcWorld .run id) .maint = false ∧ sessionLimit (svcWorld .run id) .engineer = true ∧ sessionLimit (svcWorld .run id) .maint = false ∧
    roleLocked (svcWorld .run fun s => { s with svc := { s.svc with recs := s.svc.recs.set 0 { s.svc.recs.get 0 with lockEnd := some 1 } } }) .maint = true ∧
    (let s := svcWorld .run fun s => { s with svc := { s.svc with nonces := [⟨.view, someNonce, [], 0⟩] } }
     (s.svc.nonces.find? fun n => n.role = .view ∧ n.nc = someNonce ∧ s.up ≤ n.at_ + 10000000000) = some ⟨.view, someNonce, [], 0⟩ ∧
     ∃ h, hashOf s .view = some h) ∧
    (svcWorld .run fun s => { s with up := 10000000001 }).up > 0 + 10000000000 ∧ recIdx .maint = some 0 ∧ recIdx .view = none ∧
    InSession (svcWorld .run id) (envOf 3) 3 session1 ∧ InSession (svcWorld .run id) (envOf 4) 4 session1 ∧ session1.role = .owner ∧
    (List.replicate 12 (0 : Byte)).length = 12 ∧ (List.replicate 64 (0 : Byte)).length = 64 ∧ session? (svcWorld .run id) session1.id = some session1 ∧
    session1.idleFrom + 60000000000 ≤ (svcWorld .run fun s => { s with up := 60000000000 }).up ∧ (svcWorld .run id).up < session1.idleFrom + 60000000000 := by
  refine ⟨envOf_arrives _ _ rfl rfl rfl, rfl, by decide, rfl, rfl, rfl, rfl, ⟨rfl, _, rfl⟩, by decide, rfl, rfl, envOf_inSession nz _ _ rfl, envOf_inSession nz _ _ rfl, rfl,
    rfl, rfl, rfl, by decide, by decide⟩

/-- A channel of the set-up to force, and words of WORK and K to change. -/
def forceWorld (c : CtlState) (f : Ctl → Ctl) : State :=
  svcWorld c fun s => { s with ctl := f s.ctl, adm := { s.adm with cur := some { demoLoaded with setup := { demoSetup with chans := [outChan] } } } }
def oneForce : List ForceReq := [⟨4, 5, 1, false, false⟩]
def aForce : Force := ⟨.chout 5, 1, 3, false, none, false, none⟩
def oneChange : List OlcItemReq := [⟨0, 0, 0, 0x10, 0, 5⟩]

/-- ForcesAndChangesAccepted: items that name the set-up and items that do not, both tables with and without room, and both states. -/
theorem witness_ForcesAndChangesAccepted (nz : TagsNotZero) :
    (∀ (items : List ForceReq), Granted (forceWorld .run id) (.force (envOf 0x20) items) (envOf 0x20) 0x20 session1) ∧
    (∀ items, Granted (forceWorld .service id) (.unforce (envOf 0x21) items) (envOf 0x21) 0x21 session1) ∧
    (∀ first, Granted (forceWorld .run id) (.forcelist (envOf 0x22) first) (envOf 0x22) 0x22 session1) ∧
    (∀ named items, Granted (forceWorld .run id) (.olc (envOf 0x30) named items) (envOf 0x30) 0x30 session1) ∧
    (∀ num, Granted (forceWorld .run id) (.olcstat (envOf 0x31) num) (envOf 0x31) 0x31 session1) ∧
    (forceItems (forceWorld .run id) oneForce).map (·.length) = some 1 ∧ forceItems (forceWorld .run id) [⟨4, 6, 1, false, false⟩] = none ∧
    oneForce.length ≤ 16 ∧ 16 < (List.replicate 17 (oneForce.headD ⟨0, 0, 0, false, false⟩)).length ∧ (∃ f ∈ [(⟨0, 0, 0, false, false⟩ : ForceReq)], f.kind ≠ 4) ∧
    ¬((forceWorld .run id).ctl.state = .service) ∧ ((liveForces (forceWorld .run id)).map (·.item)).length = 0 ∧
    (forceWorld .run fun c => { c with forces := [aForce] }).ctl.forces[0]? = some aForce ∧ (aForce.ended = false ∧ aForce.endAt = none) ∧
    (olcItems (forceWorld .run id) oneChange).map (·.length) = some 1 ∧ olcItems (forceWorld .run id) [⟨3, 0, 0, 0, 0, 5⟩] = none ∧
    ((2 : Word) - BitVec.ofNat 32 (tideNow (forceWorld .run id))).toNat = 2 ∧ ((40000 : Word) - BitVec.ofNat 32 (tideNow (forceWorld .run id))).toNat = 40000 ∧
    (forceWorld .run id).ctl.olcs.length < 16 ∧ 16 ≤ (forceWorld .run fun c => { c with olcs := List.replicate 16 ⟨1, 2, [], .owner, .mnt, 9⟩ }).ctl.olcs.length ∧
    (((forceWorld .run fun c => { c with olcs := [⟨1, 2, [], .owner, .mnt, 9⟩] }).ctl.olcs ++ []).find? fun r : OlcReq => r.num = 1) = some ⟨1, 2, [], .owner, .mnt, 9⟩ := by
  refine ⟨fun _ => granted_of nz _ _ _ _ _ rfl rfl rfl rfl rfl (Or.inr (List.mem_cons_self ..)),
    fun _ => granted_of nz _ _ _ _ _ rfl rfl rfl rfl rfl (Or.inr (List.mem_cons_of_mem _ (List.mem_cons_self ..))), fun _ => granted_of nz _ _ _ _ _ rfl rfl rfl rfl rfl (Or.inl rfl),
    fun _ _ => granted_of nz _ _ _ _ _ rfl rfl rfl rfl rfl (Or.inr (List.mem_cons_self ..)), fun _ => granted_of nz _ _ _ _ _ rfl rfl rfl rfl rfl (Or.inl rfl), ?_⟩
  decide +kernel

/-- A load or an update under way, whose first block is written. -/
def seqOf (k : SeqKind) (n : Nat) (bl : List (Nat × Nat)) : LoadSeq := ⟨k, 1, n, bl⟩
def loadWorld (c : CtlState) (j : Journal) (q : Option LoadSeq) : State :=
  svcWorld c fun s => { s with boot := { s.boot with copy0 := some j, copy1 := none, seq := q, bankA := emptyBank, bankB := emptyBank } }

theorem memoriesOk_loadWorld (c : CtlState) (j : Journal) (q : Option LoadSeq) : MemoriesOk (loadWorld c j q) :=
  ⟨fun l => by cases l <;> rfl, rfl, fun k => by cases k <;> exact ⟨rfl, rfl, rfl⟩⟩

/-- LoadsAndControlAccepted: every command granted, each journal state, a sequence open and none, and blocks that fit and that do not. -/
theorem witness_LoadsAndControlAccepted (nz : TagsNotZero) :
    Granted (svcWorld .run id) (.stop (envOf 0x40)) (envOf 0x40) 0x40 session1 ∧
    (∀ w, Granted (svcWorld .stopped id) (.restart (envOf 0x41) w) (envOf 0x41) 0x41 session1) ∧
    Granted (svcWorld .stopped id) (.service (envOf 0x42)) (envOf 0x42) 0x42 session1 ∧
    Granted (svcWorld .service id) (.leave (envOf 0x43)) (envOf 0x43) 0x43 session1 ∧
    Granted (svcWorld .stopped id) (.reboot (envOf 0x44)) (envOf 0x44) 0x44 session1 ∧
    (∀ n, Granted (loadWorld .stopped freshJournal none) (.appbegin (envOf 0x50) n) (envOf 0x50) 0x50 session1) ∧
    (∀ k n, Granted (loadWorld .run freshJournal none) (.updbegin (envOf 0x60) k n) (envOf 0x60) 0x60 session1) ∧
    (∀ q o d, Granted (loadWorld .stopped freshJournal q) (.appblock (envOf 0x51) o d) (envOf 0x51) 0x51 session1) ∧
    (∀ q o d, Granted (loadWorld .run freshJournal q) (.updblock (envOf 0x61) o d) (envOf 0x61) 0x61 session1) ∧
    (∀ q, Granted (loadWorld .stopped freshJournal q) (.append (envOf 0x52)) (envOf 0x52) 0x52 session1) ∧
    (∀ q, Granted (loadWorld .run freshJournal q) (.updquery (envOf 0x62)) (envOf 0x62) 0x62 session1) ∧
    (∀ q, Granted (loadWorld .run freshJournal q) (.updend (envOf 0x63)) (envOf 0x63) 0x63 session1) ∧
    (∀ j, Granted (loadWorld .run j none) (.confirm (envOf 0x64)) (envOf 0x64) 0x64 session1) := by
  refine ⟨?_, fun _ => ?_, ?_, ?_, ?_, fun _ => ?_, fun _ _ => ?_, fun _ _ _ => ?_, fun _ _ _ => ?_, fun _ => ?_, fun _ => ?_, fun _ => ?_, fun _ => ?_⟩ <;>
    first
      | exact granted_of nz _ _ _ _ _ rfl rfl rfl rfl rfl (Or.inr (List.mem_cons_self ..))
      | exact granted_of nz _ _ _ _ _ rfl rfl rfl rfl rfl (Or.inl rfl)

theorem witness_LoadsAndControlAccepted_clauses :
    restartForbidden (svcWorld .stopped id) = true ∧
    restartForbidden (svcWorld .stopped fun s => { s with time := { s.time with set := true } }) = false ∧ (svcWorld .service id).svc.calWork = none ∧
    (∀ st, (journalOf (loadWorld .run { freshJournal with state := st } none)).state = st) ∧ (loadWorld .run freshJournal none).boot.seq = none ∧
    (loadWorld .run freshJournal (some (seqOf .app 1024 []))).boot.seq.isSome = true ∧ (1 ≤ 1 ∧ 1 ≤ 0x1800000) ∧ 0x1800000 < 0x1800001 ∧
    ((2 : Byte) = 2 ∧ 0x2000000 < 0x2000001 ∧ 0x2000001 ≤ 0x3800000) ∧ (seqOf .app 1024 []).session = session1.id ∧
    ({ seqOf .app 1024 [] with session := 5 } : LoadSeq).session ≠ session1.id ∧ ((∃ k, (seqOf (.upd 1) 1024 []).kind = .upd k) ↔ true = true) ∧
    (0 % 1024 = 0 ∧ 1 ≤ [(7 : Byte)].length ∧ [(7 : Byte)].length ≤ 1024 ∧ 0 + [(7 : Byte)].length ≤ (seqOf .app 1024 []).length) ∧
    (∀ x ∈ (seqOf .app 1024 [(1024, 4)]).blocks, x.1 ≠ 0) ∧ ((seqOf .app 1024 [(0, 1)]).blocks.find? fun x => x.1 = 0) = some (0, [(7 : Byte)].length) ∧
    (let s := loadWorld .stopped freshJournal (some (seqOf .app 1024 [(0, 1)]))
     let p := placeOf s .app 0
     flashRead s p.1 p.2 1 = [0xFF] ∧ flashRead s p.1 p.2 1 ≠ [7]) ∧
    (loadWorld .stopped freshJournal none).adm.image = none ∧ (seqOf (.upd 1) 8192 []).blocks = [] ∧
    (lowestGap (loadWorld .run freshJournal none) (seqOf (.upd 1) 8192 []) 1).2 = false ∧
    (lowestGap (svcWorld .run fun s => { s with boot := { s.boot with bankB := { emptyBank with fw := [(16, 0), (17, 0), (18, 0), (19, 0)] } } })
      (seqOf (.upd 1) 4096 ((List.range 4).map fun i => (1024 * i, 1024))) 1).2 = true ∧
    (let s := loadWorld .run { freshJournal with state := .trialRun } none
     ¬(s.boot.rb < bankSvn (bankOf s .b)) ∨ s.boot.rb < bankSvn (bankOf s .b)) ∧ keyPending (loadWorld .run freshJournal none) .b = false := by
  refine ⟨by decide +kernel, by decide +kernel, rfl, fun st => rfl, rfl, rfl, by decide, by decide, by decide, rfl, by decide, ⟨fun _ => rfl, fun _ => ⟨1, rfl⟩⟩,
    by decide, by decide, by decide, by decide +kernel, rfl, rfl, by decide +kernel, by decide +kernel, Decidable.em _ |>.symm, by decide +kernel⟩

def quayItem : ReadItem := ⟨.quay, 0x20000000, 1⟩
def laneItem : ReadItem := ⟨.bank (some .a) 0, 0x1FFFFC, 1⟩
def regItem : ReadItem := ⟨.regs .a, 0x40FFFFFC, 1⟩

/-- ReadsAndKeySlots: every command granted, items of each space in and out of shape, ranges of the areas, and slots that may change and may not. -/
theorem witness_ReadsAndKeySlots (nz : TagsNotZero) :
    Granted (svcWorld .run id) (.status (envOf 0x10)) (envOf 0x10) 0x10 session1 ∧
    (∀ is, Granted (svcWorld .run id) (.read (envOf 0x11) is) (envOf 0x11) 0x11 session1) ∧
    (∀ a f n, Granted (svcWorld .run id) (.recread (envOf 0x70) a f n) (envOf 0x70) 0x70 session1) ∧
    (∀ f n, Granted (svcWorld .run id) (.logread (envOf 0x71) f n) (envOf 0x71) 0x71 session1) ∧
    (∀ n key, Granted (svcWorld .stopped id) (.keyslotInstall (envOf 5) n key) (envOf 5) 5 session1) ∧
    (∀ v n, Granted (svcWorld .stopped id) (.keyslotRevoke (envOf 5) v n) (envOf 5) 5 session1) ∧
    ([quayItem].length ≤ 32 ∧ quayItem.n ≤ 256 ∧ quayItem.addr.toNat % 4 = 0 ∧ 0x20000000 ≤ quayItem.addr.toNat ∧ quayItem.addr.toNat + 4 * 1 ≤ 0x20800000) ∧
    laneItem.addr.toNat + 4 * laneItem.n ≤ 0x200000 ∧ (lane (svcWorld .run id) .a).dmg = [] ∧ (svcWorld .run id).quayDmg = [] ∧
    regAt regItem.addr.toNat = none ∧ ({ quayItem with n := 0 } : ReadItem).n = 0 ∧
    (let k := (svcWorld .stopped id).boot.okeys.get 0
     k.prog = false ∧ k.revoked = false) ∧
    (let keys (p : Bool) := (#v[⟨[], true, false⟩, ⟨[], p, false⟩, ⟨[], false, false⟩, ⟨[], false, false⟩] : Vector KeySlot 4)
     ((keys true).get 0).prog = true ∧ ((keys true).get 1).prog = true ∧ ∀ m, m ≠ 0 → ((keys false).get m).prog = false) := by
  refine ⟨granted_of nz _ _ _ _ _ rfl rfl rfl rfl rfl (Or.inl rfl), fun _ => granted_of nz _ _ _ _ _ rfl rfl rfl rfl rfl (Or.inl rfl),
    fun _ _ _ => granted_of nz _ _ _ _ _ rfl rfl rfl rfl rfl (Or.inl rfl), fun _ _ => granted_of nz _ _ _ _ _ rfl rfl rfl rfl rfl (Or.inl rfl),
    fun _ _ => granted_of nz _ _ _ _ _ rfl rfl rfl rfl rfl (Or.inr (List.mem_cons_self ..)),
    fun _ _ => granted_of nz _ _ _ _ _ rfl rfl rfl rfl rfl (Or.inr (List.mem_cons_self ..)), ?_, ?_, ?_, ?_, ?_, ?_, ?_, ?_⟩ <;> decide +kernel

def calWorld (w : Option (Word × CalRec × List (Nat × Nat × Word))) : State := svcWorld .service fun s => { s with svc := { s.svc with calWork := w } }
def relays (n : Nat) : State := svcWorld .run fun s => { s with svc := { s.svc with relays := List.replicate n ⟨List.replicate 6 2, 9, 700, 5, 1, 0x40, 1, 0⟩ } }

/-- CalibrationAndRelay: a working copy of this session, of another and none, both ends of the targets, a table with and without room, and an entry
before and at its end. -/
theorem witness_CalibrationAndRelay (nz : TagsNotZero) :
    (∀ w, Granted (calWorld w) (.calstart (envOf 0x80)) (envOf 0x80) 0x80 session1) ∧
    (∀ w a k v, Granted (calWorld w) (.calpoint (envOf 0x81) a k v) (envOf 0x81) 0x81 session1) ∧
    (∀ w, Granted (calWorld w) (.calread (envOf 0x82)) (envOf 0x82) 0x82 session1) ∧
    (∀ w, Granted (calWorld w) (.calwrite (envOf 0x83)) (envOf 0x83) 0x83 session1) ∧
    (∀ w, Granted (calWorld w) (.calabort (envOf 0x84)) (envOf 0x84) 0x84 session1) ∧
    (calWorld none).svc.calWork = none ∧ (∀ c, (calWorld (some (1, c, []))).svc.calWork = some (session1.id, c, [])) ∧ (5 : Word) ≠ session1.id ∧
    (49 < 50 ∧ 49 ≤ 49 ∧ 1 ≤ 2 ∧ 47 < 48) ∧
    (let e : Env := { bareEnv with target := 5 }
     serving (relays 0) = true ∧ (relays 0).boot.romSvc = false ∧ wellFormed e = true ∧ e.iface = .mnt ∧ e.target ≠ 0 ∧ e.target ≠ (relays 0).boot.uid) ∧
    (relays 7).svc.relays.length < 8 ∧ 8 ≤ (relays 8).svc.relays.length ∧ bareEnv.target = 0 ∧ stewardRuns (relays 1) = true ∧
    (relays 1).svc.relays[0]? = some ⟨List.replicate 6 2, 9, 700, 5, 1, 0x40, 1, 0⟩ ∧ (relays 1).up < 0 + 2000000000 ∧ 0 + 2000000000 ≤ { relays 1 with up := 2000000000 }.up ∧
    ((relays 1).svc.relays.find? fun y => y.target = 5 ∧ y.seq = 1) = some ⟨List.replicate 6 2, 9, 700, 5, 1, 0x40, 1, 0⟩ ∧ bareEnv.iface ≠ .backbone ∧
    ({ bareEnv with iface := .backbone } : Env).iface = .backbone := by
  refine ⟨fun _ => granted_of nz _ _ _ _ _ rfl rfl rfl rfl rfl (Or.inr (List.mem_cons_self ..)),
    fun _ _ _ _ => granted_of nz _ _ _ _ _ rfl rfl rfl rfl rfl (Or.inr (List.mem_cons_self ..)), fun _ => granted_of nz _ _ _ _ _ rfl rfl rfl rfl rfl (Or.inl rfl),
    fun _ => granted_of nz _ _ _ _ _ rfl rfl rfl rfl rfl (Or.inr (List.mem_cons_self ..)), fun _ => granted_of nz _ _ _ _ _ rfl rfl rfl rfl rfl (Or.inr (List.mem_cons_self ..)),
    rfl, fun _ => rfl, ?_, ?_, ?_, ?_, ?_, rfl, ?_, rfl, ?_, ?_, rfl, ?_, rfl⟩ <;> decide +kernel

/-- IdleBlockTicks: an empty queue, in RUN and off. -/
theorem witness_IdleBlockTicks :
    demo.pending = [] ∧ demo.pw.state = .run ∧ demo.time.clock.ns.toNat < 1000000000 ∧ demo.time.clock.sec.toNat + 1 < 2 ^ 48 ∧ State.reset.pw.state ≠ .run := by
  decide +kernel

/-- MemoriesStayCanonical: the reset state, which a step leads on from. -/
theorem witness_MemoriesStayCanonical : MemoriesOk State.reset ∧ ∃ t, step State.reset = .next t := ⟨reset_memoriesOk, _, rfl⟩

/-- FusesAreNeverCleared: fuses and key slots as delivered, one slot programmed and one revoked. -/
theorem witness_FusesAreNeverCleared :
    State.reset.boot.rb ≤ 64 ∧ (∃ t, step State.reset = .next t) ∧ (State.reset.boot.vkeys.get 0).prog = true ∧
    ((State.reset.boot.vkeys.set 0 ⟨[], true, true⟩).get 0).revoked = true :=
  ⟨by decide +kernel, ⟨_, rfl⟩, rfl, rfl⟩

/-! Conditions of single clauses, met by a state and operands. -/

/-- SharedMemoryResults: a register whose domain is ready, asleep and waking, and one that takes a write. -/
theorem witness_SharedMemoryResults_domains :
    domainOf .a 0x44000024 = some (.regs 4) ∧ domReady untimed (.regs 4) = true ∧
    domReady { untimed with pw := { untimed.pw with asleep := [.regs 4] } } (.regs 4) = false ∧
    domReady { untimed with pw := { untimed.pw with waking := [⟨.regs 4, 40, []⟩] } } (.regs 4) = false ∧
    (∃ r, sharedPlace untimed untimedCore .stx 0x44000024 1 = .ok (.reg r) ∧ (regSet untimed (.lane .a) r 1).isSome = true) :=
  ⟨by decide +kernel, by decide +kernel, by decide +kernel, by decide +kernel, _, rfl, by decide +kernel⟩

/-- A pair whose first comparator reports a difference whatever it sees. -/
def unsound (s : State) : State := modPair s .a 0 fun q => { q with cmpX := ⟨true, 0⟩ }

/-- FlowAndWorkEndResults, ExceptionsAndTheirClasses, ReleasesAndReadiness: sound comparators in every pair, and one that is not. -/
theorem witness_SoundComparators :
    (∀ l p, compPasses (pair demo l p).cmpX (pair demo l p).testCnt = true ∧ compPasses (pair demo l p).cmpY (pair demo l p).testCnt = true) ∧
    compPasses (pair (unsound demo) .a 0).cmpX (pair (unsound demo) .a 0).testCnt = false := by
  refine ⟨fun l => ?_, by decide +kernel⟩
  cases l <;> decide +kernel

/-- ReleasesAndReadiness: a voting lane with a released task and none active. -/
theorem witness_ReleasesAndReadiness_start :
    let s := modPair demo .a 0 fun q => { q with active := none, tasks := vmod q.tasks 0 fun r => { r with phase := .released } }
    s.ctl.state = .run ∧ (lane s .a).st = .voting ∧ (pair s .a 0).active = none ∧ (∃ k, (taskRun s .a 0 k).phase = .released) ∧ s.rejoin.lane = none ∧
      ∀ k, (taskRun s .a 0 k).cycles = 0 :=
  ⟨rfl, rfl, rfl, ⟨0, rfl⟩, rfl, by decide +kernel⟩

/-- StopsAndDrops: a lane that has dropped at this instant, with a lower and a higher code. -/
theorem witness_StopsAndDrops_lowest :
    let s := modLane demo .a fun x => { x with st := .dropped, fellAt := some 0, cause := 0x05 }
    (lane s .a).st ≠ .voting ∧ (lane s .a).fellAt = some s.up ∧ 2 < (lane s .a).cause.toNat ∧ ¬(7 < (lane s .a).cause.toNat) := by
  decide +kernel

/-- CommitsAreVoted: a boundary that the clock has not reached yet and one that it has passed, and tasks that all differ. -/
theorem witness_CommitsAreVoted_boundary :
    demo.time.clock.ns.toNat < 1000000000 ∧ (demo.tide + 2) * 250000 < 2 ^ 48 * 1000000000 ∧ trainNs demo ≤ (demo.tide + 1) * 250000 ∧
    (demo.tide + 1) * 250000 < trainNs { demo with time := { demo.time with clock := { demo.time.clock with ns := 250001 } } } ∧
    (committing (lifting [(.a, true)]) 1).Nodup ∧
    (∀ e ∈ committing (lifting [(.a, true)]) 1, e.pair = demoTask.pair → e.task = demoTask.task → e = demoTask) := by
  decide +kernel

/-- A lockstep window that has closed with the registers given. -/
def windowed (a b : BitVec 64) : State := modPair demo .a 0 fun q => { q with closed := some (a, b) }

/-- LanesAreCompared: an open window in which something has retired and one in which nothing has, none closed, and one closed with equal and with
unequal registers. -/
theorem witness_LanesAreCompared_windows :
    (pair demo .a 0).retired = 0 ∧ (pair (modPair demo .a 0 fun q => { q with retired := 1 }) .a 0).retired ≠ 0 ∧ runsTimed demo .a = true ∧
    fellNow demo .a = false ∧ (pair demo .a 0).closed = none ∧ (pair (windowed 5 5) .a 0).closed = some (5, 5) ∧
    (pair (windowed 5 6) .a 0).closed = some (5, 6) ∧ runsTimed (windowed 5 6) .a = true ∧ fellNow (windowed 5 6) .a = false := by
  decide +kernel

/-- LanesAreCompared: a shadow run whose boundary is one to compare. -/
theorem witness_LanesAreCompared_charges :
    (voters demo).length = 3 ∧ demo.rejoin.phase ≠ .shadow ∧
    (lane (modLane demo .b fun x => { x with egBad := true, charges := [0, 0] }) .b).egBad = true ∧
    (demo.tideUp :: [0, 0].filter fun q => decide (demo.tideUp < q + 256)).length < 4 := by
  decide +kernel

/-- RetainAndSettings: the latest committed buffer is the first one, and the second. -/
theorem witness_RetainAndSettings_buffers :
    (let r : Retain := { resetRetain with busy := true, buf0 := goodBuf }
     r.busy = true ∧ r.full = false ∧ r.buf0.mark = 0xC3 ∧ r.buf0.bad = false ∧ ¬(r.buf1.mark = 0xC3 ∧ r.buf1.bad = false)) ∧
    (let r : Retain := { resetRetain with buf0 := goodBuf, buf1 := { goodBuf with gen := 6 } }
     r.buf1.mark = 0xC3 ∧ r.buf0.mark = 0xC3 ∧ later r.buf0.gen r.buf1.gen = false) ∧
    (let r : Retain := { resetRetain with busy := true, full := true, buf1 := goodBuf }
     r.busy = true ∧ r.full = true ∧ r.buf1.mark = 0xC3 ∧ r.buf1.bad = false ∧ r.buf0.mark ≠ 0xC3) := by
  decide +kernel

/-- The end of a shadow run with the counts and digests given. -/
def shadowed (m d : BitVec 5) (a b : BitVec 64) : State :=
  { rejoining .shadow 0 with rejoin := { (rejoining .shadow 0).rejoin with matched := m, due := d, digests := some (a, b) } }

/-- RejoinsAndSplits: the end of a shadow run with every signature matched and not, and with digests that agree and that do not. -/
theorem witness_RejoinsAndSplits_entry :
    (shadowed 3 3 7 7).rejoin.phase = .shadow ∧ (shadowed 3 3 7 7).rejoin.shadowStart + 16 ≤ (shadowed 3 3 7 7).tide ∧
    (shadowed 3 3 7 7).rejoin.matched = (shadowed 3 3 7 7).rejoin.due ∧ (shadowed 3 3 7 7).rejoin.digests = some (7, 7) ∧
    (shadowed 3 3 7 8).rejoin.digests = some (7, 8) ∧ (7 : BitVec 64) ≠ 8 ∧ (shadowed 2 3 7 7).rejoin.matched ≠ (shadowed 2 3 7 7).rejoin.due ∧
    (shadowed 3 3 7 7).rejoin.lane = some .c ∧ (shadowed 3 3 7 7).rejoin.src = some .a ∧
    (lane (modLane oneDropped .c fun x => { x with uncounted := true }) .c).uncounted = true := by
  decide +kernel

/-- RejoinsAndSplits: a window open at a split that compares equal, one that both comparators find unequal, one that one alone does, and none. -/
theorem witness_RejoinsAndSplits_windows :
    let q (a b : BitVec 64) : PairSt := { pair demo .a 0 with leader := a, checker := b, retired := 1 }
    (closeWindow (q 5 5)).closed = some (5, 5) ∧ windowCause (q 5 5).cmpX (q 5 5).cmpY 5 5 = none ∧
    windowCause (q 5 6).cmpX (q 5 6).cmpY 5 6 = some 0x02 ∧ windowCause ⟨true, 0⟩ ⟨false, 0⟩ 5 5 = some 0x03 ∧
    (closeWindow (pair demo .a 0)).closed = none := by
  decide +kernel

/-- A program of a COMMIT alone. -/
def commitOnly : AppImage := { demoImage with words := [0xF8010000, 0] }

/-- AdmissionAndEffectBoundary: a program that is admitted, and the results of two lanes that agree on it. -/
theorem witness_AdmissionAndEffectBoundary_good :
    let ok : AdmResult := ⟨0, 0, 0, 0xFFFF, 7⟩
    let s := { admitting (fun a => { a with code := 0xFE, results := ⟨some ok, some ok, some { ok with digest := 8 }⟩ }) .setup with
               adm := { demo.adm with image := some commitOnly, code := 0xFE, results := ⟨some ok, some ok, some { ok with digest := 8 }⟩ } }
    s.adm.image = some commitOnly ∧ s.ctl.state = .setup ∧ s.adm.code = 0xFE ∧ benchMode s = false ∧ s.adm.results.get .a = some ok ∧
      s.adm.results.get .b = some ok ∧ ok.code = 0 ∧ (admitCheck s commitOnly false).good.isSome = true ∧ s.rejoin.lane = none ∧
      (lane s .c).st = .voting ∧ ({ ok with digest := 8 } : AdmResult).digest ≠ ok.digest := by
  decide +kernel

/-- The set-up of `ttWorld` with an Ashlar connection on its receive SLOT. -/
def rxConn : ConnDecl := ⟨true, 4, 9, 8, 3, 1000, 0⟩
def connWorld : State :=
  let s := withSetup { demoSetup with slots := [txSlot, rxSlot], conns := [rxConn] }
  { s with net := { s.net with conns := [resetAsh] } }

/-- Three lanes whose communication images differ in the first word of the payload. -/
def splitWorld : State := modLane (setVoting (ttWorld id) .c .dropped) .b fun x => { x with pairs := vmod x.pairs 0 fun q => { q with tasks := vmod q.tasks 0 fun r => { r with com := some [1, 1, 1, 1] } } }

/-- TtFrames: a SLOT with and without a connection, a window that has sent, and two lanes whose frames differ. -/
theorem witness_TtFrames_connections :
    connOfSlot (setup (ttWorld id)) rxSlot true = none ∧ connOfSlot (setup connWorld) rxSlot true = some (0, rxConn) ∧
    0 < connWorld.net.conns.length ∧ voters connWorld ≠ [] ∧ 1 ∉ (port (ttWorld id) 3).sent ∧
    1 ∈ (port (ttWorld fun x => { x with sent := [1] }) 3).sent ∧ voters splitWorld = [.a, .b] ∧
    (let w (l : LaneId) := wordsOfBytes (ttBody splitWorld txSlot ⟨0, 0, false, 0⟩ none l)
     5 < (w .a).length ∧ 5 < (w .b).length ∧ (w .a).take 5 = (w .b).take 5 ∧ (w .a)[5]? ≠ (w .b)[5]?) := by
  decide +kernel

/-- A frame that arrives on port 3 while port 4 carries it on. -/
def arriving : Arrival := ⟨beFrame 2 64, 0, 1000⟩

/-- FramesForwarded, QueuedFramesStart: a window of the next tide, a port that carried the frame on, a frame to carry on, and a backbone port in and
outside the free region with a message and a frame to send. -/
theorem witness_FramesForwarded_cutThrough :
    (ttNext (beWorld id) 3 true).map (·.2) = [(350000, 370000)] ∧ 350000 ≤ 369999 ∧
    4 ∈ (port (beWorld fun x => { x with cutTo := [4] }) 3).cutTo ∧ 4 ∉ (port (beWorld id) 3).cutTo ∧
    cutsThrough (beWorld id) 4 3 arriving 500 = true ∧ nextWindow (beWorld id) 4 500 = some 1000000 ∧
    500 + (1522 + 8) * 8 * 10 + 96 ≤ 1000000 ∧ nextWindow (beWorld id) 3 100000 = none ∧
    ringFree (ringRun id) 1 20000 = true ∧ ringFree (ringRun id) 1 0 = false ∧ (33 : Port) = bbPort 1 ∧ (port (ringRun id) 33).link = true ∧
    20000 + (64 + 8) * 8 + 400 ≤ (ringRun id).ring.p0 + 250000 ∧ (ringRun id).ring.p0 + 250000 < 249500 + (64 + 8) * 8 + 400 ∧
    freeFrom (ringRun id) + 2000 ≤ 20000 ∧ (ringRun id).tide % 4 = 0 ∧ { ringRun id with tide := 1 }.tide % 4 ≠ 0 ∧
    (ringRun id).ring.syncOut.get 1 ≠ some (ringRun id).tideUp := by
  decide +kernel

/-- An ICMP echo request to 10.0.0.8 of 8 bytes, and its IP header. -/
def echoMsg : List Byte := [8, 0, 0xF7, 0xFF, 0, 0, 0, 0]
def echoHead : List Byte := (ipv4 1 9 8 echoMsg).take 20

/-- TrdpAndAddresses: a push done and due, a frame that is no UDP datagram, a SLOT that does not receive, each instant of a retry, of a report and of
an entry, and an echo request. -/
theorem witness_TrdpAndAddresses_instants :
    (rcWorld rcSlot none).net.pushAt ≠ some (rcWorld rcSlot none).tideUp ∧
    (let s : State := { rcWorld rcSlot none with net := { (rcWorld rcSlot none).net with pushAt := some 0 } }; s.net.pushAt = some s.tideUp) ∧
    udpOf (beFrame 2 64) = none ∧ fcsOk (beFrame 2 64) = true ∧ rcSlot.rx = false ∧ (∀ d ∈ (setup (rcWorld rcSlot none)).slots, ¬d.rx = true) ∧
    (∀ w ∈ (arpWorld [] [⟨.vehicle, 9, 1, 0⟩]).net.arpWait, (rcWorld rcSlot none).up < w.at_ + 1000000000 ∧
      w.at_ + 1000000000 ≤ { rcWorld rcSlot none with up := 1000000000 }.up) ∧
    0 + 60000000000 ≤ { rcWorld rcSlot none with up := 60000000000 }.up ∧
    (∃ e ∈ (rcWorld rcSlot none).net.arp, e.at_ + 300000000000 ≤ { rcWorld rcSlot none with up := 300000000000 }.up) ∧
    parseIpv4 (List.replicate 6 0 ++ List.replicate 6 2 ++ [0x08, 0x00] ++ echoHead ++ echoMsg) = some (1, 9, ownIp (rcWorld rcSlot none) .vehicle, echoMsg) ∧
    ownIp (rcWorld rcSlot none) .vehicle ≠ 0 ∧ beAt echoMsg 0 2 = 0x0800 ∧ inetSum echoMsg = 0 ∧ 8 ≤ echoMsg.length ∧ echoMsg.length ≤ 1480 ∧
    parseIpv4 (List.replicate 6 0 ++ List.replicate 6 2 ++ [0x08, 0x00] ++ [] ++ echoMsg) = none ∧
    (let s : State := { rcWorld rcSlot none with net := { (rcWorld rcSlot none).net with icmp := ⟨#[(0, 100), (0, 0)], rfl⟩ } }
     let c := s.net.icmp.get 0
     100 ≤ (if c.1 = s.up / 1000000000 then c.2 else 0)) := by
  decide +kernel

/-- ModeRequests: a tide already counted and one that is not, a lapse that is due and one that is not, a switch one tide and two after its echo. -/
theorem witness_ModeRequests_instants :
    (let m (e : Option (Nat × Nat)) := (modeWorld fun m => { m with echoAt := e }).net.mode
     (m (some (0, 1))).echoAt = some ((modeWorld id).tideUp, 1) ∧ (∀ e, (m none).echoAt = some e → e.1 ≠ (modeWorld id).tideUp) ∧
     (m (some (0, 64))).echoAt = some (0, 64) ∧ 64 ≤ (0, 64).2 ∧ (∀ e, (m (some (0, 63))).echoAt = some e → e.2 < 64)) ∧
    (modeWorld id).tideUp < 0 + 2 ∧ 0 + 2 ≤ { modeWorld id with tideUp := 2 }.tideUp := by
  refine ⟨⟨rfl, ?_, rfl, ?_, ?_⟩, ?_, ?_⟩
  · intro e h; cases h
  · decide
  · intro e h; cases h; decide
  all_goals decide +kernel

/-- A node whose own addresses differ from those in `demoBeacon`. -/
def otherNode (f : Ring → Ring) : State := { ringNode f with boot := { (ringNode f).boot with uid := 2 } }

/-- BeaconsOnTheRing: a merge that its master may announce, a beacon from this node and from another, a second one in a tide, a higher master beside a
lower, a B-leg copy after and before the A-leg one, the count of a ring that grew, and a tide already missed. -/
theorem witness_BeaconsOnTheRing_copies :
    (let s := timeWorld (fun t => { t with phi := some (-10) }) fun r => { r with st := .master, notice := some 9 }
     s.time.phi = some (-10) ∧ (-10 : Int).natAbs ≤ 10 ∧ s.ring.notice.isSome = true ∧ s.time.slewing = false ∧ s.ring.merge = false ∧
     s.ring.handover = false ∧ s.ring.flips < 16) ∧ (timeWorld id id).time.phi = none ∧
    srcMac (demoBeacon id) = vehicleMac (ringNode id) ∧ srcMac (demoBeacon id) ≠ vehicleMac (otherNode id) ∧
    (otherNode fun r => { r with heardAt := some 0 }).ring.heardAt = some (otherNode id).tideUp ∧
    (otherNode id).ring.muid = (parseBeacon (demoBeacon id)).muid ∧
    followsLower (otherNode fun r => { r with heardAt := some 0, muid := 1 }) (parseBeacon (demoBeacon id)) = true ∧
    followsLower (otherNode id) (parseBeacon (demoBeacon id)) = false ∧ (parseBeacon (demoBeacon id)).guid ≠ (otherNode id).boot.uid ∧
    (otherNode fun r => { r with gotAt := some 0 }).ring.gotAt = some (otherNode id).tideUp ∧ (otherNode id).ring.gotAt ≠ some (otherNode id).tideUp ∧
    1 ≤ (otherNode id).ring.node ∧
    (let s : State := { otherNode (fun r => { r with st := .master, nodes := 0, masterAt := 0 }) with tideUp := 4 }
     s.ring.nodes < (parseBeacon (demoBeacon id)).hop ∧ s.ring.masterAt + 3 < s.tideUp) ∧
    (parseBeacon (demoBeacon fun b => { b with muid := 2 })).muid = (otherNode id).boot.uid ∧
    (otherNode fun r => { r with missAt := some 0 }).ring.missAt = some (otherNode id).tideUp ∧ (otherNode id).ring.backAt ≠ some (otherNode id).tideUp := by
  decide +kernel

/-- A backbone frame that is a Sync, and one that is another PTP message. -/
def ringSync : List Byte := withFcs (qSync.copies.a)
def ringResp : List Byte := withFcs (qResp.copies.a)

/-- The set-up of `ringRun` with an Ashlar connection on the SLOT of node 9. -/
def ringConn : ConnDecl := ⟨true, 4, 9, 2, 0, 1000, 0⟩
def ringAshlar : State :=
  let s := ringWorld { demoSetup with slots := [bbTx, bbRx], conns := [ringConn] } fun r => { r with roster := [⟨9, .active, 3⟩] }
  { s with net := { s.net with conns := [resetAsh] } }

/-- RingFrames: a slot whose good frame has come, one with a connection, a Sync where the port has a peer delay and where it has none, the free region, and
a claim. -/
theorem witness_RingFrames_regions :
    1 ∈ (ringRun fun r => { r with slotGood := [1] }).ring.slotGood ∧ 1 ∉ (ringRun id).ring.slotGood ∧
    connOfSlot (setup ringAshlar) bbRx true = some (0, ringConn) ∧ bbSlotOf (setup ringAshlar) 9 = some bbRx ∧ ((slotFrame 1 true).getD 20 0).getLsbD 4 = true ∧
    voters ringAshlar ≠ [] ∧ bbSlotOf (setup (ringRun id)) 5 = none ∧
    isSync ringSync = true ∧ isSync ringResp = false ∧ etherType ringResp = 0x88F7 ∧ isRingFrame (ringRun id) ringSync = false ∧
    peerDelay (ringRun id) 0 = none ∧
    peerDelay { ringRun id with time := { (ringRun id).time with delays := ⟨#[[300], [], [], []], rfl⟩ } } 0 = some 300 ∧
    6800 + (ringRun id).ring.roster.length * ((ringRun id).ring.bl * 100) ≤ 10800 ∧ beAt (slotFrame 0xFF false) 16 2 = 0xFF ∧
    beAt (slotFrame 0xFE false) 16 2 = 0xFE ∧ beAt (slotFrame 0 false) 16 2 = 0 ∧ srcMac (beFrame 3 64) ≠ vehicleMac (ringRun id) ∧
    (∃ e, egressB (ringRun id) = some e) := by
  decide +kernel

/-- PtpMessages: a backbone port in and outside the free region, a request due and not due, a message in its place and not, a request that is answered
and one that is not, a value in the range and on either side, and the joiner's junction. -/
theorem witness_PtpMessages_instants :
    ringFree (timeWorld id id) 1 20000 = true ∧ ringFree (timeWorld id id) 1 0 = false ∧
    (timeWorld id id).time.pdNext.get 1 ≤ (timeWorld id id).tideUp ∧
    (timeWorld id id).tideUp < (timeWorld (fun t => { t with pdNext := ⟨#[1, 1, 1, 1], rfl⟩ }) id).time.pdNext.get 1 ∧
    (let f := freeFrom (timeWorld id id); (f + 150 ≤ f + 150 ∧ f + 150 ≤ f + 250) ∧ ¬(f + 150 ≤ f + 149 ∧ f + 149 ≤ f + 250)) ∧
    (port (timeWorld id id) 3).guard = .admitted ∧ (port (withPort 3 fun x => { x with guard := .probation }) 3).guard ≠ .admitted ∧
    (timeWorld id id).time.pdSent.get 0 = none ∧
    (let s (q : Int) := timeWorld (fun t => { t with pdSent := ⟨#[some q, none, none, none], rfl⟩ }) id
     (s (-600)).time.pdSent.get 0 = some (-600) ∧ Int.fdiv (tideNs (s (-600)) 0 - (-600) - (ptpMsg 3 dom1Of).corr) 2 = 300 ∧
     300 < Int.fdiv (tideNs (s (-602)) 0 - (-602) - (ptpMsg 3 dom1Of).corr) 2 ∧ Int.fdiv (tideNs (s 1) 0 - 1 - (ptpMsg 3 dom1Of).corr) 2 < 0) ∧
    (let s := timeWorld (fun t => { t with delays := ⟨#[[], [300], [], []], rfl⟩ }) fun r =>
       { r with sideR := .end_, dec := some ⟨.r, false, 0, 8, some 0⟩, notice := some 8 }
     junctionPort s 1 = true ∧ peerDelay s 1 = some 300 ∧ s.ring.dec = some ⟨.r, false, 0, 8, some 0⟩ ∧ sideOfPort 1 = .r ∧ s.ring.notice.isSome = true) ∧
    (timeWorld id fun r => { r with st := .master }).tide % 8 = 0 := by
  decide +kernel

/-- An island in NEAP that watches with the thresholds of its set-up. -/
def watching : ChanSt → ChanSt := fun x => { x with wcfg := some ⟨156, 96, 3⟩ }

/-- Channel 6 a counter whose comparator has been ON since the block's time began. -/
def counting (now : Nat) : State := { chanWorld .counter 3 (fun x => { x with comp := true }) with up := now }

/-- InputsAndIslands: a watching island, an acceptance before, between and at the limits of its filter, and islands that are awake, silent and not. -/
theorem witness_InputsAndIslands_filters :
    ((chanWorld .wake 3 watching).chans.get 6).wcfg = some ⟨156, 96, 3⟩ ∧ ((chanWorld .wake 3 id).chans.get 6).wcfg = none ∧
    (let x := ((counting 0).chans.get 6)
     x.comp ≠ x.acc ∧ ¬(x.compAt + max 10000 (3 * 10000) ≤ (counting 29999).up) ∧ x.compAt + max 10000 (3 * 10000) ≤ (counting 30000).up ∧
     ¬(x.compAt + max 20000 (3 * 10000 + 10000) ≤ (counting 39999).up) ∧ x.compAt + max 20000 (3 * 10000 + 10000) ≤ (counting 40000).up) ∧
    ((chanWorld .input 0 fun x => { x with compAt := 0 }).chans.get 6).compAt + min ((policy demo).wetTime * 10) ((160 + 4 - 1) / 4) * 100000 ≤
      { chanWorld .input 0 id with up := 100000000 }.up ∧
    awake (chanWorld .input 0 id) = true ∧ awake State.reset = false ∧
    ((chanWorld .input 0 fun x => { x with failDark := 1, failLight := 1 }).chans.get 6).failDark < 2 := by
  decide +kernel

/-- Channel 5 driven on with no voltage at its read-back, and what else is given. -/
def faulty (f : ChanSt → ChanSt) (now : Nat) : State :=
  { chanWorld .input 0 (fun x => f { x with drv := true, drvAcc := true, en := true, closed := true, sv := 24000, volt := 24000, starting := false }) with up := now }

/-- ChannelFaultsAndTests: what each cause asks for, a difference that has stood for more than 500 µs and not, both ends of a localisation, a tacho pair,
the instant of a test before, at and after it, and both ends of a pulse. -/
theorem witness_ChannelFaultsAndTests_instants :
    (let x := (faulty (fun x => { x with volt := 0 }) 500001).chans.get 5
     decide (x.sv < 2 * x.volt) ≠ islandDrive x ∧ x.test = .idle ∧ x.rbAt + 500000 < 500001 ∧ ¬(x.rbAt + 500000 < 500000) ∧
     x.supply ≠ .dead ∧ x.asleep = false) ∧
    (let x := (faulty id 0).chans.get 5
     ¬(decide (x.sv < 2 * x.volt) ≠ islandDrive x)) ∧
    ((faulty (fun x => { x with comp := true }) 0).chans.get 6).comp = true ∧ (∃ k, chanKind (faulty id 0) 6 = some k ∧ k ≠ .output) ∧
    ((faulty (fun x => { x with latched := true, supply := .low, inSafe := true }) 0).chans.get 5).inSafe = true ∧
    ((faulty (fun x => { x with stale := true }) 0).chans.get 5).stale = true ∧ ((faulty id 0).chans.get 5).stale = false ∧
    ((faulty id 0).chans.get 5).fbit = false ∧ ((faulty id 0).chans.get 5).silent = false ∧ ((24000 : Nat) < 2 * 24000) ∧ ¬((24000 : Nat) < 2 * 12000) ∧
    tachoPair (faulty id 0) = none ∧
    (let x := (faulty (fun x => { x with locating := true, pulseAt := 0 }) 0).chans.get 5
     x.locating = true ∧ ¬(x.pulseAt + 20000 ≤ 19999) ∧ x.pulseAt + 20000 ≤ 20000 ∧ ((faulty id 0).chans.get 5).locating = false) ∧
    (let s (ns : BitVec 30) : State := { faulty id 0 with time := { (faulty id 0).time with clock := { (faulty id 0).time.clock with ns := ns } } }
     let per := outChan.testper * 10000000
     let at_ (ns : BitVec 30) := trainNs (s ns) + per - ((5 : Chan).val * 1000000 + 100000) % per
     at_ 5100000 % per < 1000 ∧ at_ 5100999 % per < 1000 ∧ ¬(at_ 5101000 % per < 1000) ∧ ¬(at_ 5099999 % per < 1000) ∧
     ((s 5100000).chans.get 5).testAt ≠ some (at_ 5100000 / per) ∧ ((s 5100000).chans.get 5).drv = true ∧ awake (s 5100000) = true ∧
     ((s 5100000).chans.get 5).test = .idle) ∧
    (let x := (faulty (fun x => { x with test := .dark, pulseAt := 0 }) 0).chans.get 5
     x.test = .dark ∧ 18999 + 1000 < x.pulseAt + 20000 ∧ x.pulseAt + 20000 ≤ 19000 + 1000) := by
  decide +kernel

/-- OutboundAccesses: a head that is late and one that is not, a grant that an arbiter gives and one that it does not, each limit of a transaction, and an
orphan on the bus. -/
theorem witness_OutboundAccesses_instants :
    (busWait .load).br.headAt + 64000 ≤ { busWait .load with up := 64000 }.up ∧ ¬((busWait .load).br.headAt + 64000 ≤ (busWait .load).up) ∧
    granted (busWait .load) = true ∧ granted (bus [] none 2) = false ∧ (bus [] none 2).br.grant ≠ some 3 ∧
    granted (target fun b => { b with grant := some 3 }) = true ∧
    (tx .queue .issued 0 true).since + 64000 ≤ { busWait .load with up := 64000 }.up ∧
    (tx .queue .retried 0 false).ended + 80 ≤ { busWait .load with up := 80 }.up ∧ ¬((tx .queue .retried 0 false).ended + 80 ≤ { busWait .load with up := 79 }.up) ∧
    (∃ e ∈ (bus [⟨7, .core .a 0 false, .load, 0x100, 2, true⟩] (some (tx .queue .issued 0 true)) 1).br.queue, e.orphan = true) ∧
    (tx (.mover 0) .issued 0 false).src ≠ .queue := by
  decide +kernel

/-- InboundAndRackSignals: address lines whose parity holds and not and of another command, a lock and answered data before and at their limits, a parked
and an unused grant, lines sampled low and high, a busy mover, and a bus held in reset. -/
theorem witness_InboundAndRackSignals_instants :
    (true = evenPar 0x2000FFFC 6) ≠ (false = evenPar 0x2000FFFC 6) ∧ evenPar 0x20000000 7 = false ∧ ((2 : BitVec 4) ≠ 6 ∧ (2 : BitVec 4) ≠ 7) ∧
    (target fun b => { b with locki := some 0, lockAt := 0 }).br.lockAt + 16000 < 16001 ∧
    16000 ≤ (target fun b => { b with locki := some 0, lockAt := 0 }).br.lockAt + 16000 ∧
    (∀ x ∈ (target fun b => { b with inData := some ⟨0x20000000, [5], 0⟩ }).br.inData, 63999 < x.at_ + 64000 ∧ x.at_ + 64000 ≤ 64000) ∧
    (target fun b => { b with grant := some 4, parked := true }).br.parked = true ∧ (target fun b => { b with grant := some 4 }).br.parked = false ∧
    (target id).br.idleAt + 640 ≤ { target id with up := 640 }.up ∧ ¬((target id).br.idleAt + 640 ≤ { target id with up := 639 }.up) ∧
    (let s := moving 0x80000050 0x40 0x3C 0xFFFFFFFF 0 none
     onBus s = true ∧ (s.br.movers.get 0).busy = true ∧ (∀ m, m ≠ 0 → (s.br.movers.get m).busy = false) ∧
     (s.br.movers.get 0).desc.toNat + 32 ≤ 0x7FFF00 ∧ s.br.out = none) ∧
    (target id).pw.straps.cbrole = 2 ∧ (target id).up < (target id).br.bootAt + 100000000 ∧
    ¬({ target id with up := 100000000 }.up < (target id).br.bootAt + 100000000) ∧
    (∀ k : Fin 32, k ≠ 5 → (0x20 : Word).getLsbD k.val = false) ∧ (0x20 : Word).getLsbD 5 = true ∧ ownRequest (target id) = false ∧
    (target id).br.lastGrant + Fin.ofNat 32 5 = 5 := by
  decide +kernel

/-- A module that is awake with its boot state as delivered. -/
def delivered : State := { State.reset with pw := { demo.pw with straps := { openStraps with ftestN := true, bootsel := 0 } } }

/-- BootAndTrial: the module as delivered, and fuses whose burning a session waits for. -/
theorem witness_BootAndTrial_delivered :
    awake delivered = true ∧ delivered.boot.booted = false ∧ delivered.boot.romSvc = false ∧ delivered.pw.straps.ftestN = true ∧
    delivered.boot.bankA = State.reset.boot.bankA ∧ delivered.boot.bankB = State.reset.boot.bankB ∧ delivered.boot.copy0 = State.reset.boot.copy0 ∧
    delivered.boot.copy1 = State.reset.boot.copy1 ∧ delivered.boot.vkeys = State.reset.boot.vkeys ∧ delivered.boot.rb = 0 ∧ delivered.ctl.state = .cold ∧
    (let s : State := { demo with svc := { demo.svc with confirmBy := some (1, bareEnv) } }; s.svc.confirmBy = some (1, bareEnv)) := by
  refine ⟨?_, ?_, ?_, ?_, rfl, rfl, rfl, rfl, rfl, rfl, rfl, rfl⟩ <;> decide +kernel

/-- ScrubberAndRegisterWrites: sleeping flash and register domains, a priority that may change and each that may not. -/
theorem witness_ScrubberAndRegisterWrites_domains :
    SlackDom.flash ∉ worn.pw.asleep ∧ SlackDom.flash ∈ (powered fun p => { p with asleep := [.flash, .regs 4, .regs 6] }).pw.asleep ∧
    SlackDom.regs 6 ∈ (powered fun p => { p with asleep := [.flash, .regs 4, .regs 6] }).pw.asleep ∧ (0 : Fin 14).val ≠ 13 ∧ (0 : Fin 14).val ≠ 4 ∧
    (13 : Fin 14).val = 13 ∧ (4 : Fin 14).val = 4 ∧ (pair demo .b 7).active = none ∧ (pair demo .b 7).split = false := by
  decide +kernel

/-- NeapEntryAndWake: a wake channel that has accepted ON and one that has not, and energy before and after the first second of NEAP. -/
theorem witness_NeapEntryAndWake_sources :
    (let s (a : Bool) (now : Nat) : State := { chanWorld .wake 3 (fun x => { x with wcfg := some ⟨156, 96, 3⟩, acc := a }) with
        up := now, pw := { demo.pw with state := .neap, neapAt := 0 } }
     ((s true 0).chans.get 6).wcfg.isSome = true ∧ ((s true 0).chans.get 6).acc = true ∧ ((s false 0).chans.get 6).acc = false ∧
     (s true 0).pw.neapAt + 1000000000 ≤ (s true 1000000000).up ∧ (s true 999999999).up < (s true 0).pw.neapAt + 1000000000 ∧ (s true 0).pw.state = .neap) ∧
    (refusers { sleepy id id with pw := { (sleepy id id).pw with lastTry := (sleepy id id).up } } { quiet with wakeN := true }).getLast? = some (2, 0x21) := by
  decide +kernel

/-- PanelAndDerating: a dwell that has passed and one that has not. -/
theorem witness_PanelAndDerating_dwell :
    let s (now : Nat) : State := { modPort (ringRun id) (bbPort 0) (fun x => { x with link := false, roleAt := 0, dwell := 16 }) with up := now }
    ringRuns (s 0) = true ∧ (port (s 0) (bbPort 0)).link = false ∧
      (port (s 0) (bbPort 0)).roleAt + (port (s 0) (bbPort 0)).dwell * 1000000 ≤ (s 16000000).up ∧
      (s 15999999).up < (port (s 0) (bbPort 0)).roleAt + (port (s 0) (bbPort 0)).dwell * 1000000 := by
  decide +kernel

/-- CairnKeepsRecords: a full area, an event of more than one record, with room for all of them and for one alone. -/
theorem witness_CairnKeepsRecords_records :
    4352 ≤ (recWorld fun r => { r with circ := List.replicate 4352 none }).rc.circ.length ∧ demo.rc.circ.length < 4352 ∧
    max 1 (((List.replicate 9 (0 : Byte)).length + 7) / 8) = 2 ∧
    (recWorld fun r => { r with fbuf := List.replicate 14 (aRec 1) }).rc.fbuf.length + 2 ≤ 16 ∧
    16 < (recWorld fun r => { r with fbuf := List.replicate 15 (aRec 1) }).rc.fbuf.length + 2 := by
  decide +kernel

/-- SessionCommandsAreGuarded: a request whose IP header does not check, one whose TAG is not right, one on a vehicle port, and the relay on MNT and the
backbone. -/
theorem witness_SessionCommandsAreGuarded_requests :
    ipTaken demo { bareEnv with net := { bareHead with hdr := [] } } = false ∧ ({ bareEnv with tag := zeroTag } : Env).tag = zeroTag ∧
    ({ bareEnv with iface := .vehicle } : Env).iface = .vehicle ∧ ({ bareEnv with target := 5 } : Env).target ≠ demo.boot.uid ∧ wellFormed bareEnv = true ∧
    wellFormed { bareEnv with target := 5, iface := .backbone } = true ∧ serving demo = true ∧ serving State.reset = false := by
  decide +kernel

/-- CalibrationAndRelay: a node without an outward egress, and one with it. -/
theorem witness_CalibrationAndRelay_egress :
    outEgress demo = none ∧ outEgress (ringRun id) = some 1 ∧ serving (ringRun id) = true := by
  decide +kernel

/-- IdleBlockTicks: a block that is awake, one in NEAP, one whose time clock stands, and one in OFF. -/
theorem witness_IdleBlockTicks_states :
    awake demo = true ∧
    (let s := powered fun p => { p with state := .neap }; awake s = false ∧ s.pw.state ≠ .off ∧ s.pending = []) ∧
    (let s := powered fun p => { p with pllLost := [.keystone] }; awake s = false ∧ s.pw.state ≠ .off ∧ s.pending = []) ∧
    State.reset.pw.state = .off ∧ State.reset.pending = [] := by
  decide +kernel

/-! Ill-formed commands, one for each check of WellFormed. -/

theorem test_env_body_too_long : (Instr.stop { envOf 0x40 with body := List.replicate 1409 0 }).wellFormed = false := by decide +kernel
theorem test_env_tag_short : (Instr.status { bareEnv with tag := List.replicate 31 0 }).wellFormed = false := by decide +kernel
theorem test_nonce_short : (Instr.hello { bareEnv with tag := List.replicate 32 0 } .view []).wellFormed = false := by decide +kernel
theorem test_proof_short : (Instr.login { bareEnv with tag := List.replicate 32 0 } .view someNonce []).wellFormed = false := by decide +kernel
theorem test_mac_long : (Instr.arpReply .vehicle 9 (List.replicate 7 0)).wellFormed = false := by decide +kernel
theorem test_frame_too_long : (Instr.mergeNotice (List.replicate 1523 0)).wellFormed = false := by decide +kernel
theorem test_corrected_bits : (Instr.scrubRead .f1 0 (.soft 0) 9).wellFormed = false ∧ (Instr.scrubRead .quay 0 (.soft 0) 1).wellFormed = false ∧
    (Instr.scrubRead .f2 0 (.hard 0) 8).wellFormed = true := by decide +kernel
theorem test_slot_zero : (Instr.slotLost 0).wellFormed = false ∧ (Instr.slotFree 64).wellFormed = false := by decide +kernel
theorem test_event_code : (Instr.headlandEventBuffer 0x0D00 []).wellFormed = false := by decide +kernel
theorem test_window_number : (Instr.ttWindowTx 3 16 ⟨.none, .none, .none⟩ true).wellFormed = false := by decide +kernel
theorem test_backbone_interface : (Instr.backboneServiceRequest { bareEnv with tag := List.replicate 32 0 } .status).wellFormed = false := by decide +kernel
theorem test_assigned_opcode : (Instr.unassignedOpcode ctx 2).wellFormed = false := by decide +kernel
theorem test_timed_opcode_no_setup : (Instr.setupClassInstruction ctx 0).wellFormed = false := by decide +kernel
theorem test_wellFormed : (Instr.hello { bareEnv with tag := List.replicate 32 0 } .view someNonce).wellFormed = true ∧ (Instr.slotLost 63).wellFormed = true ∧
    (Instr.ttWindowTx 3 15 ⟨.none, .none, .none⟩ true).wellFormed = true := by decide +kernel

/-! Worked examples of the spec. -/

/-- 02_programming_model.md, a door-release interlock: steps 3 and 5, and the same with the forced local speed. -/
theorem test_max_interlock : rdW (bankAfter (exec (.max ctx (fa 5 1 2)) (coded 0x1EA24000 fun b => wrW (wrW b 1 120 0x92) 2 95 0x90))) 5 = ⟨120, 0x92⟩ := by decide
theorem test_max_interlock_forced : rdW (bankAfter (exec (.max ctx (fa 5 1 2)) (coded 0x1EA24000 fun b => wrW (wrW b 1 120 0x92) 2 95 0xC0))) 5 = ⟨120, 0xC2⟩ := by decide

/-- 04_instruction_semantics.md, tides 3 and 4: the late value is taken, and the substitute with SUBST set in its tag. -/
theorem test_subst_valid : rdW (bankAfter (exec (.subst ctx (fa 5 3 4)) (coded 0xC4A68000 fun b => wrW (wrW b 3 12 0x82) 4 450 0x90))) 5 = ⟨12, 0x82⟩ := by decide
theorem test_subst_replaces : rdW (bankAfter (exec (.subst ctx (fa 5 3 4)) (coded 0xC4A68000 fun b => wrW (wrW b 3 12 0x03) 4 450 0x90))) 5 = ⟨450, 0xB0⟩ := by decide

/-- 03_instruction_encoding_and_timing.md, the worst path of a door-summary task, its code moved to address 0: 102 cycles with the bank switch.
The table's word 0x3C80_0400 at 0x4030 loads 0x0400 where its note wants 0x8400 (0x3C80_8400), which the test takes. -/
def doorCode : List Word :=
  [0x3C400200, 0x3E440001, 0x3C200000, 0xAA000008, 0x8A240000, 0xA2200002, 0x04220001, 0x04440004, 0xAC000000, 0x42420000, 0xA4400002, 0xA6000035,
   0x3C808400, 0x3E880001, 0x98280000, 0x96480008, 0x98E80010, 0xB0000000] ++ List.replicate 46 0 ++ [0x80A08000, 0x80C08004, 0x14EAC000, 0xA8000000]

def doorEnv : PathEnv :=
  { code := doorCode, kLo := 0x8000, kHi := 0x10000, pi := (0x10200, 0x10240), pq := (0x18400, 0x18440), ret := (0, 0), work := (0, 0),
    bodies := findBodies 70 doorCode 0, tables := [] }

theorem test_worst_path_of_door_summary :
    (match walk doorEnv 1500 ⟨none, [0], 0⟩ [(0, ⟨0, Vector.replicate 16 ⟨ivConst 0, ivConst 0⟩⟩)] emptyOut with
      | .ok o => (o.done.map (4 + ·), o.longest)
      | .error c => (none, c.toNat)) = (some 102, 18) := by decide +kernel

/-- 01_module_architecture.md, the sequence rule of R49 on a 16-bit count. -/
theorem test_sequence_rule : later (0x0003 : BitVec 16) 0xFFFE = true ∧ later (0x7FFE : BitVec 16) 0xFFFE = false := by decide

/-- 14_corbel_bridge.md, writing a message buffer: the first piece takes 10 bytes in 3 beats, the first with offsets 2 and 3. -/
theorem test_first_piece_of_message_buffer :
    let d := descAt (moving 0x80000096 0x40000 0x05000036 0xFFFFFFFF 0 none) 0
    d.own = true ∧ d.bad = false ∧ d.dir = 0 ∧ d.len = 150 ∧ pieceLen d 0 = 10 ∧ pieceLen d 10 = 64 ∧ pieceLen d 74 = 64 ∧ pieceLen d 138 = 12 ∧
    ((pieceBeats false 0x05000036 (List.replicate 10 0)).map (·.2)) = [0b0011, 0b1111, 0b1111] := by decide +kernel

/-- 15_fabric_arbitration_and_memory.md, a contest on vehicle 4 in cycle 20: DM5, whose WAIT is 8, wins over lane B with PRI 12 and WAIT 7, and over DM2. -/
theorem test_contest_on_vehicle_4 :
    (match exec (.arbiterContest false 1154) { demo with fab := { demo.fab with quayArb := { demo.fab.quayArb with
        pri := (demo.fab.quayArb.pri.set 1 12).set 7 2, wait := (demo.fab.quayArb.wait.set 1 7).set 10 8, last := 4 } } } with
      | .next t => (t.fab.quayArb.holder.map (·.val), (t.fab.quayArb.wait.get 1).val, (t.fab.quayArb.wait.get 10).val, (t.fab.quayArb.wait.get 7).val)
      | _ => (none, 0, 0, 0)) = (some 10, 8, 0, 1) := by decide +kernel

/-- 20_connectors_straps_ratings.md, strapping vehicle 4. -/
theorem test_pm_strap_of_vehicle_4 :
    strapWord { slot := 3, vtype := 2, lmode := 0, cbrole := 2, bootsel := 0, feedcfg := 0, outdef := false, ftestN := true } false false = 0x19102000 := by decide

/-- 19_event_recorder.md: event 0x0801 takes 10 bytes, which is one record and one continuation record. -/
theorem test_event_of_ten_bytes : (record demo 0x0801 (d4 0 ++ d1 0 ++ d1 0 ++ d1 0 ++ d1 0 ++ d2 0)).rc.staging.length = 2 := by decide +kernel

/-- The tag example of R54 with a wrap. -/
theorem test_add_wraps : rdW (bankAfter (exec (.add ctx (fa 3 1 2)) (coded 0x02624000 fun b => wrW (wrW b 1 0xFFFFFFFF 0x92) 2 2 0xC0))) 3 = ⟨1, 0xC2⟩ := by decide

/-! Single steps whose result follows from one rule. -/

theorem test_sub_borrows : (rdW (bankAfter (exec (.sub ctx (fa 3 1 2)) (coded 0x06624000 fun b => wrW (wrW b 1 0 0x90) 2 1 0x90))) 3).v = 0xFFFFFFFF := by decide
theorem test_adds_saturates : (rdW (bankAfter (exec (.adds ctx (fa 3 1 2)) (coded 0x0A624000 fun b => wrW (wrW b 1 0x7FFFFFFF 0x90) 2 1 0x90))) 3).v = 0x7FFFFFFF := by decide
theorem test_div_truncates : (rdW (bankAfter (exec (.div ctx (fa 3 1 2)) (coded 0x14624000 fun b => wrW (wrW b 1 0xFFFFFFF9 0x90) 2 2 0x90))) 3).v = 0xFFFFFFFD := by decide
theorem test_write_to_w0 : (rdW (bankAfter (exec (.add ctx (fa 0 1 2)) (coded 0x02024000 fun b => wrW (wrW b 1 5 0x92) 2 6 0xC0))) 0).v = 0 := by decide
theorem test_fadd_ties_to_even : (fAdd 0x4B800000 0x3F800000).1 = 0x4B800000 := by decide +kernel

/-- R516: 4 corrected bits in a sector of block 3 of F1 begin its rewrite; the scrubber's next read of flash ends it with event 0x0905, which
names device 1, block 3 and 4 bits. -/
theorem test_flash_block_rewritten :
    (match exec (.scrubRead .f1 0x60200 (.soft 0) 4) demo with
      | .next t => (t.boot.refresh, match exec (.scrubRead .f2 0 .none 0) t with
        | .next u => (u.boot.refresh, u.rc.staging.map fun r => (r.code, r.data))
        | _ => (none, []))
      | _ => (none, none, [])) = (some ⟨.a, 3, 4⟩, none, [(0x0905, 0x04000301)]) := by decide +kernel

/-- R516, R607, R612: an uncorrectable sector of the circulating area is skipped from then on. -/
theorem test_cairn_sector_lost :
    (match exec (.scrubRead .f1 0x6020200 .bad 0) { demo with rc := { demo.rc with circ := [some [aRec 1], some [aRec 2], some [aRec 3]] } } with
      | .next t => (t.rc.circ.map Option.isSome, (bankOf t .a).bad)
      | _ => ([], [])) = ([true, false, true], [0x30101]) := by decide +kernel

end Sys2Proof.Tests
end

section
/-! PROOF. What the shared operations of a boot leave of the trust state: the journal, the banks, the drives of the channels and a module
reset (18_boot_update_and_trust.md). -/

namespace Sys2Proof.Machine

/-! The journal (R595). -/

/-- A GEN counted up by one is the later of the two (R49). -/
@[simp] theorem later_succ (g : Word) : later (g + 1#32) g = true := by
  have h : g + 1#32 - g = 1#32 := by bv_omega
  rw [later, h]
  decide

@[simp] theorem not_later_succ (g : Word) : later g (g + 1#32) = false := by
  have h : g - (g + 1#32) = -1#32 := by bv_omega
  rw [later, h]
  decide

theorem writeJournal_copies (s : State) (f : Journal → Journal) :
    ∃ a b, writeJournal s f = { s with boot := { s.boot with copy0 := a, copy1 := b } } := by
  simp only [writeJournal]
  split <;> split <;> exact ⟨_, _, rfl⟩

/-- The record just written is the one in force. -/
@[simp] theorem journalOf_writeJournal (s : State) (f : Journal → Journal) :
    journalOf (writeJournal s f) = { f (journalOf s) with gen := (journalOf s).gen + 1 } := by
  rcases h0 : s.boot.copy0 with _ | a <;> rcases h1 : s.boot.copy1 with _ | b
  · simp [journalOf, writeJournal, h0, h1]
  · simp [journalOf, writeJournal, h0, h1]
  · simp [journalOf, writeJournal, h0, h1]
  · by_cases h : later b.gen a.gen = true
    · simp [journalOf, writeJournal, h0, h1, h]
    · simp [journalOf, writeJournal, h0, h1, h]

/-- The journal in force depends on its two copies alone. -/
theorem journalOf_congr {s t : State} (h0 : t.boot.copy0 = s.boot.copy0) (h1 : t.boot.copy1 = s.boot.copy1) :
    journalOf t = journalOf s := by simp only [journalOf, h0, h1]

@[simp] theorem journalOf_record (s : State) (c : BitVec 16) (d : List Byte) : journalOf (record s c d) = journalOf s :=
  journalOf_congr (by simp) (by simp)

@[simp] theorem journalOf_modBank (s : State) (b : BankId) (f : BankSt → BankSt) : journalOf (modBank s b f) = journalOf s := by
  cases b <;> rfl

/-- The journal after a revert (R597). -/
@[simp] theorem journalOf_revertJournal (s : State) (reason : Byte) : journalOf (revertJournal s reason) =
    { journalOf s with state := .reverted, step := .none, attempt := 0, reason := reason, gen := (journalOf s).gen + 1 } := by
  simp [revertJournal]

theorem bankOf_congr {s t : State} (hA : t.boot.bankA = s.boot.bankA) (hB : t.boot.bankB = s.boot.bankB) (b : BankId) :
    bankOf t b = bankOf s b := by cases b <;> assumption

@[simp] theorem bankOf_record (s : State) (c : BitVec 16) (d : List Byte) (b : BankId) : bankOf (record s c d) b = bankOf s b :=
  bankOf_congr (by simp) (by simp) b

@[simp] theorem otherBank_ne (b : BankId) : otherBank b ≠ b := by cases b <;> decide

/-! The drives of the channels: what the Parapet sends and the islands do changes channels and records alone. -/

/-- `t` differs from `s` in channels and in the recorder alone. -/
def ChansOnly (s t : State) : Prop := ∃ c r, t = { s with chans := c, rc := r }

theorem ChansOnly.refl (s : State) : ChansOnly s s := ⟨_, _, rfl⟩

theorem ChansOnly.trans {s t u : State} (h : ChansOnly s t) (g : ChansOnly t u) : ChansOnly s u := by
  obtain ⟨_, _, rfl⟩ := h
  obtain ⟨_, _, rfl⟩ := g
  exact ⟨_, _, rfl⟩

theorem ChansOnly.modChan {s t : State} (h : ChansOnly s t) (c : Chan) (f : ChanSt → ChanSt) : ChansOnly s (modChan t c f) :=
  h.trans ⟨_, _, rfl⟩

theorem ChansOnly.record {s t : State} (h : ChansOnly s t) (c : BitVec 16) (d : List Byte) : ChansOnly s (record t c d) := by
  obtain ⟨r, hr⟩ := record_only t c d
  exact h.trans ⟨_, r, hr⟩

theorem ChansOnly.boot {s t : State} (h : ChansOnly s t) : t.boot = s.boot := by obtain ⟨_, _, rfl⟩ := h; rfl
theorem ChansOnly.ctl {s t : State} (h : ChansOnly s t) : t.ctl = s.ctl := by obtain ⟨_, _, rfl⟩ := h; rfl

theorem releaseTrip_chansOnly (s : State) (c : Chan) : ChansOnly s (releaseTrip s c) := by
  simp only [releaseTrip, dropCause, settleBit]
  split
  · split
    · exact ((((ChansOnly.refl s).modChan _ _).modChan _ _).modChan _ _).record _ _
    · exact ((ChansOnly.refl s).modChan _ _).modChan _ _
  · exact .refl s

theorem demand_chansOnly (s : State) (c : Chan) : ChansOnly s (demand s c) := by
  simp only [demand]
  split
  · exact .refl s
  · exact (ChansOnly.refl s).modChan _ _
  · split
    · exact (((ChansOnly.refl s).modChan _ _).modChan _ _).record _ _
    · exact (ChansOnly.refl s).modChan _ _

theorem takeDrive_chansOnly (s : State) (c : Chan) : ChansOnly s (takeDrive s c) := by
  simp only [takeDrive, modIsland]
  split
  · split
    · exact (ChansOnly.refl s).modChan _ _
    · exact ((ChansOnly.refl s).modChan _ _).trans (releaseTrip_chansOnly _ c)
  · exact .refl s

theorem refreshDrive_chansOnly (s : State) (c : Chan) : ChansOnly s (refreshDrive s c) := by
  simp only [refreshDrive, settleSwitch]
  refine ChansOnly.modChan (ChansOnly.trans (ChansOnly.modChan ?_ _ _) (takeDrive_chansOnly _ c)) _ _
  split
  · exact .refl s
  · exact demand_chansOnly s c

theorem refreshDrives_chansOnly (s : State) : ChansOnly s (refreshDrives s) :=
  forAll_keeps (ChansOnly s) _ s _ (.refl s) fun t c _ h => h.trans (refreshDrive_chansOnly t c)

@[simp] theorem refreshDrives_boot (s : State) : (refreshDrives s).boot = s.boot := (refreshDrives_chansOnly s).boot
@[simp] theorem refreshDrives_ctl (s : State) : (refreshDrives s).ctl = s.ctl := (refreshDrives_chansOnly s).ctl

/-! A module reset: sessions close, which ends their load sequences, and then the boot state is that of `bootAfter`. -/

@[simp] theorem breakLock_boot (s : State) (i : Fin 32) : (breakLock s i).boot = s.boot := by
  simp only [breakLock, forcedRelease]
  split <;> simp

@[simp] theorem breakAll_boot (s : State) : (breakAll s).boot = s.boot :=
  forAll_keeps (fun t => t.boot = s.boot) _ s _ rfl fun t i _ h => by rw [breakLock_boot, h]

/-- A session that closes leaves of the boot state everything but the load sequence that it had open (R569). -/
theorem closeSession_boot (s : State) (id : Word) (cause : Nat) : ∃ q, (closeSession s id cause).boot = { s.boot with seq := q } := by
  have hseq : ∃ q, (abandonSeq s id cause).boot = { s.boot with seq := q } := by
    simp only [abandonSeq]
    split
    · exact ⟨_, rfl⟩
    · split
      · split <;> exact ⟨none, by simp⟩
      · exact ⟨_, rfl⟩
  have hcal : ∀ t : State, (discardCal t id cause).boot = t.boot := by
    intro t
    simp only [discardCal]
    split
    · rfl
    · split <;> simp
  simp only [closeSession]
  split
  · exact ⟨_, rfl⟩
  · simpa [hcal] using hseq

/-- The boot state after a module reset with power. -/
theorem moduleReset_boot (s : State) : (moduleReset s false).boot = bootAfter false s.boot := by
  have hclose : ∃ q, (forAll ((breakAll s).svc.sessions.map (·.id)) (breakAll s) fun s id => closeSession s id 4).boot =
      { s.boot with seq := q } := by
    refine forAll_keeps (fun t => ∃ q, t.boot = { s.boot with seq := q }) _ _ _ ⟨s.boot.seq, by simp⟩ ?_
    rintro t id - ⟨q, hq⟩
    obtain ⟨q', hq'⟩ := closeSession_boot t id 4
    exact ⟨q', by rw [hq', hq]⟩
  obtain ⟨q, hq⟩ := hclose
  simp only [moduleReset, Bool.false_eq_true, if_false, hq]
  rfl

@[simp] theorem resetModule_boot (s : State) : (resetModule s).boot = bootAfter false s.boot := by
  simp [resetModule, startDomains, modPower, moduleReset_boot]

/-- A module reset leaves the controller in COLD (R200). -/
@[simp] theorem resetModule_ctl_state (s : State) : (resetModule s).ctl.state = .cold := by
  simp [resetModule, startDomains, modPower, moduleReset, ctlAfter, resetCtl]

@[simp] theorem journalOf_resetModule (s : State) : journalOf (resetModule s) = journalOf s :=
  journalOf_congr (by simp [bootAfter]) (by simp [bootAfter])

@[simp] theorem bankOf_resetModule (s : State) (b : BankId) : bankOf (resetModule s) b = bankOf s b :=
  bankOf_congr (by simp [bootAfter]) (by simp [bootAfter]) b

end Sys2Proof.Machine
end

section
/-! PROOF. The boot ROM: its checks, how it picks a bank, and what the command then answers (R580, R588 to R590, R597). -/

namespace Sys2Proof.Machine

/-! What the ROM writes while it picks a bank. -/

/-- `t` differs from `s` in what the ROM writes as it picks a bank alone: the journal, the count of failed checks and the recorder. -/
def RomWrote (s t : State) : Prop :=
  ∃ c0 c1 k r, t = { s with boot := { s.boot with copy0 := c0, copy1 := c1, chkFail := k }, rc := r }

theorem RomWrote.refl (s : State) : RomWrote s s := ⟨_, _, _, _, rfl⟩

theorem RomWrote.trans {s t u : State} (h : RomWrote s t) (g : RomWrote t u) : RomWrote s u := by
  obtain ⟨_, _, _, _, rfl⟩ := h
  obtain ⟨_, _, _, _, rfl⟩ := g
  exact ⟨_, _, _, _, rfl⟩

theorem RomWrote.record {s t : State} (h : RomWrote s t) (c : BitVec 16) (d : List Byte) : RomWrote s (record t c d) := by
  obtain ⟨r, hr⟩ := record_only t c d
  exact h.trans ⟨_, _, _, r, hr⟩

theorem RomWrote.writeJournal {s t : State} (h : RomWrote s t) (f : Journal → Journal) : RomWrote s (writeJournal t f) := by
  obtain ⟨a, b, hw⟩ := writeJournal_copies t f
  exact h.trans ⟨a, b, _, _, hw⟩

theorem RomWrote.revertJournal {s t : State} (h : RomWrote s t) (reason : Byte) : RomWrote s (revertJournal t reason) :=
  (h.writeJournal _).record _ _

theorem RomWrote.imageFailed {s t : State} (h : RomWrote s t) (b : BankId) (app : Bool) (reason : Byte) :
    RomWrote s (imageFailed t b app reason) :=
  RomWrote.record (h.trans ⟨_, _, _, _, rfl⟩) _ _

theorem RomWrote.tryFirmware {s t : State} (h : RomWrote s t) (b : BankId) : RomWrote s (tryFirmware t b).1 := by
  simp only [Machine.tryFirmware]
  split
  · exact h
  · exact h.imageFailed _ _ _

theorem RomWrote.tryApp {s t : State} (h : RomWrote s t) (b : BankId) (second : Bool) : RomWrote s (tryApp t b second).1 := by
  simp only [Machine.tryApp]
  split
  · exact h
  · exact h.imageFailed _ _ _

/-- The checks of R580 read banks, key slots and fuses alone. -/
theorem bootCheck_congr {s t : State} (hA : t.boot.bankA = s.boot.bankA) (hB : t.boot.bankB = s.boot.bankB)
    (hv : t.boot.vkeys = s.boot.vkeys) (ho : t.boot.okeys = s.boot.okeys) (hr : t.boot.rb = s.boot.rb) (b : BankId) (app second : Bool) :
    bootCheck t b app second = bootCheck s b app second := by
  have hslot : keySlot t = keySlot s := by funext m; simp only [keySlot, hv, ho]
  have hkey : keyOk t = keyOk s := by funext m a; simp only [keyOk, hslot]
  have hsig : sigOk t = sigOk s := by funext m; simp only [sigOk, hslot]
  have hcheck : checkImage t = checkImage s := by
    funext m a
    unfold checkImage
    rw [hkey, hsig, hr]
  have hbank : bankOf t = bankOf s := funext (bankOf_congr hA hB)
  unfold Machine.bootCheck
  rw [hcheck, hbank]

theorem RomWrote.bootCheck {s t : State} (h : RomWrote s t) (b : BankId) (app second : Bool) :
    bootCheck t b app second = bootCheck s b app second := by
  obtain ⟨_, _, _, _, rfl⟩ := h
  exact bootCheck_congr rfl rfl rfl rfl rfl b app second

theorem RomWrote.bankOf {s t : State} (h : RomWrote s t) (b : BankId) : bankOf t b = bankOf s b := by
  obtain ⟨_, _, _, _, rfl⟩ := h
  cases b <;> rfl

theorem RomWrote.boot {s t : State} (h : RomWrote s t) :
    ∃ c0 c1 k, t.boot = { s.boot with copy0 := c0, copy1 := c1, chkFail := k } := by
  obtain ⟨_, _, _, _, rfl⟩ := h
  exact ⟨_, _, _, rfl⟩

theorem RomWrote.ctl {s t : State} (h : RomWrote s t) : t.ctl = s.ctl := by obtain ⟨_, _, _, _, rfl⟩ := h; rfl

@[simp] theorem journalOf_imageFailed (s : State) (b : BankId) (app : Bool) (reason : Byte) :
    journalOf (imageFailed s b app reason) = journalOf s := by
  simp only [imageFailed, journalOf_record]
  rfl

@[simp] theorem journalOf_tryFirmware (s : State) (b : BankId) : journalOf (tryFirmware s b).1 = journalOf s := by
  simp only [tryFirmware]
  split <;> simp

@[simp] theorem journalOf_tryApp (s : State) (b : BankId) (second : Bool) : journalOf (tryApp s b second).1 = journalOf s := by
  simp only [tryApp]
  split <;> simp

@[simp] theorem tryFirmware_result (s : State) (b : BankId) : (tryFirmware s b).2 = bootCheck s b false false := by
  simp only [tryFirmware]

@[simp] theorem tryApp_result (s : State) (b : BankId) (second : Bool) : (tryApp s b second).2 = bootCheck s b true second := by
  simp only [tryApp]

/-! Check 6 of R580 joins the others at a boot (R516). -/

/-- The device range in which check 6 looks for sectors that cannot be read. -/
theorem bootCheck_eq (s : State) (b : BankId) (app second : Bool) :
    let r := checkImage s (imageAt (bankOf s b) app second) app
    let lo := imageStart app second
    let hi := lo + 4096 + imgLen (imageAt (bankOf s b) app second)
    let broken : Prop := ∃ k ∈ (bankOf s b).bad, lo < 512 * k + 512 ∧ 512 * k < hi
    (r ≠ 0 → bootCheck s b app second = r) ∧ (r = 0 → broken → bootCheck s b app second = 0x84) ∧
      (r = 0 → ¬broken → bootCheck s b app second = 0) := by
  intro r lo hi broken
  have hbroken : ((bankOf s b).bad.any fun k => sectorIn lo (4096 + imgLen (imageAt (bankOf s b) app second)) k) = true ↔ broken := by
    simp [broken, hi, sectorIn, Nat.mul_add, Nat.add_assoc]
  have hcheck : bootCheck s b app second = if r = 0 ∧ broken then 0x84 else r := by
    simp only [bootCheck, ← hbroken]
    rfl
  refine ⟨fun hr => ?_, fun hr hb => ?_, fun hr hb => ?_⟩
  · rw [hcheck, if_neg fun h => hr h.1]
  · rw [hcheck, if_pos ⟨hr, hb⟩]
  · rw [hcheck, if_neg fun h => hb h.2, hr]

/-! The pick. -/

/-- A pick from `s` chose `w`, and the journal it leaves is as `p` says. -/
structure Picked (s : State) (r : State × BootPick) (w : BootPick) (p : Journal → Prop) : Prop where
  wrote : RomWrote s r.1
  pick : r.2 = w
  journal : p (journalOf r.1)

theorem Picked.of {s u : State} {w : BootPick} {p : Journal → Prop} (hw : RomWrote s u) (hj : p (journalOf u)) :
    Picked s (u, w) w p := ⟨hw, rfl, hj⟩

theorem Picked.imp {s : State} {r : State × BootPick} {w : BootPick} {p q : Journal → Prop} (h : Picked s r w p)
    (hpq : ∀ k, p k → q k) : Picked s r w q := ⟨h.wrote, h.pick, hpq _ h.journal⟩

theorem Picked.after {s u : State} {r : State × BootPick} {w : BootPick} {p : Journal → Prop} (hu : RomWrote s u)
    (h : Picked u r w p) : Picked s r w p := ⟨hu.trans h.wrote, h.pick, h.journal⟩

/-- What picking the ACTIVE bank or the fall-back comes to: `p` says what the journal is where the ACTIVE bank starts (R589). -/
structure ActiveOrOther (s : State) (j : Journal) (r : State × BootPick) (p : Journal → Prop) : Prop where
  active : bootCheck s j.active false false = 0 → Picked s r (.start j.active .journal) p
  other : bootCheck s j.active false false ≠ 0 → j.otherval = true → bootCheck s (otherBank j.active) false false = 0 →
    Picked s r (.start (otherBank j.active) .fallback) fun k =>
      k.state = .reverted ∧ k.active = otherBank j.active ∧ k.otherval = false ∧ k.reason = 0x05
  neither : bootCheck s j.active false false ≠ 0 → (j.otherval = false ∨ bootCheck s (otherBank j.active) false false ≠ 0) →
    Picked s r .service fun _ => True

/-- The journal that the fall-back leaves (R589). -/
def fallbackJournal (b : BankId) (j : Journal) : Journal :=
  { j with state := .reverted, step := .none, attempt := 0, reason := 0x05, active := b, otherval := false }

theorem pickActive_spec (s : State) : ActiveOrOther s (journalOf s) (pickActive s) (· = journalOf s) := by
  have hfw := (RomWrote.refl s).tryFirmware (journalOf s).active
  have hother := hfw.tryFirmware (otherBank (journalOf s).active)
  have hpick : pickActive s =
      if bootCheck s (journalOf s).active false false = 0 then ((tryFirmware s (journalOf s).active).1, .start (journalOf s).active .journal)
      else if (journalOf s).otherval = true then
        if bootCheck s (otherBank (journalOf s).active) false false = 0 then
          (record (record (writeJournal (tryFirmware (tryFirmware s (journalOf s).active).1 (otherBank (journalOf s).active)).1
            (fallbackJournal (otherBank (journalOf s).active))) 0x0A09 (d1 5)) 0x0A03 (d1 (bankNo (otherBank (journalOf s).active))),
            .start (otherBank (journalOf s).active) .fallback)
        else ((tryFirmware (tryFirmware s (journalOf s).active).1 (otherBank (journalOf s).active)).1, .service)
      else ((tryFirmware s (journalOf s).active).1, .service) := by
    rw [← hfw.bootCheck (otherBank (journalOf s).active) false false]
    rfl
  refine ⟨fun h => ?_, fun h ho hc => ?_, fun h hno => ?_⟩
  · rw [hpick, if_pos h]
    exact .of hfw (journalOf_tryFirmware _ _)
  · rw [hpick, if_neg h, if_pos ho, if_pos hc]
    exact .of (((hother.writeJournal _).record _ _).record _ _) (by simp [fallbackJournal])
  · by_cases ho : (journalOf s).otherval = true
    · rw [hpick, if_neg h, if_pos ho, if_neg (hno.resolve_left (by simp [ho]))]
      exact .of hother trivial
    · rw [hpick, if_neg h, if_neg ho]
      exact .of hfw trivial

/-- The pick of the ACTIVE bank after the journal has been reverted (R597). -/
theorem pickActive_reverted (s : State) (reason : Byte) : ActiveOrOther s (journalOf s) (pickActive (revertJournal s reason)) fun k =>
    k.state = .reverted ∧ k.reason = reason ∧ k.active = (journalOf s).active := by
  have hw := (RomWrote.refl s).revertJournal reason
  have h := pickActive_spec (revertJournal s reason)
  obtain ⟨hactive, hother, hneither⟩ := h
  simp only [journalOf_revertJournal, hw.bootCheck] at hactive hother hneither
  exact ⟨fun h => .after hw ((hactive h).imp fun k hk => by simp [hk]), fun h ho hc => .after hw (hother h ho hc),
    fun h hno => .after hw (hneither h hno)⟩

/-- A trial boot starts the target, or reverts where the target fails (R588, R596, R597). -/
theorem pickTrial_spec (s : State) (step : JStep) (n : BitVec 2) :
    let b := targetBank s
    let reverts (reason : Byte) : Prop := Picked s (pickTrial s step n) .again fun k => k.state = .reverted ∧ k.reason = reason
    (bootCheck s b false false = 0 → (step ≠ .verify → bootCheck s b true false = 0) → Picked s (pickTrial s step n) (.start b .journal)
      fun k => k.state = .trialBoot ∧ k.step = step ∧ k.attempt = n ∧ k.active = (journalOf s).active) ∧
    (bootCheck s b false false ≠ 0 → reverts (bootCheck s b false false)) ∧
    (bootCheck s b false false = 0 → step ≠ .verify → bootCheck s b true false ≠ 0 → reverts (bootCheck s b true false)) := by
  intro b reverts
  let u := record (writeJournal s fun j => { j with state := .trialBoot, step := step, attempt := n }) 0x0A06
    (d1 (jstepNo step) ++ d1 n.toNat)
  have hu : RomWrote s u := ((RomWrote.refl s).writeJournal _).record _ _
  have htarget : targetBank u = b := by simp [targetBank, u, b]
  have hfw := hu.tryFirmware b
  have happ := hfw.tryApp b false
  have hpick : pickTrial s step n =
      if bootCheck s b false false ≠ 0 then (revertJournal (tryFirmware u b).1 (bootCheck s b false false), .again)
      else if step = .verify then ((tryFirmware u b).1, .start b .journal)
      else if bootCheck s b true false = 0 then ((tryApp (tryFirmware u b).1 b false).1, .start b .journal)
      else (revertJournal (tryApp (tryFirmware u b).1 b false).1 (bootCheck s b true false), .again) := by
    rw [← hu.bootCheck b false false, ← hfw.bootCheck b true false, ← htarget]
    rfl
  refine ⟨fun h0 h1 => ?_, fun h0 => ?_, fun h0 hs h1 => ?_⟩
  · rw [hpick, if_neg (fun hn => hn h0)]
    by_cases hs : step = .verify
    · rw [if_pos hs]
      exact .of hfw (by simp [u])
    · rw [if_neg hs, if_pos (h1 hs)]
      exact .of happ (by simp [u])
  · simp only [reverts]
    rw [hpick, if_pos h0]
    exact .of (hfw.revertJournal _) (by simp)
  · simp only [reverts]
    rw [hpick, if_neg (fun hn => hn h0), if_neg hs, if_neg h1]
    exact .of (happ.revertJournal _) (by simp)

/-- The bank that BOOTSEL prefers without a usable journal (R588). -/
def preferredBank (s : State) : BankId := if bootsel s = 1 then .b else .a

/-- Without a usable journal the preferred bank starts, else the other, and the journal is written afresh. -/
theorem pickFresh_spec (s : State) :
    let first := preferredBank s
    let fresh (b : BankId) : Prop := Picked s (pickFresh s) (.start b .bootsel) fun k =>
      k.state = .confirmed ∧ k.active = b ∧ k.otherval = false
    (bootCheck s first false false = 0 → fresh first) ∧
    (bootCheck s first false false ≠ 0 → bootCheck s (otherBank first) false false = 0 → fresh (otherBank first)) ∧
    (bootCheck s first false false ≠ 0 → bootCheck s (otherBank first) false false ≠ 0 →
      Picked s (pickFresh s) .service fun _ => True) := by
  intro first fresh
  have hfw := (RomWrote.refl s).tryFirmware first
  have hpick : pickFresh s =
      if bootCheck s first false false = 0 then
        (recordStore (writeJournal (tryFirmware s first).1 fun _ => { freshJournal with active := first }) 1, .start first .bootsel)
      else if bootCheck s (otherBank first) false false = 0 then
        (recordStore (writeJournal (tryFirmware (tryFirmware s first).1 (otherBank first)).1
          fun _ => { freshJournal with active := otherBank first }) 1, .start (otherBank first) .bootsel)
      else ((tryFirmware (tryFirmware s first).1 (otherBank first)).1, .service) := by
    rw [← hfw.bootCheck (otherBank first) false false]
    rfl
  refine ⟨fun h => ?_, fun h h' => ?_, fun h h' => ?_⟩
  · simp only [fresh]
    rw [hpick, if_pos h]
    exact .of ((hfw.writeJournal _).record _ _) (by simp [recordStore, freshJournal])
  · simp only [fresh]
    rw [hpick, if_neg h, if_pos h']
    exact .of (((hfw.tryFirmware _).writeJournal _).record _ _) (by simp [recordStore, freshJournal])
  · rw [hpick, if_neg h, if_neg h']
    exact .of (hfw.tryFirmware _) trivial

end Sys2Proof.Machine
end

section
/-! PROOF. The steward starts, and what BOOT_BANK_SELECT answers (R2, R516, R588 to R591). -/

namespace Sys2Proof.Machine

/-! The firmware as it starts (R591). -/

@[simp] theorem startRecorder_boot (s : State) : (startRecorder s).boot = s.boot := record_boot _ _ _

@[simp] theorem replayHeadland_boot (s : State) : (replayHeadland s).boot = s.boot := by
  simp only [replayHeadland]
  split <;> simp

@[simp] theorem replayLatch_boot (s : State) : (replayLatch s).boot = s.boot :=
  forAll_keeps (fun t => t.boot = s.boot) _ s _ rfl fun t x _ h => by rw [record_boot, h]

@[simp] theorem recordStore_boot (s : State) (n : Nat) : (recordStore s n).boot = s.boot := record_boot _ _ _

@[simp] theorem bootPorts_boot (s : State) : (bootPorts s).boot = s.boot := by simp [bootPorts]

/-- Taking the calibration writes of the boot state the list of bad sectors of both devices alone. -/
theorem takeCal_boot (s : State) : ∃ x y, (takeCal s).boot =
    { s.boot with bankA := { s.boot.bankA with bad := x }, bankB := { s.boot.bankB with bad := y } } := by
  simp only [takeCal]
  split <;> exact ⟨_, _, rfl⟩

/-- The bank that starts, as the boot registers show it, after event 0x0A01. -/
def bankStarted (s : State) (b : BankId) (src : BootSrc) : State :=
  let fw := (bankOf s b).fw
  let s := record s 0x0A01 (d1 (bankNo b) ++ d1 (match src with | .journal => 0 | .bootsel => 1 | .fallback => 2) ++ d1 (jstateNo (journalOf s).state))
  { s with boot := { s.boot with bank := b, src := src, recov := bootsel s == 2, booted := true, fwVer := imgVersion fw, fwSvn := imgSvn fw },
           ring := { s.ring with on := true, relay := false } }

/-- The records that the steward makes as it starts: its own, those of the Headland and of the wake latch, and those of straps and settings. -/
def startRecords (s : State) (b : BankId) : State :=
  let s := replayLatch (replayHeadland (startRecorder s))
  let s := if bootsel s = 3 then record s 0x0A0E [] else s
  let s := if s.pw.straps.cbrole = 3 then record s 0x0808 [] else s
  if (validSettings (bankOf s b)).isNone then recordStore s 2 else s

/-- The steward as it reaches the application. -/
def stewardUp (s : State) (b : BankId) (src : BootSrc) : State :=
  refreshDrives (takeCal (bootPorts (startRecords (bankStarted s b src) b)))

theorem startSteward_eq (s : State) (b : BankId) (src : BootSrc) : startSteward s b src = bootApp (stewardUp s b src) b := by
  rfl

@[simp] theorem startRecords_boot (s : State) (b : BankId) : (startRecords s b).boot = s.boot := by
  have hif : ∀ (p : Prop) [Decidable p] (t u : State), u.boot = t.boot → (if p then u else t).boot = t.boot := by
    intro p _ t u h
    split
    · exact h
    · rfl
  simp only [startRecords]
  rw [hif _ _ _ (recordStore_boot _ _), hif _ _ _ (record_boot _ _ _), hif _ _ _ (record_boot _ _ _)]
  simp

theorem stewardUp_boot (s : State) (b : BankId) (src : BootSrc) : ∃ x y r v n, (stewardUp s b src).boot =
    { s.boot with bankA := { s.boot.bankA with bad := x }, bankB := { s.boot.bankB with bad := y }, bank := b, src := src,
                  recov := r, booted := true, fwVer := v, fwSvn := n } := by
  obtain ⟨x, y, h⟩ := takeCal_boot (bootPorts (startRecords (bankStarted s b src) b))
  refine ⟨x, y, bootsel s == 2, imgVersion (bankOf s b).fw, imgSvn (bankOf s b).fw, ?_⟩
  rw [stewardUp, refreshDrives_boot, h, bootPorts_boot, startRecords_boot]
  simp [bankStarted, bootsel]

/-! The application at boot (R202, R583, R588). -/

@[simp] theorem settleStopped_boot (s : State) : (settleStopped s).boot = s.boot := by simp [settleStopped, setCtl]

@[simp] theorem settleStopped_state (s : State) : (settleStopped s).ctl.state = .stopped := by simp [settleStopped, setCtl]

theorem offerApp_boot (s : State) (b : BankId) : ∃ v n, (offerApp s b).boot = { s.boot with appVer := v, appSvn := n } := ⟨_, _, rfl⟩

theorem tryApp_boot (s : State) (b : BankId) (second : Bool) : ∃ k, (tryApp s b second).1.boot = { s.boot with chkFail := k } := by
  simp only [tryApp]
  split
  · exact ⟨_, rfl⟩
  · exact ⟨_, record_boot _ _ _⟩

/-- Of the boot state the application changes its version and the count of failed checks alone. -/
theorem bootApp_boot (s : State) (b : BankId) : ∃ v n k, (bootApp s b).boot = { s.boot with appVer := v, appSvn := n, chkFail := k } := by
  obtain ⟨k, hk⟩ := tryApp_boot s b (settingsOf (bankOf s b)).area
  simp only [bootApp]
  split
  · exact ⟨_, _, _, settleStopped_boot s⟩
  · split
    · split
      · exact ⟨_, _, _, rfl⟩
      · exact ⟨_, _, _, rfl⟩
    · split
      · exact ⟨_, _, _, settleStopped_boot s⟩
      · split
        · obtain ⟨v, n, ho⟩ := offerApp_boot (tryApp s b (settingsOf (bankOf s b)).area).1 b
          exact ⟨v, n, k, by rw [ho, hk]⟩
        · exact ⟨_, _, k, by rw [settleStopped_boot, hk]⟩

/-- A bank has started: the steward runs from it, and the journal and the rewrite of a flash block are as the ROM left them. -/
theorem startSteward_spec (s : State) (b : BankId) (src : BootSrc) :
    (startSteward s b src).boot.booted = true ∧ (startSteward s b src).boot.refresh = s.boot.refresh ∧
      (startSteward s b src).boot.bank = b ∧ (startSteward s b src).boot.src = src ∧ journalOf (startSteward s b src) = journalOf s := by
  obtain ⟨x, y, r, v, n, hup⟩ := stewardUp_boot s b src
  obtain ⟨v', n', k, happ⟩ := bootApp_boot (stewardUp s b src) b
  have hboot := happ.trans (by rw [hup])
  rw [startSteward_eq]
  refine ⟨?_, ?_, ?_, ?_, journalOf_congr ?_ ?_⟩ <;> rw [hboot]

/-- An application slot with nothing written leaves the controller in STOPPED (R583). -/
theorem bootApp_stopped (s : State) (b : BankId) (hj : (journalOf s).state ≠ .trialBoot) (he : areaEmpty (appInForce (bankOf s b)) = true) :
    (bootApp s b).ctl.state = .stopped := by
  simp only [bootApp, hj, he, if_false, if_true]
  split <;> exact settleStopped_state s

/-- Bank A erased but for its firmware leaves the controller in STOPPED (R2, R583). -/
theorem startSteward_stopped (s : State) (src : BootSrc) (hj : (journalOf s).state ≠ .trialBoot)
    (h0 : s.boot.bankA.app0 = []) (hs0 : s.boot.bankA.half0 = none) (hs1 : s.boot.bankA.half1 = none) :
    (startSteward s .a src).ctl.state = .stopped := by
  obtain ⟨x, y, r, v, n, hup⟩ := stewardUp_boot s .a src
  rw [startSteward_eq]
  refine bootApp_stopped _ _ ?_ ?_
  · rwa [journalOf_congr (s := s) (by rw [hup]) (by rw [hup])]
  · have harea : appInForce (bankOf (stewardUp s .a src) .a) = [] := by
      simp [bankOf, hup, appInForce, appArea, settingsOf, validSettings, hs0, hs1, h0, emptySettings]
    rw [harea]
    decide

/-! BOOT_BANK_SELECT. -/

/-- The boot ROM acts: it runs, no firmware and no recovery service does, and the module is not in factory test. -/
structure RomActs (s : State) : Prop where
  awake : awake s = true
  booted : s.boot.booted = false
  service : s.boot.romSvc = false
  test : s.pw.straps.ftestN = true

/-- What the ROM picks, with a usable journal or without. -/
def romPick (s : State) : State × BootPick := if s.boot.copy0.isNone && s.boot.copy1.isNone then pickFresh s else pickJournal s

/-- What the ROM does with its pick. -/
def romLaunch (r : State × BootPick) : State :=
  match r.2 with
  | .start b src => startSteward r.1 b src
  | .service => romService r.1
  | .again => resetModule r.1

theorem exec_bootBankSelect {s : State} (h : RomActs s) : exec .bootBankSelect s = .next (romLaunch (romPick (endRefresh s))) := by
  have he : exec .bootBankSelect s = execBootBankSelect s := rfl
  rw [he, execBootBankSelect, if_neg (by simp [h.awake, h.booted, h.service, h.test])]
  show (match (romPick (endRefresh s)).2 with
    | .start b src => Host.Outcome.next (startSteward (romPick (endRefresh s)).1 b src)
    | .service => .next (romService (romPick (endRefresh s)).1)
    | .again => .next (resetModule (romPick (endRefresh s)).1)) = _
  rcases romPick (endRefresh s) with ⟨t, _ | _ | _⟩ <;> rfl

theorem endRefresh_boot (s : State) : (endRefresh s).boot = { s.boot with refresh := none } := by
  simp only [endRefresh]
  split
  · rename_i h
    rw [← h]
  · simp

theorem endRefresh_ctl (s : State) : (endRefresh s).ctl = s.ctl := by
  simp only [endRefresh]
  split <;> simp

theorem endRefresh_pw (s : State) : (endRefresh s).pw = s.pw := by
  simp only [endRefresh]
  split <;> simp

theorem journalOf_endRefresh (s : State) : journalOf (endRefresh s) = journalOf s :=
  journalOf_congr (by rw [endRefresh_boot]) (by rw [endRefresh_boot])

theorem bootCheck_endRefresh (s : State) (b : BankId) (app second : Bool) :
    bootCheck (endRefresh s) b app second = bootCheck s b app second :=
  bootCheck_congr (by rw [endRefresh_boot]) (by rw [endRefresh_boot]) (by rw [endRefresh_boot]) (by rw [endRefresh_boot])
    (by rw [endRefresh_boot]) b app second

theorem bootsel_endRefresh (s : State) : bootsel (endRefresh s) = s.pw.straps.bootsel.toNat := by rw [bootsel, endRefresh_pw]

/-- The command starts a bank. -/
def Starts (s : State) (b : BankId) (src : BootSrc) (p : Journal → Prop) : Prop :=
  ∃ t, exec .bootBankSelect s = .next t ∧ t.boot.booted = true ∧ t.boot.refresh = none ∧ t.boot.bank = b ∧ t.boot.src = src ∧
    p (journalOf t)

/-- The command starts the recovery service (R590). -/
def Recovers (s : State) : Prop :=
  ∃ t, exec .bootBankSelect s = .next t ∧ t.boot.romSvc = true ∧ t.boot.booted = false ∧ t.ctl.state = s.ctl.state

/-- The command reverts a trial, and the module resets (R597). -/
def ResetsReverted (s : State) (reason : Byte) : Prop :=
  ∃ t, exec .bootBankSelect s = .next t ∧ t.boot.booted = false ∧ (journalOf t).state = .reverted ∧ (journalOf t).reason = reason ∧
    t.ctl.state = .cold

/-- The command starts the ACTIVE bank, with a journal as `p` says, or the fall-back, or the recovery service (R589). -/
def FromActive (s : State) (p : Journal → Prop) : Prop :=
  let j := journalOf s
  let check (b : BankId) : Byte := bootCheck s b false false
  (check j.active = 0 → Starts s j.active .journal p) ∧
  (check j.active ≠ 0 → j.otherval = true → check (otherBank j.active) = 0 → Starts s (otherBank j.active) .fallback fun k =>
    k.state = .reverted ∧ k.active = otherBank j.active ∧ k.otherval = false ∧ k.reason = 0x05) ∧
  (check j.active ≠ 0 → (j.otherval = false ∨ check (otherBank j.active) ≠ 0) → Recovers s)

section
variable {s : State} (h : RomActs s)
include h

theorem starts_of_picked {b : BankId} {src : BootSrc} {p : Journal → Prop}
    (hp : Picked (endRefresh s) (romPick (endRefresh s)) (.start b src) p) : Starts s b src p := by
  obtain ⟨hw, hpick, hj⟩ := hp
  obtain ⟨c0, c1, k, hboot⟩ := hw.boot
  obtain ⟨hbooted, hrefresh, hbank, hsrc, hjournal⟩ := startSteward_spec (romPick (endRefresh s)).1 b src
  refine ⟨startSteward (romPick (endRefresh s)).1 b src, ?_, hbooted, ?_, hbank, hsrc, ?_⟩
  · rw [exec_bootBankSelect h, romLaunch, hpick]
  · rw [hrefresh, hboot, endRefresh_boot]
  · rw [hjournal]
    exact hj

theorem recovers_of_picked {p : Journal → Prop} (hp : Picked (endRefresh s) (romPick (endRefresh s)) .service p) : Recovers s := by
  obtain ⟨hw, hpick, -⟩ := hp
  obtain ⟨c0, c1, k, hboot⟩ := hw.boot
  refine ⟨romService (romPick (endRefresh s)).1, ?_, ?_, ?_, ?_⟩
  · rw [exec_bootBankSelect h, romLaunch, hpick]
  · simp [romService]
  · simp [romService, hboot, endRefresh_boot, h.booted]
  · simp [romService, hw.ctl, endRefresh_ctl]

theorem resets_of_picked {reason : Byte}
    (hp : Picked (endRefresh s) (romPick (endRefresh s)) .again fun k => k.state = .reverted ∧ k.reason = reason) :
    ResetsReverted s reason := by
  obtain ⟨hw, hpick, hj⟩ := hp
  refine ⟨resetModule (romPick (endRefresh s)).1, ?_, ?_, ?_, ?_, resetModule_ctl_state _⟩
  · rw [exec_bootBankSelect h, romLaunch, hpick]
  · simp [bootAfter, resetBoot]
  · rw [journalOf_resetModule]
    exact hj.1
  · rw [journalOf_resetModule]
    exact hj.2

/-- The command where the ROM picks the ACTIVE bank or the fall-back (R589). -/
theorem boots_activeOrOther {p : Journal → Prop}
    (ha : ActiveOrOther (endRefresh s) (journalOf (endRefresh s)) (romPick (endRefresh s)) p) :
    FromActive s p := by
  obtain ⟨hactive, hother, hneither⟩ := ha
  simp only [journalOf_endRefresh, bootCheck_endRefresh] at hactive hother hneither
  exact ⟨fun hc => starts_of_picked h (hactive hc), fun hc ho hc' => starts_of_picked h (hother hc ho hc'),
    fun hc hn => recovers_of_picked h (hneither hc hn)⟩

theorem boots_active (hr : romPick (endRefresh s) = pickActive (endRefresh s)) :
    FromActive s (· = journalOf s) := by
  have ha := pickActive_spec (endRefresh s)
  rw [← hr] at ha
  simpa only [journalOf_endRefresh] using boots_activeOrOther h ha

/-- The command where the ROM reverts the journal first (R597). -/
theorem boots_reverted {reason : Byte} (hr : romPick (endRefresh s) = pickActive (revertJournal (endRefresh s) reason)) :
    FromActive s (fun k => k.state = .reverted ∧ k.reason = reason ∧ k.active = (journalOf s).active) := by
  have ha := pickActive_reverted (endRefresh s) reason
  rw [← hr] at ha
  simpa only [journalOf_endRefresh] using boots_activeOrOther h ha

/-- The command where the ROM boots a trial (R588, R596, R597). -/
theorem boots_trial {step : JStep} {n : BitVec 2} {m : Nat} (hr : romPick (endRefresh s) = pickTrial (endRefresh s) step n)
    (hn : n.toNat = m) :
    let j := journalOf s
    let b := otherBank j.active
    (bootCheck s b false false = 0 → (step ≠ .verify → bootCheck s b true false = 0) → Starts s b .journal fun k =>
      k.state = .trialBoot ∧ k.step = step ∧ k.attempt.toNat = m ∧ k.active = j.active) ∧
    (bootCheck s b false false ≠ 0 → ResetsReverted s (bootCheck s b false false)) ∧
    (bootCheck s b false false = 0 → step ≠ .verify → bootCheck s b true false ≠ 0 → ResetsReverted s (bootCheck s b true false)) := by
  have ht := pickTrial_spec (endRefresh s) step n
  simp only [← hr, targetBank, journalOf_endRefresh, bootCheck_endRefresh] at ht
  obtain ⟨hstart, hfw, happ⟩ := ht
  exact ⟨fun h0 h1 => starts_of_picked h ((hstart h0 h1).imp fun k hk => by simp [hk, hn]), fun h0 => resets_of_picked h (hfw h0),
    fun h0 hs h1 => resets_of_picked h (happ h0 hs h1)⟩

/-- The command without a usable journal (R588). -/
theorem boots_fresh (hu : s.boot.copy0 = none ∧ s.boot.copy1 = none) :
    let first : BankId := if s.pw.straps.bootsel.toNat = 1 then .b else .a
    let check (b : BankId) : Byte := bootCheck s b false false
    let fresh (b : BankId) : Prop := Starts s b .bootsel fun k => k.state = .confirmed ∧ k.active = b ∧ k.otherval = false
    (check first = 0 → fresh first) ∧ (check first ≠ 0 → check (otherBank first) = 0 → fresh (otherBank first)) ∧
      (check first ≠ 0 → check (otherBank first) ≠ 0 → Recovers s) := by
  have hr : romPick (endRefresh s) = pickFresh (endRefresh s) := by simp [romPick, endRefresh_boot, hu]
  have hf := pickFresh_spec (endRefresh s)
  simp only [← hr, preferredBank, bootsel_endRefresh, bootCheck_endRefresh] at hf
  obtain ⟨hfirst, hother, hneither⟩ := hf
  exact ⟨fun h0 => starts_of_picked h (hfirst h0), fun h0 h1 => starts_of_picked h (hother h0 h1),
    fun h0 h1 => recovers_of_picked h (hneither h0 h1)⟩

end

/-- With a usable journal the ROM goes by it (R588). -/
theorem romPick_endRefresh {s : State} (hu : ¬(s.boot.copy0 = none ∧ s.boot.copy1 = none)) :
    romPick (endRefresh s) = pickJournal (endRefresh s) := by
  rw [romPick, if_neg (by simpa [endRefresh_boot] using hu)]

/-- A recovery boot ends a trial and takes the ACTIVE bank (R588, R597). -/
theorem romPick_recovery {s : State} (hu : ¬(s.boot.copy0 = none ∧ s.boot.copy1 = none)) (hsel : s.pw.straps.bootsel.toNat = 2) :
    romPick (endRefresh s) = pickActive (if (journalOf s).state = .trialBoot ∨ (journalOf s).state = .trialRun
      then revertJournal (endRefresh s) 0x04 else endRefresh s) := by
  rw [romPick_endRefresh hu, pickJournal, if_pos (by rwa [bootsel_endRefresh]), journalOf_endRefresh]

/-- The pick without a recovery boot: by the state of the journal (R597). -/
def pickByState (s : State) (j : Journal) : State × BootPick :=
  match j.state with
  | .confirmed => pickActive (if j.fusepend then burnPending s else s)
  | .staged => pickTrial s .verify 1
  | .trialBoot => if j.attempt = 3 then pickActive (revertJournal s 0x01) else pickTrial s j.step (j.attempt + 1)
  | .trialRun => pickActive (revertJournal s 0x02)
  | .reverted => pickActive s

theorem romPick_byState {s : State} (hu : ¬(s.boot.copy0 = none ∧ s.boot.copy1 = none)) (hsel : s.pw.straps.bootsel.toNat ≠ 2) :
    romPick (endRefresh s) = pickByState (endRefresh s) (journalOf s) := by
  rw [romPick_endRefresh hu, pickJournal, if_neg (by rwa [bootsel_endRefresh]), journalOf_endRefresh]
  rfl

end Sys2Proof.Machine
end

section
/-! PROOF. The module as delivered, the steps of a trial, the fuses, and the statement on all of them (R2, R585, R586, R596 to R598). -/

namespace Sys2Proof.Machine

/-! The module as delivered (R2). -/

/-- The trust state is that of delivery. -/
structure AsDelivered (s : State) : Prop where
  bankA : s.boot.bankA = State.reset.boot.bankA
  copy0 : s.boot.copy0 = State.reset.boot.copy0
  copy1 : s.boot.copy1 = State.reset.boot.copy1
  vkeys : s.boot.vkeys = State.reset.boot.vkeys
  rb : s.boot.rb = 0

theorem AsDelivered.endRefresh {s : State} (h : AsDelivered s) : AsDelivered (endRefresh s) := by
  obtain ⟨hA, h0, h1, hv, hr⟩ := h
  constructor <;> rw [endRefresh_boot] <;> assumption

theorem AsDelivered.journalOf {s : State} (h : AsDelivered s) : journalOf s = freshJournal := by
  simp only [Machine.journalOf, h.copy0, h.copy1]
  rfl

/-- The firmware of the factory passes every check of a boot. -/
theorem AsDelivered.bootCheck {s : State} (h : AsDelivered s) : bootCheck s .a false false = 0 := by
  have hkey : s.boot.vkeys.get 0 = ⟨Config.vendorKey, true, false⟩ := by rw [h.vkeys]; rfl
  have himage : imageAt (bankOf s .a) false false = factoryFw := by
    show s.boot.bankA.fw = factoryFw
    rw [h.bankA]
    rfl
  have hbad : (bankOf s .a).bad = [] := by
    show s.boot.bankA.bad = []
    rw [h.bankA]
    rfl
  obtain ⟨-, -, hsound⟩ := bootCheck_eq s .a false false
  exact hsound (by rw [himage]; exact factory_check s hkey h.rb) (by simp [hbad])

/-- The delivered journal names bank A, whatever BOOTSEL says. -/
theorem AsDelivered.pickJournal {s : State} (h : AsDelivered s) : pickJournal s = pickActive s := by
  simp [Machine.pickJournal, h.journalOf, freshJournal]

theorem boots_delivered {s : State} (h : RomActs s) (hd : AsDelivered s) : ∃ t, exec .bootBankSelect s = .next t ∧
    t.boot.booted = true ∧ t.boot.bank = .a ∧ t.boot.src = .journal ∧ t.ctl.state = .stopped := by
  have hd' := hd.endRefresh
  have hpick : romPick (endRefresh s) = pickActive (endRefresh s) := by
    rw [romPick_endRefresh (by simp [hd.copy0, State.reset, resetBoot]), hd'.pickJournal]
  have hactive := (pickActive_spec (endRefresh s)).active
  rw [hd'.journalOf, ← hpick] at hactive
  obtain ⟨hw, hstart, hj⟩ := hactive hd'.bootCheck
  obtain ⟨hbooted, -, hbank, hsrc, -⟩ := startSteward_spec (romPick (endRefresh s)).1 .a .journal
  have hbankA : (romPick (endRefresh s)).1.boot.bankA = { emptyBank with fw := factoryFw } := by
    obtain ⟨c0, c1, k, hboot⟩ := hw.boot
    rw [hboot]
    exact hd'.bankA
  refine ⟨startSteward (romPick (endRefresh s)).1 .a .journal, ?_, hbooted, hbank, hsrc, startSteward_stopped _ _ ?_ ?_ ?_ ?_⟩
  · rw [exec_bootBankSelect h, romLaunch, hstart]
    rfl
  · rw [hj]
    decide
  all_goals rw [hbankA]; rfl

/-! TRIAL_STEP (R596). -/

@[simp] theorem bankOf_writeJournal (s : State) (f : Journal → Journal) (b : BankId) : bankOf (writeJournal s f) b = bankOf s b :=
  ((RomWrote.refl s).writeJournal f).bankOf b

@[simp] theorem journalOf_beginStep (s : State) (st : JStep) :
    journalOf (beginStep s st) = { journalOf s with step := st, gen := (journalOf s).gen + 1 } := by simp [beginStep]

@[simp] theorem bankOf_beginStep (s : State) (st : JStep) (b : BankId) : bankOf (beginStep s st) b = bankOf s b := by simp [beginStep]

@[simp] theorem journalOf_offerApp (s : State) (b : BankId) : journalOf (offerApp s b) = journalOf s := rfl

@[simp] theorem bankOf_offerApp (s : State) (b d : BankId) : bankOf (offerApp s b) d = bankOf s d := by cases d <;> rfl

/-- The step fails: the journal is REVERTED with a reason, the module resets, and the ACTIVE bank is as it was. -/
def TrialFails (s : State) (reason : Byte) : Prop :=
  ∃ t, exec .trialStep s = .next t ∧ t.boot.booted = false ∧ (journalOf t).state = .reverted ∧ (journalOf t).reason = reason ∧
    (journalOf t).active = (journalOf s).active ∧ bankOf t (journalOf s).active = bankOf s (journalOf s).active

theorem trialFails_of {s u : State} {reason : Byte} (he : exec .trialStep s = .next (failTrial u reason)) (hu : RomWrote s u)
    (hj : (journalOf u).active = (journalOf s).active) : TrialFails s reason := by
  refine ⟨failTrial u reason, he, ?_, ?_, ?_, ?_, ?_⟩
  · simp [failTrial, bootAfter, resetBoot]
  · simp [failTrial]
  · simp [failTrial]
  · simp [failTrial, hj]
  · rw [failTrial, bankOf_resetModule, (hu.revertJournal reason).bankOf]

theorem exec_trialStep (s : State) : exec .trialStep s = execTrialStep s := by rfl

theorem exec_trialStep_idle {s : State} (h : (journalOf s).state ≠ .trialBoot) : exec .trialStep s = .next s := by
  rw [exec_trialStep, execTrialStep, if_neg (by simp [h])]

/-- The settings that MIGRATE writes: those of the ACTIVE bank in the format of the staged firmware (R578). -/
def migratedSettings (s : State) : Settings :=
  { settingsOf (bankOf s (journalOf s).active) with
      fmt := BitVec.ofNat 16 (hdr (bankOf s (targetBank s)).fw 20 2), gen := 1, area := false }

/-- MIGRATE refuses settings that the staged firmware cannot read. -/
theorem migrate_refused {s : State} (hset : (validSettings (bankOf s (journalOf s).active)).isSome = true)
    (hfmt : (settingsOf (bankOf s (journalOf s).active)).fmt.toNat < hdr (bankOf s (targetBank s)).fw 22 2) : migrate s = (s, false) := by
  have hnone : (validSettings (bankOf s (journalOf s).active)).isNone = false := by simpa [← Option.not_isSome] using hset
  simp [migrate, hnone, hfmt]

theorem migrate_done {s : State} (h : (validSettings (bankOf s (journalOf s).active)).isSome = false ∨
      hdr (bankOf s (targetBank s)).fw 22 2 ≤ (settingsOf (bankOf s (journalOf s).active)).fmt.toNat) :
    (migrate s).2 = true ∧ journalOf (migrate s).1 = journalOf s ∧ bankOf (migrate s).1 (journalOf s).active = bankOf s (journalOf s).active ∧
      settingsOf (bankOf (migrate s).1 (targetBank s)) = migratedSettings s := by
  have hok : ¬(!(validSettings (bankOf s (journalOf s).active)).isNone &&
      decide ((settingsOf (bankOf s (journalOf s).active)).fmt.toNat < hdr (bankOf s (targetBank s)).fw 22 2)) = true := by
    rcases h with h | h
    · simp_all
    · simp [Nat.not_lt.mpr h]
  have hne : (journalOf s).active ≠ targetBank s := (otherBank_ne _).symm
  simp only [migrate, if_neg hok]
  refine ⟨trivial, by simp, by simp [hne], ?_⟩
  simp [settingsOf, validSettings, migratedSettings]

section
variable {s : State} (hs : stewardRuns s = true) (hj : (journalOf s).state = .trialBoot) (hc : s.ctl.state = .cold)
include hs hj hc

/-- VERIFY checks both images of the target bank. -/
theorem exec_trialStep_verify (hv : (journalOf s).step = .verify) : exec .trialStep s = .next
    (if bootCheck s (targetBank s) false false ≠ 0 then failTrial (tryFirmware s (targetBank s)).1 (bootCheck s (targetBank s) false false)
     else if bootCheck s (targetBank s) true false ≠ 0 then
       failTrial (tryApp (tryFirmware s (targetBank s)).1 (targetBank s) false).1 (bootCheck s (targetBank s) true false)
     else beginStep (tryApp (tryFirmware s (targetBank s)).1 (targetBank s) false).1 .migrate) := by
  rw [exec_trialStep, execTrialStep, if_pos (by simp [hs, hj, hc]), ← ((RomWrote.refl s).tryFirmware (targetBank s)).bootCheck (targetBank s) true false]
  simp only [hv, tryFirmware_result, tryApp_result]
  split
  · rfl
  · split <;> rfl

theorem exec_trialStep_migrate (hm : (journalOf s).step = .migrate) : exec .trialStep s = .next
    (if (migrate s).2 then offerApp (beginStep (migrate s).1 .admission) (targetBank s) else failTrial (migrate s).1 0x03) := by
  rw [exec_trialStep, execTrialStep, if_pos (by simp [hs, hj, hc])]
  simp only [hm]
  split <;> rfl

theorem trial_verify (hv : (journalOf s).step = .verify) :
    let b := targetBank s
    (bootCheck s b false false ≠ 0 → TrialFails s (bootCheck s b false false)) ∧
    (bootCheck s b false false = 0 → bootCheck s b true false ≠ 0 → TrialFails s (bootCheck s b true false)) ∧
    (bootCheck s b false false = 0 → bootCheck s b true false = 0 → ∃ t, exec .trialStep s = .next t ∧ (journalOf t).step = .migrate ∧
      (journalOf t).state = .trialBoot) := by
  have he := exec_trialStep_verify hs hj hc hv
  have hfw := (RomWrote.refl s).tryFirmware (targetBank s)
  have happ := hfw.tryApp (targetBank s) false
  refine ⟨fun h0 => ?_, fun h0 h1 => ?_, fun h0 h1 => ?_⟩
  · rw [if_pos h0] at he
    exact trialFails_of he hfw (by simp)
  · rw [if_neg (fun hn => hn h0), if_pos h1] at he
    exact trialFails_of he happ (by simp)
  · rw [if_neg (fun hn => hn h0), if_neg (fun hn => hn h1)] at he
    exact ⟨_, he, by simp, by simp [hj]⟩

theorem trial_migrate (hm : (journalOf s).step = .migrate) :
    let b := targetBank s
    let old := settingsOf (bankOf s (journalOf s).active)
    ((validSettings (bankOf s (journalOf s).active)).isSome = true → old.fmt.toNat < hdr (bankOf s b).fw 22 2 → TrialFails s 0x03) ∧
    (((validSettings (bankOf s (journalOf s).active)).isSome = false ∨ hdr (bankOf s b).fw 22 2 ≤ old.fmt.toNat) → ∃ t,
      exec .trialStep s = .next t ∧ (journalOf t).step = .admission ∧ (journalOf t).state = .trialBoot ∧ t.adm.image.isSome = true ∧
      bankOf t (journalOf s).active = bankOf s (journalOf s).active ∧ (settingsOf (bankOf t b)).outdef = old.outdef ∧
      (settingsOf (bankOf t b)).overlay = old.overlay ∧ (settingsOf (bankOf t b)).fmt.toNat = hdr (bankOf s b).fw 20 2 % 65536) := by
  have he := exec_trialStep_migrate hs hj hc hm
  refine ⟨fun hset hfmt => ?_, fun h => ?_⟩
  · rw [migrate_refused hset hfmt] at he
    exact trialFails_of he (.refl s) rfl
  · obtain ⟨hok, hjournal, hactive, hnew⟩ := migrate_done h
    rw [hok, if_pos rfl] at he
    refine ⟨_, he, by simp, by simp [hjournal, hj], rfl, by simp [hactive], ?_⟩
    simp [hnew, migratedSettings]

end

/-! FUSE_BURN_DONE (R585, R586, R598). -/

/-- The fuses rise to a count, and never beyond the 64 that there are. -/
theorem burnRb_boot {s : State} (h : s.boot.rb ≤ 64) (n : Nat) :
    (burnRb s n).boot = { s.boot with rb := max s.boot.rb (min 64 n) } := by
  simp only [burnRb]
  split
  · rw [record_boot, Nat.max_eq_right (by omega)]
  · rw [Nat.max_eq_left (by omega)]

@[simp] theorem burnRb_svc (s : State) (n : Nat) : (burnRb s n).svc = s.svc := by
  simp only [burnRb]
  split <;> simp

/-- NEWVKEY changes of the boot state the vendor slots alone. -/
theorem burnKey_boot (s : State) : (burnKey s).boot = { s.boot with vkeys := (burnKey s).boot.vkeys } := by
  simp only [burnKey, recordKey]
  split
  · rfl
  · split
    · rw [record_boot]
    · rfl

theorem burnKey_none {s : State} (h : newVKey (bankOf s (journalOf s).active).fw = none) : burnKey s = s := by
  simp only [burnKey, h]

/-- NEWVKEY fills an empty slot. -/
theorem burnKey_vkeys {s : State} {n : Fin 4} {key : List Byte} (h : newVKey (bankOf s (journalOf s).active).fw = some (n, key))
    (hp : (s.boot.vkeys.get n).prog = false) (hr : (s.boot.vkeys.get n).revoked = false) :
    (burnKey s).boot.vkeys = s.boot.vkeys.set n ⟨key, true, false⟩ := by
  have hempty : slotState (s.boot.vkeys.get n) = 0 := by simp [slotState, hp, hr]
  simp only [burnKey, h, hempty, if_true, recordKey, record_boot]

@[simp] theorem burnKey_svc (s : State) : (burnKey s).svc = s.svc := by
  simp only [burnKey, recordKey]
  split
  · rfl
  · split <;> simp

/-- CONFIRM is answered where a session waits for it. -/
def answerConfirm (s : State) : State :=
  match s.svc.confirmBy with
  | none => s
  | some w =>
    let r := mkReply s w.2 0x0064 w.1 0 .empty true
    send (setSession { s with svc := { s.svc with confirmBy := none } } w.1 fun y => { y with reply := some r }) r

@[simp] theorem answerConfirm_boot (s : State) : (answerConfirm s).boot = s.boot := by
  simp only [answerConfirm]
  split <;> rfl

theorem answerConfirm_sent {s : State} {w : Word × Env} (h : s.svc.confirmBy = some w) : (answerConfirm s).svc.confirmBy = none ∧
    ∃ r, (answerConfirm s).svc.last = some r ∧ r.status = 0 ∧ r.cmd = 0x0064 ∧ r.session = w.1 := by
  simp only [answerConfirm, h]
  exact ⟨rfl, _, rfl, rfl, rfl, rfl⟩

theorem exec_fuseBurnDone (s : State) : exec .fuseBurnDone s = execFuseBurnDone s := by rfl

theorem exec_fuseBurnDone_pending {s : State} (hs : stewardRuns s = true) (hf : (journalOf s).fusepend = true) :
    exec .fuseBurnDone s = .next (answerConfirm (burnPending s)) := by
  rw [exec_fuseBurnDone, execFuseBurnDone, if_pos (by simp [hs, hf])]
  simp only [answerConfirm]
  cases (burnPending s).svc.confirmBy <;> rfl

theorem exec_fuseBurnDone_idle {s : State} (hf : (journalOf s).fusepend = false) : exec .fuseBurnDone s = .next s := by
  rw [exec_fuseBurnDone, execFuseBurnDone, if_neg (by simp [hf])]

theorem burnPending_svc (s : State) : (burnPending s).svc = s.svc := by
  obtain ⟨b, hw⟩ := writeJournal_only (burnKey (burnRb s (journalOf s).tsvn.toNat)) fun j => { j with fusepend := false }
  simp [burnPending, hw]

/-- The pending fuses are burnt: the count, the vendor slots and the journal. -/
theorem burnPending_spec {s : State} (h : s.boot.rb ≤ 64) :
    (burnPending s).boot.rb = max s.boot.rb (min 64 (journalOf s).tsvn.toNat) ∧
    journalOf (burnPending s) = { journalOf s with fusepend := false, gen := (journalOf s).gen + 1 } ∧
    (∀ n key, newVKey (bankOf s (journalOf s).active).fw = some (n, key) → (s.boot.vkeys.get n).prog = false →
      (s.boot.vkeys.get n).revoked = false → (burnPending s).boot.vkeys = s.boot.vkeys.set n ⟨key, true, false⟩) ∧
    (newVKey (bankOf s (journalOf s).active).fw = none → (burnPending s).boot.vkeys = s.boot.vkeys) := by
  let u := burnRb s (journalOf s).tsvn.toNat
  have hu : u.boot = { s.boot with rb := max s.boot.rb (min 64 (journalOf s).tsvn.toNat) } := burnRb_boot h _
  have hj : journalOf u = journalOf s := journalOf_congr (by rw [hu]) (by rw [hu])
  have hb : bankOf u = bankOf s := funext (bankOf_congr (by rw [hu]) (by rw [hu]))
  have hv : u.boot.vkeys = s.boot.vkeys := by rw [hu]
  have hkey := burnKey_boot u
  obtain ⟨c0, c1, hw⟩ := writeJournal_copies (burnKey u) fun j => { j with fusepend := false }
  have hpend : burnPending s = writeJournal (burnKey u) fun j => { j with fusepend := false } := rfl
  have hvkeys : (burnPending s).boot.vkeys = (burnKey u).boot.vkeys := by rw [hpend, hw]
  refine ⟨?_, ?_, fun n key hn hp hr => ?_, fun hn => ?_⟩
  · rw [hpend, hw]
    show (burnKey u).boot.rb = _
    rw [hkey, hu]
  · rw [hpend, journalOf_writeJournal, journalOf_congr (s := u) (by rw [hkey]) (by rw [hkey]), hj]
  · rw [hvkeys, burnKey_vkeys (n := n) (key := key) (by rw [hb, hj, hn]) (by rw [hv, hp]) (by rw [hv, hr]), hv]
  · rw [hvkeys, burnKey_none (by rw [hb, hj, hn]), hv]

theorem fuses_burnt {s : State} (hs : stewardRuns s = true) (hf : (journalOf s).fusepend = true) (hrb : s.boot.rb ≤ 64) :
    ∃ t, exec .fuseBurnDone s = .next t ∧ t.boot.rb = max s.boot.rb (min 64 (journalOf s).tsvn.toNat) ∧
      (journalOf t).fusepend = false ∧ (journalOf t).state = (journalOf s).state ∧ (journalOf t).active = (journalOf s).active ∧
      (∀ n key, newVKey (bankOf s (journalOf s).active).fw = some (n, key) → (s.boot.vkeys.get n).prog = false →
        (s.boot.vkeys.get n).revoked = false → t.boot.vkeys = s.boot.vkeys.set n ⟨key, true, false⟩) ∧
      (newVKey (bankOf s (journalOf s).active).fw = none → t.boot.vkeys = s.boot.vkeys) ∧
      (∀ w, s.svc.confirmBy = some w → t.svc.confirmBy = none ∧
        ∃ r, t.svc.last = some r ∧ r.status = 0 ∧ r.cmd = 0x0064 ∧ r.session = w.1) := by
  obtain ⟨hcount, hjournal, hfilled, hkept⟩ := burnPending_spec hrb
  have hj : journalOf (answerConfirm (burnPending s)) = journalOf (burnPending s) := journalOf_congr (by simp) (by simp)
  rw [← hj] at hjournal
  refine ⟨_, exec_fuseBurnDone_pending hs hf, by rw [answerConfirm_boot, hcount], by rw [hjournal], by rw [hjournal], by rw [hjournal], ?_, ?_, ?_⟩
  · rw [answerConfirm_boot]
    exact hfilled
  · rw [answerConfirm_boot]
    exact hkept
  · intro w hw
    exact answerConfirm_sent (by rw [burnPending_svc, hw])

/-! The statement. -/

/-- Settles O48: the ROM's pick by the state of the journal (`romPick_*`) is followed to the state that the command answers (`boots_*`), and a
trial's steps and the fuses keep the journal and the banks as `journalOf_*` and `bankOf_*` say. -/
theorem bootAndTrial : Obligations.BootAndTrial := by
  refine ⟨fun s hawake hbooted hservice htest => ?_, fun s hs => ⟨fun hj hc => ⟨trial_verify hs hj hc, trial_migrate hs hj hc⟩,
    exec_trialStep_idle, fuses_burnt hs, exec_fuseBurnDone_idle⟩⟩
  have h : RomActs s := ⟨hawake, hbooted, hservice, htest⟩
  refine ⟨fun hA _ h0 h1 hv hr _ => boots_delivered h ⟨hA, h0, h1, hv, hr⟩, ?_, ?_, ?_, fun hu => boots_fresh h (Classical.not_not.mp hu)⟩
  · intro b app second
    exact bootCheck_eq s b app second
  · intro hu hsel
    have hr := romPick_byState hu hsel
    refine ⟨fun hj hf => boots_active h ?_, fun hj => boots_active h ?_, fun hj => boots_trial h (n := 1) ?_ rfl, fun hj hn => boots_trial h
      (n := (journalOf s).attempt + 1) ?_ ?_, fun hj hn => boots_reverted h ?_, fun hj => boots_reverted h ?_⟩
    · simp [hr, pickByState, hj, hf]
    · simp [hr, pickByState, hj]
    · simp [hr, pickByState, hj]
    · have h3 : (journalOf s).attempt ≠ 3 := fun h => absurd hn (by rw [h]; decide)
      simp only [hr, pickByState, hj, if_neg h3]
    · simp only [BitVec.toNat_add, show (1 : BitVec 2).toNat = 1 from rfl]
      omega
    · simp [hr, pickByState, hj, hn]
    · simp [hr, pickByState, hj]
  · intro hu hsel
    have hr := romPick_recovery hu hsel
    exact ⟨fun hj => boots_reverted h (by rw [hr, if_pos hj]), fun hj hj' => boots_active h (by rw [hr, if_neg (not_or.mpr ⟨hj, hj'⟩)])⟩

end Sys2Proof.Machine
end

section
/-! PROOF. What every command keeps: the queue of the waiting commands, what is burnt into the fuses, and the canonical form of the memories.
`Keeps` names the three, and each operation of the model has one lemma that says that it keeps them; the commands' lemmas are made of these. -/

namespace Sys2Proof.Machine

/-! The invariant, and the parts of the state that it speaks of. -/

/-- A key slot keeps what is burnt into it (R582): a programmed slot its key, a revoked one its revocation. -/
def SlotKept (x y : KeySlot) : Prop :=
  (x.prog = true → y.prog = true ∧ y.key = x.key) ∧ (x.revoked = true → y.revoked = true)

/-- The fuses keep what is burnt into them (R582): the anti-rollback counter never falls, and no key slot loses its contents. -/
def FusesKept (a b : Boot) : Prop :=
  (a.rb ≤ 64 → a.rb ≤ b.rb ∧ b.rb ≤ 64) ∧ ∀ n, SlotKept (a.vkeys.get n) (b.vkeys.get n) ∧ SlotKept (a.okeys.get n) (b.okeys.get n)

/-- The memories of a flash bank are in canonical form. -/
def BankOk (x : BankSt) : Prop :=
  Memory.wf 0xFF x.fw = true ∧ Memory.wf 0xFF x.app0 = true ∧ Memory.wf 0xFF x.app1 = true

/-- The SRAM of a lane is in canonical form. -/
def SramOk (x : LaneSt) : Prop := Memory.wf 0 x.sram = true

/-- `s` keeps of `s₀` what no command may lose: the queue, the fuses and, where they had it, the canonical form of the memories. -/
def Keeps (s₀ s : State) : Prop :=
  s.pending = s₀.pending ∧ FusesKept s₀.boot s.boot ∧
    (MemoriesOk s₀ → (∀ l, SramOk (s.lanes.get l)) ∧ Memory.wf 0 s.quay = true ∧ BankOk s.boot.bankA ∧ BankOk s.boot.bankB)

/-- `Keeps` of the state in a pair. -/
def PairKeeps {α : Type} (s₀ : State) (p : State × α) : Prop := Keeps s₀ p.1

/-- `Keeps` of the state that an instruction's body leaves, whatever it makes of its core. -/
def ActKeeps (s₀ : State) : Act → Prop
  | .raise s _ _ _ => Keeps s₀ s
  | .stall s => Keeps s₀ s
  | .go s _ _ => Keeps s₀ s
  | .finish s _ _ => Keeps s₀ s

/-- `Keeps` of the state after a write, where the register takes it. -/
def OptKeeps (s₀ : State) (r : Option State) : Prop := ∀ t, r = some t → Keeps s₀ t

/-- A command answers a next state, and that state keeps what `Keeps` names. -/
def Gives (s₀ : State) (r : Host.Outcome State Fault Refusal) : Prop := ∃ t, r = .next t ∧ Keeps s₀ t

theorem memoriesOk_iff (s : State) : MemoriesOk s ↔
    (∀ l, SramOk (s.lanes.get l)) ∧ Memory.wf 0 s.quay = true ∧ BankOk s.boot.bankA ∧ BankOk s.boot.bankB :=
  ⟨fun ⟨hl, hq, hb⟩ => ⟨hl, hq, hb .a, hb .b⟩, fun ⟨hl, hq, ha, hb⟩ => ⟨hl, hq, fun d => by cases d <;> assumption⟩⟩

theorem SlotKept.refl (x : KeySlot) : SlotKept x x := ⟨fun h => ⟨h, rfl⟩, id⟩

theorem SlotKept.trans {x y z : KeySlot} (h : SlotKept x y) (g : SlotKept y z) : SlotKept x z :=
  ⟨fun hx => ⟨(g.1 (h.1 hx).1).1, (g.1 (h.1 hx).1).2.trans (h.1 hx).2⟩, fun hx => g.2 (h.2 hx)⟩

/-- An empty slot holds nothing that could be lost (R584, R585). -/
theorem slotKept_of_empty {x y : KeySlot} (h : slotState x = 0) : SlotKept x y := by
  unfold slotState at h
  refine ⟨fun hp => ?_, fun hr => ?_⟩
  · rw [hp] at h
    split at h <;> simp at h
  · simp [hr] at h

theorem slotKept_vmod {v : Vector KeySlot 4} {n : Fin 4} {f : KeySlot → KeySlot} (h : SlotKept (v.get n) (f (v.get n))) (m : Fin 4) :
    SlotKept (v.get m) ((vmod v n f).get m) := by
  rw [vmod_get]
  split
  · next hm => exact hm ▸ h
  · exact .refl _

theorem keeps_refl (s : State) : Keeps s s :=
  ⟨rfl, ⟨fun h => ⟨Nat.le_refl _, h⟩, fun _ => ⟨.refl _, .refl _⟩⟩, (memoriesOk_iff s).mp⟩

/-! Choices, pairs and loops. -/

section
variable {s₀ s t : State}

theorem keeps_ite {c : Prop} [Decidable c] (hs : Keeps s₀ s) (ht : Keeps s₀ t) : Keeps s₀ (if c then s else t) := by
  split
  · exact hs
  · exact ht

theorem pair_ite {α : Type} {c : Prop} [Decidable c] {p q : State × α} (hp : PairKeeps s₀ p) (hq : PairKeeps s₀ q) :
    PairKeeps s₀ (if c then p else q) := by
  split
  · exact hp
  · exact hq

theorem act_ite {c : Prop} [Decidable c] {a b : Act} (ha : ActKeeps s₀ a) (hb : ActKeeps s₀ b) : ActKeeps s₀ (if c then a else b) := by
  split
  · exact ha
  · exact hb

theorem gives_ite {c : Prop} [Decidable c] {a b : Host.Outcome State Fault Refusal} (ha : Gives s₀ a) (hb : Gives s₀ b) :
    Gives s₀ (if c then a else b) := by
  split
  · exact ha
  · exact hb

/-- A state on the way is shown to keep them once. -/
theorem keeps_let {P : Prop} (hs : Keeps s₀ s) (h : Keeps s₀ s → P) : P := h hs

theorem gives_next (hs : Keeps s₀ s) : Gives s₀ (.next s) := ⟨s, rfl, hs⟩

theorem pair_mk {α : Type} {a : α} (hs : Keeps s₀ s) : PairKeeps s₀ (s, a) := hs

theorem PairKeeps.fst {α : Type} {p : State × α} (hp : PairKeeps s₀ p) : Keeps s₀ p.1 := hp

theorem PairKeeps.of_eq {α : Type} {p : State × α} {a : α} (hp : PairKeeps s₀ p) (he : p = (s, a)) : Keeps s₀ s := by
  rw [he] at hp
  exact hp

theorem opt_none : OptKeeps s₀ none := fun _ h => nomatch h

theorem opt_some (hs : Keeps s₀ s) : OptKeeps s₀ (some s) := by
  rintro _ ⟨⟩
  exact hs

theorem opt_getD {r : Option State} (hs : Keeps s₀ s) (hr : OptKeeps s₀ r) : Keeps s₀ (r.getD s) := by
  cases r with
  | none => exact hs
  | some t => exact hr t rfl

theorem foldl_keeps {α : Type} {f : State → α → State} {l : List α} (hs : Keeps s₀ s) (hf : ∀ t x, Keeps s₀ t → Keeps s₀ (f t x)) :
    Keeps s₀ (l.foldl f s) := by
  induction l generalizing s with
  | nil => exact hs
  | cons x r ih => exact ih (hf s x hs)

theorem pair_foldl {α β : Type} {f : State × β → α → State × β} {p : State × β} {l : List α} (hp : PairKeeps s₀ p)
    (hf : ∀ p x, PairKeeps s₀ p → PairKeeps s₀ (f p x)) : PairKeeps s₀ (l.foldl f p) := by
  induction l generalizing p with
  | nil => exact hp
  | cons x r ih => exact ih (hf p x hp)

theorem loop_keeps {α : Type} {l : List α} {f : State → α → State} (hs : Keeps s₀ s) (hf : ∀ t x, Keeps s₀ t → Keeps s₀ (f t x)) :
    Keeps s₀ (forAll l s f) := foldl_keeps hs hf

end

section
variable {s₀ s : State} (hs : Keeps s₀ s)
include hs

/-! Updates of the state that leave the queue, the lanes, Quay and the flash banks alone. -/

theorem keeps_update {fresh up tide tideUp rejoin ctl adm net ring time chans para br fab ecc qd md pw svc rc} :
    Keeps s₀ ⟨s.pending, fresh, up, tide, tideUp, s.lanes, rejoin, ctl, adm, net, ring, time, chans, para, br, fab, ecc, s.quay, qd, md, pw, svc,
      s.boot, rc⟩ := hs

theorem keeps_boot {fresh up tide tideUp rejoin ctl adm net ring time chans para br fab ecc qd md pw svc rc copy0 copy1 uid bank recov romSvc booted
    src fwVer appVer fwSvn appSvn refresh seq chkFail} :
    Keeps s₀ ⟨s.pending, fresh, up, tide, tideUp, s.lanes, rejoin, ctl, adm, net, ring, time, chans, para, br, fab, ecc, s.quay, qd, md, pw, svc,
      ⟨s.boot.bankA, s.boot.bankB, copy0, copy1, uid, s.boot.vkeys, s.boot.okeys, s.boot.rb, bank, recov, romSvc, booted, src, fwVer, appVer, fwSvn,
        appSvn, refresh, seq, chkFail⟩, rc⟩ := hs

/-- New contents of key slots that lose nothing. -/
theorem keeps_slots {vk ok : Vector KeySlot 4} (hv : ∀ n, SlotKept (s.boot.vkeys.get n) (vk.get n))
    (ho : ∀ n, SlotKept (s.boot.okeys.get n) (ok.get n)) : Keeps s₀ { s with boot := { s.boot with vkeys := vk, okeys := ok } } := by
  obtain ⟨hp, ⟨hrb, hk⟩, hm⟩ := hs
  exact ⟨hp, ⟨hrb, fun n => ⟨(hk n).1.trans (hv n), (hk n).2.trans (ho n)⟩⟩, hm⟩

/-! Updates of the lanes, of Quay and of a flash bank. -/

theorem keeps_lanes {ls : Lanes LaneSt} (hl : (∀ l, SramOk (s.lanes.get l)) → ∀ l, SramOk (ls.get l))
    {fresh up tide tideUp rejoin ctl adm net ring time chans para br fab ecc qd md pw svc rc} :
    Keeps s₀ ⟨s.pending, fresh, up, tide, tideUp, ls, rejoin, ctl, adm, net, ring, time, chans, para, br, fab, ecc, s.quay, qd, md, pw, svc, s.boot,
      rc⟩ := by
  obtain ⟨hp, hf, hm⟩ := hs
  exact ⟨hp, hf, fun h => ⟨hl (hm h).1, (hm h).2⟩⟩

/-- A change of every lane that keeps the form of each SRAM. -/
theorem keeps_lanesMap_sram {f : LaneId → LaneSt → LaneSt} (hf : ∀ l x, SramOk x → SramOk (f l x))
    {fresh up tide tideUp rejoin ctl adm net ring time chans para br fab ecc qd md pw svc rc} :
    Keeps s₀ ⟨s.pending, fresh, up, tide, tideUp, s.lanes.map f, rejoin, ctl, adm, net, ring, time, chans, para, br, fab, ecc, s.quay, qd, md, pw,
      svc, s.boot, rc⟩ :=
  keeps_lanes hs fun h l => by
    cases l with
    | a => exact hf _ _ (h .a)
    | b => exact hf _ _ (h .b)
    | c => exact hf _ _ (h .c)

/-- A change of every lane that leaves the SRAM alone. -/
theorem keeps_lanesMap {pairs : LaneId → LaneSt → Vector PairSt 8} {st : LaneId → LaneSt → LaneState} {selfTest : LaneId → LaneSt → Option Bool}
    {dbg uncounted chBad egBad : LaneId → LaneSt → Bool} {cause : LaneId → LaneSt → BitVec 8} {dropPair dropTask : LaneId → LaneSt → BitVec 4}
    {fellAt : LaneId → LaneSt → Option Nat} {charges : LaneId → LaneSt → List Nat} {sig : LaneId → LaneSt → Option (BitVec 64)}
    {egMin chMin : LaneId → LaneSt → Stat} {dmg : LaneId → LaneSt → Damage}
    {fresh up tide tideUp rejoin ctl adm net ring time chans para br fab ecc qd md pw svc rc} :
    Keeps s₀ ⟨s.pending, fresh, up, tide, tideUp, s.lanes.map fun l x => ⟨pairs l x, st l x, selfTest l x, dbg l x, cause l x, dropPair l x,
      dropTask l x, fellAt l x, uncounted l x, charges l x, chBad l x, egBad l x, sig l x, egMin l x, chMin l x, x.sram, dmg l x⟩, rejoin, ctl, adm,
      net, ring, time, chans, para, br, fab, ecc, s.quay, qd, md, pw, svc, s.boot, rc⟩ := by
  refine keeps_lanesMap_sram hs ?_
  exact fun _ _ h => h

/-- A change of one lane, whose new SRAM may come from the others. -/
theorem modLane_keeps_of {l : LaneId} {f : LaneSt → LaneSt} (hf : (∀ r, SramOk (lane s r)) → ∀ x, SramOk x → SramOk (f x)) :
    Keeps s₀ (modLane s l f) :=
  keeps_lanes hs fun h r => by
    rw [lanes_get_set]
    split
    · exact hf h _ (h l)
    · exact h r

theorem modLane_keeps_sram {l : LaneId} {f : LaneSt → LaneSt} (hf : ∀ x, SramOk x → SramOk (f x)) : Keeps s₀ (modLane s l f) :=
  modLane_keeps_of hs fun _ => hf

/-- A change of one lane that leaves its SRAM alone. -/
theorem modLane_keeps {l} {pairs : LaneSt → Vector PairSt 8} {st : LaneSt → LaneState} {selfTest : LaneSt → Option Bool}
    {dbg uncounted chBad egBad : LaneSt → Bool} {cause : LaneSt → BitVec 8} {dropPair dropTask : LaneSt → BitVec 4} {fellAt : LaneSt → Option Nat}
    {charges : LaneSt → List Nat} {sig : LaneSt → Option (BitVec 64)} {egMin chMin : LaneSt → Stat} {dmg : LaneSt → Damage} :
    Keeps s₀ (modLane s l fun x => ⟨pairs x, st x, selfTest x, dbg x, cause x, dropPair x, dropTask x, fellAt x, uncounted x, charges x, chBad x,
      egBad x, sig x, egMin x, chMin x, x.sram, dmg x⟩) := modLane_keeps_sram hs fun _ h => h

theorem keeps_quay {q : Memory} (hq : Memory.wf 0 s.quay = true → Memory.wf 0 q = true)
    {fresh up tide tideUp rejoin ctl adm net ring time chans para br fab ecc qd md pw svc rc} :
    Keeps s₀ ⟨s.pending, fresh, up, tide, tideUp, s.lanes, rejoin, ctl, adm, net, ring, time, chans, para, br, fab, ecc, q, qd, md, pw, svc, s.boot,
      rc⟩ := by
  obtain ⟨hp, hf, hm⟩ := hs
  exact ⟨hp, hf, fun h => ⟨(hm h).1, hq (hm h).2.1, (hm h).2.2⟩⟩

/-- A change of one flash bank, whose new memories may come from the other. -/
theorem modBank_keeps_of {d : BankId} {f : BankSt → BankSt} (hf : (∀ d, BankOk (bankOf s d)) → ∀ x, BankOk x → BankOk (f x)) :
    Keeps s₀ (modBank s d f) := by
  obtain ⟨hp, hfuse, hm⟩ := hs
  have hall (h : MemoriesOk s₀) (d : BankId) : BankOk (bankOf s d) := by
    cases d with
    | a => exact (hm h).2.2.1
    | b => exact (hm h).2.2.2
  cases d with
  | a => exact ⟨hp, hfuse, fun h => ⟨(hm h).1, (hm h).2.1, hf (hall h) _ (hall h .a), hall h .b⟩⟩
  | b => exact ⟨hp, hfuse, fun h => ⟨(hm h).1, (hm h).2.1, hall h .a, hf (hall h) _ (hall h .b)⟩⟩

theorem modBank_keeps_wf {d : BankId} {f : BankSt → BankSt} (hf : ∀ x, BankOk x → BankOk (f x)) : Keeps s₀ (modBank s d f) :=
  modBank_keeps_of hs fun _ => hf

/-- A change of one flash bank that leaves its memories alone. -/
theorem modBank_keeps {d} {half0 half1 : BankSt → Option Settings} {bad : BankSt → List Nat} :
    Keeps s₀ (modBank s d fun x => ⟨x.fw, x.app0, x.app1, half0 x, half1 x, bad x⟩) :=
  modBank_keeps_wf hs fun _ h => h

/-! Records and the error-correcting codes. -/

theorem record_keeps {code : BitVec 16} {data : List Byte} : Keeps s₀ (record s code data) := by
  obtain ⟨r, hr⟩ := record_only s code data
  rw [hr]
  exact hs

theorem stageEvent_keeps {code data} : Keeps s₀ (stageEvent s code data) := keeps_update hs

theorem sayFull_keeps : Keeps s₀ (sayFull s) := by
  unfold sayFull
  split
  · exact hs
  · exact stageEvent_keeps (keeps_update hs)

theorem putEvent_keeps {code data} : Keeps s₀ (putEvent s code data) := sayFull_keeps (stageEvent_keeps hs)

theorem eccRead_keeps {m : MemId} {a : Nat} {r : Reader} {h : Hit} : PairKeeps s₀ (eccRead s m a r h) := by
  obtain ⟨e, c, he⟩ := eccRead_only s m a r h
  rw [PairKeeps, he]
  exact hs

theorem eccCorrect_keeps {m a bit} : Keeps s₀ (eccCorrect s m a bit) := eccRead_keeps hs (r := .scrubber) (h := .soft bit)

theorem eccBad_keeps {m a r} : Keeps s₀ (eccBad s m a r) := eccRead_keeps hs (h := .bad)

theorem eccPut_keeps {m e} : Keeps s₀ (eccPut s m e) := by cases m <;> exact hs

/-! The accessors. -/

theorem modPair_keeps {l p f} : Keeps s₀ (modPair s l p f) := modLane_keeps hs

theorem modTask_keeps {l p t f} : Keeps s₀ (modTask s l p t f) := modPair_keeps hs

theorem modChan_keeps {c f} : Keeps s₀ (modChan s c f) := keeps_update hs

theorem modPort_keeps {p f} : Keeps s₀ (modPort s p f) := keeps_update hs

theorem sramWrite_keeps {l ea data} : Keeps s₀ (sramWrite s l ea data) := modLane_keeps_sram hs fun _ h => memWriteN_ok h (Nat.zero_le _) data

end

end Sys2Proof.Machine
end

section
/-! PROOF. Drives, Quay, the registers and the ends of lanes and of RUN: what each keeps of the queue, the fuses and the memories (`Keeps`). -/

namespace Sys2Proof.Machine

variable {s₀ s : State} (hs : Keeps s₀ s)
include hs

/-! Reading and changing the parts of the state: lanes, pairs, tasks, the admitted set-up. -/

theorem bankWrite_keeps {l p a b} : Keeps s₀ (bankWrite s l p a b) := sramWrite_keeps hs

theorem sectWrite_keeps {l t k b} : Keeps s₀ (sectWrite s l t k b) := bankWrite_keeps hs

theorem wake_keeps {d} : Keeps s₀ (wake s d) := keeps_ite (keeps_update hs) hs

theorem stallOn_keeps {d who} : Keeps s₀ (stallOn s d who) := keeps_ite (keeps_update hs) (keeps_update hs)

theorem withdrawStalled_keeps {l} : Keeps s₀ (withdrawStalled s l) := keeps_update hs

theorem setCtl_keeps {c} : Keeps s₀ (setCtl s c) := record_keeps (keeps_update hs)

/-! Writing a Cairn record (19_event_recorder.md). -/

theorem reportSuppressed_keeps {b} : Keeps s₀ (reportSuppressed s b) := keeps_update (putEvent_keeps hs)

theorem headlandRecord_keeps {code data} : Keeps s₀ (headlandRecord s code data) := keeps_ite (keeps_update hs) (keeps_update hs)

/-! What drives an output channel: vote, reflex, force, SAFE state, safety enable, island
(12_safety_functions_parapet.md, R408, R409; 13_field_channels.md; 06, the controller states). -/

theorem modIsland_keeps {c f} : Keeps s₀ (modIsland s c f) := modChan_keeps hs

theorem settleBit_keeps {c} : Keeps s₀ (settleBit s c) := keeps_ite (record_keeps (modChan_keeps hs)) hs

theorem dropCause_keeps {c k} : Keeps s₀ (dropCause s c k) := settleBit_keeps (modChan_keeps hs)

theorem releaseTrip_keeps {c} : Keeps s₀ (releaseTrip s c) := keeps_ite (dropCause_keeps (modChan_keeps hs)) hs

theorem demand_keeps {c} : Keeps s₀ (demand s c) := by
  simp only [demand]
  split
  · exact hs
  · exact modChan_keeps hs
  · exact keeps_let (modChan_keeps hs) fun h1 => keeps_ite (record_keeps (modChan_keeps h1)) h1

theorem takeDrive_keeps {c} : Keeps s₀ (takeDrive s c) := keeps_ite (keeps_let (modIsland_keeps hs) fun h1 => keeps_ite h1 (releaseTrip_keeps h1)) hs

theorem settleSwitch_keeps {c} : Keeps s₀ (settleSwitch s c) := modChan_keeps hs

theorem refreshDrive_keeps {c} : Keeps s₀ (refreshDrive s c) := settleSwitch_keeps (takeDrive_keeps (modChan_keeps (keeps_ite hs (demand_keeps hs))))

theorem refreshDrives_keeps : Keeps s₀ (refreshDrives s) := loop_keeps hs fun _ _ h1 => refreshDrive_keeps h1

theorem applyForces_keeps {present} : Keeps s₀ (applyForces s present) := refreshDrives_keeps (keeps_update hs)

/-! Quay: lock words, mover head words, reads and writes; masking at the arbiters
(15_fabric_arbitration_and_memory.md, R496 to R502; 14_corbel_bridge.md, R485). -/

theorem modMover_keeps {n f} : Keeps s₀ (modMover s n f) := keeps_update hs

theorem writeHead_keeps {n w who} : Keeps s₀ (writeHead s n w who) := by
  simp only [writeHead]
  split
  · exact hs
  · exact keeps_ite hs (modMover_keeps hs)

theorem quayWrite_keeps {o w be who} : Keeps s₀ (quayWrite s o w be who) := by
  simp only [quayWrite]
  split
  · split
    · exact keeps_quay hs fun h => quayWord_wf _ _ _ _ h
    · exact keeps_quay hs fun h => quayWord_wf _ _ _ _ h
  · split
    · exact writeHead_keeps hs
    · exact hs

theorem quayHit_keeps {o r h} : PairKeeps s₀ (quayHit s o r h) := pair_ite (eccRead_keeps (keeps_update hs)) hs

theorem quayWriteBytes_keeps {o b who} : Keeps s₀ (quayWriteBytes s o b who) := foldl_keeps hs fun _ _ h1 => quayWrite_keeps h1

theorem setPri_keeps {bridge q v} : Keeps s₀ (setPri s bridge q v) := keeps_ite (keeps_update hs) (keeps_update hs)

theorem forcedRelease_keeps {resource holder} : Keeps s₀ (forcedRelease s resource holder) := record_keeps (keeps_update hs)

theorem breakLock_keeps {i} : Keeps s₀ (breakLock s i) := by
  simp only [breakLock]
  split
  · exact hs
  · exact forcedRelease_keeps (record_keeps (keeps_quay hs fun h => quayWord_wf _ _ _ _ h))

theorem dropLock_keeps {l} : Keeps s₀ (dropLock s l) := by
  simp only [dropLock]
  split
  · exact keeps_ite (forcedRelease_keeps (record_keeps (keeps_update hs))) hs
  · exact hs

theorem breakLocks_keeps : Keeps s₀ (breakLocks s) := by
  simp only [breakLocks]
  refine loop_keeps hs fun _ _ h1 => ?_
  split
  · exact keeps_ite (breakLock_keeps h1) h1
  · exact h1

theorem maskArbiters_keeps : Keeps s₀ (maskArbiters s) :=
  keeps_let (keeps_update hs) fun h1 => keeps_let (keeps_ite (forcedRelease_keeps h1) h1) fun h2 => keeps_ite (forcedRelease_keeps h2) h2

theorem writeStatus_keeps {m err} : Keeps s₀ (writeStatus s m err) := quayWrite_keeps (quayWrite_keeps hs)

theorem moverError_keeps {n err} : Keeps s₀ (moverError s n err) := record_keeps (modMover_keeps (writeStatus_keeps hs))

theorem stopMovers_keeps : Keeps s₀ (stopMovers s) := by
  simp only [stopMovers]
  refine loop_keeps hs fun _ _ h1 => ?_
  split
  · exact keeps_ite (moverError_keeps (forcedRelease_keeps h1)) h1
  · exact h1

/-! Entering STOPPED, dropping a lane, failing a rejoin (06_cyclic_execution.md, R199; 07_lanes_voting_and_lockstep.md, R242 to R248). -/

theorem recordItem_keeps {num i o} : Keeps s₀ (recordItem s num i o) := record_keeps hs

theorem discardSome_keeps {which} : Keeps s₀ (discardSome s which) :=
  keeps_let (loop_keeps hs fun _ _ h1 => loop_keeps h1 fun _ _ h2 => keeps_ite (recordItem_keeps h2) h2) fun h1 => keeps_ite h1 (keeps_update h1)

theorem discardOlcs_keeps : Keeps s₀ (discardOlcs s) := discardSome_keeps hs

theorem endRequest_keeps {w} : Keeps s₀ (endRequest s w) := record_keeps (keeps_update hs)

theorem withdrawMode_keeps : Keeps s₀ (withdrawMode s) := keeps_ite (endRequest_keeps hs) hs

theorem clearRejoin_keeps : Keeps s₀ (clearRejoin s) := keeps_update hs

theorem abandonRetain_keeps : Keeps s₀ (abandonRetain s) := keeps_update hs

theorem orphanQueue_keeps {l} : Keeps s₀ (orphanQueue s l) := keeps_ite (forcedRelease_keeps (keeps_update hs)) hs

theorem releaseHoldings_keeps {l} : Keeps s₀ (releaseHoldings s l) := by
  unfold releaseHoldings
  extract_lets s1 s2 s3 s4 s5
  have h : Keeps s₀ s5 :=
    withdrawStalled_keeps (orphanQueue_keeps (breakLocks_keeps (stopMovers_keeps (dropLock_keeps (maskArbiters_keeps hs)))))
  exact keeps_ite (abandonRetain_keeps h) h

theorem leaveVote_keeps {l st cause p t'} : Keeps s₀ (leaveVote s l st cause p t') := by
  unfold leaveVote
  refine releaseHoldings_keeps (modLane_keeps_sram hs ?_)
  exact fun _ _ => rfl

theorem recordDrop_keeps {l cause p t} : Keeps s₀ (recordDrop s l cause p t) := record_keeps hs

theorem rejoinFail_keeps {cause} : Keeps s₀ (rejoinFail s cause) := by
  unfold rejoinFail
  split
  · exact hs
  · exact leaveVote_keeps (record_keeps (clearRejoin_keeps hs))

theorem enterStopped_keeps {pf} : Keeps s₀ (enterStopped s pf) :=
  keeps_let (keeps_lanesMap (keeps_update (setCtl_keeps hs))) fun h3 => refreshDrives_keeps (withdrawMode_keeps (discardOlcs_keeps (keeps_update
    (keeps_ite (rejoinFail_keeps h3) h3))))

theorem checkVoters_keeps : Keeps s₀ (checkVoters s) := keeps_ite (enterStopped_keeps hs) hs

theorem lowerCause_keeps {l cause p t} : Keeps s₀ (lowerCause s l cause p t) := keeps_ite (modLane_keeps hs) hs

theorem dropLane_keeps {l cause p t'} : Keeps s₀ (dropLane s l cause p t') :=
  keeps_ite (keeps_let (leaveVote_keeps (recordDrop_keeps hs)) fun h => checkVoters_keeps (keeps_ite (rejoinFail_keeps h) h)) (lowerCause_keeps hs)

theorem laneFails_keeps {l cause p t} : Keeps s₀ (laneFails s l cause p t) := keeps_ite (rejoinFail_keeps hs) (dropLane_keeps hs)

/-! Where the registers lie (R30, R34, and the offsets of the register tables). -/

theorem wakeFor_keeps {l a} : Keeps s₀ (wakeFor s l a) := by
  simp only [wakeFor]
  split
  · exact wake_keeps hs
  · exact hs

/-! What the device registers read and what a write to them does (the register tables of every chapter). -/

theorem regRead_keeps {r} : PairKeeps s₀ (regRead s r) := by
  simp only [regRead]
  split
  · exact keeps_update hs
  · exact hs

theorem modFunc_keeps {f g} : Keeps s₀ (modFunc s f g) := keeps_update hs

theorem writeLed_keeps {v} : Keeps s₀ (writeLed s v) := keeps_update hs

theorem regSet_keeps {who r w} : OptKeeps s₀ (regSet s who r w) := by
  unfold regSet
  split
  · exact opt_some (keeps_update hs)
  · exact opt_some (modPort_keeps hs)
  · exact opt_some (keeps_update hs)
  · exact opt_some (keeps_update hs)
  · exact opt_some (modChan_keeps hs)
  · exact opt_some (modFunc_keeps hs)
  · exact opt_some (keeps_update hs)
  · exact opt_some (keeps_update hs)
  · exact opt_some (keeps_ite (keeps_update hs) hs)
  · exact opt_some (keeps_update hs)
  · exact opt_some (writeLed_keeps hs)
  · exact opt_some (keeps_update hs)
  · exact opt_some (keeps_update hs)
  · split
    · split
      · exact opt_none
      · exact opt_some (setPri_keeps hs)
    · exact opt_none
  · exact opt_some (keeps_update hs)
  · exact opt_some (keeps_update hs)
  · exact opt_some (eccPut_keeps hs)
  · exact opt_some (keeps_ite (eccPut_keeps hs) hs)
  · exact opt_some (keeps_boot hs)
  · refine opt_some (keeps_lanes hs fun h l => ?_)
    cases l with
    | a => exact h .a
    | b => exact h .b
    | c => exact h .c
  · exact opt_some (keeps_update hs)
  · exact opt_none

end Sys2Proof.Machine
end

section
/-! PROOF. The instruction skeleton, loads and stores, and shared memory: what each keeps of the queue, the fuses and the memories (`Keeps`). -/

namespace Sys2Proof.Machine

variable {s₀ s : State} (hs : Keeps s₀ s)
include hs

/-! The shared skeleton of every instruction: which core executes, the fetch, legality, exceptions, retirement
(02_programming_model.md, R60 to R67, R77, R82 to R85, R641; 07, R250). -/

theorem testComps_keeps {l p} : Keeps s₀ (testComps s l p) := keeps_let (modPair_keeps hs) fun h1 => keeps_ite h1 (laneFails_keeps h1)

theorem reschedule_keeps {l p} : Keeps s₀ (reschedule s l p) := by
  simp only [reschedule]
  split
  · exact hs
  · split
    · exact modPair_keeps hs
    · exact keeps_let (modTask_keeps (modPair_keeps hs)) fun h1 => keeps_ite (testComps_keeps h1) h1

theorem putBank_keeps {c b} : Keeps s₀ (putBank s c b) := by
  simp only [putBank]
  split
  · exact modTask_keeps hs
  · exact modPair_keeps hs

theorem modCore_keeps {x f} : Keeps s₀ (modCore s x f) := modPair_keeps hs

theorem joinIfDone_keeps {l p} : Keeps s₀ (joinIfDone s l p) := keeps_ite (modPair_keeps hs) hs

theorem endItem_keeps {x} : Keeps s₀ (endItem s x) := joinIfDone_keeps (modCore_keeps hs)

theorem raiseExc_keeps {c cost code addr imm} : Keeps s₀ (raiseExc s c cost code addr imm) := by
  simp only [raiseExc]
  split
  · exact keeps_ite (rejoinFail_keeps hs) (reschedule_keeps (modPair_keeps (modTask_keeps hs)))
  · exact record_keeps (endItem_keeps hs)

theorem retire_keeps {c b ws} : Keeps s₀ (retire s c b ws) := modPair_keeps hs

theorem complete_keeps {c cost b ws} : Keeps s₀ (complete s c cost b ws) := by
  simp only [complete]
  split
  · exact retire_keeps (modTask_keeps (putBank_keeps hs))
  · exact putBank_keeps hs

theorem finishCore_keeps {c} : Keeps s₀ (finishCore s c) := by
  simp only [finishCore]
  split
  · exact reschedule_keeps (modPair_keeps (modTask_keeps hs))
  · exact endItem_keeps hs

theorem fetchCheck_keeps {c a h} : PairKeeps s₀ (fetchCheck s c a h) := by
  simp only [fetchCheck]
  split
  · exact hs
  · split
    · exact hs
    · exact hs
    · exact eccRead_keeps (modLane_keeps hs)

omit hs in
theorem applyAct_keeps {c : Core} {cost : Nat} {a : Act} (ha : ActKeeps s₀ a) : Keeps s₀ (applyAct c cost a) := by
  cases a with
  | raise => exact raiseExc_keeps ha
  | stall => exact ha
  | go => exact complete_keeps ha
  | finish => exact finishCore_keeps (complete_keeps ha)

theorem reach_keeps {x d} {k : State → Act} (hk : ∀ t, Keeps s₀ t → ActKeeps s₀ (k t)) : ActKeeps s₀ (reach s x d k) := by
  simp only [reach]
  split
  · exact hk _ hs
  · exact act_ite (hk _ hs) (stallOn_keeps hs)

theorem runInstr_keeps {x spelt cost legal} {body : State → Core → Act} (hbody : ∀ t c, Keeps s₀ t → ActKeeps s₀ (body t c)) :
    Keeps s₀ (runInstr x spelt cost legal body s) := by
  unfold runInstr
  split
  · exact hs
  · split
    · exact stallOn_keeps hs
    · split
      · next he => exact raiseExc_keeps ((fetchCheck_keeps hs).of_eq he)
      · next he =>
        have ht := (fetchCheck_keeps hs).of_eq he
        exact keeps_ite hs (keeps_ite (applyAct_keeps (hbody _ _ ht)) (raiseExc_keeps ht))

theorem giveW_keeps {b d v t} : ActKeeps s₀ (giveW s b d v t) := hs

theorem giveB_keeps {b d v t} : ActKeeps s₀ (giveB s b d v t) := hs

/-! Loads and stores of the bank of a pair, the lane-common area and LN_: permission, alignment, codes, effect
(R30, R31, R58, R69, R72 to R76, R127, R641, R642). -/

theorem readWord_keeps {c ea h} : PairKeeps s₀ (readWord s c ea h) := eccRead_keeps (modLane_keeps hs)

theorem loadThen_keeps {c cls n a} {k : State → List Byte → Act} (hk : ∀ t bs, Keeps s₀ t → ActKeeps s₀ (k t bs)) :
    ActKeeps s₀ (loadThen s c cls n a k) := by
  unfold loadThen
  split
  · exact hs
  · exact hk _ _ hs
  · refine reach_keeps hs fun t ht => ?_
    split
    · next he => exact (readWord_keeps ht).of_eq he
    · next he =>
      have h1 := (readWord_keeps ht).of_eq he
      refine act_ite (hk _ _ h1) ?_
      split
      · next he => exact (readWord_keeps h1).of_eq he
      · next he => exact hk _ _ ((readWord_keeps h1).of_eq he)

theorem writeSram_keeps {l ea w be} : Keeps s₀ (writeSram s l ea w be) := by
  have put {t : State} (ht : Keeps s₀ t) (r : LaneId) :
      Keeps s₀ (modLane t r fun x => { x with sram := memWriteWord 0 x.sram ea w be, dmg := dmgCure x.dmg ea }) :=
    modLane_keeps_sram ht fun _ h => quayWord_wf _ _ _ _ h
  simp only [writeSram]
  split
  · exact keeps_ite (put (put hs l) _) (put hs l)
  · exact put hs l

theorem logWrite_keeps {c q w be} : Keeps s₀ (logWrite s c q w be) := by
  simp only [logWrite]
  split
  · exact keeps_ite (modTask_keeps hs) hs
  · exact hs

theorem storeWord_keeps {c q w} : Keeps s₀ (storeWord s c q w) := logWrite_keeps (writeSram_keeps hs)

theorem storeThen_keeps {c cls n a ws} {k : State → Act} (hk : ∀ t, Keeps s₀ t → ActKeeps s₀ (k t)) : ActKeeps s₀ (storeThen s c cls n a ws k) := by
  simp only [storeThen]
  split
  · exact hs
  · exact reach_keeps hs fun _ h2 => act_ite (hk _ h2) (hk _ (foldl_keeps h2 fun _ _ h3 => storeWord_keeps h3))

theorem storePart_keeps {c q w n} : Keeps s₀ (storePart s c q w n) := by
  unfold storePart
  extract_lets ea wa sh be r old s1 s2 now
  have h1 : Keeps s₀ s1 := writeSram_keeps (readWord_keeps hs)
  have h2 : Keeps s₀ s2 := keeps_ite h1 (modLane_keeps h1)
  split
  · exact logWrite_keeps h2
  · exact h2

theorem partThen_keeps {c n a w} {k : State → Act} (hk : ∀ t, Keeps s₀ t → ActKeeps s₀ (k t)) : ActKeeps s₀ (partThen s c n a w k) := by
  simp only [partThen]
  split
  · exact hs
  · exact reach_keeps hs fun _ h2 => act_ite (hk _ h2) (hk _ (storePart_keeps h2))

/-! Untimed shared memory (04_instruction_semantics.md, R141 to R146). -/

theorem enqueue_keeps {ag k off} : Keeps s₀ (enqueue s ag k off) := keeps_update hs

theorem waitAcc_keeps {c k off d} : ActKeeps s₀ (waitAcc s c k off d) := act_ite hs (modCore_keeps (enqueue_keeps hs))

theorem quayRead_keeps {c o a} {k : State → Word → Act} (hk : ∀ t w, Keeps s₀ t → ActKeeps s₀ (k t w)) : ActKeeps s₀ (quayRead s c o a k) := by
  unfold quayRead
  split
  · next he => exact (quayHit_keeps hs).of_eq he
  · next he => exact hk _ _ ((quayHit_keeps hs).of_eq he)

theorem execLdx_gives {x f} : Gives s₀ (execLdx x f s) := by
  simp only [execLdx]
  refine gives_next ?_
  refine runInstr_keeps hs fun _ _ h1 => ?_
  split
  · exact h1
  · exact quayRead_keeps h1 fun _ _ h2 => giveW_keeps h2
  · exact reach_keeps h1 fun _ h2 => giveW_keeps (regRead_keeps h2)
  · exact waitAcc_keeps h1

theorem execStx_gives {x f} : Gives s₀ (execStx x f s) := by
  refine gives_next (runInstr_keeps hs fun t c ht => ?_)
  dsimp only
  split
  · exact ht
  · exact quayWrite_keeps ht
  · exact reach_keeps ht fun _ h => opt_getD h (regSet_keeps h)
  · exact act_ite ht (enqueue_keeps ht)

theorem execCas_gives {x f} : Gives s₀ (execCas x f s) := by
  simp only [execCas]
  refine gives_next ?_
  refine runInstr_keeps hs fun _ _ h1 => ?_
  split
  · exact h1
  · exact quayRead_keeps h1 fun _ _ h2 => giveW_keeps (keeps_ite (quayWrite_keeps h2) h2)
  · exact h1
  · exact waitAcc_keeps h1

theorem execXchg_gives {x f} : Gives s₀ (execXchg x f s) := by
  simp only [execXchg]
  refine gives_next ?_
  refine runInstr_keeps hs fun _ _ h1 => ?_
  split
  · exact h1
  · exact quayRead_keeps h1 fun _ _ h2 => giveW_keeps (quayWrite_keeps h2)
  · exact h1
  · exact waitAcc_keeps h1

theorem execFence_gives {x f} : Gives s₀ (execFence x f s) := gives_next (runInstr_keeps hs fun _ _ h1 => act_ite h1 (act_ite h1 h1))

end Sys2Proof.Machine
end

section
/-! PROOF. The operations of bridge, Parapet, channels and flash banks: what each keeps of the queue, the fuses and the memories (`Keeps`). -/

namespace Sys2Proof.Machine

variable {s₀ s : State} (hs : Keeps s₀ s)
include hs

/-! The Corbel bridge as master: the posting queue, movers, errors, locks (14_corbel_bridge.md, R459 to R479, R485 to R489). -/

theorem modBr_keeps {f} : Keeps s₀ (modBr s f) := keeps_update hs

theorem logWriteFail_keeps {e k onAd} : Keeps s₀ (logWriteFail s e k onAd) := by
  simp only [logWriteFail]
  split
  · exact record_keeps (modBr_keeps hs)
  · exact record_keeps (modBr_keeps hs)

theorem completeAcc_keeps {e v} : Keeps s₀ (completeAcc s e v) := by
  simp only [completeAcc]
  split
  · exact hs
  · exact modCore_keeps (putBank_keeps hs)

theorem failAcc_keeps {e writeBeat} : Keeps s₀ (failAcc s e writeBeat) := by
  simp only [failAcc]
  split
  · exact hs
  · exact keeps_ite (record_keeps (endItem_keeps hs)) (raiseExc_keeps hs)

theorem popQueue_keeps : Keeps s₀ (popQueue s) := modBr_keeps hs

theorem failHead_keeps {k writeBeat} : Keeps s₀ (failHead s k writeBeat) := by
  simp only [failHead]
  split
  · exact hs
  · exact keeps_let (popQueue_keeps hs) fun h1 => keeps_ite (logWriteFail_keeps h1) (failAcc_keeps h1)

theorem moverIdle_keeps {n} : Keeps s₀ (moverIdle s n) := modMover_keeps hs

theorem moverFails_keeps {n err} : Keeps s₀ (moverFails s n err) := moverError_keeps (modBr_keeps hs)

theorem moverSource_keeps {n o len h} : PairKeeps s₀ (moverSource s n o len h) := pair_foldl (pair_mk hs) fun _ _ hp => pair_ite (quayHit_keeps hp) hp

theorem moverReady_keeps {n} : PairKeeps s₀ (moverReady s n) := pair_ite hs (pair_ite (moverIdle_keeps hs) (pair_ite (moverFails_keeps hs) hs))

theorem startTx_keeps {src write lock bus} : Keeps s₀ (startTx s src write lock bus) := modBr_keeps hs

theorem issueHead_keeps : Keeps s₀ (issueHead s) := by
  simp only [issueHead]
  split
  · exact hs
  · exact keeps_ite (startTx_keeps hs) (startTx_keeps hs)

theorem issuePiece_keeps {n} : Keeps s₀ (issuePiece s n) := by
  unfold issuePiece
  split
  · next he => exact (moverReady_keeps hs).of_eq he
  · next he =>
    have h1 := (moverReady_keeps hs).of_eq he
    refine keeps_ite h1 (keeps_ite ?_ (startTx_keeps h1))
    split
    · next he => exact moverFails_keeps ((moverSource_keeps h1).of_eq he)
    · next he => exact startTx_keeps ((moverSource_keeps h1).of_eq he)

theorem pieceDone_keeps {n k ws} : Keeps s₀ (pieceDone s n k ws) :=
  keeps_let (modBr_keeps hs) fun h1 => modMover_keeps (keeps_ite (quayWriteBytes_keeps h1) h1)

theorem headDone_keeps {t ws} : Keeps s₀ (headDone s t ws) := by
  simp only [headDone]
  split
  · exact hs
  · split
    · exact popQueue_keeps hs
    · exact completeAcc_keeps (popQueue_keeps hs)
    · exact keeps_ite (completeAcc_keeps (popQueue_keeps hs)) (keeps_ite (modBr_keeps hs) (completeAcc_keeps (popQueue_keeps hs)))
    · exact keeps_ite (completeAcc_keeps (popQueue_keeps hs)) (modBr_keeps hs)

theorem txFails_keeps {t k moved ws} : Keeps s₀ (txFails s t k moved ws) := by
  simp only [txFails]
  split
  · exact failHead_keeps hs
  · exact moverFails_keeps (keeps_ite hs (pieceDone_keeps hs))

theorem abortLock_keeps : Keeps s₀ (abortLock s) := by
  simp only [abortLock]
  split
  · exact keeps_ite (forcedRelease_keeps (failHead_keeps (record_keeps hs))) hs
  · exact hs

theorem backOff_keeps : Keeps s₀ (backOff s) := by
  simp only [backOff]
  split
  · exact forcedRelease_keeps (modBr_keeps hs)
  · split
    · exact failHead_keeps (record_keeps (forcedRelease_keeps (modBr_keeps hs)))
    · exact moverFails_keeps (record_keeps (forcedRelease_keeps (modBr_keeps hs)))

theorem bridgeAtE_keeps {u} : Keeps s₀ (bridgeAtE s u) := by
  simp only [bridgeAtE]
  split
  · exact modBr_keeps hs
  · exact modBr_keeps hs

/-! The Parapet's safety functions: conditions, removal and restoring of enables, self-checks, activation at E
(12_safety_functions_parapet.md, R407 to R421). -/

theorem modPara_keeps {f} : Keeps s₀ (modPara s f) := keeps_update hs

theorem evalFunc_keeps {f} : Keeps s₀ (evalFunc s f) :=
  keeps_ite hs (keeps_let (modFunc_keeps hs) fun h1 => keeps_ite (record_keeps (modFunc_keeps h1)) h1)

theorem evalFuncs_keeps : Keeps s₀ (evalFuncs s) := refreshDrives_keeps (loop_keeps hs fun _ _ h1 => evalFunc_keeps h1)

theorem removeAll_keeps : Keeps s₀ (removeAll s) := loop_keeps hs fun _ _ h1 => modFunc_keeps h1

theorem parapetFault_keeps {k code data} : Keeps s₀ (parapetFault s k code data) :=
  keeps_ite hs (refreshDrives_keeps (removeAll_keeps (record_keeps (modPara_keeps hs))))

theorem tachoFault_keeps {k ch} : Keeps s₀ (tachoFault s k ch) :=
  keeps_ite hs (refreshDrives_keeps (removeAll_keeps (record_keeps (modPara_keeps hs))))

theorem tachoIsland_keeps {ch set} : Keeps s₀ (tachoIsland s ch set) := by
  simp only [tachoIsland]
  split
  · exact hs
  · exact keeps_ite hs (keeps_let (record_keeps (modPara_keeps hs)) fun h2 => keeps_ite (refreshDrives_keeps (removeAll_keeps h2)) (keeps_ite h2
      (modPara_keeps h2)))

theorem startFunc_keeps {f} : Keeps s₀ (startFunc s f) :=
  keeps_let (modFunc_keeps hs) fun h1 => modFunc_keeps (keeps_ite (modPara_keeps h1) (keeps_ite (modPara_keeps h1) (keeps_ite (modPara_keeps h1) h1)))

theorem edgeStep_keeps {chA value} : Keeps s₀ (edgeStep s chA value) := keeps_update hs

theorem tachoEdgeOn_keeps {chA value ch} : Keeps s₀ (tachoEdgeOn s chA value ch) :=
  keeps_ite hs (keeps_let (evalFuncs_keeps (edgeStep_keeps (loop_keeps hs fun _ _ h1 => modFunc_keeps h1))) fun h2 => keeps_ite
    (tachoFault_keeps h2) (keeps_ite (tachoFault_keeps h2) h2))

theorem activate_keeps {decls f} : Keeps s₀ (activate s decls f) :=
  keeps_ite (keeps_let (modFunc_keeps hs) fun h1 => keeps_let (keeps_ite (startFunc_keeps h1) h1) fun h2 => record_keeps (keeps_ite h2
    (parapetFault_keeps h2))) (modFunc_keeps hs)

theorem settleTacho_keeps {old} : Keeps s₀ (settleTacho s old) := by
  simp only [settleTacho]
  split
  · exact hs
  · exact keeps_let (modPara_keeps hs) fun h1 => keeps_ite (modPara_keeps h1) (modPara_keeps h1)

theorem parapetAtE_keeps {u} : Keeps s₀ (parapetAtE s u) := settleTacho_keeps (loop_keeps hs fun _ _ h1 => activate_keeps h1)

/-! The field channels: comparator, filter, wetting, supply, fault bit (13_field_channels.md, R429 to R456, R648). -/

theorem accept_keeps {c d} : Keeps s₀ (accept s c d) := keeps_let (modChan_keeps hs) fun h1 => keeps_ite (refreshDrives_keeps h1) h1

theorem settleFilter_keeps {c d} : Keeps s₀ (settleFilter s c d) := keeps_ite (accept_keeps hs) hs

theorem wetChange_keeps {c new} : Keeps s₀ (wetChange s c new) := record_keeps (modChan_keeps hs)

theorem lowerWet_keeps {c} : Keeps s₀ (lowerWet s c) := keeps_let (modChan_keeps hs) fun h1 => keeps_ite (record_keeps h1) (wetChange_keeps h1)

theorem countClean_keeps {c} : Keeps s₀ (countClean s c) :=
  keeps_ite (modChan_keeps hs) (keeps_let (modChan_keeps hs) fun h1 => keeps_ite (wetChange_keeps h1) h1)

theorem riseBit_keeps {c k} : Keeps s₀ (riseBit s c k) := tachoIsland_keeps (record_keeps (modChan_keeps hs))

theorem tellTacho_keeps {c} : Keeps s₀ (tellTacho s c) := tachoIsland_keeps hs

theorem endCause_keeps {c k} : Keeps s₀ (endCause s c k) := tellTacho_keeps (dropCause_keeps hs)

theorem reportAgain_keeps {c} : Keeps s₀ (reportAgain s c) := keeps_ite (refreshDrives_keeps (settleBit_keeps (record_keeps (modChan_keeps hs)))) hs

theorem settleChan_keeps {old c} : Keeps s₀ (settleChan s old c) := keeps_ite hs (modChan_keeps hs)

theorem loadSafe_keeps : Keeps s₀ (loadSafe s) := loop_keeps hs fun _ _ h1 => modIsland_keeps h1

theorem channelsAtE_keeps {old oldWet} : Keeps s₀ (channelsAtE s old oldWet) :=
  keeps_let (loop_keeps hs fun _ _ h1 => settleChan_keeps h1) fun h1 => keeps_ite h1 (loop_keeps h1 fun _ _ h2 => modChan_keeps h2)

/-! The two banks: settings, the journal, image headers and their checks (18_boot_update_and_trust.md, R576 to R586, R595). -/

omit hs in
theorem appInForce_ok {x : BankSt} (h : BankOk x) : Memory.wf 0xFF (appInForce x) = true := by
  unfold appInForce appArea
  split
  · exact h.2.2
  · exact h.2.1

theorem writeSettings_keeps {k f} : Keeps s₀ (writeSettings s k f) := modBank_keeps_wf hs fun x h => by
    dsimp only
    split
    · split
      · exact h
      · exact h
    · exact h
    · exact h

theorem writeJournal_keeps {f} : Keeps s₀ (writeJournal s f) := keeps_ite (keeps_boot hs) (keeps_boot hs)

theorem revertJournal_keeps {reason} : Keeps s₀ (revertJournal s reason) := record_keeps (writeJournal_keeps hs)

theorem imageFailed_keeps {k app reason} : Keeps s₀ (imageFailed s k app reason) := record_keeps (keeps_boot hs)

theorem cureMirrors_keeps : Keeps s₀ (cureMirrors s) := modBank_keeps (modBank_keeps hs)

theorem endRefresh_keeps : Keeps s₀ (endRefresh s) := by
  simp only [endRefresh]
  split
  · exact hs
  · exact record_keeps (keeps_boot hs)

end Sys2Proof.Machine
end

section
/-! PROOF. The operations of the networks, of the service and of network time: what each keeps of the queue, the fuses and the memories (`Keeps`). -/

namespace Sys2Proof.Machine

variable {s₀ s : State} (hs : Keeps s₀ s)
include hs

/-! Frames, the egress vote, queues and forwarding, the guardians
(08_vehicle_network.md, R265 to R288, R304, R305; 07_lanes_voting_and_lockstep.md, R231 to R235). -/

theorem modNet_keeps {f} : Keeps s₀ (modNet s f) := keeps_update hs

theorem stopNextCommit_keeps : Keeps s₀ (stopNextCommit s) := keeps_ite (keeps_update hs) hs

theorem egressMinor_keeps {l} : Keeps s₀ (egressMinor s l) := modLane_keeps hs

theorem sendAt_keeps {p f sl t} : Keeps s₀ (sendAt s p f sl t) := by
  simp only [sendAt]
  split
  · exact hs
  · exact keeps_let (loop_keeps hs fun _ _ h1 => egressMinor_keeps h1) fun h1 => keeps_let (keeps_ite (keeps_update h1) h1) fun h2 => modPort_keeps
      (keeps_ite (stopNextCommit_keeps h2) h2)

theorem sendFrame_keeps {p f sl} : Keeps s₀ (sendFrame s p f sl) := sendAt_keeps hs

theorem enqRc_keeps {p f} : Keeps s₀ (enqRc s p f) := modPort_keeps hs

theorem enqBe_keeps {p f} : Keeps s₀ (enqBe s p f) := modPort_keeps hs

theorem enqPtp_keeps {p f} : Keeps s₀ (enqPtp s p f) := modPort_keeps hs

theorem sendLocal_keeps {i dst ethertype payload} : Keeps s₀ (sendLocal s i dst ethertype payload) := by
  simp only [sendLocal]
  split
  · exact enqBe_keeps hs
  · exact loop_keeps hs fun _ _ h1 => enqBe_keeps h1

theorem sendArpRequest_keeps {i ip} : Keeps s₀ (sendArpRequest s i ip) := sendLocal_keeps hs

theorem startArp_keeps {i ip} : Keeps s₀ (startArp s i ip) := keeps_ite hs (sendArpRequest_keeps (modNet_keeps hs))

theorem isolate_keeps {p e} : Keeps s₀ (isolate s p e) := record_keeps (modPort_keeps hs)

theorem violate_keeps {p v} : Keeps s₀ (violate s p v) := by
  simp only [violate]
  split
  · exact keeps_ite (isolate_keeps (modPort_keeps hs)) (modPort_keeps hs)
  · exact isolate_keeps (modPort_keeps hs)
  · exact modPort_keeps hs

theorem learn_keeps {p f} : Keeps s₀ (learn s p f) := modPort_keeps hs

theorem fcsFail_keeps {p} : Keeps s₀ (fcsFail s p) := modPort_keeps hs

theorem rejectFrame_keeps {p} : Keeps s₀ (rejectFrame s p) := modPort_keeps hs

theorem police_keeps {p rc len now} : PairKeeps s₀ (police s p rc len now) := modPort_keeps hs

theorem portAtE_keeps {u p} : Keeps s₀ (portAtE s u p) :=
  keeps_let (modPort_keeps hs) fun h1 => keeps_ite h1 (keeps_let (modPort_keeps h1) fun h2 => keeps_ite (record_keeps h2) h2)

/-! TT frames and Ashlar trailers as the module forms them, and the check of received ones
(08_vehicle_network.md, R277 to R283; 11_ashlar_safe_layer.md, R384 to R388). -/

theorem modConn_keeps {n f} : Keeps s₀ (modConn s n f) := modNet_keeps hs

theorem setRx_keeps {i f} : Keeps s₀ (setRx s i f) := modNet_keeps hs

/-! The receiver checks of Ashlar and what a reception does (11_ashlar_safe_layer.md, R389 to R395; 06_cyclic_execution.md, R196). -/

theorem recordReject_keeps {a c i r code} : Keeps s₀ (recordReject s a c i r code) :=
  keeps_ite (record_keeps hs) (keeps_ite (record_keeps hs) (keeps_ite (record_keeps hs) (record_keeps hs)))

theorem missInst_keeps {c} : Keeps s₀ (missInst s c) := by
  simp only [missInst]
  split
  · exact modPort_keeps hs
  · exact hs

theorem rejectInst_keeps {n c i r code} : Keeps s₀ (rejectInst s n c i r code) := missInst_keeps (modConn_keeps (recordReject_keeps hs))

theorem acceptInst_keeps {n c i} : Keeps s₀ (acceptInst s n c i) := modConn_keeps (keeps_ite hs (record_keeps hs))

theorem differ_keeps {c minor} : Keeps s₀ (differ s c minor) := by
  simp only [differ]
  split
  · exact egressMinor_keeps (record_keeps hs)
  · exact record_keeps hs

theorem checkInst_keeps {n c i r v} : PairKeeps s₀ (checkInst s n c i r v) := by
  simp only [checkInst]
  split
  · exact missInst_keeps (differ_keeps hs)
  · exact keeps_let (keeps_ite (differ_keeps hs) hs) fun h1 => pair_ite h1 (rejectInst_keeps h1)

theorem receive_keeps {d f v} : PairKeeps s₀ (receive s d f v) := by
  simp only [receive]
  refine setRx_keeps ?_
  split
  · exact checkInst_keeps hs
  · exact hs

/-! The ring as a node sees it: sides, legs, frames of the ring, the slot table, merges (09_train_backbone.md, R312 to R352). -/

theorem modRing_keeps {f} : Keeps s₀ (modRing s f) := keeps_update hs

theorem setSide_keeps {sd x} : Keeps s₀ (setSide s sd x) := modRing_keeps hs

theorem changeSide_keeps {sd x p} : Keeps s₀ (changeSide s sd x p) := record_keeps (setSide_keeps hs)

theorem sendRingAt_keeps {p f sl t} : Keeps s₀ (sendRingAt s p f sl t) := by
  simp only [sendRingAt]
  split
  · exact keeps_ite (sendAt_keeps hs) hs
  · exact hs

theorem sendRing_keeps {p f sl} : Keeps s₀ (sendRing s p f sl) := sendRingAt_keeps hs

theorem passOn_keeps {p f st sl} : Keeps s₀ (passOn s p f st sl) := sendRing_keeps hs

theorem decideClaim_keeps {c} : Keeps s₀ (decideClaim s c) := by
  simp only [decideClaim]
  split
  · exact record_keeps (keeps_update hs)
  · split
    · exact record_keeps (modRing_keeps hs)
    · exact keeps_ite (record_keeps (modRing_keeps hs)) (record_keeps (keeps_update hs))

theorem refuseMerge_keeps {sd why mine theirs} : Keeps s₀ (refuseMerge s sd why mine theirs) := record_keeps (keeps_update (modRing_keeps hs))

theorem ringBoundary_keeps : Keeps s₀ (ringBoundary s) := modRing_keeps hs

theorem becomeMaster_keeps {sd} : Keeps s₀ (becomeMaster s sd) := record_keeps (modRing_keeps hs)

/-! The engineering service protocol: messages, sessions, replies, the change log (17_engineering_service.md, R549 to R571). -/

theorem setSession_keeps {id f} : Keeps s₀ (setSession s id f) := keeps_update hs

theorem send_keeps {r} : Keeps s₀ (send s r) := keeps_update hs

theorem sendBare_keeps {e cmd status b} : Keeps s₀ (sendBare s e cmd status b) := send_keeps hs

theorem rejectDatagram_keeps : Keeps s₀ (rejectDatagram s) := keeps_update hs

theorem abandonSeq_keeps {id cause} : Keeps s₀ (abandonSeq s id cause) := by
  simp only [abandonSeq]
  split
  · exact hs
  · split
    · split
      · exact record_keeps (keeps_boot hs)
      · exact record_keeps (keeps_boot hs)
    · exact hs

theorem discardCal_keeps {id cause} : Keeps s₀ (discardCal s id cause) := by
  simp only [discardCal]
  split
  · exact hs
  · exact keeps_ite (record_keeps (keeps_update hs)) hs

theorem closeSession_keeps {id cause} : Keeps s₀ (closeSession s id cause) := by
  simp only [closeSession]
  split
  · exact hs
  · exact record_keeps (keeps_update (discardCal_keeps (abandonSeq_keeps hs)))

theorem logChange_keeps {peer cmd status details} : Keeps s₀ (logChange s peer cmd status details) := keeps_update hs

theorem sendBackbone_keeps {payload} : Keeps s₀ (sendBackbone s payload) := by
  simp only [sendBackbone]
  split
  · exact hs
  · exact enqBe_keeps hs

theorem relayRequest_keeps {e cmd} : Keeps s₀ (relayRequest s e cmd) :=
  keeps_ite hs (keeps_ite (record_keeps (sendBare_keeps hs)) (sendBackbone_keeps (keeps_update hs)))

theorem admitDatagram_keeps {e cmd} {go : State → State} (hgo : ∀ t, Keeps s₀ t → Keeps s₀ (go t)) : Keeps s₀ (admitDatagram s e cmd go) :=
  keeps_ite hs (keeps_ite (rejectDatagram_keeps hs) (keeps_ite (keeps_ite (hgo _ hs) (relayRequest_keeps hs)) (keeps_ite (hgo _ hs) hs)))

theorem okReply_keeps {b} : PairKeeps s₀ (okReply s b) := hs

theorem reject_keeps {status} : PairKeeps s₀ (reject s status) := hs

theorem inSession_keeps {e cmd role} {states : CtlState → Bool} {body : State → Session → SvcOut}
    (hbody : ∀ t x, Keeps s₀ t → PairKeeps s₀ (body t x)) : Keeps s₀ (inSession s e cmd role states body) := by
  unfold inSession
  split
  · exact sendBare_keeps hs
  · next x _ =>
    refine keeps_ite (record_keeps (keeps_update hs)) (keeps_ite ?_ (keeps_ite ?_ (send_keeps hs)))
    · split
      · exact send_keeps hs
      · exact hs
    · extract_lets out r s1
      have hout : PairKeeps s₀ out := pair_ite (reject_keeps hs) (pair_ite (reject_keeps hs) (pair_ite (reject_keeps hs) (hbody _ _ hs)))
      have h1 : Keeps s₀ s1 := setSession_keeps hout
      clear_value s1 r
      split
      · exact send_keeps h1
      · exact h1

theorem serve_keeps {e cmd role} {states : CtlState → Bool} {body : State → Session → SvcOut}
    (hbody : ∀ t x, Keeps s₀ t → PairKeeps s₀ (body t x)) : Keeps s₀ (serve s e cmd role states body) :=
  admitDatagram_keeps hs fun _ h => keeps_ite h (inSession_keeps h hbody)

theorem replyAppend_keeps {status e} : Keeps s₀ (replyAppend s status e) := by
  simp only [replyAppend]
  split
  · exact hs
  · exact send_keeps (setSession_keeps (keeps_update hs))

/-! The PTP messages that the module sends (10_network_time.md, R362 to R369; the layout of IEEE 1588-2019, assumption log entry 88). -/

theorem modTime_keeps {f} : Keeps s₀ (modTime s f) := keeps_update hs

theorem countSeq_keeps {ty p dom} : Keeps s₀ (countSeq s ty p dom) := modTime_keeps hs

/-! Network time: rate correction, domains, peer delays, the whole-tide relabel (10_network_time.md, R358 to R376). -/

theorem setCorr_keeps {c} : Keeps s₀ (setCorr s c) := modTime_keeps hs

theorem steer_keeps : Keeps s₀ (steer s) := keeps_ite (setCorr_keeps hs) (setCorr_keeps (keeps_update hs))

theorem startSlew_keeps : Keeps s₀ (startSlew s) := steer_keeps (modTime_keeps hs)

theorem slewAfterChange_keeps : Keeps s₀ (slewAfterChange s) := keeps_ite (startSlew_keeps hs) (steer_keeps hs)

omit hs in
theorem convEdge_keeps {t : State} (ht : Keeps s₀ t) : Keeps s₀ (convEdge s t) :=
  keeps_ite (keeps_ite ht (record_keeps ht)) (keeps_ite (modTime_keeps ht) ht)

theorem ptpReject_keeps : Keeps s₀ (ptpReject s) := modTime_keeps hs

theorem measureKeeper_keeps {o} : Keeps s₀ (measureKeeper s o) :=
  keeps_let (modTime_keeps hs) fun h1 => keeps_ite (keeps_let (modRing_keeps h1) fun h2 => keeps_ite (startSlew_keeps h2) h2) h1

theorem setHops_keeps : Keeps s₀ (setHops s) := modTime_keeps hs

theorem timeBoundary_keeps : Keeps s₀ (timeBoundary s) := by
  simp only [timeBoundary]
  split
  · exact hs
  · split
    · exact hs
    · exact keeps_ite (keeps_ite hs (modTime_keeps hs)) hs
    · exact keeps_ite (keeps_ite hs (modTime_keeps hs)) hs

theorem setClock_keeps {ns} : Keeps s₀ (setClock s ns) := keeps_update (modTime_keeps hs)

theorem ownDomain_keeps : Keeps s₀ (ownDomain s) := modTime_keeps hs

theorem relabel_keeps {k} : Keeps s₀ (relabel s k) := record_keeps (keeps_update (discardSome_keeps hs))

end Sys2Proof.Machine
end

section
/-! PROOF. Resets, power, the restart of the controller and admission: what each keeps of the queue, the fuses and the memories (`Keeps`). -/

namespace Sys2Proof.Machine

variable {s₀ s : State} (hs : Keeps s₀ s)
include hs

/-! Module reset, loss of power, feeds, wake and NEAP entry (16_power_and_clocks.md, R519 to R540; 01_module_architecture.md, R44 to R50). -/

theorem modPower_keeps {f} : Keeps s₀ (modPower s f) := keeps_update hs

theorem breakAll_keeps : Keeps s₀ (breakAll s) := loop_keeps hs fun _ _ h1 => breakLock_keeps h1

theorem moduleReset_keeps {lost} : Keeps s₀ (moduleReset s lost) := by
  unfold moduleReset
  extract_lets s1 s2 z r
  have h2 : Keeps s₀ s2 := loop_keeps (keeps_ite hs (breakAll_keeps hs)) fun _ _ h => closeSession_keeps h
  obtain ⟨hp, hf, hm⟩ := h2
  refine ⟨hp, hf, fun h => ⟨fun l => ?_, ?_, (hm h).2.2⟩⟩
  · cases l with
    | a => rfl
    | b => rfl
    | c => rfl
  · dsimp only
    split
    · rfl
    · exact (hm h).2.1

theorem setFeed_keeps {f g} : Keeps s₀ (setFeed s f g) := modPower_keeps hs

theorem startDomains_keeps : Keeps s₀ (startDomains s) := refreshDrives_keeps (keeps_update (modPower_keeps hs))

theorem resetModule_keeps : Keeps s₀ (resetModule s) := startDomains_keeps (moduleReset_keeps hs)

theorem takeStraps_keeps {x unstable} : Keeps s₀ (takeStraps s x unstable) := modPower_keeps hs

theorem sendAwake_keeps : Keeps s₀ (sendAwake s) := modPort_keeps (modPort_keeps (keeps_update hs))

theorem wakeUp_keeps {src straps unstable} : Keeps s₀ (wakeUp s src straps unstable) := by
  simp only [wakeUp]
  split
  · exact record_keeps (record_keeps (sendAwake_keeps (startDomains_keeps (modPower_keeps (takeStraps_keeps hs)))))
  · exact record_keeps (sendAwake_keeps (startDomains_keeps (modPower_keeps (takeStraps_keeps hs))))

theorem chargeRefusers_keeps {rs point} : Keeps s₀ (chargeRefusers s rs point) := loop_keeps hs fun _ _ h1 => modPower_keeps h1

/-! Slots in sections, the retain image (02_programming_model.md, R73, R74; 06_cyclic_execution.md, R204 to R214). -/

theorem setRetain_keeps {r} : Keeps s₀ (setRetain s r) := keeps_update hs

theorem writeBody_keeps {caps} : Keeps s₀ (writeBody s caps) := setRetain_keeps hs

theorem markBuf_keeps {second} : Keeps s₀ (markBuf s second) := setRetain_keeps hs

theorem finalRetain_keeps : Keeps s₀ (finalRetain s) := by
  simp only [finalRetain]
  split
  · exact hs
  · exact markBuf_keeps (writeBody_keeps hs)

/-! The restart of the controller, and its other changes of state (06_cyclic_execution.md, R200 to R208, R215; 07, R224; 11, R392; 08, R290). -/

omit hs in
theorem fillRange_sramOk {x : LaneSt} {ea n : Nat} {data : List Byte} (h : SramOk x) : SramOk (fillRange x ea n data) :=
  memTake_ok h (memOfBytes_wf _ _) _ _

omit hs in
theorem loadBank_sramOk {x : LaneSt} {im : AppImage} {d : LayoutDecl} (h : SramOk x) : SramOk (loadBank s im d x) :=
  fillRange_sramOk (fillRange_sramOk (fillRange_sramOk (fillRange_sramOk (fillRange_sramOk h))))

theorem loadBanks_keeps : Keeps s₀ (loadBanks s) := by
  unfold loadBanks
  split
  · exact hs
  · exact loop_keeps hs fun _ _ h => loop_keeps h fun _ _ h => modLane_keeps_sram h fun _ hx => loadBank_sramOk hx

theorem restoreRet_keeps {b} : Keeps s₀ (restoreRet s b) := by
  simp only [restoreRet]
  refine loop_keeps hs fun _ _ h1 => ?_
  split
  · exact loop_keeps h1 fun _ _ h2 => sectWrite_keeps h2
  · exact h1

theorem reviveLanes_keeps : Keeps s₀ (reviveLanes s) := keeps_lanesMap_sram hs fun _ _ h => by
    split
    · exact h
    · exact h

theorem spoilBuffers_keeps {bad} : Keeps s₀ (spoilBuffers s bad) := setRetain_keeps hs

theorem unmark_keeps : Keeps s₀ (unmark s) := setRetain_keeps hs

theorem keepForces_keeps {warm} : Keeps s₀ (keepForces s warm) := keeps_update hs

theorem netAtRun_keeps : Keeps s₀ (netAtRun s) := keeps_update hs

theorem tasksAtRun_keeps : Keeps s₀ (tasksAtRun s) := keeps_lanesMap hs

theorem stopRegs_keeps {warm} : Keeps s₀ (stopRegs s warm) := keeps_ite (keeps_update hs) (keeps_update hs)

theorem restart_keeps {warm source retBad} : Keeps s₀ (restart s warm source retBad) := by
  unfold restart
  extract_lets s1 s2 pick fallback s3 hot s4 s5 s6 s7 s8 s9 s10
  have h2 : Keeps s₀ s2 := keeps_ite (spoilBuffers_keeps (reviveLanes_keeps hs)) (unmark_keeps (reviveLanes_keeps hs))
  have h4 : Keeps s₀ s4 := loadBanks_keeps (keeps_ite (unmark_keeps (record_keeps h2)) h2)
  have h5 : Keeps s₀ s5 := by
    unfold s5
    clear_value pick
    split
    · exact restoreRet_keeps h4
    · exact h4
  have h8 : Keeps s₀ s8 := tasksAtRun_keeps (netAtRun_keeps (stopRegs_keeps (discardOlcs_keeps (keepForces_keeps h5))))
  exact refreshDrives_keeps (setCtl_keeps (keeps_update (abandonRetain_keeps (record_keeps h8))))

theorem settleStopped_keeps : Keeps s₀ (settleStopped s) := keeps_update (setCtl_keeps hs)

theorem ctlEffect_keeps {c retBad} : Keeps s₀ (ctlEffect s c retBad) := by
  unfold ctlEffect
  split
  · exact enterStopped_keeps hs
  · exact keeps_ite (checkVoters_keeps (restart_keeps hs)) hs
  · exact applyForces_keeps (setCtl_keeps hs)
  · exact enterStopped_keeps hs
  · exact hs

theorem execCommandEffectTide_gives {retBad} : Gives s₀ (execCommandEffectTide retBad s) :=
  gives_ite (gives_next (loop_keeps (keeps_update hs) fun _ _ h2 => ctlEffect_keeps h2)) (gives_next hs)

/-! Admission: entry into SETUP, the lanes' checks, the vote, the effect boundary
(05_setup_programs_and_admission.md, R152 to R160, R182 to R188, R643). -/

theorem writeShadows_keeps {ps} : Keeps s₀ (writeShadows s ps) := loop_keeps hs fun _ _ h1 => modFunc_keeps h1

theorem dropShadows_keeps : Keeps s₀ (dropShadows s) := keeps_update hs

theorem lanesCheck_keeps {flip readBack} : Keeps s₀ (lanesCheck s flip readBack) := by
  simp only [lanesCheck]
  split
  · exact hs
  · exact writeShadows_keeps (keeps_update hs)

theorem lateCheck_keeps {l} : Keeps s₀ (lateCheck s l) := by
  simp only [lateCheck]
  split
  · exact hs
  · exact keeps_ite (keeps_update hs) hs

theorem execSetupEntry_gives {flip readBack} : Gives s₀ (execSetupEntry flip readBack s) :=
  gives_ite (gives_next (lanesCheck_keeps (keeps_update (setCtl_keeps (keeps_update (reviveLanes_keeps hs)))))) (gives_next hs)

theorem logAdmission_keeps : Keeps s₀ (logAdmission s) := logChange_keeps hs

theorem putResult_keeps {r differ} : Keeps s₀ (putResult s r differ) := keeps_update hs

theorem endRefused_keeps {twoDiffer} : Keeps s₀ (endRefused s twoDiffer) :=
  keeps_let (keeps_update (dropShadows_keeps (logAdmission_keeps (record_keeps hs)))) fun h3 => keeps_let (replyAppend_keeps (keeps_ite
    (setCtl_keeps h3) (settleStopped_keeps h3))) fun h5 => keeps_ite (resetModule_keeps (revertJournal_keeps h5)) h5

theorem admitted_keeps {im u tags digest} : Keeps s₀ (admitted s im u tags digest) :=
  keeps_let (logAdmission_keeps (record_keeps hs)) fun h1 => keeps_update (keeps_ite (writeSettings_keeps h1) h1)

theorem execAdmissionVote_gives : Gives s₀ (execAdmissionVote s) := by
  simp only [execAdmissionVote]
  split
  · exact gives_next hs
  · split
    · split
      · split
        · exact gives_next (admitted_keeps (loop_keeps (putResult_keeps hs) fun _ _ h1 => dropLane_keeps h1))
        · exact gives_next (loop_keeps (putResult_keeps hs) fun _ _ h1 => dropLane_keeps h1)
      · exact gives_next (endRefused_keeps (loop_keeps (putResult_keeps hs) fun _ _ h1 => dropLane_keeps h1))
    · exact gives_next hs

theorem execBankLoadDone_gives : Gives s₀ (execBankLoadDone s) := gives_ite (gives_next (replyAppend_keeps (keeps_update hs))) (gives_next hs)

theorem dropOverlay_keeps : Keeps s₀ (dropOverlay s) := keeps_ite hs (writeSettings_keeps hs)

theorem portsAtE_keeps {u} : Keeps s₀ (portsAtE s u) := loop_keeps hs fun _ _ h1 => keeps_ite h1 (portAtE_keeps h1)

theorem policiesAtE_keeps : Keeps s₀ (policiesAtE s) := keeps_update hs

theorem trialRunAtE_keeps : Keeps s₀ (trialRunAtE s) := keeps_ite (record_keeps (writeJournal_keeps hs)) hs

theorem takeEffect_keeps {n retBad} : Keeps s₀ (takeEffect s n retBad) :=
  keeps_let (keeps_update (keeps_update (keeps_ite hs (dropOverlay_keeps hs)))) fun h3 => checkVoters_keeps (restart_keeps (trialRunAtE_keeps
    (loadSafe_keeps (parapetAtE_keeps (channelsAtE_keeps (policiesAtE_keeps (bridgeAtE_keeps (portsAtE_keeps (keeps_ite (keeps_boot h3) h3)))))))))

theorem execEffectBoundary_gives {retBad} : Gives s₀ (execEffectBoundary retBad s) := by
  simp only [execEffectBoundary]
  split
  · exact gives_next (keeps_ite (takeEffect_keeps hs) hs)
  · exact gives_next hs

end Sys2Proof.Machine
end

section
/-! PROOF. Boot and trial, the channels and the vehicle network: what each keeps of the queue, the fuses and the memories (`Keeps`). -/

namespace Sys2Proof.Machine

variable {s₀ s : State} (hs : Keeps s₀ s)
include hs

/-! The boot ROM, the trial of a staged image, the fuses, and what the steward does as it starts
(18_boot_update_and_trust.md, R576 to R602; 19_event_recorder.md, R612, R613; 17, R573; 16, R537). -/

theorem recordKey_keeps {slot op result} : Keeps s₀ (recordKey s slot op result) := record_keeps hs

theorem burnRb_keeps {n} : Keeps s₀ (burnRb s n) := by
  unfold burnRb
  split
  · next hlt =>
    obtain ⟨hp, ⟨hrb, hslots⟩, hm⟩ := hs
    have h (h64 : s₀.boot.rb ≤ 64) : s₀.boot.rb ≤ min 64 n ∧ min 64 n ≤ 64 := by
      have := hrb h64
      omega
    exact record_keeps (s := { s with boot := { s.boot with rb := min 64 n } }) ⟨hp, ⟨h, hslots⟩, hm⟩
  · exact hs

theorem burnKey_keeps : Keeps s₀ (burnKey s) := by
  unfold burnKey
  split
  · exact hs
  · split
    · next n key _ hempty =>
      exact recordKey_keeps (keeps_slots hs (slotKept_vmod (f := fun _ => ⟨key, true, false⟩) (slotKept_of_empty hempty)) fun _ => .refl _)
    · exact hs

theorem burnPending_keeps : Keeps s₀ (burnPending s) := writeJournal_keeps (burnKey_keeps (burnRb_keeps hs))

theorem tryFirmware_keeps {k} : PairKeeps s₀ (tryFirmware s k) := keeps_ite hs (imageFailed_keeps hs)

theorem tryApp_keeps {k second} : PairKeeps s₀ (tryApp s k second) := keeps_ite hs (imageFailed_keeps hs)

theorem recordStore_keeps {store} : Keeps s₀ (recordStore s store) := record_keeps hs

theorem romService_keeps : Keeps s₀ (romService s) := record_keeps (keeps_boot (modPort_keeps hs))

theorem pickTrial_keeps {step attempt} : PairKeeps s₀ (pickTrial s step attempt) := by
  unfold pickTrial
  extract_lets s1 s2 k t u
  have ht : PairKeeps s₀ t := tryFirmware_keeps (record_keeps (writeJournal_keeps hs))
  have hu : PairKeeps s₀ u := tryApp_keeps ht
  exact pair_ite (pair_mk (revertJournal_keeps ht)) (pair_ite ht (pair_ite hu (pair_mk (revertJournal_keeps hu))))

theorem pickActive_keeps : PairKeeps s₀ (pickActive s) := by
  unfold pickActive
  extract_lets j t o u s1
  have ht : PairKeeps s₀ t := tryFirmware_keeps hs
  have hu : PairKeeps s₀ u := tryFirmware_keeps ht
  exact pair_ite ht (pair_ite (pair_ite (pair_mk (record_keeps (record_keeps (writeJournal_keeps hu)))) hu) ht)

theorem pickFresh_keeps : PairKeeps s₀ (pickFresh s) :=
  keeps_let (tryFirmware_keeps hs) fun h1 => pair_ite (recordStore_keeps (writeJournal_keeps h1)) (keeps_let (tryFirmware_keeps h1) fun h2 =>
    pair_ite (recordStore_keeps (writeJournal_keeps h2)) h2)

theorem pickJournal_keeps : PairKeeps s₀ (pickJournal s) := by
  simp only [pickJournal]
  split
  · exact pickActive_keeps (keeps_ite (revertJournal_keeps hs) hs)
  · split
    · exact pickActive_keeps (keeps_ite (burnPending_keeps hs) hs)
    · exact pickTrial_keeps hs
    · exact pair_ite (pickActive_keeps (revertJournal_keeps hs)) (pickTrial_keeps hs)
    · exact pickActive_keeps (revertJournal_keeps hs)
    · exact pickActive_keeps hs

theorem replayHeadland_keeps : Keeps s₀ (replayHeadland s) := keeps_let (keeps_update hs) fun h1 => keeps_ite h1 (record_keeps h1)

theorem startRecorder_keeps : Keeps s₀ (startRecorder s) := record_keeps hs

theorem replayLatch_keeps : Keeps s₀ (replayLatch s) := modPower_keeps (loop_keeps hs fun _ _ h1 => record_keeps h1)

theorem takeCal_keeps : Keeps s₀ (takeCal s) := keeps_ite (cureMirrors_keeps (keeps_update hs)) hs

theorem offerApp_keeps {k} : Keeps s₀ (offerApp s k) := keeps_update (keeps_boot hs)

theorem bootApp_keeps {k} : Keeps s₀ (bootApp s k) :=
  keeps_ite (settleStopped_keeps hs) (keeps_ite (keeps_ite (offerApp_keeps hs) hs) (keeps_ite (settleStopped_keeps hs) (keeps_let
    (tryApp_keeps hs) fun h1 => keeps_ite (offerApp_keeps h1) (settleStopped_keeps h1))))

theorem bootPorts_keeps : Keeps s₀ (bootPorts s) := loop_keeps hs fun _ _ h1 => modPort_keeps h1

theorem startSteward_keeps {k src} : Keeps s₀ (startSteward s k src) := by
  unfold startSteward
  extract_lets fw s1 r1 b1 s2 s3 s4 s5 s6
  have h3 : Keeps s₀ s3 := replayLatch_keeps (replayHeadland_keeps (startRecorder_keeps (keeps_boot (record_keeps hs))))
  have h4 : Keeps s₀ s4 := keeps_ite (record_keeps h3) h3
  have h5 : Keeps s₀ s5 := keeps_ite (record_keeps h4) h4
  have h6 : Keeps s₀ s6 := keeps_ite (recordStore_keeps h5) h5
  exact bootApp_keeps (refreshDrives_keeps (takeCal_keeps (bootPorts_keeps h6)))

theorem execBootBankSelect_gives : Gives s₀ (execBootBankSelect s) := by
  unfold execBootBankSelect
  extract_lets s1 r
  have hr : PairKeeps s₀ r := pair_ite (pickFresh_keeps (endRefresh_keeps hs)) (pickJournal_keeps (endRefresh_keeps hs))
  clear_value r
  refine gives_ite (gives_next hs) ?_
  split
  · exact gives_next (startSteward_keeps hr)
  · exact gives_next (romService_keeps hr)
  · exact gives_next (resetModule_keeps hr)

theorem failTrial_keeps {reason} : Keeps s₀ (failTrial s reason) := resetModule_keeps (revertJournal_keeps hs)

theorem beginStep_keeps {st} : Keeps s₀ (beginStep s st) := record_keeps (writeJournal_keeps hs)

theorem migrate_keeps : PairKeeps s₀ (migrate s) := pair_ite hs (record_keeps (modBank_keeps hs))

theorem execTrialStep_gives : Gives s₀ (execTrialStep s) := by
  simp only [execTrialStep]
  split
  · split
    · exact keeps_let (tryFirmware_keeps hs) fun h1 => gives_ite (gives_next (failTrial_keeps h1)) (keeps_let (tryApp_keeps h1) fun h2 => gives_ite
        (gives_next (failTrial_keeps h2)) (gives_next (beginStep_keeps h2)))
    · exact keeps_let (migrate_keeps hs) fun h1 => gives_ite (gives_next (offerApp_keeps (beginStep_keeps h1))) (gives_next (failTrial_keeps h1))
    · exact gives_next hs
  · exact gives_next hs

theorem execFuseBurnDone_gives : Gives s₀ (execFuseBurnDone s) := by
  simp only [execFuseBurnDone]
  split
  · split
    · exact gives_next (burnPending_keeps hs)
    · exact gives_next (send_keeps (setSession_keeps (keeps_update (burnPending_keeps hs))))
  · exact gives_next hs

theorem execCairnSectorProgram_gives {ok} : Gives s₀ (execCairnSectorProgram ok s) := by
  simp only [execCairnSectorProgram]
  split
  · exact gives_next hs
  · exact gives_ite (gives_next hs) (keeps_let (wake_keeps hs) fun h1 => gives_ite (gives_next (sayFull_keeps (keeps_update h1))) (gives_next
      (record_keeps (keeps_update h1))))

theorem execCairnTokenRefill_gives : Gives s₀ (execCairnTokenRefill s) := gives_ite (gives_next (keeps_update hs)) (gives_next hs)

theorem execSuppressedReportTimeout_gives {code} : Gives s₀ (execSuppressedReportTimeout code s) :=
  gives_next (keeps_ite (reportSuppressed_keeps hs) hs)

theorem execHeadlandEventBuffer_gives {code data} : Gives s₀ (execHeadlandEventBuffer code data s) :=
  gives_next (keeps_ite (headlandRecord_keeps hs) hs)

/-! The commands of the field channels (13_field_channels.md). -/

theorem wakeChange_keeps {ch w mv} : Keeps s₀ (wakeChange s ch w mv) := keeps_ite hs (modChan_keeps hs)

theorem inputChange_keeps {ch d mv} : Keeps s₀ (inputChange s ch d mv) :=
  keeps_ite hs (keeps_let (modChan_keeps (settleFilter_keeps hs)) fun h2 => keeps_let (keeps_ite (countClean_keeps h2) h2) fun h3 => keeps_ite
    (accept_keeps h3) h3)

theorem execComparatorChange_gives {ch mv} : Gives s₀ (execComparatorChange ch mv s) := by
  simp only [execComparatorChange]
  split
  · exact gives_next (wakeChange_keeps (modIsland_keeps hs))
  · exact gives_next (inputChange_keeps (modIsland_keeps hs))
  · exact gives_next (modIsland_keeps hs)

theorem execFilterAccept_gives {ch} : Gives s₀ (execFilterAccept ch s) := by
  simp only [execFilterAccept]
  split
  · exact gives_next hs
  · split
    · exact gives_next (keeps_ite (modChan_keeps hs) hs)
    · exact gives_next (keeps_ite (accept_keeps hs) hs)
    · exact gives_next hs

theorem execWettingEnd_gives {ch} : Gives s₀ (execWettingEnd ch s) := gives_next (keeps_ite (modChan_keeps hs) hs)

theorem execChannelSupplyChange_gives {ch mv} : Gives s₀ (execChannelSupplyChange ch mv s) := by
  unfold execChannelSupplyChange
  extract_lets old new s1 s2 s3 s4
  have h1 : Keeps s₀ s1 := modIsland_keeps hs
  have h3 : Keeps s₀ s3 := by
    unfold s3
    clear_value new
    split
    · exact modChan_keeps (modChan_keeps h1)
    · exact modChan_keeps (modChan_keeps h1)
    · exact endCause_keeps (modChan_keeps h1)
  exact gives_ite (gives_next h1) (gives_next (settleSwitch_keeps (keeps_ite (modChan_keeps h3) h3)))

theorem execIslandStart_gives {ch} : Gives s₀ (execIslandStart ch s) :=
  gives_ite (gives_next hs) (gives_next (refreshDrives_keeps (riseBit_keeps (modChan_keeps (reportAgain_keeps hs)))))

theorem loseRefresh_keeps {ch sent} : Keeps s₀ (loseRefresh s ch sent) :=
  keeps_ite hs (settleSwitch_keeps (record_keeps (modIsland_keeps (demand_keeps hs))))

theorem execIslandWatchdogExpire_gives {e} : Gives s₀ (execIslandWatchdogExpire e s) := gives_next (keeps_ite (loseRefresh_keeps hs) hs)

theorem execIslandRefreshResume_gives {ch} : Gives s₀ (execIslandRefreshResume ch s) :=
  gives_ite (gives_next hs) (keeps_let (modIsland_keeps hs) fun h1 => gives_next (settleSwitch_keeps (takeDrive_keeps (endCause_keeps (keeps_ite
    (record_keeps h1) h1)))))

theorem execOverloadTrip_gives {ch} : Gives s₀ (execOverloadTrip ch s) :=
  gives_ite (gives_next (settleSwitch_keeps (modChan_keeps hs))) (gives_next hs)

theorem execReadbackMismatch_gives {ch} : Gives s₀ (execReadbackMismatch ch s) := gives_ite (gives_next (modChan_keeps hs)) (gives_next hs)

theorem localise_keeps {ch} : Keeps s₀ (localise s ch) := by
  simp only [localise]
  split
  · exact riseBit_keeps hs
  · split
    · exact riseBit_keeps hs
    · exact keeps_let (riseBit_keeps hs) fun h1 => keeps_ite (settleSwitch_keeps (releaseTrip_keeps (modChan_keeps h1))) (modChan_keeps h1)

theorem execFaultBitRise_gives {ch cause mv} : Gives s₀ (execFaultBitRise ch cause mv s) :=
  keeps_let (modIsland_keeps hs) fun h1 => gives_ite (gives_next h1) (keeps_let (settleSwitch_keeps (modChan_keeps h1)) fun h3 => gives_next
    (keeps_ite h3 (localise_keeps h3)))

theorem execLocalisationEnd_gives {ch obs} : Gives s₀ (execLocalisationEnd ch obs s) := by
  unfold execLocalisationEnd
  dsimp only
  split
  · exact gives_next hs
  · refine gives_ite (gives_next hs) (gives_ite ?_ ?_)
    · split
      · exact gives_next (settleSwitch_keeps (modChan_keeps (tellTacho_keeps (settleBit_keeps (modChan_keeps hs)))))
      · exact gives_next (settleSwitch_keeps (modChan_keeps (riseBit_keeps (modChan_keeps (tellTacho_keeps (settleBit_keeps (modChan_keeps hs)))))))
      · exact gives_next (settleSwitch_keeps (modChan_keeps hs))
    · split
      · exact gives_next (settleSwitch_keeps (modChan_keeps hs))
      · exact gives_next (lowerWet_keeps (settleSwitch_keeps (modChan_keeps (tellTacho_keeps (settleBit_keeps (modChan_keeps hs))))))

theorem execCouplerSilent_gives {ch} : Gives s₀ (execCouplerSilent ch s) :=
  gives_ite (gives_next hs) (gives_next (refreshDrives_keeps (record_keeps (modChan_keeps hs))))

theorem execTestPulseStart_gives {ch} : Gives s₀ (execTestPulseStart ch s) := by
  simp only [execTestPulseStart]
  split
  · exact gives_next hs
  · exact gives_ite (gives_next hs) (keeps_let (modChan_keeps hs) fun h1 => gives_next (settleSwitch_keeps (keeps_ite (releaseTrip_keeps h1) h1)))

theorem judge_keeps {ch dark pass rb} : Keeps s₀ (judge s ch dark pass rb) :=
  keeps_let (modChan_keeps hs) fun h1 => keeps_let (keeps_ite h1 (record_keeps h1)) fun h2 => keeps_ite (record_keeps h2) (keeps_ite
    (record_keeps h2) h2)

theorem execTestPulseEnd_gives {ch mv} : Gives s₀ (execTestPulseEnd ch mv s) := by
  simp only [execTestPulseEnd]
  split
  · exact gives_next (keeps_ite (settleSwitch_keeps (modChan_keeps (modIsland_keeps hs))) (modIsland_keeps hs))
  · exact gives_next (keeps_ite (settleSwitch_keeps (judge_keeps (modIsland_keeps hs))) (modIsland_keeps hs))
  · exact gives_next (keeps_ite (settleSwitch_keeps (judge_keeps (modIsland_keeps hs))) (modIsland_keeps hs))
  · exact gives_next (modIsland_keeps hs)

theorem execFaultBitClear_gives {ch cause} : Gives s₀ (execFaultBitClear ch cause s) :=
  gives_ite (gives_next hs) (gives_next (settleSwitch_keeps (endCause_keeps hs)))

theorem execIslandReportingAgain_gives {ch} : Gives s₀ (execIslandReportingAgain ch s) :=
  gives_ite (gives_next (reportAgain_keeps hs)) (gives_next hs)

/-! The 8 ns tick of the local clock (10_network_time.md, R359). -/

theorem tick_keeps : Keeps s₀ (tick s) := keeps_ite (keeps_update hs) (keeps_ite hs (keeps_update hs))

/-! The commands of the vehicle network (08_vehicle_network.md). -/

theorem bbLinkUp_keeps {i} : Keeps s₀ (bbLinkUp s i) := keeps_let (modTime_keeps (modRing_keeps hs)) fun h2 => keeps_ite (changeSide_keeps h2) h2

theorem bbLinkLoss_keeps {i} : Keeps s₀ (bbLinkLoss s i) := by
  simp only [bbLinkLoss]
  split
  · exact keeps_ite (refuseMerge_keeps (modRing_keeps hs)) (modRing_keeps hs)
  · exact modRing_keeps hs

theorem execLinkUp_gives {p} : Gives s₀ (execLinkUp p s) :=
  gives_ite (gives_next hs) (keeps_let (modPort_keeps hs) fun h1 => gives_next (keeps_ite (bbLinkUp_keeps h1) (record_keeps h1)))

theorem execLinkLoss_gives {p} : Gives s₀ (execLinkLoss p s) :=
  gives_ite (gives_next hs) (keeps_let (modPort_keeps hs) fun h1 => gives_next (keeps_ite (bbLinkLoss_keeps h1) (record_keeps h1)))

theorem execTtWindowTx_gives {p win sl ready} : Gives s₀ (execTtWindowTx p win sl ready s) := by
  simp only [execTtWindowTx]
  split
  · exact gives_next hs
  · split
    · exact gives_next hs
    · exact gives_ite (gives_next hs) (keeps_let (modPort_keeps hs) fun h1 => gives_next (keeps_ite (sendFrame_keeps h1) h1))

theorem execTtFrameReceive_gives {p arr verdict} : Gives s₀ (execTtFrameReceive p arr verdict s) := by
  simp only [execTtFrameReceive]
  split
  · exact gives_next hs
  · split
    · exact gives_next (violate_keeps hs)
    · exact gives_next hs
    · exact gives_ite (gives_next (fcsFail_keeps hs)) (keeps_let (learn_keeps hs) fun h1 => gives_ite (gives_next (rejectFrame_keeps h1)) (gives_ite
        (gives_next h1) (keeps_let (modPort_keeps h1) fun h2 => gives_next (receive_keeps (keeps_ite (modNet_keeps h2) h2)))))

theorem execIsolationEnd_gives {p} : Gives s₀ (execIsolationEnd p s) := gives_ite (gives_next (record_keeps (modPort_keeps hs))) (gives_next hs)

theorem execProbationEnd_gives {p} : Gives s₀ (execProbationEnd p s) := gives_ite (gives_next (record_keeps (modPort_keeps hs))) (gives_next hs)

theorem execGuardianExpReset_gives {p} : Gives s₀ (execGuardianExpReset p s) := gives_ite (gives_next (modPort_keeps hs)) (gives_next hs)

theorem execFrameForward_gives {p arr} : Gives s₀ (execFrameForward p arr s) := by
  unfold execFrameForward
  extract_lets x s1 s2 rc
  have h1 : Keeps s₀ s1 := modPort_keeps hs
  have h2 : Keeps s₀ s2 := learn_keeps h1
  refine gives_ite (gives_next h1) (gives_ite (gives_next (violate_keeps h1)) (gives_ite (gives_next (violate_keeps h1)) ?_))
  refine gives_ite (gives_next (violate_keeps h1)) (gives_ite (gives_next (fcsFail_keeps h1)) (gives_ite (gives_next h2) ?_))
  split
  · next he => exact gives_next ((police_keeps h2).of_eq he)
  · next he =>
    have h3 := (police_keeps h2).of_eq he
    exact gives_ite (gives_next h3) (gives_next (loop_keeps h3 fun _ _ h => keeps_ite (enqRc_keeps h) (enqBe_keeps h)))

theorem startNonTt_keeps {p now w cut sl} : Keeps s₀ (startNonTt s p now w cut sl) := by
  unfold startNonTt
  extract_lets x fits carry
  clear_value carry
  split
  · exact sendFrame_keeps (modPort_keeps hs)
  · split
    · exact keeps_ite (sendAt_keeps (modPort_keeps hs)) hs
    · split
      · exact hs
      · exact keeps_ite (sendFrame_keeps (modPort_keeps hs)) hs

theorem startBackbone_keeps {i now sl} : Keeps s₀ (startBackbone s i now sl) := by
  simp only [startBackbone]
  split
  · exact keeps_ite (sendAt_keeps (modPort_keeps hs)) hs
  · exact keeps_ite (sendFrame_keeps (modPort_keeps hs)) hs
  · exact hs

theorem execNonTtEgressStart_gives {p e sl} : Gives s₀ (execNonTtEgressStart p e sl s) := by
  simp only [execNonTtEgressStart]
  split
  · exact gives_next hs
  · split
    · exact gives_next (startBackbone_keeps hs)
    · split
      · exact gives_next hs
      · exact gives_next (startNonTt_keeps hs)

theorem push_keeps {d i} : Keeps s₀ (push s d i) := by
  simp only [push]
  split
  · split
    · exact hs
    · split
      · exact startArp_keeps (keeps_update (modNet_keeps hs))
      · exact enqRc_keeps (modNet_keeps hs)
  · exact hs

theorem execTrdpPush_gives : Gives s₀ (execTrdpPush s) :=
  gives_ite (gives_next (loop_keeps (modNet_keeps hs) fun _ _ h2 => push_keeps h2)) (gives_next hs)

theorem execTrdpReceive_gives {p frame} : Gives s₀ (execTrdpReceive p frame s) := by
  simp only [execTrdpReceive]
  split
  · exact gives_next hs
  · split
    · exact gives_next (fcsFail_keeps hs)
    · split
      · exact gives_next (rejectFrame_keeps hs)
      · split
        · exact gives_next (rejectFrame_keeps hs)
        · exact gives_ite (gives_next (rejectFrame_keeps hs)) (gives_next (setRx_keeps (modNet_keeps hs)))

theorem execTrdpPullReject_gives {p x} : Gives s₀ (execTrdpPullReject p x s) := gives_next (keeps_ite (rejectFrame_keeps hs) hs)

theorem execArpRequestReceive_gives {i target ip mac} : Gives s₀ (execArpRequestReceive i target ip mac s) :=
  gives_next (keeps_ite (sendLocal_keeps hs) hs)

theorem execArpRetry_gives {i ip} : Gives s₀ (execArpRetry i ip s) := by
  simp only [execArpRetry]
  split
  · exact gives_next hs
  · exact gives_ite (gives_next hs) (gives_ite (gives_next (modNet_keeps hs)) (gives_next (sendArpRequest_keeps (modNet_keeps hs))))

theorem execArpEntryExpire_gives {i ip} : Gives s₀ (execArpEntryExpire i ip s) := gives_next (modNet_keeps hs)

theorem execArpReply_gives {i ip mac} : Gives s₀ (execArpReply i ip mac s) := gives_ite (gives_next hs) (gives_next (modNet_keeps hs))

theorem execAddressConflict_gives {i mac} : Gives s₀ (execAddressConflict i mac s) :=
  gives_ite (gives_next hs) (gives_next (record_keeps (modNet_keeps hs)))

theorem execIcmpEcho_gives {i mac hdr msg} : Gives s₀ (execIcmpEcho i mac hdr msg s) := by
  simp only [execIcmpEcho]
  split
  · exact gives_next hs
  · exact gives_ite (gives_next hs) (gives_next (sendLocal_keeps (modNet_keeps hs)))

theorem modMode_keeps {f} : Keeps s₀ (modMode s f) := modNet_keeps hs

theorem execModeEchoTide_gives : Gives s₀ (execModeEchoTide s) :=
  gives_ite (gives_next hs) (keeps_let (modMode_keeps hs) fun h1 => gives_ite (gives_next (modMode_keeps h1)) (gives_ite (gives_next
    (modMode_keeps h1)) (gives_next (modMode_keeps h1))))

theorem execModeSwitch_gives : Gives s₀ (execModeSwitch s) := gives_ite (gives_next (record_keeps (modMode_keeps hs))) (gives_next hs)

theorem execModeRequestLapse_gives : Gives s₀ (execModeRequestLapse s) := gives_ite (gives_next (record_keeps (modMode_keeps hs))) (gives_next hs)

theorem execSqiUpdate_gives {p snr} : Gives s₀ (execSqiUpdate p snr s) := gives_ite (gives_next hs) (gives_next (modPort_keeps hs))

theorem execPortDerate_gives {p} : Gives s₀ (execPortDerate p s) := by
  simp only [execPortDerate]
  split
  · exact gives_next hs
  · exact gives_ite (gives_next hs) (gives_ite (keeps_let (record_keeps (modPort_keeps hs)) fun h2 => gives_next (keeps_ite (record_keeps h2) h2))
      (gives_ite (gives_next hs) (gives_next (record_keeps (modPort_keeps hs)))))

end Sys2Proof.Machine
end

section
/-! PROOF. The tide: votes, the commit instant, the release and the freeze: what each keeps of the queue, the fuses and the memories (`Keeps`). -/

namespace Sys2Proof.Machine

variable {s₀ s : State} (hs : Keeps s₀ s)
include hs

/-! The output window, the classification of exceptions, the Parapet's vote and the lane signature
(01, R24; 02, R86 to R89; 06, R193 to R195, R209; 07, R229, R230, R236, R237). -/

theorem readRange_keeps {l lo n r} : PairKeeps s₀ (readRange s l lo n r) := pair_foldl (pair_mk hs) fun _ _ hp => pair_mk (eccRead_keeps hp)

theorem liftOne_keeps {bad d l} : Keeps s₀ (liftOne s bad d l) := keeps_ite hs (modTask_keeps (readRange_keeps (keeps_ite (modLane_keeps hs) hs)))

theorem liftAll_keeps {bad} : Keeps s₀ (liftAll s bad) := loop_keeps hs fun _ _ h1 => loop_keeps h1 fun _ _ h2 => liftOne_keeps h2

theorem pendStopAt_keeps {t f} : Keeps s₀ (pendStopAt s t f) := keeps_update hs

theorem stopAt_keeps {t} : Keeps s₀ (stopAt s t) := keeps_update hs

theorem programFault_keeps {p t r third} : Keeps s₀ (programFault s p t r third) := pendStopAt_keeps (record_keeps hs)

theorem classify_keeps {p t} : Keeps s₀ (classify s p t) := by
  simp only [classify]
  split
  · exact hs
  · exact keeps_let (loop_keeps hs fun _ _ h1 => modTask_keeps h1) fun h1 => keeps_ite (programFault_keeps h1) (keeps_ite (dropLane_keeps h1)
      (keeps_ite (programFault_keeps h1) (pendStopAt_keeps h1)))

/-! The commit instant: outputs, images, signatures, routes, missed windows
(01, R25, R26; 07, R229, R230, R240, R241; 08, R291 to R293, R296, R297; 09, R335; 11, R386). -/

theorem startRequest_keeps {m} : Keeps s₀ (startRequest s m) := record_keeps (modMode_keeps hs)

theorem modeCommit_keeps {w} : Keeps s₀ (modeCommit s w) := by
  unfold modeCommit
  extract_lets m changed dead named said outside s1 s2 want
  have h1 : Keeps s₀ s1 := modMode_keeps hs
  have h2 : Keeps s₀ s2 := keeps_ite (record_keeps h1) h1
  clear_value want
  refine keeps_ite hs (keeps_ite (keeps_ite h2 ?_) ?_)
  · split
    · exact endRequest_keeps h2
    · exact startRequest_keeps (endRequest_keeps h2)
  · split
    · exact h2
    · exact startRequest_keeps h2

theorem routeVote_keeps {b} : Keeps s₀ (routeVote s b) :=
  keeps_let (loop_keeps hs fun _ _ h1 => egressMinor_keeps h1) fun h1 => keeps_ite (keeps_let (keeps_update h1) fun h2 => keeps_ite
    (stopNextCommit_keeps h2) h2) h1

theorem routeCommit_keeps {ds id} {f : State → Option (Word × Byte) → State} (hf : ∀ t w, Keeps s₀ t → Keeps s₀ (f t w)) :
    Keeps s₀ (routeCommit s ds id f) := by
  unfold routeCommit
  split
  · exact hs
  · exact keeps_ite (hf _ _ (routeVote_keeps hs)) hs

theorem cabCommit_keeps {w} : Keeps s₀ (cabCommit s w) := modRing_keeps hs

theorem routesCommit_keeps {ds} : Keeps s₀ (routesCommit s ds) :=
  routeCommit_keeps (routeCommit_keeps (routeCommit_keeps hs fun _ _ h1 => modeCommit_keeps h1) fun _ _ h2 => cabCommit_keeps h2) fun _ _ h3 => h3

theorem sendCommit_keeps {ds} : Keeps s₀ (sendCommit s ds) := modNet_keeps hs

theorem dueShadow_keeps : Keeps s₀ (dueShadow s) := keeps_ite (keeps_update hs) hs

theorem settleCommit_keeps {ds} : Keeps s₀ (settleCommit s ds) :=
  loop_keeps (dueShadow_keeps (loop_keeps hs fun _ _ h1 => modLane_keeps h1)) fun _ _ h2 =>
    keeps_update (loop_keeps h2 fun _ _ h3 => modTask_keeps h3)

theorem giveOutputs_keeps {present outs} : Keeps s₀ (giveOutputs s present outs) := by
  simp only [giveOutputs]
  refine loop_keeps ?_ (fun _ _ h1 => keeps_ite (modChan_keeps h1) h1)
  refine applyForces_keeps ?_
  refine loop_keeps hs fun _ _ h1 => ?_
  split
  · exact modChan_keeps h1
  · exact h1

theorem commitRun_keeps {silent} : Keeps s₀ (commitRun s silent) :=
  keeps_ite hs (keeps_ite (routesCommit_keeps (sendCommit_keeps (settleCommit_keeps hs)))
    (keeps_let (loop_keeps hs fun _ _ h1 => modLane_keeps h1) fun h1 => keeps_ite (enterStopped_keeps (settleCommit_keeps h1))
      (routesCommit_keeps (sendCommit_keeps (settleCommit_keeps (giveOutputs_keeps h1))))))

theorem missWindows_keeps : Keeps s₀ (missWindows s) := loop_keeps hs fun _ _ h1 => modPort_keeps h1

theorem ageReceived_keeps : Keeps s₀ (ageReceived s) := modNet_keeps hs

theorem toBoundary_keeps : Keeps s₀ (toBoundary s) := keeps_update hs

theorem noSignatures_keeps : Keeps s₀ (noSignatures s) := keeps_lanesMap hs

theorem runCommit_keeps {silent} : Keeps s₀ (runCommit s silent) := by
  simp only [runCommit]
  split
  · exact keeps_ite (enterStopped_keeps hs) (commitRun_keeps hs)
  · exact commitRun_keeps hs

theorem commitInstant_keeps {silent} : Keeps s₀ (commitInstant s silent) := by
  simp only [commitInstant]
  refine timeBoundary_keeps ?_
  refine ringBoundary_keeps ?_
  split
  · exact runCommit_keeps (noSignatures_keeps (ageReceived_keeps (missWindows_keeps (toBoundary_keeps hs))))
  · exact applyForces_keeps (noSignatures_keeps (ageReceived_keeps (missWindows_keeps (toBoundary_keeps hs))))
  · exact noSignatures_keeps (ageReceived_keeps (missWindows_keeps (toBoundary_keeps hs)))

/-! What a release does before the tasks are ready: the forced join, forces, online change, the retain capture
(06_cyclic_execution.md, R190, R204, R205, R209, R214, R217 to R222; 07_lanes_voting_and_lockstep.md, R255, R257). -/

theorem dropItems_keeps {l p} : Keeps s₀ (dropItems s l p) :=
  keeps_ite (record_keeps (modCore_keeps (keeps_ite (record_keeps (modCore_keeps hs)) hs))) (keeps_ite (record_keeps (modCore_keeps hs)) hs)

theorem forceJoin_keeps {l p} : Keeps s₀ (forceJoin s l p) := keeps_ite (keeps_let (modPair_keeps hs) fun h1 => keeps_ite h1 (dropItems_keeps h1)) hs

theorem putServed_keeps {d k off b} : Keeps s₀ (putServed s d k off b) := loop_keeps hs fun _ _ h1 => bankWrite_keeps h1

theorem applyRw_keeps {d f} : PairKeeps s₀ (applyRw s d f) := by
  simp only [applyRw]
  split
  · split
    · split
      · split
        · exact putServed_keeps hs
        · exact hs
      · exact putServed_keeps hs
    · exact hs
  · exact hs

theorem rwForces_keeps {d} : Keeps s₀ (rwForces s d) := by
  unfold rwForces
  extract_lets r
  have hr : PairKeeps s₀ r := pair_foldl (pair_mk hs) fun _ _ hp => pair_mk (applyRw_keeps hp)
  exact keeps_update hr

theorem effectItem_keeps {d k off b} : PairKeeps s₀ (effectItem s d k off b) :=
  keeps_update (keeps_ite (putServed_keeps hs) (keeps_ite hs (putServed_keeps hs)))

theorem effectK_keeps {p off v} : Keeps s₀ (effectK s p off v) := loop_keeps hs fun _ _ h1 => bankWrite_keeps h1

theorem logItem_keeps {r i old new o} : Keeps s₀ (logItem s r i old new o) := logChange_keeps hs

theorem reachItem_keeps {ds r n i} : PairKeeps s₀ (reachItem s ds r n i) := by
  simp only [reachItem]
  split
  · exact hs
  · split
    · exact pair_ite (effectK_keeps hs) hs
    · split
      · exact hs
      · split
        · exact hs
        · exact logItem_keeps (recordItem_keeps (effectItem_keeps hs))

theorem reachReq_keeps {ds r} : PairKeeps s₀ (reachReq s ds r) :=
  pair_ite (pair_mk (pair_foldl (pair_mk hs) fun _ _ hp => pair_mk (reachItem_keeps hp)).fst) (pair_mk hs)

theorem reachOlcs_keeps {ds} : Keeps s₀ (reachOlcs s ds) := by
  unfold reachOlcs
  extract_lets x whole done
  have hx : PairKeeps s₀ x := pair_foldl (pair_mk hs) fun _ _ hp => pair_mk (reachReq_keeps hp)
  split
  · exact keeps_update hx
  · exact keeps_update (keeps_update hx)

theorem captureTask_keeps {d} : Keeps s₀ (captureTask s d) := by
  simp only [captureTask]
  split
  · exact keeps_ite (setRetain_keeps hs) hs
  · exact hs

/-! The freeze and the process input images
(06_cyclic_execution.md, R192, R193, R196 to R198, R209; 08_vehicle_network.md, R279, R280; 11_ashlar_safe_layer.md, R389 to R393;
13_field_channels.md, R435 to R438). -/

theorem lapse_keeps {n c} : Keeps s₀ (lapse s n c) := keeps_ite (record_keeps (modConn_keeps hs)) hs

theorem keepGood_keeps {pos b conn i} : Keeps s₀ (keepGood s pos b conn i) := setRx_keeps hs

theorem freezeSlot_keeps {d b} : Keeps s₀ (freezeSlot s d b) := by
  simp only [freezeSlot]
  split
  · split
    · exact lapse_keeps hs
    · exact hs
  · refine setRx_keeps ?_
    refine keepGood_keeps ?_
    split
    · refine acceptInst_keeps ?_
      split
      · exact lapse_keeps hs
      · exact hs
    · split
      · exact lapse_keeps hs
      · exact hs

theorem freezeAll_keeps {ds} : Keeps s₀ (freezeAll s ds) := loop_keeps hs fun _ _ h1 => keeps_ite h1 (freezeSlot_keeps h1)

theorem startTask_keeps {d img} : Keeps s₀ (startTask s d img) :=
  keeps_update (loop_keeps (loop_keeps hs fun _ _ h1 => sectWrite_keeps h1) fun _ _ h2 => modPair_keeps (modTask_keeps h2))

theorem meetBad_keeps {ds bad} : Keeps s₀ (meetBad s ds bad) := loop_keeps hs fun _ _ h1 => eccBad_keeps h1

theorem release_keeps {bad} : Keeps s₀ (release s bad) :=
  keeps_ite hs (keeps_let (loop_keeps hs fun _ _ h1 => loop_keeps h1 fun _ _ h2 => forceJoin_keeps (wake_keeps h2)) fun h1 =>
    keeps_let (reachOlcs_keeps (loop_keeps h1 fun _ _ h2 => rwForces_keeps h2)) fun h3 =>
    keeps_let (freezeAll_keeps (loop_keeps h3 fun _ _ h4 => captureTask_keeps h4)) fun h5 =>
    loop_keeps (meetBad_keeps h5) fun _ _ h6 => startTask_keeps h6)

/-! The commands of a tide: deadline, classification, lift, commit, release, signatures, judgement, forces
(01, R22 to R26; 02, R83, R86 to R89; 06; 07, R229 to R241, R250 to R253). -/

theorem execDeadlineOverrun_gives {l p t} : Gives s₀ (execDeadlineOverrun l p t s) := gives_ite (gives_next (raiseExc_keeps hs)) (gives_next hs)

theorem execExceptionClassify_gives {p t atCommit} : Gives s₀ (execExceptionClassify p t atCommit s) := gives_next (keeps_ite (classify_keeps hs) hs)

theorem execOutputWindow_gives {bad} : Gives s₀ (execOutputWindow bad s) := gives_next (keeps_ite (liftAll_keeps hs) hs)

theorem execCommitInstant_gives {silent} : Gives s₀ (execCommitInstant silent s) := gives_next (keeps_ite (commitInstant_keeps hs) hs)

theorem execTaskRelease_gives {bad} : Gives s₀ (execTaskRelease bad s) := gives_next (keeps_ite (release_keeps hs) hs)

theorem readyLane_keeps {l} : Keeps s₀ (readyLane s l) := loop_keeps (modLane_keeps hs) fun _ _ h2 => reschedule_keeps h2

theorem hurtComps_keeps {l p x y} : Keeps s₀ (hurtComps s l p x y) := modPair_keeps hs

theorem execTaskReady_gives {hurt} : Gives s₀ (execTaskReady hurt s) :=
  gives_ite (gives_next (loop_keeps (loop_keeps hs fun _ _ h1 => hurtComps_keeps h1) fun _ _ h2 => readyLane_keeps h2)) (gives_next hs)

theorem shadowCompare_keeps {lost g} : Keeps s₀ (shadowCompare s lost g) := by
  simp only [shadowCompare]
  split
  · exact hs
  · exact keeps_ite (keeps_ite (keeps_update hs) (rejoinFail_keeps hs)) hs

theorem compareSigs_keeps {lost} : Keeps s₀ (compareSigs s lost) := by
  simp only [compareSigs]
  split
  · exact hs
  · split
    · exact keeps_ite (enterStopped_keeps hs) hs
    · exact shadowCompare_keeps (loop_keeps hs fun _ _ h1 => dropLane_keeps h1)

theorem execSignatureCompare_gives {lost} : Gives s₀ (execSignatureCompare lost s) := gives_next (keeps_lanesMap (compareSigs_keeps hs))

theorem judgeLane_keeps {l} : Keeps s₀ (judgeLane s l) := keeps_ite (keeps_let (modLane_keeps hs) fun h1 => keeps_ite (dropLane_keeps h1) h1) hs

theorem execOutputPathJudge_gives : Gives s₀ (execOutputPathJudge s) := gives_next (keeps_lanesMap (loop_keeps hs fun _ _ h1 => judgeLane_keeps h1))

theorem execLockstepWindowClose_gives {l p lerr cerr fx fy} : Gives s₀ (execLockstepWindowClose l p lerr cerr fx fy s) := by
  simp only [execLockstepWindowClose]
  split
  · exact gives_next hs
  · split
    · exact gives_next (laneFails_keeps hs)
    · exact gives_next (modPair_keeps (hurtComps_keeps hs))

theorem recordForce_keeps {i eff} : Keeps s₀ (recordForce s i eff) := record_keeps hs

theorem startForces_keeps : Keeps s₀ (startForces s) := loop_keeps hs fun _ _ h1 => recordForce_keeps (keeps_update h1)

theorem endForces_keeps : Keeps s₀ (endForces s) := by
  simp only [endForces]
  refine loop_keeps hs fun _ _ h1 => ?_
  split
  · exact keeps_ite (recordForce_keeps (keeps_update h1)) h1
  · exact h1

theorem execForceEffect_gives : Gives s₀ (execForceEffect s) :=
  gives_ite (keeps_let (endForces_keeps (startForces_keeps hs)) fun h1 => gives_next (keeps_ite (applyForces_keeps h1) h1)) (gives_next hs)

theorem execKOverlayWriteDone_gives {req item} : Gives s₀ (execKOverlayWriteDone req item s) := by
  simp only [execKOverlayWriteDone]
  split
  · exact gives_next hs
  · split
    · exact gives_next hs
    · split
      · exact gives_next (logItem_keeps (recordItem_keeps (keeps_update (writeSettings_keeps hs))))
      · exact gives_next hs

theorem execRetainCycleStart_gives : Gives s₀ (execRetainCycleStart s) := by
  simp only [execRetainCycleStart]
  split
  · split
    · exact gives_next (setRetain_keeps hs)
    · exact gives_next hs
  · exact gives_next hs

theorem execRetainCapturesComplete_gives : Gives s₀ (execRetainCapturesComplete s) :=
  gives_ite (gives_next (setRetain_keeps (writeBody_keeps hs))) (gives_next hs)

theorem execRetainWriteDone_gives : Gives s₀ (execRetainWriteDone s) :=
  gives_ite (gives_next (abandonRetain_keeps (markBuf_keeps hs))) (gives_next hs)

end Sys2Proof.Machine
end

section
/-! PROOF. The instructions: what each keeps of the queue, the fuses and the memories (`Keeps`). -/

namespace Sys2Proof.Machine

variable {s₀ s : State} (hs : Keeps s₀ s)
include hs

/-! The bit instructions (04_instruction_semantics.md, R118, R119). -/

theorem binB_keeps {f op c} : ActKeeps s₀ (binB f op s c) := giveB_keeps hs

theorem execBset_gives {x f} : Gives s₀ (execBset x f s) := gives_next (runInstr_keeps hs fun _ _ h1 => giveW_keeps h1)

theorem execBclr_gives {x f} : Gives s₀ (execBclr x f s) := gives_next (runInstr_keeps hs fun _ _ h1 => giveW_keeps h1)

theorem execBtst_gives {x f} : Gives s₀ (execBtst x f s) := gives_next (runInstr_keeps hs fun _ _ h1 => giveB_keeps h1)

theorem execBld_gives {x f} : Gives s₀ (execBld x f s) := gives_next (runInstr_keeps hs fun _ _ h1 => giveB_keeps h1)

theorem execBst_gives {x f} : Gives s₀ (execBst x f s) := gives_next (runInstr_keeps hs fun _ _ h1 => giveW_keeps h1)

theorem execBand_gives {x f} : Gives s₀ (execBand x f s) := gives_next (runInstr_keeps hs fun _ _ h1 => binB_keeps h1)

theorem execBor_gives {x f} : Gives s₀ (execBor x f s) := gives_next (runInstr_keeps hs fun _ _ h1 => binB_keeps h1)

theorem execBxor_gives {x f} : Gives s₀ (execBxor x f s) := gives_next (runInstr_keeps hs fun _ _ h1 => binB_keeps h1)

theorem execBnot_gives {x f} : Gives s₀ (execBnot x f s) := gives_next (runInstr_keeps hs fun _ _ h1 => giveB_keeps h1)

theorem execBmov_gives {x f} : Gives s₀ (execBmov x f s) := gives_next (runInstr_keeps hs fun _ _ h1 => giveB_keeps h1)

theorem edgeBody_keeps {f c} : ActKeeps s₀ (edgeBody f s c) := by
  unfold edgeBody
  dsimp only
  split
  · exact hs
  · split
    · next he => exact (readWord_keeps hs).of_eq he
    · next he =>
      have h := (readWord_keeps hs).of_eq he
      exact keeps_ite h (storeWord_keeps h)

theorem execEdge_gives {x f} : Gives s₀ (execEdge x f s) := gives_next (runInstr_keeps hs fun _ _ h1 => edgeBody_keeps h1)

/-! The flow instructions (R57, R67, R99, R105 to R107, R128 to R130). -/

theorem jump_keeps {b a} : ActKeeps s₀ (jump s b a) := hs

theorem execBr_gives {x f} : Gives s₀ (execBr x f s) := gives_next (runInstr_keeps hs fun _ _ h1 => jump_keeps h1)

theorem execBt_gives {x f} : Gives s₀ (execBt x f s) := gives_next (runInstr_keeps hs fun _ _ h1 => jump_keeps h1)

theorem execBf_gives {x f} : Gives s₀ (execBf x f s) := gives_next (runInstr_keeps hs fun _ _ h1 => jump_keeps h1)

theorem execCall_gives {x f} : Gives s₀ (execCall x f s) := gives_next (runInstr_keeps hs fun _ _ h1 => act_ite h1 (jump_keeps h1))

theorem execRet_gives {x f} : Gives s₀ (execRet x f s) := by
  simp only [execRet]
  refine gives_next ?_
  refine runInstr_keeps hs fun _ _ h1 => ?_
  split
  · exact h1
  · exact jump_keeps h1

theorem execLoop_gives {x f} : Gives s₀ (execLoop x f s) := gives_next (runInstr_keeps hs fun _ _ h1 => act_ite h1 (jump_keeps h1))

theorem execEndl_gives {x f} : Gives s₀ (execEndl x f s) := by
  simp only [execEndl]
  refine gives_next ?_
  refine runInstr_keeps hs fun _ _ h1 => ?_
  split
  · exact h1
  · exact act_ite (jump_keeps h1) (jump_keeps h1)

theorem execJtab_gives {x f} : Gives s₀ (execJtab x f s) := by
  refine gives_next (runInstr_keeps hs fun t c ht => ?_)
  dsimp only
  split
  · next he => exact (fetchCheck_keeps ht).of_eq he
  · next he => exact jump_keeps ((fetchCheck_keeps ht).of_eq he)

theorem execDone_gives {x f} : Gives s₀ (execDone x f s) := gives_next (runInstr_keeps hs fun _ _ h1 => h1)

/-! The integer instructions (04_instruction_semantics.md, R116, R117; costs of R103). -/

theorem binW_keeps {f op c} : ActKeeps s₀ (binW f op s c) := giveW_keeps hs

theorem unW_keeps {f op c} : ActKeeps s₀ (unW f op s c) := giveW_keeps hs

theorem immW_keeps {f op c} : ActKeeps s₀ (immW f op s c) := giveW_keeps hs

theorem divW_keeps {f op z c} : ActKeeps s₀ (divW f op z s c) := act_ite (giveW_keeps hs) (giveW_keeps hs)

theorem shiftW_keeps {f op c} : ActKeeps s₀ (shiftW f op s c) := giveW_keeps hs

theorem cmpB_keeps {d cond a b t c} : ActKeeps s₀ (cmpB d cond a b t s c) := giveB_keeps hs

theorem execAdd_gives {x f} : Gives s₀ (execAdd x f s) := gives_next (runInstr_keeps hs fun _ _ h1 => binW_keeps h1)

theorem execAddi_gives {x f} : Gives s₀ (execAddi x f s) := gives_next (runInstr_keeps hs fun _ _ h1 => immW_keeps h1)

theorem execSub_gives {x f} : Gives s₀ (execSub x f s) := gives_next (runInstr_keeps hs fun _ _ h1 => binW_keeps h1)

theorem execSubi_gives {x f} : Gives s₀ (execSubi x f s) := gives_next (runInstr_keeps hs fun _ _ h1 => immW_keeps h1)

theorem execAdds_gives {x f} : Gives s₀ (execAdds x f s) := gives_next (runInstr_keeps hs fun _ _ h1 => binW_keeps h1)

theorem execSubs_gives {x f} : Gives s₀ (execSubs x f s) := gives_next (runInstr_keeps hs fun _ _ h1 => binW_keeps h1)

theorem execNeg_gives {x f} : Gives s₀ (execNeg x f s) := gives_next (runInstr_keeps hs fun _ _ h1 => unW_keeps h1)

theorem execMul_gives {x f} : Gives s₀ (execMul x f s) := gives_next (runInstr_keeps hs fun _ _ h1 => binW_keeps h1)

theorem execMulh_gives {x f} : Gives s₀ (execMulh x f s) := gives_next (runInstr_keeps hs fun _ _ h1 => binW_keeps h1)

theorem execDiv_gives {x f} : Gives s₀ (execDiv x f s) := gives_next (runInstr_keeps hs fun _ _ h1 => divW_keeps h1)

theorem execDivu_gives {x f} : Gives s₀ (execDivu x f s) := gives_next (runInstr_keeps hs fun _ _ h1 => divW_keeps h1)

theorem execRem_gives {x f} : Gives s₀ (execRem x f s) := gives_next (runInstr_keeps hs fun _ _ h1 => divW_keeps h1)

theorem execAbs_gives {x f} : Gives s₀ (execAbs x f s) := gives_next (runInstr_keeps hs fun _ _ h1 => unW_keeps h1)

theorem execMin_gives {x f} : Gives s₀ (execMin x f s) := gives_next (runInstr_keeps hs fun _ _ h1 => binW_keeps h1)

theorem execMax_gives {x f} : Gives s₀ (execMax x f s) := gives_next (runInstr_keeps hs fun _ _ h1 => binW_keeps h1)

theorem execAnd_gives {x f} : Gives s₀ (execAnd x f s) := gives_next (runInstr_keeps hs fun _ _ h1 => binW_keeps h1)

theorem execAndi_gives {x f} : Gives s₀ (execAndi x f s) := gives_next (runInstr_keeps hs fun _ _ h1 => immW_keeps h1)

theorem execOr_gives {x f} : Gives s₀ (execOr x f s) := gives_next (runInstr_keeps hs fun _ _ h1 => binW_keeps h1)

theorem execOri_gives {x f} : Gives s₀ (execOri x f s) := gives_next (runInstr_keeps hs fun _ _ h1 => immW_keeps h1)

theorem execXor_gives {x f} : Gives s₀ (execXor x f s) := gives_next (runInstr_keeps hs fun _ _ h1 => binW_keeps h1)

theorem execXori_gives {x f} : Gives s₀ (execXori x f s) := gives_next (runInstr_keeps hs fun _ _ h1 => immW_keeps h1)

theorem execNot_gives {x f} : Gives s₀ (execNot x f s) := gives_next (runInstr_keeps hs fun _ _ h1 => unW_keeps h1)

theorem execLimit_gives {x f} : Gives s₀ (execLimit x f s) := gives_next (runInstr_keeps hs fun _ _ h1 => giveW_keeps h1)

theorem execShl_gives {x f} : Gives s₀ (execShl x f s) := gives_next (runInstr_keeps hs fun _ _ h1 => shiftW_keeps h1)

theorem execShr_gives {x f} : Gives s₀ (execShr x f s) := gives_next (runInstr_keeps hs fun _ _ h1 => shiftW_keeps h1)

theorem execSar_gives {x f} : Gives s₀ (execSar x f s) := gives_next (runInstr_keeps hs fun _ _ h1 => shiftW_keeps h1)

theorem execRol_gives {x f} : Gives s₀ (execRol x f s) := gives_next (runInstr_keeps hs fun _ _ h1 => shiftW_keeps h1)

theorem execSel_gives {x f} : Gives s₀ (execSel x f s) := gives_next (runInstr_keeps hs fun _ _ h1 => giveW_keeps h1)

theorem execMov_gives {x f} : Gives s₀ (execMov x f s) := gives_next (runInstr_keeps hs fun _ _ h1 => unW_keeps h1)

theorem execMovi_gives {x f} : Gives s₀ (execMovi x f s) := gives_next (runInstr_keeps hs fun _ _ h1 => giveW_keeps h1)

theorem execMovhi_gives {x f} : Gives s₀ (execMovhi x f s) := gives_next (runInstr_keeps hs fun _ _ h1 => immW_keeps h1)

theorem execCmp_gives {x f} : Gives s₀ (execCmp x f s) := gives_next (runInstr_keeps hs fun _ _ h1 => cmpB_keeps h1)

theorem execCmpi_gives {x f} : Gives s₀ (execCmpi x f s) := gives_next (runInstr_keeps hs fun _ _ h1 => cmpB_keeps h1)

/-! The memory instructions (02_programming_model.md, R58, R72 to R75; 04_instruction_semantics.md, R127). -/

theorem loadW_keeps {f n k c} : ActKeeps s₀ (loadW f n k s c) := by
  unfold loadW
  exact loadThen_keeps hs fun _ _ h => giveW_keeps h

theorem execLdw_gives {x f} : Gives s₀ (execLdw x f s) := gives_next (runInstr_keeps hs fun _ _ h1 => loadW_keeps h1)

theorem execLdh_gives {x f} : Gives s₀ (execLdh x f s) := gives_next (runInstr_keeps hs fun _ _ h1 => loadW_keeps h1)

theorem execLdhu_gives {x f} : Gives s₀ (execLdhu x f s) := gives_next (runInstr_keeps hs fun _ _ h1 => loadW_keeps h1)

theorem execLdb_gives {x f} : Gives s₀ (execLdb x f s) := gives_next (runInstr_keeps hs fun _ _ h1 => loadW_keeps h1)

theorem execLdbu_gives {x f} : Gives s₀ (execLdbu x f s) := gives_next (runInstr_keeps hs fun _ _ h1 => loadW_keeps h1)

theorem execLdq_gives {x f} : Gives s₀ (execLdq x f s) := gives_next (runInstr_keeps hs fun _ _ h1 => loadThen_keeps h1 fun _ _ h2 => giveB_keeps h2)

theorem execLdt_gives {x f} : Gives s₀ (execLdt x f s) := gives_next (runInstr_keeps hs fun _ _ h1 => loadThen_keeps h1 fun _ _ h2 => giveW_keeps h2)

theorem execStw_gives {x f} : Gives s₀ (execStw x f s) := gives_next (runInstr_keeps hs fun _ _ h1 => storeThen_keeps h1 fun _ h2 => h2)

theorem execSth_gives {x f} : Gives s₀ (execSth x f s) := gives_next (runInstr_keeps hs fun _ _ h1 => partThen_keeps h1 fun _ h2 => h2)

theorem execStb_gives {x f} : Gives s₀ (execStb x f s) := gives_next (runInstr_keeps hs fun _ _ h1 => partThen_keeps h1 fun _ h2 => h2)

theorem execStq_gives {x f} : Gives s₀ (execStq x f s) := gives_next (runInstr_keeps hs fun _ _ h1 => storeThen_keeps h1 fun _ h2 => h2)

theorem execStt_gives {x f} : Gives s₀ (execStt x f s) := gives_next (runInstr_keeps hs fun _ _ h1 => storeThen_keeps h1 fun _ h2 => h2)

/-! Timers, counters, time and quality (04_instruction_semantics.md, R131 to R140). -/

theorem readBlock_keeps {c ea} : PairKeeps s₀ (readBlock s c ea) := readWord_keeps (readWord_keeps (readWord_keeps (readWord_keeps hs)))

theorem putBlock_keeps {c o w} : Keeps s₀ (putBlock s c o w) := by
  simp only [putBlock]
  split
  · exact hs
  · exact keeps_ite hs (storeWord_keeps hs)

theorem blockBody_keeps {f step fl c} : ActKeeps s₀ (blockBody f step fl s c) := by
  unfold blockBody
  extract_lets a q i
  split
  · exact hs
  · extract_lets ea
    split
    · next he => exact (readBlock_keeps hs).of_eq he
    · next he => exact putBlock_keeps (putBlock_keeps (putBlock_keeps ((readBlock_keeps hs).of_eq he)))

theorem execTon_gives {x f} : Gives s₀ (execTon x f s) := gives_next (runInstr_keeps hs fun _ _ h1 => blockBody_keeps h1)

theorem execTof_gives {x f} : Gives s₀ (execTof x f s) := gives_next (runInstr_keeps hs fun _ _ h1 => blockBody_keeps h1)

theorem execTp_gives {x f} : Gives s₀ (execTp x f s) := gives_next (runInstr_keeps hs fun _ _ h1 => blockBody_keeps h1)

theorem execCtu_gives {x f} : Gives s₀ (execCtu x f s) := gives_next (runInstr_keeps hs fun _ _ h1 => blockBody_keeps h1)

theorem execCtd_gives {x f} : Gives s₀ (execCtd x f s) := gives_next (runInstr_keeps hs fun _ _ h1 => blockBody_keeps h1)

theorem execNow_gives {x f} : Gives s₀ (execNow x f s) := gives_next (runInstr_keeps hs fun _ _ h1 => giveW_keeps h1)

theorem execTide_gives {x f} : Gives s₀ (execTide x f s) := gives_next (runInstr_keeps hs fun _ _ h1 => giveW_keeps h1)

theorem execAge_gives {x f} : Gives s₀ (execAge x f s) := gives_next (runInstr_keeps hs fun _ _ h1 => giveW_keeps h1)

theorem execQchk_gives {x f} : Gives s₀ (execQchk x f s) := gives_next (runInstr_keeps hs fun _ _ h1 => giveB_keeps h1)

theorem execSubst_gives {x f} : Gives s₀ (execSubst x f s) := gives_next (runInstr_keeps hs fun _ _ h1 => act_ite (giveW_keeps h1) (giveW_keeps h1))

/-! The REAL32 instructions (04_instruction_semantics.md, R120 to R126; costs of R103). -/

theorem giveF_keeps {c d r t} : ActKeeps s₀ (giveF s c d r t) := act_ite hs (giveW_keeps hs)

theorem binF_keeps {f op c} : ActKeeps s₀ (binF f op s c) := giveF_keeps hs

theorem unF_keeps {f op c} : ActKeeps s₀ (unF f op s c) := giveF_keeps hs

theorem execFadd_gives {x f} : Gives s₀ (execFadd x f s) := gives_next (runInstr_keeps hs fun _ _ h1 => binF_keeps h1)

theorem execFsub_gives {x f} : Gives s₀ (execFsub x f s) := gives_next (runInstr_keeps hs fun _ _ h1 => binF_keeps h1)

theorem execFmul_gives {x f} : Gives s₀ (execFmul x f s) := gives_next (runInstr_keeps hs fun _ _ h1 => binF_keeps h1)

theorem execFdiv_gives {x f} : Gives s₀ (execFdiv x f s) := gives_next (runInstr_keeps hs fun _ _ h1 => binF_keeps h1)

theorem execFsqrt_gives {x f} : Gives s₀ (execFsqrt x f s) := gives_next (runInstr_keeps hs fun _ _ h1 => unF_keeps h1)

theorem execFmin_gives {x f} : Gives s₀ (execFmin x f s) := gives_next (runInstr_keeps hs fun _ _ h1 => binF_keeps h1)

theorem execFmax_gives {x f} : Gives s₀ (execFmax x f s) := gives_next (runInstr_keeps hs fun _ _ h1 => binF_keeps h1)

theorem execFabs_gives {x f} : Gives s₀ (execFabs x f s) := gives_next (runInstr_keeps hs fun _ _ h1 => unF_keeps h1)

theorem execFneg_gives {x f} : Gives s₀ (execFneg x f s) := gives_next (runInstr_keeps hs fun _ _ h1 => unF_keeps h1)

theorem execFcmp_gives {x f} : Gives s₀ (execFcmp x f s) := gives_next (runInstr_keeps hs fun _ _ h1 => act_ite h1 (giveB_keeps h1))

theorem execFtoi_gives {x f} : Gives s₀ (execFtoi x f s) := gives_next (runInstr_keeps hs fun _ _ h1 => unF_keeps h1)

theorem execItof_gives {x f} : Gives s₀ (execItof x f s) := gives_next (runInstr_keeps hs fun _ _ h1 => unF_keeps h1)

theorem execFlim_gives {x f} : Gives s₀ (execFlim x f s) := gives_next (runInstr_keeps hs fun _ _ h1 => giveF_keeps h1)

theorem execFscale_gives {x f} : Gives s₀ (execFscale x f s) := gives_next (runInstr_keeps hs fun _ _ h1 => giveF_keeps h1)

/-! System instructions and encodings without an instruction (R76, R78 to R81, R94, R147 to R151). -/

theorem execRdsys_gives {x f} : Gives s₀ (execRdsys x f s) := gives_next (runInstr_keeps hs fun _ _ h1 => act_ite h1 (giveW_keeps h1))

theorem execWrsys_gives {x f} : Gives s₀ (execWrsys x f s) := gives_next (runInstr_keeps hs fun _ _ h1 => act_ite h1 h1)

theorem execArpri_gives {x f} : Gives s₀ (execArpri x f s) := by
  refine gives_next (runInstr_keeps hs fun t c ht => act_ite ht ?_)
  dsimp only
  split
  · exact setPri_keeps ht
  · exact ht

theorem execSplit_gives {x f} : Gives s₀ (execSplit x f s) :=
  gives_next (runInstr_keeps hs fun _ _ h1 => act_ite (modPair_keeps h1) (record_keeps (modPair_keeps h1)))

theorem execJoin_gives {x f} : Gives s₀ (execJoin x f s) := gives_next (runInstr_keeps hs fun _ _ h1 => act_ite h1 (modPair_keeps h1))

theorem execSig_gives {x f} : Gives s₀ (execSig x f s) := by
  simp only [execSig]
  refine gives_next ?_
  refine runInstr_keeps hs fun _ _ h1 => ?_
  show Keeps _ _
  split
  · exact modTask_keeps h1
  · exact h1

theorem execTrap_gives {x f} : Gives s₀ (execTrap x f s) := gives_next (runInstr_keeps hs fun _ _ h1 => h1)

theorem execNop_gives {x f} : Gives s₀ (execNop x f s) := gives_next (runInstr_keeps hs fun _ _ h1 => h1)

theorem execUnassignedOpcode_gives {x op} : Gives s₀ (execUnassignedOpcode x op s) := gives_next (keeps_ite (runInstr_keeps hs fun _ _ h1 => h1) hs)

theorem execSetupClassInstruction_gives {x op} : Gives s₀ (execSetupClassInstruction x op s) :=
  gives_next (keeps_ite (runInstr_keeps hs fun _ _ h1 => h1) hs)

end Sys2Proof.Machine
end

section
/-! PROOF. Arbiters and scrubber, the bridge, the lanes, the Parapet and power: what each keeps of the queue, the fuses and the memories (`Keeps`). -/

namespace Sys2Proof.Machine

variable {s₀ s : State} (hs : Keeps s₀ s)
include hs

/-! The commands of the arbiters and of the scrubber (15_fabric_arbitration_and_memory.md). -/

omit hs in
theorem spoilFlash_ok {x : BankSt} {k : Nat} (h : BankOk x) : BankOk (spoilFlash x k) := by simpa only [BankOk, spoilFlash] using h

theorem execArbiterContest_gives {a reqs} : Gives s₀ (execArbiterContest a reqs s) :=
  gives_ite (gives_next (keeps_update hs)) (gives_next (keeps_update hs))

theorem setDmg_keeps {m d} : Keeps s₀ (setDmg s m d) := by
  simp only [setDmg]
  split
  · exact modLane_keeps hs
  · exact keeps_update hs
  · exact keeps_update hs
  · exact hs

theorem markScrubbed_keeps {m a} : Keeps s₀ (markScrubbed s m a) := eccPut_keeps hs

theorem spoilRetain_keeps {m a} : Keeps s₀ (spoilRetain s m a) := keeps_ite (keeps_update hs) (keeps_ite (keeps_update hs) hs)

theorem flashBad_keeps {d k} : Keeps s₀ (flashBad s d k) := by
  have h {m : MemId} : Keeps s₀ (modBank (eccBad s m (512 * k) .scrubber) d fun b => spoilFlash b k) :=
    modBank_keeps_wf (eccBad_keeps hs) fun _ h => spoilFlash_ok h
  cases d with
  | a => exact keeps_update h
  | b => exact h

theorem scrubFlash_keeps {m d addr hit bits} : Keeps s₀ (scrubFlash s m d addr hit bits) := by
  simp only [scrubFlash]
  split
  · exact hs
  · split
    · exact flashBad_keeps (endRefresh_keeps (wake_keeps hs))
    · split
      · exact endRefresh_keeps (wake_keeps hs)
      · exact flashBad_keeps (endRefresh_keeps (wake_keeps hs))
      · exact keeps_let (eccCorrect_keeps (endRefresh_keeps (wake_keeps hs))) fun h1 => keeps_ite (keeps_boot h1) h1
      · exact keeps_let (eccCorrect_keeps (endRefresh_keeps (wake_keeps hs))) fun h1 => keeps_ite (keeps_boot h1) h1

theorem execScrubRead_gives {m addr hit bits} : Gives s₀ (execScrubRead m addr hit bits s) := by
  simp only [execScrubRead]
  split
  · exact gives_next hs
  · split
    · exact gives_next (scrubFlash_keeps hs)
    · split
      · exact gives_next (scrubFlash_keeps hs)
      · split
        · exact gives_next (setDmg_keeps hs)
        · exact gives_next (spoilRetain_keeps (eccBad_keeps (setDmg_keeps hs)))
        · exact gives_next (setDmg_keeps (markScrubbed_keeps (eccCorrect_keeps (setDmg_keeps hs))))
        · exact gives_next (markScrubbed_keeps (eccCorrect_keeps (setDmg_keeps hs)))

theorem execArPriWrite_gives {a q pri} : Gives s₀ (execArPriWrite a q pri s) := gives_next (keeps_ite (setPri_keeps (wake_keeps hs)) hs)

/-! The commands of the bridge as target (14_corbel_bridge.md, R480 to R484). -/

theorem inReject_keeps {a cause} : Keeps s₀ (inReject s a cause) := record_keeps (modBr_keeps hs)

theorem seeLock_keeps {lock slot} : Keeps s₀ (seeLock s lock slot) := modBr_keeps hs

theorem execInboundClaim_gives {addr c lock slot} : Gives s₀ (execInboundClaim addr c lock slot s) :=
  keeps_let (keeps_ite hs (seeLock_keeps hs)) fun h1 => gives_ite (gives_next (modBr_keeps h1)) (keeps_let (modBr_keeps h1) fun h2 => gives_next
    (keeps_ite (backOff_keeps h2) h2))

theorem drainIn_keeps : Keeps s₀ (drainIn s) := loop_keeps (modBr_keeps hs) fun _ _ h1 => quayWrite_keeps h1

theorem takeBeat_keeps {a x} : Keeps s₀ (takeBeat s a x) :=
  keeps_let (keeps_ite hs (modBr_keeps hs)) fun h1 => keeps_ite (inReject_keeps h1) (modBr_keeps h1)

theorem endInbound_keeps : Keeps s₀ (endInbound s) := modBr_keeps hs

theorem execInboundWrite_gives {addr beats ready} : Gives s₀ (execInboundWrite addr beats ready s) := by
  unfold execInboundWrite
  extract_lets a s1 answer n
  have h1 : Keeps s₀ s1 := endInbound_keeps hs
  have hans {t r} (ht : Keeps s₀ t) : Gives s₀ (.next (answer t r)) := gives_next (modBr_keeps (keeps_ite (drainIn_keeps ht) ht))
  exact gives_ite (gives_next hs) (gives_ite (hans (inReject_keeps h1)) (gives_ite (hans (inReject_keeps h1)) (gives_ite (hans h1)
    (hans (loop_keeps h1 fun _ _ h2 => takeBeat_keeps h2)))))

theorem inFetch_keeps {a n h} : PairKeeps s₀ (inFetch s a n h) := pair_foldl (pair_mk hs) fun _ _ hp => pair_ite (quayHit_keeps hp) hp

theorem execInboundRead_gives {addr n ready hit} : Gives s₀ (execInboundRead addr n ready hit s) := by
  unfold execInboundRead
  extract_lets a k s1 answer s2
  have h1 : Keeps s₀ s1 := endInbound_keeps hs
  have h2 : Keeps s₀ s2 := drainIn_keeps h1
  refine gives_ite (gives_next hs) (gives_ite (gives_next (modBr_keeps (inReject_keeps h1))) ?_)
  split
  · exact gives_next (modBr_keeps h2)
  · split
    · next he => exact gives_next (modBr_keeps ((inFetch_keeps h2).of_eq he))
    · next he =>
      have h3 := (inFetch_keeps h2).of_eq he
      exact gives_ite (gives_next (modBr_keeps h3)) (gives_next (modBr_keeps h3))

theorem execInboundDataExpire_gives : Gives s₀ (execInboundDataExpire s) := gives_next (modBr_keeps hs)

theorem execInboundLockTimeout_gives : Gives s₀ (execInboundLockTimeout s) := by
  simp only [execInboundLockTimeout]
  split
  · exact gives_next hs
  · exact gives_ite (gives_next hs) (gives_next (forcedRelease_keeps (inReject_keeps (modBr_keeps hs))))

/-! The commands of the lanes: supply, self-test, rejoin, split, debug (07_lanes_voting_and_lockstep.md, R223 to R262; 16, R543, R544). -/

theorem loseLane_keeps {l} : Keeps s₀ (loseLane s l) := by
  unfold loseLane
  refine modLane_keeps (keeps_ite ?_ (keeps_ite (leaveVote_keeps (recordDrop_keeps (clearRejoin_keeps hs))) (modLane_keeps_sram hs ?_)))
  · exact keeps_let (leaveVote_keeps (recordDrop_keeps hs)) fun h => checkVoters_keeps (keeps_ite (rejoinFail_keeps h) h)
  · exact fun _ _ => rfl

theorem execLanePowerLoss_gives {l} : Gives s₀ (execLanePowerLoss l s) := gives_next (loseLane_keeps hs)

theorem execLaneThermalShutdown_gives {l} : Gives s₀ (execLaneThermalShutdown l s) :=
  gives_ite (gives_next hs) (gives_next (modPower_keeps (loseLane_keeps hs)))

theorem stopPart_keeps {a} : Keeps s₀ (stopPart s a) := by
  simp only [stopPart]
  split
  · exact loseLane_keeps hs
  · exact keeps_update hs
  · exact loop_keeps hs fun _ _ h1 => loseRefresh_keeps h1

theorem execPllLockLoss_gives {part} : Gives s₀ (execPllLockLoss part s) :=
  gives_ite (gives_next (stopPart_keeps (modPower_keeps (record_keeps hs)))) (gives_next hs)

theorem execLaneSupplyReady_gives {l} : Gives s₀ (execLaneSupplyReady l s) :=
  gives_ite (gives_next (modLane_keeps (modPower_keeps hs))) (gives_next hs)

theorem haltLane_keeps {l result} : Keeps s₀ (haltLane s l result) := modLane_keeps (record_keeps hs)

theorem bootPassed_keeps {l} : Keeps s₀ (bootPassed s l) := keeps_let (modLane_keeps hs) fun h1 => keeps_ite (lateCheck_keeps h1) h1

theorem execLaneSelfTestDone_gives {l pass result} : Gives s₀ (execLaneSelfTestDone l pass result s) :=
  gives_ite (gives_next (keeps_ite (bootPassed_keeps hs) (haltLane_keeps hs))) (gives_ite (gives_next (keeps_ite (modLane_keeps hs)
    (haltLane_keeps hs))) (gives_next hs))

theorem execLaneSelfTestTimeout_gives {l} : Gives s₀ (execLaneSelfTestTimeout l s) := gives_next (keeps_ite (haltLane_keeps hs) hs)

theorem execRejoinStart_gives : Gives s₀ (execRejoinStart s) := by
  simp only [execRejoinStart]
  split
  · exact gives_ite (gives_next (record_keeps (modLane_keeps (keeps_update hs)))) (gives_ite (gives_next hs) (gives_next (record_keeps
      (keeps_update hs))))
  · exact gives_next (keeps_update hs)

theorem readSwept_keeps {l} : PairKeeps s₀ (readSwept s l) := pair_foldl (pair_mk hs) fun _ _ hp => pair_mk (readRange_keeps hp)

theorem copySwept_keeps {src dst} : Keeps s₀ (copySwept s src dst) :=
  loop_keeps hs fun _ _ h => modLane_keeps_of h fun hl _ hx => memTake_ok hx (hl src) _ _

theorem execRejoinCopyDone_gives {bad} : Gives s₀ (execRejoinCopyDone bad s) := by
  unfold execRejoinCopyDone
  split
  · extract_lets s1 r s2 j
    have h1 : Keeps s₀ s1 := by
      unfold s1
      split
      · exact modLane_keeps hs
      · exact hs
    have hr : PairKeeps s₀ r := readSwept_keeps h1
    exact gives_ite (gives_ite (gives_next (keeps_update (copySwept_keeps hr))) (gives_next (rejoinFail_keeps hr))) (gives_next hs)
  · exact gives_next hs

theorem copyCom_keeps {src dst} : Keeps s₀ (copyCom s src dst) := loop_keeps hs fun _ _ h1 => loop_keeps h1 fun _ _ h2 => modTask_keeps h2

theorem execShadowStart_gives : Gives s₀ (execShadowStart s) := by
  simp only [execShadowStart]
  split
  · exact gives_ite (gives_next (keeps_update (copyCom_keeps (copySwept_keeps hs)))) (gives_next hs)
  · exact gives_next hs

theorem execRejoinEnter_gives {digestOk} : Gives s₀ (execRejoinEnter digestOk s) := by
  simp only [execRejoinEnter]
  split
  · exact gives_ite (gives_ite (gives_next (record_keeps (clearRejoin_keeps (modLane_keeps hs)))) (gives_next (rejoinFail_keeps hs))) (gives_next hs)
  · exact gives_next hs

theorem tryMove_keeps {l p} : Keeps s₀ (tryMove s l p) := by
  simp only [tryMove]
  split
  · exact keeps_let (keeps_update hs) fun h1 => keeps_ite h1 (keeps_ite (record_keeps h1) (record_keeps (modCore_keeps (modCore_keeps h1))))
  · exact hs

theorem execSplitHandover_gives {l p} : Gives s₀ (execSplitHandover l p s) := by
  simp only [execSplitHandover]
  split
  · split
    · exact gives_next (laneFails_keeps hs)
    · split
      · exact gives_next (tryMove_keeps (modPair_keeps (modPair_keeps hs)))
      · exact gives_ite (gives_next (tryMove_keeps (modPair_keeps (modPair_keeps hs)))) (gives_next (modPair_keeps hs))
  · exact gives_next hs

theorem execDebugAttach_gives {l} : Gives s₀ (execDebugAttach l s) :=
  gives_ite (gives_next hs) (gives_ite (gives_next (record_keeps (keeps_update hs))) (gives_next (record_keeps (modLane_keeps (keeps_update
    (keeps_ite (dropLane_keeps hs) (keeps_ite (rejoinFail_keeps hs) hs)))))))

theorem execDebugDetach_gives {l} : Gives s₀ (execDebugDetach l s) := by
  refine gives_ite (gives_next hs) (gives_ite (gives_next (modLane_keeps hs)) (gives_next (modLane_keeps_sram hs ?_)))
  exact fun _ _ => rfl

/-! The commands of the bridge as master, of its movers and of the rack arbiter (14_corbel_bridge.md). -/

theorem execOutboundIssue_gives {src} : Gives s₀ (execOutboundIssue src s) := by
  unfold execOutboundIssue
  dsimp only
  refine gives_ite (gives_next hs) ?_
  split
  · exact gives_next (issueHead_keeps hs)
  · exact gives_next (issuePiece_keeps hs)

theorem execTargetResponse_gives {r} : Gives s₀ (execTargetResponse r s) := by
  simp only [execTargetResponse]
  split
  · exact gives_next hs
  · split
    · exact gives_next hs
    · refine gives_next ?_
      refine stopMovers_keeps ?_
      split
      · exact modBr_keeps hs
      · split
        · exact headDone_keeps hs
        · exact pieceDone_keeps hs
      · split
        · exact headDone_keeps hs
        · exact pieceDone_keeps hs
      · exact txFails_keeps hs
      · exact txFails_keeps hs
      · exact txFails_keeps (modBr_keeps hs)

theorem execRetryReissue_gives : Gives s₀ (execRetryReissue s) := by
  simp only [execRetryReissue]
  split
  · exact gives_ite (gives_next (modBr_keeps hs)) (gives_next hs)
  · exact gives_next hs

theorem execOutboundTimeout_gives : Gives s₀ (execOutboundTimeout s) := by
  simp only [execOutboundTimeout]
  split
  · exact gives_ite (gives_next (keeps_ite (abortLock_keeps hs) (txFails_keeps hs))) (gives_ite (gives_next (failHead_keeps hs)) (gives_next hs))
  · exact gives_next (keeps_ite (failHead_keeps hs) hs)

theorem execLockAbort_gives : Gives s₀ (execLockAbort s) := by
  simp only [execLockAbort]
  split
  · exact gives_next (keeps_ite (abortLock_keeps hs) hs)
  · exact gives_next hs

theorem resetMover_keeps {n} : Keeps s₀ (resetMover s n) := keeps_ite (moverFails_keeps hs) hs

theorem execCorbelReset_gives : Gives s₀ (execCorbelReset s) := by
  unfold execCorbelReset
  extract_lets s1 s2 s3 s4
  have h1 : Keeps s₀ s1 := record_keeps hs
  have h2 : Keeps s₀ s2 := by
    unfold s2
    split
    · exact h1
    · split
      · exact failHead_keeps h1
      · exact moverFails_keeps h1
  have h3 : Keeps s₀ s3 := loop_keeps h2 fun _ _ h => resetMover_keeps h
  exact gives_ite (gives_next hs) (gives_next (modBr_keeps (keeps_ite (forcedRelease_keeps (modBr_keeps h3)) h3)))

theorem execRackResetRelease_gives : Gives s₀ (execRackResetRelease s) := gives_next (keeps_ite (modBr_keeps hs) hs)

theorem execCorbelInterrupt_gives {line} : Gives s₀ (execCorbelInterrupt line s) := gives_next (keeps_ite (modBr_keeps hs) hs)

theorem sampleLock_keeps {low} : Keeps s₀ (sampleLock s low) := modBr_keeps hs

theorem giveGrant_keeps {k parked} : Keeps s₀ (giveGrant s k parked) := modBr_keeps hs

theorem execRackArbitrate_gives {lines} : Gives s₀ (execRackArbitrate lines s) := by
  simp only [execRackArbitrate]
  split
  · exact gives_next hs
  · split
    · exact gives_next (giveGrant_keeps hs)
    · split
      · exact gives_next (giveGrant_keeps (sampleLock_keeps hs))
      · split
        · exact gives_next (giveGrant_keeps (sampleLock_keeps hs))
        · exact gives_next (giveGrant_keeps (sampleLock_keeps hs))

theorem execGrantWithdraw_gives : Gives s₀ (execGrantWithdraw s) := by
  simp only [execGrantWithdraw]
  split
  · exact gives_ite (gives_next (record_keeps (modBr_keeps hs))) (gives_next hs)
  · exact gives_next hs

theorem moveInQuay_keeps {n d h} : PairKeeps s₀ (moveInQuay s n d h) := by
  unfold moveInQuay
  split
  · next he => exact (moverSource_keeps hs).of_eq he
  · next he => exact modMover_keeps (quayWriteBytes_keeps ((moverSource_keeps hs).of_eq he))

theorem endDesc_keeps {n d} : Keeps s₀ (endDesc s n d) :=
  keeps_let (writeStatus_keeps hs) fun h1 => keeps_ite (moverIdle_keeps h1) (modMover_keeps h1)

theorem execMoverDescriptorDone_gives {n hit} : Gives s₀ (execMoverDescriptorDone n hit s) := by
  unfold execMoverDescriptorDone
  refine gives_ite (gives_next hs) ?_
  split
  · next he => exact gives_next ((moverReady_keeps hs).of_eq he)
  · next he =>
    have h1 := (moverReady_keeps hs).of_eq he
    refine gives_ite ?_ (gives_ite (gives_next h1) (gives_next (endDesc_keeps h1)))
    split
    · next he => exact gives_next (moverFails_keeps ((moveInQuay_keeps h1).of_eq he))
    · next he => exact gives_next (endDesc_keeps ((moveInQuay_keeps h1).of_eq he))

/-! The commands of the Parapet's safety functions (12_safety_functions_parapet.md). -/

theorem execTachoEdge_gives {cha chb} : Gives s₀ (execTachoEdge cha chb s) := by
  simp only [execTachoEdge]
  split
  · exact gives_next hs
  · refine gives_next ?_
    split
    · refine tachoEdgeOn_keeps ?_
      split
      · exact tachoEdgeOn_keeps hs
      · exact hs
    · split
      · exact tachoEdgeOn_keeps hs
      · exact hs

theorem execEnableRestore_gives {f} : Gives s₀ (execEnableRestore f s) :=
  gives_ite (gives_next (refreshDrives_keeps (record_keeps (modFunc_keeps hs)))) (gives_next hs)

theorem execQuietTimeReached_gives {f} : Gives s₀ (execQuietTimeReached f s) :=
  gives_ite (gives_next hs) (gives_ite (gives_next (evalFunc_keeps (modPara_keeps hs))) (gives_ite (gives_next (evalFunc_keeps (modPara_keeps hs)))
    (gives_next hs)))

theorem execParapetTideSelfCheck_gives {crcErr compErr} : Gives s₀ (execParapetTideSelfCheck crcErr compErr s) := by
  unfold execParapetTideSelfCheck
  extract_lets s1
  have h1 : Keeps s₀ s1 := by
    unfold s1
    split
    · exact keeps_ite (parapetFault_keeps hs) hs
    · exact hs
  refine gives_next ?_
  split
  · exact keeps_ite (parapetFault_keeps h1) h1
  · exact h1

theorem execRailFault_gives {f} : Gives s₀ (execRailFault f s) := gives_next (keeps_ite (parapetFault_keeps hs) hs)

theorem execTachoIslandFault_gives {ch set} : Gives s₀ (execTachoIslandFault ch set s) := gives_next (tachoIsland_keeps hs)

/-! The commands of power, feeds, NEAP, temperatures and the front panel
(16_power_and_clocks.md, R519 to R544; 20_connectors_straps_ratings.md, R626 to R633; 09, R353). -/

theorem execDomainSlackEntry_gives {d} : Gives s₀ (execDomainSlackEntry d s) := gives_ite (gives_next hs) (gives_next (modPower_keeps hs))

theorem switchOver_keeps {old new} : Keeps s₀ (switchOver s old new) := record_keeps (modPower_keeps hs)

theorem startHoldup_keeps : Keeps s₀ (startHoldup s) := record_keeps (modPower_keeps hs)

theorem execFeedOutOfLimits_gives {f mv} : Gives s₀ (execFeedOutOfLimits f mv s) :=
  gives_ite (gives_next hs) (keeps_let (setFeed_keeps hs) fun h1 => gives_ite (gives_next h1) (gives_ite (gives_next (switchOver_keeps h1))
    (gives_next (startHoldup_keeps h1))))

theorem resample_keeps {x} : Keeps s₀ (resample s x) := keeps_ite hs (record_keeps (modPower_keeps hs))

theorem execFeedInLimits_gives {f mv straps} : Gives s₀ (execFeedInLimits f mv straps s) :=
  gives_ite (gives_next hs) (keeps_let (setFeed_keeps hs) fun h1 => gives_ite (gives_next (resample_keeps (record_keeps (modPower_keeps h1))))
    (gives_ite (gives_next h1) (gives_next (record_keeps (modPower_keeps (setFeed_keeps h1))))))

theorem execFeedReturn_gives : Gives s₀ (execFeedReturn s) := by
  simp only [execFeedReturn]
  split
  · exact gives_next hs
  · split
    · exact gives_next (keeps_ite hs (record_keeps (modPower_keeps hs)))
    · split
      · exact gives_next hs
      · exact gives_ite (gives_next (record_keeps (modPower_keeps (setFeed_keeps hs)))) (gives_next hs)

theorem execStoreRecharged_gives : Gives s₀ (execStoreRecharged s) := gives_next (keeps_ite (modPower_keeps hs) hs)

theorem execStoreDepleted_gives : Gives s₀ (execStoreDepleted s) :=
  gives_ite (gives_next hs) (gives_next (keeps_update (moduleReset_keeps (headlandRecord_keeps hs))))

theorem unloadSafe_keeps : Keeps s₀ (unloadSafe s) := keeps_update hs

theorem execPowerOn_gives {straps unstable va vb} : Gives s₀ (execPowerOn straps unstable va vb s) := by
  simp only [execPowerOn]
  split
  · exact gives_next hs
  · split
    · exact gives_next hs
    · exact gives_next (startDomains_keeps (modPower_keeps (unloadSafe_keeps (moduleReset_keeps (keeps_update (modPower_keeps
        (takeStraps_keeps hs)))))))

theorem enterNeap_keeps : Keeps s₀ (enterNeap s) :=
  modPower_keeps (keeps_update (keeps_update (headlandRecord_keeps (moduleReset_keeps (keeps_ite (finalRetain_keeps (enterStopped_keeps hs)) hs)))))

theorem flushCairn_keeps : Keeps s₀ (flushCairn s) := by
  simp only [flushCairn]
  split
  · exact sayFull_keeps (keeps_update hs)
  · exact hs

theorem abandonEntry_keeps {r point} : Keeps s₀ (abandonEntry s r point) := modPower_keeps (record_keeps (chargeRefusers_keeps hs))

theorem execNeapAttempt_gives {inp inp2} : Gives s₀ (execNeapAttempt inp inp2 s) := by
  simp only [execNeapAttempt]
  split
  · exact gives_next hs
  · split
    · exact keeps_let (chargeRefusers_keeps (modPower_keeps hs)) fun h1 => gives_next (record_keeps (keeps_ite h1 (record_keeps h1)))
    · split
      · exact gives_next (enterNeap_keeps (flushCairn_keeps (record_keeps (modPower_keeps hs))))
      · split
        · exact gives_next (abandonEntry_keeps (flushCairn_keeps (record_keeps (modPower_keeps hs))))
        · exact gives_next (enterNeap_keeps (flushCairn_keeps (record_keeps (modPower_keeps hs))))

theorem execWakeLatch_gives {src t} : Gives s₀ (execWakeLatch src t s) := gives_ite (gives_next (modPower_keeps hs)) (gives_next hs)

theorem wakeIslands_keeps : Keeps s₀ (wakeIslands s) := keeps_update hs

theorem execWake_gives {src straps unstable} : Gives s₀ (execWake src straps unstable s) :=
  gives_next (keeps_ite (wakeUp_keeps (wakeIslands_keeps hs)) hs)

theorem execBackboneEnergyWake_gives {i} : Gives s₀ (execBackboneEnergyWake i s) :=
  gives_ite (gives_next (wakeUp_keeps (wakeIslands_keeps (headlandRecord_keeps hs)))) (gives_next hs)

theorem hotDie_keeps {parapet t} : Keeps s₀ (hotDie s parapet t) := keeps_let (modPower_keeps hs) fun h1 => keeps_ite (record_keeps h1) h1

theorem execDeratingStep_gives {inlet lane ks pp} : Gives s₀ (execDeratingStep inlet lane ks pp s) :=
  gives_ite (gives_next hs) (keeps_let (hotDie_keeps (hotDie_keeps (modPower_keeps hs))) fun h2 => gives_ite (gives_next h2) (gives_next
    (record_keeps (modPower_keeps h2))))

theorem execPmLedWrite_gives {v} : Gives s₀ (execPmLedWrite v s) := gives_next (keeps_ite (writeLed_keeps hs) hs)

theorem execLedTestExpire_gives : Gives s₀ (execLedTestExpire s) := gives_next (keeps_ite (modPower_keeps hs) hs)

theorem execRegisterWrite_gives {x addr v} : Gives s₀ (execRegisterWrite x addr v s) := by
  unfold execRegisterWrite
  extract_lets who l
  split
  · exact gives_next (keeps_ite (keeps_let (wakeFor_keeps hs) fun h => opt_getD h (regSet_keeps h)) hs)
  · exact gives_next hs

theorem execServiceButtonPress_gives : Gives s₀ (execServiceButtonPress s) := gives_next (keeps_ite (modPower_keeps hs) hs)

theorem execServiceButtonHold_gives : Gives s₀ (execServiceButtonHold s) :=
  gives_ite (gives_next hs) (gives_next (record_keeps (modPort_keeps (modPower_keeps hs))))

theorem execOperatingSecondsIncrement_gives : Gives s₀ (execOperatingSecondsIncrement s) := gives_next (keeps_ite (modPower_keeps hs) hs)

end Sys2Proof.Machine
end

section
/-! PROOF. The engineering service: what each keeps of the queue, the fuses and the memories (`Keeps`). -/

namespace Sys2Proof.Machine

variable {s₀ s : State} (hs : Keeps s₀ s)
include hs

/-! Sessions, passwords, keys, status and reads of the engineering service protocol (17_engineering_service.md, R553 to R565; 18, R582, R584). -/

theorem modRec_keeps {r f} : Keeps s₀ (modRec s r f) := by
  simp only [modRec]
  split
  · exact hs
  · exact keeps_update hs

theorem doHello_keeps {e role nc} : Keeps s₀ (doHello e role nc s) :=
  admitDatagram_keeps hs fun _ h1 => keeps_ite (sendBare_keeps h1) (sendBare_keeps (keeps_update h1))

theorem loginFails_keeps {e role} : Keeps s₀ (loginFails s e role) :=
  keeps_let (modRec_keeps (record_keeps (keeps_update hs))) fun h3 => sendBare_keeps (keeps_ite (record_keeps h3) h3)

theorem openSession_keeps {e role h nc ns} : Keeps s₀ (openSession s e role h nc ns) := send_keeps (record_keeps (modRec_keeps (keeps_update hs)))

theorem doLogin_keeps {e role nc proof} : Keeps s₀ (doLogin e role nc proof s) := by
  simp only [doLogin]
  refine admitDatagram_keeps hs fun _ h1 => ?_
  split
  · exact sendBare_keeps (keeps_update h1)
  · split
    · exact sendBare_keeps (keeps_update h1)
    · split
      · exact keeps_ite (openSession_keeps (keeps_update h1)) (loginFails_keeps (keeps_update h1))
      · exact loginFails_keeps (keeps_update h1)

theorem doLogout_keeps {e} : Keeps s₀ (doLogout e s) := serve_keeps hs fun _ _ h1 => okReply_keeps (closeSession_keeps h1)

theorem doPasswd_keeps {e role masked} : Keeps s₀ (doPasswd e role masked s) :=
  serve_keeps hs fun _ _ h1 => pair_ite (reject_keeps h1) (keeps_let (modRec_keeps (keeps_update h1)) fun h2 => okReply_keeps (logChange_keeps
    (record_keeps (loop_keeps (keeps_ite (keeps_update h2) h2) fun _ _ h4 => closeSession_keeps h4))))

theorem keyDone_keeps {e x slot op state} : PairKeeps s₀ (keyDone s e x slot op state) :=
  okReply_keeps (logChange_keeps (record_keeps (recordKey_keeps hs)))

theorem doKeyInstall_keeps {e n key} : Keeps s₀ (doKeyInstall e n key s) := by
  refine serve_keeps hs fun t x ht => ?_
  split
  · exact reject_keeps ht
  · next hok =>
    have hempty : slotState (t.boot.okeys.get n) = 0 := not_ne_iff.mp fun h => hok (.inl h)
    exact keyDone_keeps (keeps_slots ht (fun _ => .refl _) (slotKept_vmod (f := fun _ => ⟨key, true, false⟩) (slotKept_of_empty hempty)))

theorem doKeyRevoke_keeps {e vendor n} : Keeps s₀ (doKeyRevoke e vendor n s) := by
  have hrev (x : KeySlot) : SlotKept x { x with revoked := true } := ⟨fun h => ⟨h, rfl⟩, fun _ => rfl⟩
  refine serve_keeps hs fun t x ht => pair_ite (reject_keeps ht) (keyDone_keeps ?_)
  cases vendor with
  | true => exact keeps_slots ht (slotKept_vmod (hrev _)) fun _ => .refl _
  | false => exact keeps_slots ht (fun _ => .refl _) (slotKept_vmod (hrev _))

theorem doStatus_keeps {e} : Keeps s₀ (doStatus e s) := serve_keeps hs fun _ _ h1 => okReply_keeps h1

theorem peekWord_keeps {sp a} : PairKeeps s₀ (peekWord s sp a) := by
  unfold peekWord
  split
  · split
    · exact hs
    · exact regRead_keeps (wakeFor_keeps hs)
  · split
    · exact hs
    · exact pair_ite (pair_mk (eccRead_keeps hs)) (pair_mk hs)
  · exact pair_ite (pair_mk (eccRead_keeps (wake_keeps hs))) (pair_mk hs)
  · exact pair_ite (pair_mk (quayHit_keeps hs)) (pair_mk hs)

theorem readAll_keeps {l} : PairKeeps s₀ (readAll s l) := by
  induction l generalizing s with
  | nil => exact hs
  | cons x r ih =>
    unfold readAll
    split
    · next he => exact (peekWord_keeps hs).of_eq he
    · next he =>
      have h1 := ih ((peekWord_keeps hs).of_eq he)
      split
      · next he => exact h1.of_eq he
      · next he => exact h1.of_eq he

theorem doRead_keeps {e items} : Keeps s₀ (doRead e items s) := by
  refine serve_keeps hs fun t x ht => ?_
  dsimp only
  refine pair_ite (reject_keeps ht) ?_
  split
  · next he => exact okReply_keeps ((readAll_keeps ht).of_eq he)
  · next he => exact reject_keeps ((readAll_keeps ht).of_eq he)

/-! Application loads, updates and their confirmation through the engineering service protocol
(17_engineering_service.md, R568, R569; 18_boot_update_and_trust.md, R586, R592 to R600). -/

theorem setSeq_keeps {q} : Keeps s₀ (setSeq s q) := keeps_boot hs

theorem doAppbegin_keeps {e length} : Keeps s₀ (doAppbegin e length s) :=
  serve_keeps hs fun _ _ h1 => pair_ite (reject_keeps h1) (pair_ite (reject_keeps h1) (pair_ite (reject_keeps h1) (okReply_keeps (record_keeps
    (setSeq_keeps h1)))))

theorem flashWrite_keeps {k p data} : Keeps s₀ (flashWrite s k p data) := by
  unfold flashWrite
  split
  · next second off =>
    refine modBank_keeps_wf (wake_keeps hs) fun x hx => ?_
    obtain ⟨hfw, h0, h1⟩ := hx
    cases second with
    | true => exact ⟨hfw, h0, memWriteN_ok h1 (Nat.zero_le _) _⟩
    | false => exact ⟨hfw, memWriteN_ok h0 (Nat.zero_le _) _, h1⟩
  · refine modBank_keeps_wf (wake_keeps hs) fun x hx => ?_
    obtain ⟨hfw, h0, h1⟩ := hx
    exact ⟨memWriteN_ok hfw (Nat.zero_le _) _, h0, h1⟩

theorem loadBlock_keeps {q offset data} : PairKeeps s₀ (loadBlock s q offset data) :=
  pair_ite (reject_keeps hs) (pair_ite (reject_keeps hs) (pair_ite (okReply_keeps hs) (okReply_keeps (setSeq_keeps (flashWrite_keeps hs)))))

theorem doBlock_keeps {e cmd upd offset data} {states : CtlState → Bool} : Keeps s₀ (doBlock e cmd states upd offset data s) := by
  simp only [doBlock]
  refine serve_keeps hs fun _ _ h1 => ?_
  split
  · exact reject_keeps h1
  · exact loadBlock_keeps h1

theorem doAppblock_keeps {e offset data} : Keeps s₀ (doAppblock e offset data s) := doBlock_keeps hs

theorem doUpdblock_keeps {e offset data} : Keeps s₀ (doUpdblock e offset data s) := doBlock_keeps hs

theorem doAppend_keeps {e} : Keeps s₀ (doAppend e s) := by
  simp only [doAppend]
  refine serve_keeps hs fun _ _ h1 => ?_
  split
  · exact reject_keeps h1
  · exact pair_ite (reject_keeps h1) (logChange_keeps (keeps_update (setSeq_keeps h1)))

theorem doUpdbegin_keeps {e kind length} : Keeps s₀ (doUpdbegin e kind length s) :=
  serve_keeps hs fun _ _ h1 => pair_ite (reject_keeps h1) (pair_ite (reject_keeps h1) (pair_ite (reject_keeps h1) (okReply_keeps (record_keeps
    (setSeq_keeps (writeJournal_keeps h1))))))

theorem doUpdquery_keeps {e} : Keeps s₀ (doUpdquery e s) := by
  simp only [doUpdquery]
  refine serve_keeps hs fun _ _ h1 => ?_
  split
  · exact okReply_keeps h1
  · split
    · exact okReply_keeps h1
    · exact okReply_keeps h1

theorem stageUpdate_keeps {q kind} : Keeps s₀ (stageUpdate s q kind) := by
  unfold stageUpdate
  refine setSeq_keeps (record_keeps (record_keeps (writeJournal_keeps (keeps_ite (modBank_keeps_of hs fun hb x hx => ?_) hs))))
  exact ⟨hx.1, appInForce_ok (hb _), hx.2.2⟩

theorem doUpdend_keeps {e} : Keeps s₀ (doUpdend e s) := by
  simp only [doUpdend]
  refine serve_keeps hs fun _ _ h1 => ?_
  split
  · exact reject_keeps h1
  · split
    · exact reject_keeps h1
    · exact pair_ite (reject_keeps h1) (okReply_keeps (logChange_keeps (stageUpdate_keeps h1)))

theorem keyIgnored_keeps {k} : Keeps s₀ (keyIgnored s k) := by
  simp only [keyIgnored]
  split
  · exact hs
  · exact keeps_ite hs (recordKey_keeps hs)

theorem confirmJournal_keeps : Keeps s₀ (confirmJournal s) := writeJournal_keeps hs

theorem doConfirm_keeps {e} : Keeps s₀ (doConfirm e s) :=
  serve_keeps hs fun _ _ h1 => pair_ite (reject_keeps h1) (keeps_let (logChange_keeps (keyIgnored_keeps (record_keeps
    (confirmJournal_keeps h1)))) fun h5 => pair_ite (keeps_update h5) (okReply_keeps h5))

/-! The reads of the recorder and of the change log, and calibration (17_engineering_service.md, R570 to R573; 19_event_recorder.md, R616). -/

theorem doRecread_keeps {e area first n} : Keeps s₀ (doRecread e area first n s) :=
  serve_keeps hs fun _ _ h1 => pair_ite (reject_keeps h1) (okReply_keeps h1)

theorem doLogread_keeps {e first n} : Keeps s₀ (doLogread e first n s) := serve_keeps hs fun _ _ h1 => pair_ite (reject_keeps h1) (okReply_keeps h1)

theorem doCalstart_keeps {e} : Keeps s₀ (doCalstart e s) :=
  serve_keeps hs fun _ _ h1 => pair_ite (reject_keeps h1) (okReply_keeps (applyForces_keeps (keeps_update h1)))

theorem doCalpoint_keeps {e target step value} : Keeps s₀ (doCalpoint e target step value s) := by
  simp only [doCalpoint]
  refine serve_keeps hs fun _ _ h1 => ?_
  split
  · exact reject_keeps h1
  · exact pair_ite (reject_keeps h1) (okReply_keeps (keeps_update h1))

theorem doCalread_keeps {e} : Keeps s₀ (doCalread e s) := serve_keeps hs fun _ _ h1 => okReply_keeps h1

theorem doCalwrite_keeps {e} : Keeps s₀ (doCalwrite e s) := by
  simp only [doCalwrite]
  refine serve_keeps hs fun _ _ h1 => ?_
  split
  · exact reject_keeps h1
  · exact okReply_keeps (logChange_keeps (record_keeps (cureMirrors_keeps (keeps_update h1))))

theorem doCalabort_keeps {e} : Keeps s₀ (doCalabort e s) := by
  simp only [doCalabort]
  refine serve_keeps hs fun _ _ h1 => ?_
  split
  · exact reject_keeps h1
  · exact okReply_keeps (discardCal_keeps h1)

/-! Forces, online change and controller commands of the engineering service protocol
(17_engineering_service.md, R563 to R567; 06_cyclic_execution.md, R203, R209 to R222; 07, R228). -/

theorem doForce_keeps {e items} : Keeps s₀ (doForce e items s) := by
  simp only [doForce]
  refine serve_keeps hs fun _ _ h1 => ?_
  split
  · exact reject_keeps h1
  · split
    · exact reject_keeps h1
    · split
      · exact reject_keeps h1
      · exact pair_ite (reject_keeps h1) (okReply_keeps (logChange_keeps (keeps_update h1)))

theorem doUnforce_keeps {e items} : Keeps s₀ (doUnforce e items s) := by
  simp only [doUnforce]
  refine serve_keeps hs fun _ _ h1 => ?_
  split
  · exact okReply_keeps (logChange_keeps (keeps_update h1))
  · split
    · exact reject_keeps h1
    · split
      · exact reject_keeps h1
      · split
        · exact reject_keeps h1
        · exact okReply_keeps (logChange_keeps (keeps_update h1))

theorem doForcelist_keeps {e first} : Keeps s₀ (doForcelist e first s) := serve_keeps hs fun _ _ h1 => okReply_keeps h1

theorem doOlc_keeps {e named items} : Keeps s₀ (doOlc e named items s) := by
  simp only [doOlc]
  refine serve_keeps hs fun _ _ h1 => ?_
  split
  · exact reject_keeps h1
  · split
    · exact reject_keeps h1
    · exact pair_ite (reject_keeps h1) (okReply_keeps (logChange_keeps (keeps_update h1)))

theorem doOlcstat_keeps {e num} : Keeps s₀ (doOlcstat e num s) := by
  simp only [doOlcstat]
  refine serve_keeps hs fun _ _ h1 => ?_
  split
  · exact okReply_keeps h1
  · exact reject_keeps h1

theorem acceptCtl_keeps {e x cmd c} : PairKeeps s₀ (acceptCtl s e x cmd c) := okReply_keeps (logChange_keeps (keeps_update hs))

theorem doStop_keeps {e} : Keeps s₀ (doStop e s) := serve_keeps hs fun _ _ h1 => acceptCtl_keeps (stopAt_keeps h1)

theorem doRestart_keeps {e warm} : Keeps s₀ (doRestart e warm s) := serve_keeps hs fun _ _ h1 => pair_ite (reject_keeps h1) (acceptCtl_keeps h1)

theorem doService_keeps {e} : Keeps s₀ (doService e s) := serve_keeps hs fun _ _ h1 => acceptCtl_keeps h1

theorem doLeave_keeps {e} : Keeps s₀ (doLeave e s) := serve_keeps hs fun _ _ h1 => pair_ite (reject_keeps h1) (acceptCtl_keeps h1)

theorem doReboot_keeps {e} : Keeps s₀ (doReboot e s) := serve_keeps hs fun _ _ h1 => okReply_keeps (resetModule_keeps (logChange_keeps h1))

/-! The commands of the engineering service protocol as they arrive, relay, and the ends of sessions and lockouts
(17_engineering_service.md, R549 to R573). -/

theorem execHello_gives {e role nc} : Gives s₀ (execHello e role nc s) := gives_next (doHello_keeps hs)

theorem execLogin_gives {e role nc proof} : Gives s₀ (execLogin e role nc proof s) := gives_next (doLogin_keeps hs)

theorem execLogout_gives {e} : Gives s₀ (execLogout e s) := gives_next (doLogout_keeps hs)

theorem execPasswd_gives {e role masked} : Gives s₀ (execPasswd e role masked s) := gives_next (doPasswd_keeps hs)

theorem execKeyslotInstall_gives {e n key} : Gives s₀ (execKeyslotInstall e n key s) := gives_next (doKeyInstall_keeps hs)

theorem execKeyslotRevoke_gives {e vendor n} : Gives s₀ (execKeyslotRevoke e vendor n s) := gives_next (doKeyRevoke_keeps hs)

theorem execStatus_gives {e} : Gives s₀ (execStatus e s) := gives_next (doStatus_keeps hs)

theorem execRead_gives {e items} : Gives s₀ (execRead e items s) := gives_next (doRead_keeps hs)

theorem execForce_gives {e items} : Gives s₀ (execForce e items s) := gives_next (doForce_keeps hs)

theorem execUnforce_gives {e items} : Gives s₀ (execUnforce e items s) := gives_next (doUnforce_keeps hs)

theorem execForcelist_gives {e first} : Gives s₀ (execForcelist e first s) := gives_next (doForcelist_keeps hs)

theorem execOlc_gives {e named items} : Gives s₀ (execOlc e named items s) := gives_next (doOlc_keeps hs)

theorem execOlcstat_gives {e num} : Gives s₀ (execOlcstat e num s) := gives_next (doOlcstat_keeps hs)

theorem execStop_gives {e} : Gives s₀ (execStop e s) := gives_next (doStop_keeps hs)

theorem execRestart_gives {e warm} : Gives s₀ (execRestart e warm s) := gives_next (doRestart_keeps hs)

theorem execService_gives {e} : Gives s₀ (execService e s) := gives_next (doService_keeps hs)

theorem execLeave_gives {e} : Gives s₀ (execLeave e s) := gives_next (doLeave_keeps hs)

theorem execReboot_gives {e} : Gives s₀ (execReboot e s) := gives_next (doReboot_keeps hs)

theorem execAppbegin_gives {e length} : Gives s₀ (execAppbegin e length s) := gives_next (doAppbegin_keeps hs)

theorem execAppblock_gives {e offset data} : Gives s₀ (execAppblock e offset data s) := gives_next (doAppblock_keeps hs)

theorem execAppend_gives {e} : Gives s₀ (execAppend e s) := gives_next (doAppend_keeps hs)

theorem execUpdbegin_gives {e kind length} : Gives s₀ (execUpdbegin e kind length s) := gives_next (doUpdbegin_keeps hs)

theorem execUpdblock_gives {e offset data} : Gives s₀ (execUpdblock e offset data s) := gives_next (doUpdblock_keeps hs)

theorem execUpdquery_gives {e} : Gives s₀ (execUpdquery e s) := gives_next (doUpdquery_keeps hs)

theorem execUpdend_gives {e} : Gives s₀ (execUpdend e s) := gives_next (doUpdend_keeps hs)

theorem execConfirm_gives {e} : Gives s₀ (execConfirm e s) := gives_next (doConfirm_keeps hs)

theorem execRecread_gives {e area first n} : Gives s₀ (execRecread e area first n s) := gives_next (doRecread_keeps hs)

theorem execLogread_gives {e first n} : Gives s₀ (execLogread e first n s) := gives_next (doLogread_keeps hs)

theorem execCalstart_gives {e} : Gives s₀ (execCalstart e s) := gives_next (doCalstart_keeps hs)

theorem execCalpoint_gives {e target step value} : Gives s₀ (execCalpoint e target step value s) := gives_next (doCalpoint_keeps hs)

theorem execCalread_gives {e} : Gives s₀ (execCalread e s) := gives_next (doCalread_keeps hs)

theorem execCalwrite_gives {e} : Gives s₀ (execCalwrite e s) := gives_next (doCalwrite_keeps hs)

theorem execCalabort_gives {e} : Gives s₀ (execCalabort e s) := gives_next (doCalabort_keeps hs)

theorem serveRequest_keeps {e r} : Keeps s₀ (serveRequest e r s) := by
  simp only [serveRequest]
  split
  · exact doHello_keeps hs
  · exact doLogin_keeps hs
  · exact doLogout_keeps hs
  · exact doPasswd_keeps hs
  · exact doKeyInstall_keeps hs
  · exact doKeyRevoke_keeps hs
  · exact doStatus_keeps hs
  · exact doRead_keeps hs
  · exact doForce_keeps hs
  · exact doUnforce_keeps hs
  · exact doForcelist_keeps hs
  · exact doOlc_keeps hs
  · exact doOlcstat_keeps hs
  · exact doStop_keeps hs
  · exact doRestart_keeps hs
  · exact doService_keeps hs
  · exact doLeave_keeps hs
  · exact doReboot_keeps hs
  · exact doAppbegin_keeps hs
  · exact doAppblock_keeps hs
  · exact doAppend_keeps hs
  · exact doUpdbegin_keeps hs
  · exact doUpdblock_keeps hs
  · exact doUpdquery_keeps hs
  · exact doUpdend_keeps hs
  · exact doConfirm_keeps hs
  · exact doRecread_keeps hs
  · exact doLogread_keeps hs
  · exact doCalstart_keeps hs
  · exact doCalpoint_keeps hs
  · exact doCalread_keeps hs
  · exact doCalwrite_keeps hs
  · exact doCalabort_keeps hs

theorem execBackboneServiceRequest_gives {e req} : Gives s₀ (execBackboneServiceRequest e req s) := gives_next (keeps_ite (serveRequest_keeps hs) hs)

theorem execRelayRequest_gives {e cmd} : Gives s₀ (execRelayRequest e cmd s) := gives_next (keeps_ite (admitDatagram_keeps hs fun _ h => h) hs)

theorem forwardReply_keeps {frame r} : Keeps s₀ (forwardReply s frame r) := sendLocal_keeps (keeps_update hs)

theorem execRelayReply_gives {origin seq frame} : Gives s₀ (execRelayReply origin seq frame s) := by
  simp only [execRelayReply]
  split
  · exact gives_next (keeps_ite (forwardReply_keeps hs) hs)
  · exact gives_next hs

theorem execRelayTimeout_gives {i} : Gives s₀ (execRelayTimeout i s) := by
  simp only [execRelayTimeout]
  split
  · exact gives_ite (gives_next (send_keeps (keeps_update hs))) (gives_next hs)
  · exact gives_next hs

theorem execSessionIdleTimeout_gives {id} : Gives s₀ (execSessionIdleTimeout id s) := by
  simp only [execSessionIdleTimeout]
  split
  · exact gives_next (keeps_ite (closeSession_keeps hs) hs)
  · exact gives_next hs

theorem execLockoutEnd_gives {role} : Gives s₀ (execLockoutEnd role s) := gives_next (keeps_ite hs (modRec_keeps hs))

end Sys2Proof.Machine
end

section
/-! PROOF. The ring and network time: what each keeps of the queue, the fuses and the memories (`Keeps`). -/

namespace Sys2Proof.Machine

variable {s₀ s : State} (hs : Keeps s₀ s)
include hs

/-! The commands of the ring that send and receive: PHY dwell, beacons, slots, claims, forwarding (09_train_backbone.md, R313 to R342). -/

theorem execBackbonePhyDwell_gives {i} : Gives s₀ (execBackbonePhyDwell i s) :=
  gives_ite (gives_next hs) (gives_next (modPort_keeps (keeps_update hs)))

theorem prepareBeacon_keeps : Keeps s₀ (prepareBeacon s) := by
  unfold prepareBeacon
  extract_lets cabs low mask s1 s2 s3 r s4
  have h1 : Keeps s₀ s1 := modRing_keeps hs
  have h2 : Keeps s₀ s2 := keeps_ite (record_keeps h1) h1
  have h3 : Keeps s₀ s3 := by
    unfold s3
    split
    · exact decideClaim_keeps (modRing_keeps h2)
    · exact h2
  have h4 : Keeps s₀ s4 := keeps_ite (modRing_keeps h3) h3
  exact keeps_ite (modRing_keeps h4) h4

theorem execBeaconSend_gives {sl} : Gives s₀ (execBeaconSend sl s) :=
  gives_ite (gives_next hs) (gives_next (convEdge_keeps (sendRing_keeps (prepareBeacon_keeps hs))))

theorem follow_keeps {sd b} : Keeps s₀ (follow s sd b) := setHops_keeps (keeps_update hs)

theorem takeBeacon_keeps {sd b frame now sl} : Keeps s₀ (takeBeacon s sd b frame now sl) := passOn_keeps (modRing_keeps (follow_keeps hs))

theorem yieldTo_keeps {b} : Keeps s₀ (yieldTo s b) := record_keeps (modRing_keeps hs)

theorem takeBack_keeps {b} : Keeps s₀ (takeBack s b) := modRing_keeps hs

theorem beaconOnB_keeps {b frame sl} : Keeps s₀ (beaconOnB s b frame sl) := passOn_keeps (modRing_keeps (keeps_ite hs (follow_keeps hs)))

theorem badBeacon_keeps {i frame sl} : Keeps s₀ (badBeacon s i frame sl) :=
  keeps_let (rejectFrame_keeps hs) fun h1 => keeps_ite (passOn_keeps h1) (keeps_ite (passOn_keeps h1) h1)

theorem goodBeacon_keeps {i frame now sl} : Keeps s₀ (goodBeacon s i frame now sl) :=
  keeps_ite (keeps_ite (keeps_ite (takeBack_keeps hs) hs) (keeps_ite (takeBeacon_keeps (yieldTo_keeps hs)) hs)) (keeps_ite (beaconOnB_keeps hs)
    (keeps_ite hs (keeps_ite (takeBeacon_keeps hs) (keeps_ite (keeps_ite (modPort_keeps hs) (keeps_ite hs (takeBeacon_keeps hs))) (keeps_ite
    (takeBeacon_keeps hs) hs)))))

theorem execBeaconReceive_gives {i rx} : Gives s₀ (execBeaconReceive i rx s) :=
  gives_ite (gives_next hs) (gives_ite (gives_next (convEdge_keeps (goodBeacon_keeps hs))) (gives_next (badBeacon_keeps hs)))

theorem missOn_keeps {p} : Keeps s₀ (missOn s p) := by
  simp only [missOn]
  split
  · exact modPort_keeps hs
  · exact hs

theorem execBeaconMiss_gives : Gives s₀ (execBeaconMiss s) :=
  gives_ite (gives_next hs) (keeps_let (modRing_keeps hs) fun h1 => keeps_let (keeps_ite h1 (missOn_keeps h1)) fun h2 => keeps_let (keeps_ite h2
    (missOn_keeps h2)) fun h3 => gives_ite (gives_next h3) (keeps_let (modRing_keeps h3) fun h4 => gives_next (keeps_ite (record_keeps h4) h4)))

theorem execRingSlotTx_gives {sl} : Gives s₀ (execRingSlotTx sl s) := by
  simp only [execRingSlotTx]
  split
  · exact gives_next hs
  · split
    · exact gives_next hs
    · exact gives_ite (gives_next (sendRing_keeps (modRing_keeps hs))) (gives_next hs)

theorem noteFrame_keeps {k f} : Keeps s₀ (noteFrame s k f) := modRing_keeps hs

theorem takeSlot_keeps {k} : Keeps s₀ (takeSlot s k) := modRing_keeps hs

theorem execRingSlotReceive_gives {i frame verdict} : Gives s₀ (execRingSlotReceive i frame verdict s) := by
  simp only [execRingSlotReceive]
  split
  · exact gives_next hs
  · split
    · exact gives_next hs
    · split
      · exact gives_next (rejectFrame_keeps hs)
      · split
        · exact gives_next (noteFrame_keeps hs)
        · split
          · exact gives_next (rejectFrame_keeps (noteFrame_keeps hs))
          · split
            · exact gives_next (takeSlot_keeps (noteFrame_keeps hs))
            · exact gives_ite (keeps_let (receive_keeps (noteFrame_keeps hs)) fun h1 => gives_next (keeps_ite (takeSlot_keeps h1) h1)) (gives_next
                (rejectFrame_keeps (noteFrame_keeps hs)))

theorem passRing_keeps {i p f sl} : Keeps s₀ (passRing s i p f sl) := by
  simp only [passRing]
  split
  · split
    · exact modRing_keeps (passOn_keeps hs)
    · exact hs
  · exact passOn_keeps hs

theorem noteClaim_keeps {f} : Keeps s₀ (noteClaim s f) := keeps_ite (modRing_keeps hs) hs

theorem execRingFrameForward_gives {i pos rx} : Gives s₀ (execRingFrameForward i pos rx s) := by
  simp only [execRingFrameForward]
  split
  · exact gives_next hs
  · split
    · exact gives_next hs
    · split
      · exact gives_next hs
      · exact gives_next (modPort_keeps hs)
      · exact keeps_let (noteClaim_keeps hs) fun h1 => gives_ite (gives_next (keeps_ite h1 (passRing_keeps h1))) (gives_next (passRing_keeps h1))

theorem execClaimSend_gives {m} : Gives s₀ (execClaimSend m s) :=
  gives_ite (gives_next hs) (gives_ite (gives_next (keeps_ite hs (record_keeps (modRing_keeps hs)))) (gives_ite (gives_next (modRing_keeps hs))
    (gives_next (sendRing_keeps (modRing_keeps hs)))))

theorem execClaimRetry_gives : Gives s₀ (execClaimRetry s) := by
  simp only [execClaimRetry]
  split
  · exact gives_next (keeps_ite (modRing_keeps hs) hs)
  · exact gives_next hs

theorem execSlotLost_gives {k} : Gives s₀ (execSlotLost k s) := by
  simp only [execSlotLost]
  split
  · exact gives_ite (gives_next (record_keeps (modRing_keeps hs))) (gives_next hs)
  · exact gives_next hs

theorem execSlotFree_gives {k} : Gives s₀ (execSlotFree k s) := by
  simp only [execSlotFree]
  split
  · exact gives_ite (gives_next (record_keeps (modRing_keeps hs))) (gives_next hs)
  · exact gives_next hs

/-! The commands of the ring that change masters and sides: mastership, handover, breaks, restores, merges (09_train_backbone.md, R332 to R352). -/

theorem ownTime_keeps : Keeps s₀ (ownTime s) := keeps_let (ownDomain_keeps hs) fun h1 => convEdge_keeps (keeps_ite (record_keeps h1) h1)

theorem execBecomeMaster_gives : Gives s₀ (execBecomeMaster s) := gives_ite (gives_next (ownTime_keeps (becomeMaster_keeps hs))) (gives_next hs)

theorem execHandover_gives : Gives s₀ (execHandover s) :=
  gives_ite (gives_next hs) (gives_ite (gives_next (record_keeps (ownTime_keeps (becomeMaster_keeps hs)))) (gives_next (modRing_keeps hs)))

theorem setRestore_keeps {sd a} : Keeps s₀ (setRestore s sd a) := modRing_keeps hs

theorem forceDown_keeps {i} : Keeps s₀ (forceDown s i) := modRing_keeps (modPort_keeps hs)

theorem execLineLost_gives {i silent} : Gives s₀ (execLineLost i silent s) :=
  gives_ite (gives_next hs) (keeps_let (modRing_keeps (setRestore_keeps (keeps_ite (forceDown_keeps hs) hs))) fun h2 => gives_ite (gives_next
    (changeSide_keeps (modRing_keeps h2))) (gives_ite (gives_next h2) (gives_next (record_keeps (modRing_keeps h2)))))

theorem execForcedLinkDownEnd_gives {i} : Gives s₀ (execForcedLinkDownEnd i s) := gives_next (modRing_keeps hs)

theorem execRestoreProbe_gives {x} : Gives s₀ (execRestoreProbe x s) :=
  gives_ite (gives_next hs) (gives_ite (gives_next (modRing_keeps hs)) (gives_ite (gives_next (sendRing_keeps (setRestore_keeps hs)))
    (gives_next hs)))

theorem execRestoreAct_gives {sd probe} : Gives s₀ (execRestoreAct sd probe s) := by
  simp only [execRestoreAct]
  split
  · exact gives_ite (gives_next (modRing_keeps (changeSide_keeps (setRestore_keeps hs)))) (gives_next hs)
  · exact gives_next hs

theorem execJunctionProbe_gives {x} : Gives s₀ (execJunctionProbe x s) := by
  simp only [execJunctionProbe]
  split
  · exact gives_next hs
  · refine gives_next ?_
    refine loop_keeps ?_ (fun _ _ h1 => sendRing_keeps h1)
    split
    · exact keeps_ite (refuseMerge_keeps hs) hs
    · exact hs

theorem noticeMerge_keeps {keeper} : Keeps s₀ (noticeMerge s keeper) :=
  keeps_ite hs (keeps_let (modRing_keeps hs) fun h1 => convEdge_keeps (keeps_ite (startSlew_keeps h1) h1))

theorem reportMerge_keeps {keeper sl} : Keeps s₀ (reportMerge s keeper sl) := keeps_ite (noticeMerge_keeps hs) (sendRing_keeps hs)

theorem execMergeDecision_gives {sd rx} : Gives s₀ (execMergeDecision sd rx s) := by
  unfold execMergeDecision
  extract_lets p s1 mine
  have h1 : Keeps s₀ s1 := modRing_keeps hs
  refine gives_ite (gives_next hs) ?_
  split
  · refine gives_ite (gives_next h1) (gives_ite (gives_next (refuseMerge_keeps h1)) ?_)
    exact keeps_let (record_keeps (modRing_keeps h1)) fun h2 => gives_next (keeps_ite h2 (reportMerge_keeps h2))
  · refine gives_ite (gives_next h1) (gives_ite (gives_next (refuseMerge_keeps h1)) (gives_ite (gives_next (refuseMerge_keeps h1)) ?_))
    exact keeps_let (modRing_keeps h1) fun h2 => gives_next (keeps_ite h2 (reportMerge_keeps h2))

theorem execMergeNotice_gives {frame} : Gives s₀ (execMergeNotice frame s) := gives_ite (gives_next (noticeMerge_keeps hs)) (gives_next hs)

theorem keeperActs_keeps {sd} : Keeps s₀ (keeperActs s sd) := modRing_keeps (changeSide_keeps hs)

theorem joinerActs_keeps {junction kMaster} : Keeps s₀ (joinerActs s junction kMaster) := by
  simp only [joinerActs]
  refine modTime_keeps ?_
  split
  · refine modRing_keeps ?_
    split
    · exact changeSide_keeps hs
    · exact hs
  · refine relabel_keeps ?_
    refine modRing_keeps ?_
    split
    · exact changeSide_keeps hs
    · exact hs

theorem execMergeAct_gives {x} : Gives s₀ (execMergeAct x s) := by
  simp only [execMergeAct]
  split
  · exact gives_next hs
  · split
    · exact gives_ite (gives_next (keeps_ite (keeperActs_keeps hs) hs)) (gives_next (keeps_ite (convEdge_keeps (joinerActs_keeps hs)) hs))
    · exact gives_next (keeps_ite (convEdge_keeps (joinerActs_keeps hs)) hs)

/-! The commands of network time (10_network_time.md, R361 to R376; 16_power_and_clocks.md, R546, R547). -/

theorem sendSync_keeps {i dom logIv d now sl} : Keeps s₀ (sendSync s i dom logIv d now sl) := modRing_keeps (countSeq_keeps (sendRingAt_keeps hs))

theorem execSyncSend_gives {x} : Gives s₀ (execSyncSend x s) := by
  simp only [execSyncSend]
  split
  · exact gives_next hs
  · split
    · exact gives_next (keeps_ite (countSeq_keeps (enqPtp_keeps hs)) hs)
    · exact gives_ite (gives_next hs) (gives_ite (gives_next (sendSync_keeps hs)) (gives_ite (gives_next hs) (gives_ite (gives_next
        (sendSync_keeps hs)) (gives_ite (gives_next (sendSync_keeps hs)) (gives_next hs)))))

theorem afterSync_keeps {dom} : Keeps s₀ (afterSync s dom) := keeps_ite (keeps_ite (startSlew_keeps hs) (steer_keeps hs)) hs

theorem junctionSync_keeps {i m o} : Keeps s₀ (junctionSync s i m o) :=
  keeps_ite (keeps_let (modTime_keeps hs) fun h1 => keeps_ite (measureKeeper_keeps h1) h1) hs

theorem legSync_keeps {i m o} : Keeps s₀ (legSync s i m o) :=
  keeps_ite (afterSync_keeps (modTime_keeps hs)) (keeps_ite (keeps_let (modTime_keeps hs) fun h1 => afterSync_keeps (keeps_ite
    (measureKeeper_keeps h1) h1)) hs)

theorem execSyncReceive_gives {p rx} : Gives s₀ (execSyncReceive p rx s) := by
  simp only [execSyncReceive]
  split
  · exact gives_next hs
  · split
    · exact gives_next (ptpReject_keeps hs)
    · split
      · exact gives_next (ptpReject_keeps hs)
      · split
        · exact gives_next hs
        · exact gives_next (convEdge_keeps (keeps_ite (junctionSync_keeps hs) (legSync_keeps hs)))

theorem noDelay_keeps {i} : Keeps s₀ (noDelay s i) := keeps_ite hs (record_keeps (modTime_keeps hs))

theorem execPdelayReqSend_gives {x} : Gives s₀ (execPdelayReqSend x s) :=
  gives_ite (gives_next hs) (gives_next (modTime_keeps (countSeq_keeps (sendRingAt_keeps (keeps_ite (noDelay_keeps hs) hs)))))

theorem execPdelayReqReceive_gives {p m now} : Gives s₀ (execPdelayReqReceive p m now s) :=
  gives_ite (gives_next hs) (gives_ite (gives_next (ptpReject_keeps hs)) (gives_ite (gives_next hs) (gives_next (countSeq_keeps (enqPtp_keeps hs)))))

theorem execPdelayRespReceive_gives {i m now} : Gives s₀ (execPdelayRespReceive i m now s) := by
  simp only [execPdelayRespReceive]
  split
  · exact gives_next hs
  · split
    · exact gives_next (ptpReject_keeps hs)
    · split
      · exact gives_next hs
      · exact keeps_let (modTime_keeps hs) fun h1 => gives_ite (gives_next (modTime_keeps h1)) (gives_next (noDelay_keeps h1))

theorem execAnnounceSend_gives {p} : Gives s₀ (execAnnounceSend p s) := gives_ite (gives_next (countSeq_keeps (enqPtp_keeps hs))) (gives_next hs)

theorem execClockSet_gives {sync} : Gives s₀ (execClockSet sync s) := by
  simp only [execClockSet]
  split
  · exact gives_next hs
  · split
    · exact gives_ite (gives_next (record_keeps (ownDomain_keeps (setClock_keeps hs)))) (gives_next hs)
    · split
      · exact gives_next hs
      · exact gives_ite (gives_next (record_keeps (setHops_keeps (modTime_keeps (setClock_keeps hs))))) (gives_next hs)

theorem toDomain_keeps {d} : Keeps s₀ (toDomain s d) := slewAfterChange_keeps (record_keeps (setHops_keeps (modTime_keeps hs)))

theorem execActiveDomainChange_gives : Gives s₀ (execActiveDomainChange s) := by
  simp only [execActiveDomainChange]
  split
  · exact gives_next hs
  · split
    · exact gives_ite (gives_next (convEdge_keeps (toDomain_keeps hs))) (gives_next hs)
    · exact gives_ite (gives_next (convEdge_keeps (toDomain_keeps hs))) (gives_next hs)
    · exact gives_next hs

theorem execSlewEnd_gives : Gives s₀ (execSlewEnd s) :=
  gives_ite (keeps_let (steer_keeps (modTime_keeps hs)) fun h1 => gives_next (convEdge_keeps (keeps_ite (modRing_keeps h1) h1))) (gives_next hs)

theorem execHoldoverEnter_gives : Gives s₀ (execHoldoverEnter s) :=
  gives_ite (gives_next (convEdge_keeps (record_keeps (setHops_keeps (modTime_keeps hs))))) (gives_next hs)

theorem execHoldoverLeave_gives {dom2} : Gives s₀ (execHoldoverLeave dom2 s) :=
  gives_ite (gives_next (convEdge_keeps (slewAfterChange_keeps (record_keeps (setHops_keeps (modTime_keeps hs)))))) (gives_next hs)

theorem execOscillatorRetrim_gives : Gives s₀ (execOscillatorRetrim s) :=
  gives_ite (gives_next hs) (keeps_let (modTime_keeps hs) fun h1 => gives_ite (gives_next (record_keeps (setCorr_keeps (modTime_keeps h1))))
    (gives_next (record_keeps h1)))

theorem execReferenceCheck_gives {count} : Gives s₀ (execReferenceCheck count s) :=
  gives_ite (gives_next (record_keeps (keeps_update hs))) (gives_next hs)

end Sys2Proof.Machine
end

section
/-! PROOF. Every command, and so every step, keeps the queue, the fuses and the canonical form of the memories. -/

namespace Sys2Proof.Machine

theorem exec_gives (i : Instr) (s : State) : Gives s (exec i s) := by
  have hs := keeps_refl s
  cases i with
  | add => exact execAdd_gives hs
  | addi => exact execAddi_gives hs
  | sub => exact execSub_gives hs
  | subi => exact execSubi_gives hs
  | adds => exact execAdds_gives hs
  | subs => exact execSubs_gives hs
  | neg => exact execNeg_gives hs
  | mul => exact execMul_gives hs
  | mulh => exact execMulh_gives hs
  | div => exact execDiv_gives hs
  | divu => exact execDivu_gives hs
  | rem => exact execRem_gives hs
  | abs => exact execAbs_gives hs
  | min => exact execMin_gives hs
  | max => exact execMax_gives hs
  | and => exact execAnd_gives hs
  | andi => exact execAndi_gives hs
  | or => exact execOr_gives hs
  | ori => exact execOri_gives hs
  | xor => exact execXor_gives hs
  | xori => exact execXori_gives hs
  | not => exact execNot_gives hs
  | limit => exact execLimit_gives hs
  | shl => exact execShl_gives hs
  | shr => exact execShr_gives hs
  | sar => exact execSar_gives hs
  | rol => exact execRol_gives hs
  | sel => exact execSel_gives hs
  | mov => exact execMov_gives hs
  | movi => exact execMovi_gives hs
  | movhi => exact execMovhi_gives hs
  | cmp => exact execCmp_gives hs
  | cmpi => exact execCmpi_gives hs
  | bset => exact execBset_gives hs
  | bclr => exact execBclr_gives hs
  | btst => exact execBtst_gives hs
  | bld => exact execBld_gives hs
  | bst => exact execBst_gives hs
  | band => exact execBand_gives hs
  | bor => exact execBor_gives hs
  | bxor => exact execBxor_gives hs
  | bnot => exact execBnot_gives hs
  | bmov => exact execBmov_gives hs
  | edge => exact execEdge_gives hs
  | fadd => exact execFadd_gives hs
  | fsub => exact execFsub_gives hs
  | fmul => exact execFmul_gives hs
  | fdiv => exact execFdiv_gives hs
  | fsqrt => exact execFsqrt_gives hs
  | fmin => exact execFmin_gives hs
  | fmax => exact execFmax_gives hs
  | fabs => exact execFabs_gives hs
  | fneg => exact execFneg_gives hs
  | fcmp => exact execFcmp_gives hs
  | ftoi => exact execFtoi_gives hs
  | itof => exact execItof_gives hs
  | flim => exact execFlim_gives hs
  | fscale => exact execFscale_gives hs
  | ldw => exact execLdw_gives hs
  | ldh => exact execLdh_gives hs
  | ldhu => exact execLdhu_gives hs
  | ldb => exact execLdb_gives hs
  | ldbu => exact execLdbu_gives hs
  | ldq => exact execLdq_gives hs
  | ldt => exact execLdt_gives hs
  | stw => exact execStw_gives hs
  | sth => exact execSth_gives hs
  | stb => exact execStb_gives hs
  | stq => exact execStq_gives hs
  | stt => exact execStt_gives hs
  | br => exact execBr_gives hs
  | bt => exact execBt_gives hs
  | bf => exact execBf_gives hs
  | call => exact execCall_gives hs
  | ret => exact execRet_gives hs
  | loop => exact execLoop_gives hs
  | endl => exact execEndl_gives hs
  | jtab => exact execJtab_gives hs
  | done => exact execDone_gives hs
  | ton => exact execTon_gives hs
  | tof => exact execTof_gives hs
  | tp => exact execTp_gives hs
  | ctu => exact execCtu_gives hs
  | ctd => exact execCtd_gives hs
  | now => exact execNow_gives hs
  | tide => exact execTide_gives hs
  | age => exact execAge_gives hs
  | qchk => exact execQchk_gives hs
  | subst => exact execSubst_gives hs
  | fence => exact execFence_gives hs
  | ldx => exact execLdx_gives hs
  | stx => exact execStx_gives hs
  | cas => exact execCas_gives hs
  | xchg => exact execXchg_gives hs
  | rdsys => exact execRdsys_gives hs
  | wrsys => exact execWrsys_gives hs
  | arpri => exact execArpri_gives hs
  | split => exact execSplit_gives hs
  | join => exact execJoin_gives hs
  | sig => exact execSig_gives hs
  | trap => exact execTrap_gives hs
  | nop => exact execNop_gives hs
  | deadlineOverrun => exact execDeadlineOverrun_gives hs
  | exceptionClassify => exact execExceptionClassify_gives hs
  | outputWindow => exact execOutputWindow_gives hs
  | commitInstant => exact execCommitInstant_gives hs
  | taskRelease => exact execTaskRelease_gives hs
  | taskReady => exact execTaskReady_gives hs
  | signatureCompare => exact execSignatureCompare_gives hs
  | outputPathJudge => exact execOutputPathJudge_gives hs
  | lockstepWindowClose => exact execLockstepWindowClose_gives hs
  | lanePowerLoss => exact execLanePowerLoss_gives hs
  | laneSupplyReady => exact execLaneSupplyReady_gives hs
  | laneSelfTestDone => exact execLaneSelfTestDone_gives hs
  | laneSelfTestTimeout => exact execLaneSelfTestTimeout_gives hs
  | rejoinStart => exact execRejoinStart_gives hs
  | rejoinCopyDone => exact execRejoinCopyDone_gives hs
  | shadowStart => exact execShadowStart_gives hs
  | rejoinEnter => exact execRejoinEnter_gives hs
  | splitHandover => exact execSplitHandover_gives hs
  | debugAttach => exact execDebugAttach_gives hs
  | debugDetach => exact execDebugDetach_gives hs
  | setupEntry => exact execSetupEntry_gives hs
  | admissionVote => exact execAdmissionVote_gives hs
  | bankLoadDone => exact execBankLoadDone_gives hs
  | effectBoundary => exact execEffectBoundary_gives hs
  | commandEffectTide => exact execCommandEffectTide_gives hs
  | forceEffect => exact execForceEffect_gives hs
  | kOverlayWriteDone => exact execKOverlayWriteDone_gives hs
  | retainCycleStart => exact execRetainCycleStart_gives hs
  | retainCapturesComplete => exact execRetainCapturesComplete_gives hs
  | retainWriteDone => exact execRetainWriteDone_gives hs
  | linkUp => exact execLinkUp_gives hs
  | linkLoss => exact execLinkLoss_gives hs
  | ttWindowTx => exact execTtWindowTx_gives hs
  | ttFrameReceive => exact execTtFrameReceive_gives hs
  | isolationEnd => exact execIsolationEnd_gives hs
  | probationEnd => exact execProbationEnd_gives hs
  | guardianExpReset => exact execGuardianExpReset_gives hs
  | frameForward => exact execFrameForward_gives hs
  | nonTtEgressStart => exact execNonTtEgressStart_gives hs
  | trdpPush => exact execTrdpPush_gives hs
  | trdpReceive => exact execTrdpReceive_gives hs
  | trdpPullReject port frame => exact execTrdpPullReject_gives (x := frame) hs
  | arpRequestReceive => exact execArpRequestReceive_gives hs
  | arpRetry => exact execArpRetry_gives hs
  | arpEntryExpire => exact execArpEntryExpire_gives hs
  | addressConflict => exact execAddressConflict_gives hs
  | icmpEcho => exact execIcmpEcho_gives hs
  | modeEchoTide => exact execModeEchoTide_gives hs
  | modeSwitch => exact execModeSwitch_gives hs
  | modeRequestLapse => exact execModeRequestLapse_gives hs
  | sqiUpdate => exact execSqiUpdate_gives hs
  | portDerate => exact execPortDerate_gives hs
  | backbonePhyDwell => exact execBackbonePhyDwell_gives hs
  | beaconSend => exact execBeaconSend_gives hs
  | beaconReceive => exact execBeaconReceive_gives hs
  | beaconMiss => exact execBeaconMiss_gives hs
  | ringSlotTx => exact execRingSlotTx_gives hs
  | ringSlotReceive => exact execRingSlotReceive_gives hs
  | ringFrameForward => exact execRingFrameForward_gives hs
  | becomeMaster => exact execBecomeMaster_gives hs
  | claimSend => exact execClaimSend_gives hs
  | claimRetry => exact execClaimRetry_gives hs
  | slotLost => exact execSlotLost_gives hs
  | slotFree => exact execSlotFree_gives hs
  | handover => exact execHandover_gives hs
  | lineLost => exact execLineLost_gives hs
  | forcedLinkDownEnd => exact execForcedLinkDownEnd_gives hs
  | restoreProbe => exact execRestoreProbe_gives hs
  | restoreAct => exact execRestoreAct_gives hs
  | junctionProbe => exact execJunctionProbe_gives hs
  | mergeDecision => exact execMergeDecision_gives hs
  | mergeNotice => exact execMergeNotice_gives hs
  | mergeAct => exact execMergeAct_gives hs
  | backboneEnergyWake => exact execBackboneEnergyWake_gives hs
  | syncSend => exact execSyncSend_gives hs
  | syncReceive => exact execSyncReceive_gives hs
  | pdelayReqSend => exact execPdelayReqSend_gives hs
  | pdelayReqReceive => exact execPdelayReqReceive_gives hs
  | pdelayRespReceive => exact execPdelayRespReceive_gives hs
  | announceSend => exact execAnnounceSend_gives hs
  | clockSet => exact execClockSet_gives hs
  | activeDomainChange => exact execActiveDomainChange_gives hs
  | slewEnd => exact execSlewEnd_gives hs
  | holdoverEnter => exact execHoldoverEnter_gives hs
  | holdoverLeave => exact execHoldoverLeave_gives hs
  | oscillatorRetrim => exact execOscillatorRetrim_gives hs
  | referenceCheck => exact execReferenceCheck_gives hs
  | comparatorChange => exact execComparatorChange_gives hs
  | filterAccept => exact execFilterAccept_gives hs
  | wettingEnd => exact execWettingEnd_gives hs
  | channelSupplyChange => exact execChannelSupplyChange_gives hs
  | islandStart => exact execIslandStart_gives hs
  | islandWatchdogExpire => exact execIslandWatchdogExpire_gives hs
  | islandRefreshResume => exact execIslandRefreshResume_gives hs
  | overloadTrip => exact execOverloadTrip_gives hs
  | readbackMismatch => exact execReadbackMismatch_gives hs
  | faultBitRise => exact execFaultBitRise_gives hs
  | localisationEnd => exact execLocalisationEnd_gives hs
  | couplerSilent => exact execCouplerSilent_gives hs
  | testPulseStart => exact execTestPulseStart_gives hs
  | testPulseEnd => exact execTestPulseEnd_gives hs
  | tachoEdge => exact execTachoEdge_gives hs
  | enableRestore => exact execEnableRestore_gives hs
  | quietTimeReached => exact execQuietTimeReached_gives hs
  | parapetTideSelfCheck => exact execParapetTideSelfCheck_gives hs
  | railFault => exact execRailFault_gives hs
  | tachoIslandFault => exact execTachoIslandFault_gives hs
  | outboundIssue => exact execOutboundIssue_gives hs
  | targetResponse => exact execTargetResponse_gives hs
  | retryReissue => exact execRetryReissue_gives hs
  | outboundTimeout => exact execOutboundTimeout_gives hs
  | inboundClaim => exact execInboundClaim_gives hs
  | inboundWrite => exact execInboundWrite_gives hs
  | inboundRead => exact execInboundRead_gives hs
  | inboundDataExpire => exact execInboundDataExpire_gives hs
  | inboundLockTimeout => exact execInboundLockTimeout_gives hs
  | lockAbort => exact execLockAbort_gives hs
  | rackArbitrate => exact execRackArbitrate_gives hs
  | grantWithdraw => exact execGrantWithdraw_gives hs
  | corbelReset => exact execCorbelReset_gives hs
  | corbelInterrupt => exact execCorbelInterrupt_gives hs
  | moverDescriptorDone => exact execMoverDescriptorDone_gives hs
  | arbiterContest => exact execArbiterContest_gives hs
  | scrubRead => exact execScrubRead_gives hs
  | domainSlackEntry => exact execDomainSlackEntry_gives hs
  | feedOutOfLimits => exact execFeedOutOfLimits_gives hs
  | feedInLimits => exact execFeedInLimits_gives hs
  | feedReturn => exact execFeedReturn_gives hs
  | storeDepleted => exact execStoreDepleted_gives hs
  | powerOn => exact execPowerOn_gives hs
  | neapAttempt => exact execNeapAttempt_gives hs
  | wakeLatch => exact execWakeLatch_gives hs
  | wake => exact execWake_gives hs
  | deratingStep => exact execDeratingStep_gives hs
  | laneThermalShutdown => exact execLaneThermalShutdown_gives hs
  | pllLockLoss => exact execPllLockLoss_gives hs
  | bootBankSelect => exact execBootBankSelect_gives hs
  | trialStep => exact execTrialStep_gives hs
  | fuseBurnDone => exact execFuseBurnDone_gives hs
  | cairnSectorProgram => exact execCairnSectorProgram_gives hs
  | cairnTokenRefill => exact execCairnTokenRefill_gives hs
  | suppressedReportTimeout => exact execSuppressedReportTimeout_gives hs
  | headlandEventBuffer => exact execHeadlandEventBuffer_gives hs
  | hello => exact execHello_gives hs
  | login => exact execLogin_gives hs
  | logout => exact execLogout_gives hs
  | passwd => exact execPasswd_gives hs
  | keyslotInstall => exact execKeyslotInstall_gives hs
  | keyslotRevoke => exact execKeyslotRevoke_gives hs
  | status => exact execStatus_gives hs
  | read => exact execRead_gives hs
  | force => exact execForce_gives hs
  | unforce => exact execUnforce_gives hs
  | forcelist => exact execForcelist_gives hs
  | olc => exact execOlc_gives hs
  | olcstat => exact execOlcstat_gives hs
  | stop => exact execStop_gives hs
  | restart => exact execRestart_gives hs
  | service => exact execService_gives hs
  | leave => exact execLeave_gives hs
  | reboot => exact execReboot_gives hs
  | appbegin => exact execAppbegin_gives hs
  | appblock => exact execAppblock_gives hs
  | append => exact execAppend_gives hs
  | updbegin => exact execUpdbegin_gives hs
  | updblock => exact execUpdblock_gives hs
  | updquery => exact execUpdquery_gives hs
  | updend => exact execUpdend_gives hs
  | confirm => exact execConfirm_gives hs
  | recread => exact execRecread_gives hs
  | logread => exact execLogread_gives hs
  | calstart => exact execCalstart_gives hs
  | calpoint => exact execCalpoint_gives hs
  | calread => exact execCalread_gives hs
  | calwrite => exact execCalwrite_gives hs
  | calabort => exact execCalabort_gives hs
  | sessionIdleTimeout => exact execSessionIdleTimeout_gives hs
  | relayRequest => exact execRelayRequest_gives hs
  | relayReply => exact execRelayReply_gives hs
  | relayTimeout => exact execRelayTimeout_gives hs
  | backboneServiceRequest => exact execBackboneServiceRequest_gives hs
  | arPriWrite => exact execArPriWrite_gives hs
  | pmLedWrite => exact execPmLedWrite_gives hs
  | ledTestExpire => exact execLedTestExpire_gives hs
  | registerWrite => exact execRegisterWrite_gives hs
  | serviceButtonPress => exact execServiceButtonPress_gives hs
  | serviceButtonHold => exact execServiceButtonHold_gives hs
  | unassignedOpcode => exact execUnassignedOpcode_gives hs
  | setupClassInstruction => exact execSetupClassInstruction_gives hs
  | faultBitClear => exact execFaultBitClear_gives hs
  | islandReportingAgain => exact execIslandReportingAgain_gives hs
  | rackResetRelease => exact execRackResetRelease_gives hs
  | arpReply => exact execArpReply_gives hs
  | storeRecharged => exact execStoreRecharged_gives hs
  | lockoutEnd => exact execLockoutEnd_gives hs
  | operatingSecondsIncrement => exact execOperatingSecondsIncrement_gives hs

/-- A step is a tick, or a command on the state with the rest of the queue, which has the same fuses and memories. -/
theorem step_memoriesOk {s t : State} (hok : MemoriesOk s) (h : step s = .next t) : MemoriesOk t := by
  unfold step at h
  split at h
  · cases h
    exact (memoriesOk_iff _).mpr ((tick_keeps (keeps_refl s)).2.2 hok)
  · next c rest _ =>
    obtain ⟨u, hu, _, _, hm⟩ := exec_gives c { s with pending := rest }
    cases hu.symm.trans h
    exact (memoriesOk_iff _).mpr (hm hok)

/-- Settles O58: what each operation and command keeps (`Keeps`) holds the canonical form of every memory. -/
theorem memoriesStayCanonical : Obligations.MemoriesStayCanonical := by
  unfold Obligations.MemoriesStayCanonical
  exact fun _ _ => step_memoriesOk

end Sys2Proof.Machine
end

section
/-! PROOF. The error-correcting codes of the memories as a correction leaves them (15_fabric_arbitration_and_memory.md, R509 to R513). -/

namespace Sys2Proof.Machine

/-! The EC_ sets and the damage of a memory after each update of the state. -/

@[simp] theorem eccGet_eccPut (s : State) (m n : MemId) (e : EccSet) :
    eccGet (eccPut s m e) n = if n = m then e else eccGet s n := by
  cases m <;> cases n <;> simp [eccGet, eccPut]

theorem eccGet_congr {s t : State} (h : t.ecc = s.ecc) (m : MemId) : eccGet t m = eccGet s m := by
  cases m <;> simp only [eccGet, h]

@[simp] theorem eccGet_record (s : State) (c : BitVec 16) (d : List Byte) (m : MemId) : eccGet (record s c d) m = eccGet s m := by
  obtain ⟨r, hr⟩ := record_only s c d
  rw [hr]
  exact eccGet_congr rfl m

@[simp] theorem eccGet_modBank (s : State) (d : BankId) (f : BankSt → BankSt) (m : MemId) : eccGet (modBank s d f) m = eccGet s m := by
  obtain ⟨b, hb⟩ := modBank_only s d f
  rw [hb]
  exact eccGet_congr rfl m

@[simp] theorem eccGet_wake (s : State) (d : SlackDom) (m : MemId) : eccGet (wake s d) m = eccGet s m := by
  obtain ⟨p, hp⟩ := wake_only s d
  rw [hp]
  exact eccGet_congr rfl m

@[simp] theorem eccGet_endRefresh (s : State) (m : MemId) : eccGet (endRefresh s) m = eccGet s m := by
  unfold endRefresh
  split
  · rfl
  · rw [eccGet_record]
    exact eccGet_congr rfl m

@[simp] theorem eccGet_setDmg (s : State) (m n : MemId) (d : Damage) : eccGet (setDmg s m d) n = eccGet s n := by
  cases m <;> exact eccGet_congr rfl n

@[simp] theorem eccGet_spoilRetain (s : State) (m n : MemId) (a : Nat) : eccGet (spoilRetain s m a) n = eccGet s n := by
  unfold spoilRetain
  dsimp only
  split
  · exact eccGet_congr rfl n
  · split
    · exact eccGet_congr rfl n
    · rfl

@[simp] theorem dmgOf_record (s : State) (c : BitVec 16) (d : List Byte) (m : MemId) : dmgOf (record s c d) m = dmgOf s m := by
  obtain ⟨r, hr⟩ := record_only s c d
  rw [hr]
  cases m <;> rfl

@[simp] theorem dmgOf_eccPut (s : State) (m n : MemId) (e : EccSet) : dmgOf (eccPut s m e) n = dmgOf s n := by
  cases m <;> cases n <;> rfl

@[simp] theorem dmgOf_spoilRetain (s : State) (m n : MemId) (a : Nat) : dmgOf (spoilRetain s m a) n = dmgOf s n := by
  unfold spoilRetain
  dsimp only
  split
  · cases n <;> rfl
  · split
    · cases n <;> rfl
    · rfl

theorem dmgOf_setDmg {s : State} {m : MemId} (ht : hasTable m = true) (d : Damage) : dmgOf (setDmg s m d) m = d := by
  cases m with
  | lane l => simp [dmgOf, setDmg]
  | quay => rfl
  | mram => rfl
  | f1 => cases ht
  | f2 => cases ht

@[simp] theorem setDmg_dmgOf (s : State) (m : MemId) : setDmg s m (dmgOf s m) = s := by
  cases m with
  | lane l => cases l <;> rfl
  | quay => rfl
  | mram => rfl
  | f1 => rfl
  | f2 => rfl

theorem dmgFind_filter_ne (d : Damage) (a : Nat) : dmgFind (d.filter fun p => decide (p.1 ≠ a)) a = .none := by
  induction d with
  | nil => rfl
  | cons x r ih =>
    obtain ⟨k, h⟩ := x
    by_cases hk : k = a
    · simpa [hk] using ih
    · simpa [hk, dmgFind] using ih

/-- A write-back cures what is not a hard fault (R511). -/
theorem dmgFind_dmgCure_soft {d : Damage} {a : Nat} {b : Fin 72} (h : dmgFind d a = .soft b) : dmgFind (dmgCure d a) a = .none := by
  simp only [dmgCure, h, dmgSet]
  exact dmgFind_filter_ne d a

/-! A correction in a memory with an address table (R512, R513). -/

/-- Entry `i` of the address table holds the address `a`. -/
def Listed (e : EccSet) (a : Nat) (i : Fin 16) : Prop := (e.table.get i).valid = true ∧ (e.table.get i).addr = BitVec.ofNat 32 a

/-- The entry of an address that was corrected once more. -/
def corrected (x : EccEntry) (b : Fin 72) : EccEntry :=
  { x with count := if x.count = 0xFFFF then x.count else x.count + 1, bit := BitVec.ofNat 7 b.val, hard := x.hard || x.scrubbed }

theorem fins_find?_first {n : Nat} {p : Fin n → Bool} {i : Fin n} (hi : p i = true) (h : ∀ j < i, p j = false) : (fins n).find? p = some i := by
  rw [fins, ← Fin.find?_eq_find?_finRange]
  exact Fin.find?_eq_some_iff.mpr ⟨hi, h⟩

theorem fins_find?_none {n : Nat} {p : Fin n → Bool} (h : ∀ i, p i = false) : (fins n).find? p = none := by
  rw [fins, ← Fin.find?_eq_find?_finRange]
  exact Fin.find?_eq_none_iff.mpr h

theorem listed_eq_true {e : EccSet} {a : Nat} {i : Fin 16} :
    ((e.table.get i).valid && (e.table.get i).addr == BitVec.ofNat 32 a) = true ↔ Listed e a i := by simp [Listed]

theorem listed_eq_false {e : EccSet} {a : Nat} {i : Fin 16} :
    ((e.table.get i).valid && (e.table.get i).addr == BitVec.ofNat 32 a) = false ↔ ¬Listed e a i := by
  rw [← listed_eq_true, Bool.not_eq_true]

section
variable {s : State} {m : MemId} {a : Nat} {b : Fin 72}

@[simp] theorem dmgOf_eccCorrect (n : MemId) : dmgOf (eccCorrect s m a b) n = dmgOf s n := by
  unfold eccCorrect
  dsimp only
  split
  · simp
  · split
    · split <;> simp
    · split <;> simp

theorem eccGet_eccCorrect_counts :
    (eccGet (eccCorrect s m a b) m).corr = (eccGet s m).corr.inc ∧ (eccGet (eccCorrect s m a b) m).unc = (eccGet s m).unc := by
  unfold eccCorrect
  dsimp only
  split
  · simp
  · split
    · split <;> simp
    · split <;> simp

/-- An address that is listed has its entry counted up. -/
theorem eccGet_eccCorrect_listed (ht : hasTable m = true) {i : Fin 16} (hi : Listed (eccGet s m) a i)
    (hfirst : ∀ j, j < i → ¬Listed (eccGet s m) a j) :
    eccGet (eccCorrect s m a b) m = { eccGet s m with
      corr := (eccGet s m).corr.inc, table := (eccGet s m).table.set i (corrected ((eccGet s m).table.get i) b) } := by
  have hf := fins_find?_first (listed_eq_true.mpr hi) fun j hj => listed_eq_false.mpr (hfirst j hj)
  simp only [eccCorrect, ht, hf]
  split
  · cases ‹_›
  · split <;> simp [corrected]

/-- An address that is not listed takes the first free entry. -/
theorem eccGet_eccCorrect_free (ht : hasTable m = true) (hno : ∀ i, ¬Listed (eccGet s m) a i) {k : Fin 16}
    (hk : ((eccGet s m).table.get k).valid = false) (hfirst : ∀ j, j < k → ((eccGet s m).table.get j).valid = true) :
    eccGet (eccCorrect s m a b) m = { eccGet s m with
      corr := (eccGet s m).corr.inc
      table := (eccGet s m).table.set k ⟨BitVec.ofNat 32 a, true, false, BitVec.ofNat 7 b.val, 1, false⟩ } := by
  have hf := fins_find?_none fun i => listed_eq_false.mpr (hno i)
  have hg : (fins 16).find? (fun i => !((eccGet s m).table.get i).valid) = some k :=
    fins_find?_first (by simp [hk]) fun j hj => by simp [hfirst j hj]
  simp [eccCorrect, ht, hf, hg]

/-- With no free entry the correction is counted as lost. -/
theorem eccGet_eccCorrect_full (ht : hasTable m = true) (hno : ∀ i, ¬Listed (eccGet s m) a i)
    (hfull : ∀ k, ((eccGet s m).table.get k).valid = true) :
    eccGet (eccCorrect s m a b) m = { eccGet s m with corr := (eccGet s m).corr.inc, tlost := (eccGet s m).tlost.inc } := by
  have hf := fins_find?_none fun i => listed_eq_false.mpr (hno i)
  have hg : (fins 16).find? (fun i => !((eccGet s m).table.get i).valid) = none := fins_find?_none fun i => by simp [hfull i]
  simp [eccCorrect, ht, hf, hg]

end

end Sys2Proof.Machine
end

section
/-! PROOF. The scrubber (15_fabric_arbitration_and_memory.md, R509 to R516). -/

namespace Sys2Proof.Machine

/-! A word of a memory with an address table. -/

section
variable {s : State} {m : MemId} {addr : Nat}

/-- The scrub read of a word that the environment adds nothing to acts on the damage that stands there. -/
theorem exec_scrubRead_table (ha : awake s = true) (ht : hasTable m = true) : exec (.scrubRead m addr .none 0) s =
    match dmgFind (dmgOf s m) (wordStart m addr) with
    | .none => .next s
    | .bad => .next (spoilRetain (eccBad s m (wordStart m addr) .scrubber) m (wordStart m addr))
    | .soft b => .next (setDmg (markScrubbed (eccCorrect s m (wordStart m addr) b) m (wordStart m addr)) m (dmgCure (dmgOf s m) (wordStart m addr)))
    | .hard b => .next (markScrubbed (eccCorrect s m (wordStart m addr) b) m (wordStart m addr)) := by
  have h1 : m ≠ .f1 := by rintro rfl; cases ht
  have h2 : m ≠ .f2 := by rintro rfl; cases ht
  show execScrubRead m addr .none 0 s = _
  simp only [execScrubRead, ha, h1, h2, dmgMeet, setDmg_dmgOf]
  rfl

end

section
variable {s : State} {m : MemId} {a : Nat}

/-- The write-back is noted in the entry of its address (R513). -/
theorem eccGet_markScrubbed : eccGet (markScrubbed s m a) m = { eccGet s m with
    table := (eccGet s m).table.map fun t => if t.valid && t.addr == BitVec.ofNat 32 a then { t with scrubbed := true } else t } := by
  simp [markScrubbed]

@[simp] theorem dmgOf_markScrubbed (n : MemId) : dmgOf (markScrubbed s m a) n = dmgOf s n := dmgOf_eccPut _ _ _ _

theorem markScrubbed_get_listed {i : Fin 16} (hi : Listed (eccGet s m) a i) :
    (eccGet (markScrubbed s m a) m).table.get i = { (eccGet s m).table.get i with scrubbed := true } := by
  rw [eccGet_markScrubbed, Vector.get_map, if_pos (listed_eq_true.mpr hi)]

theorem markScrubbed_get_unlisted {i : Fin 16} (hi : ¬Listed (eccGet s m) a i) :
    (eccGet (markScrubbed s m a) m).table.get i = (eccGet s m).table.get i := by
  rw [eccGet_markScrubbed, Vector.get_map, listed_eq_false.mpr hi]
  rfl

end

/-- What a correctable word leaves of its memory's EC_ set. -/
def Scrubbed (e : EccSet) (a : Nat) (b : Fin 72) (e' : EccSet) : Prop :=
  (∀ i, Listed e a i → (∀ j, j < i → ¬Listed e a j) → e'.tlost = e.tlost ∧ (∀ j, ¬Listed e a j → e'.table.get j = e.table.get j) ∧
    e'.table.get i = { corrected (e.table.get i) b with scrubbed := true }) ∧
  ((∀ i, ¬Listed e a i) → ∀ k, (e.table.get k).valid = false → (∀ j, j < k → (e.table.get j).valid = true) →
    e'.tlost = e.tlost ∧ e'.table = e.table.set k ⟨BitVec.ofNat 32 a, true, false, BitVec.ofNat 7 b.val, 1, true⟩) ∧
  ((∀ i, ¬Listed e a i) → (∀ k, (e.table.get k).valid = true) → e'.tlost = e.tlost.inc ∧ e'.table = e.table)

section
variable {s : State} {m : MemId} {a : Nat} {b : Fin 72}

theorem vector_get_set {n : Nat} {α : Type} (v : Vector α n) (i j : Fin n) (x : α) : (v.set i x).get j = if j = i then x else v.get j :=
  vmod_get v i j fun _ => x

theorem vector_ext_get {n : Nat} {α : Type} {v w : Vector α n} (h : ∀ i, v.get i = w.get i) : v = w :=
  Vector.ext fun i hi => h ⟨i, hi⟩

theorem scrubbed_of_listed (ht : hasTable m = true) {i : Fin 16} (hi : Listed (eccGet s m) a i)
    (hfirst : ∀ j, j < i → ¬Listed (eccGet s m) a j) :
    (eccGet (markScrubbed (eccCorrect s m a b) m a) m).tlost = (eccGet s m).tlost ∧
      (∀ j, ¬Listed (eccGet s m) a j → (eccGet (markScrubbed (eccCorrect s m a b) m a) m).table.get j = (eccGet s m).table.get j) ∧
      (eccGet (markScrubbed (eccCorrect s m a b) m a) m).table.get i = { corrected ((eccGet s m).table.get i) b with scrubbed := true } := by
  have he := eccGet_eccCorrect_listed (b := b) ht hi hfirst
  have hget (j : Fin 16) : (eccGet (eccCorrect s m a b) m).table.get j =
      if j = i then corrected ((eccGet s m).table.get i) b else (eccGet s m).table.get j := by rw [he, vector_get_set]
  refine ⟨by rw [eccGet_markScrubbed, he], fun j hj => ?_, ?_⟩
  · have hne : j ≠ i := fun h => hj (h ▸ hi)
    rw [markScrubbed_get_unlisted, hget, if_neg hne]
    rwa [Listed, hget, if_neg hne]
  · rw [markScrubbed_get_listed, hget, if_pos rfl]
    rw [Listed, hget, if_pos rfl]
    exact hi

theorem scrubbed_of_free (ht : hasTable m = true) (hno : ∀ i, ¬Listed (eccGet s m) a i) {k : Fin 16}
    (hk : ((eccGet s m).table.get k).valid = false) (hfirst : ∀ j, j < k → ((eccGet s m).table.get j).valid = true) :
    (eccGet (markScrubbed (eccCorrect s m a b) m a) m).tlost = (eccGet s m).tlost ∧
      (eccGet (markScrubbed (eccCorrect s m a b) m a) m).table =
        (eccGet s m).table.set k ⟨BitVec.ofNat 32 a, true, false, BitVec.ofNat 7 b.val, 1, true⟩ := by
  have he := eccGet_eccCorrect_free (b := b) ht hno hk hfirst
  have hget (j : Fin 16) : (eccGet (eccCorrect s m a b) m).table.get j =
      if j = k then ⟨BitVec.ofNat 32 a, true, false, BitVec.ofNat 7 b.val, 1, false⟩ else (eccGet s m).table.get j := by rw [he, vector_get_set]
  refine ⟨by rw [eccGet_markScrubbed, he], vector_ext_get fun j => ?_⟩
  rw [vector_get_set]
  by_cases hj : j = k
  · rw [if_pos hj, markScrubbed_get_listed, hget, if_pos hj]
    rw [Listed, hget, if_pos hj]
    exact ⟨rfl, rfl⟩
  · rw [if_neg hj, markScrubbed_get_unlisted, hget, if_neg hj]
    rw [Listed, hget, if_neg hj]
    exact hno j

theorem scrubbed_of_full (ht : hasTable m = true) (hno : ∀ i, ¬Listed (eccGet s m) a i)
    (hfull : ∀ k, ((eccGet s m).table.get k).valid = true) :
    (eccGet (markScrubbed (eccCorrect s m a b) m a) m).tlost = (eccGet s m).tlost.inc ∧
      (eccGet (markScrubbed (eccCorrect s m a b) m a) m).table = (eccGet s m).table := by
  have he := eccGet_eccCorrect_full (b := b) ht hno hfull
  refine ⟨by rw [eccGet_markScrubbed, he], vector_ext_get fun j => ?_⟩
  rw [markScrubbed_get_unlisted, he]
  rw [Listed, he]
  exact hno j

theorem scrubbed_markScrubbed (ht : hasTable m = true) :
    Scrubbed (eccGet s m) a b (eccGet (markScrubbed (eccCorrect s m a b) m a) m) :=
  ⟨fun _ => scrubbed_of_listed ht, fun hno _ => scrubbed_of_free ht hno, scrubbed_of_full ht⟩

theorem corrected_bit (x : EccEntry) (b : Fin 72) : (corrected x b).bit.toNat = b.val := by
  show (BitVec.ofNat 7 b.val).toNat = _
  rw [BitVec.toNat_ofNat]
  omega

theorem corrected_count (x : EccEntry) (b : Fin 72) : (corrected x b).count.toNat = min 65535 (x.count.toNat + 1) := by
  simp only [corrected]
  split
  · simp [*]
  · next h =>
    have hne : x.count.toNat ≠ 65535 := fun h' => h (BitVec.eq_of_toNat_eq h')
    rw [BitVec.toNat_add]
    have := x.count.isLt
    simp
    omega

/-- The effect of the scrub read on a correctable word. -/
theorem exec_scrubRead_correctable {addr : Nat} (ha : awake s = true) (ht : hasTable m = true)
    (hd : dmgFind (dmgOf s m) (wordStart m addr) = .soft b ∨ dmgFind (dmgOf s m) (wordStart m addr) = .hard b) :
    ∃ t, exec (.scrubRead m addr .none 0) s = .next t ∧ (eccGet t m).corr = (eccGet s m).corr.inc ∧ (eccGet t m).unc = (eccGet s m).unc ∧
      (dmgFind (dmgOf s m) (wordStart m addr) = .soft b → dmgFind (dmgOf t m) (wordStart m addr) = .none) ∧
      (dmgFind (dmgOf s m) (wordStart m addr) = .hard b → dmgOf t m = dmgOf s m) ∧
      Scrubbed (eccGet s m) (wordStart m addr) b (eccGet t m) := by
  have hc := eccGet_eccCorrect_counts (s := s) (m := m) (a := wordStart m addr) (b := b)
  have hs := scrubbed_markScrubbed (s := s) (a := wordStart m addr) (b := b) ht
  rw [exec_scrubRead_table ha ht]
  rcases hd with hd | hd
  · rw [hd]
    refine ⟨_, rfl, ?_⟩
    rw [eccGet_setDmg, dmgOf_setDmg ht]
    refine ⟨?_, ?_, fun _ => dmgFind_dmgCure_soft hd, nofun, hs⟩
    · rw [eccGet_markScrubbed]; exact hc.1
    · rw [eccGet_markScrubbed]; exact hc.2
  · rw [hd]
    refine ⟨_, rfl, ?_, ?_, nofun, fun _ => by simp, hs⟩
    · rw [eccGet_markScrubbed]; exact hc.1
    · rw [eccGet_markScrubbed]; exact hc.2

end

end Sys2Proof.Machine
end

section
/-! PROOF. The scrub read of a flash sector (15_fabric_arbitration_and_memory.md, R516; 16_power_and_clocks.md, R541). -/

namespace Sys2Proof.Machine

/-- The memory number of a flash device. -/
def flashMem : BankId → MemId
  | .a => .f1
  | .b => .f2

section
variable {s : State} {d : BankId} {addr bits : Nat} {h : Hit}

theorem exec_scrubRead_flash (ha : awake s = true) :
    exec (.scrubRead (flashMem d) addr h bits) s = .next (scrubFlash s (flashMem d) d addr h bits) := by
  show execScrubRead (flashMem d) addr h bits s = _
  cases d <;> simp [execScrubRead, flashMem, ha]

theorem scrubFlash_deferred (hd : s.pw.dstep ≠ 0) : scrubFlash s (flashMem d) d addr h bits = s := if_pos (.inl hd)

/-! What a scrub read does before it looks at the sector: the flash domain wakes, and a rewrite under way ends. -/

theorem not_mem_asleep_wake (x : SlackDom) : x ∉ (wake s x).pw.asleep := by
  unfold wake
  split
  · simp
  · next hx => simpa using hx

@[simp] theorem wake_boot (x : SlackDom) : (wake s x).boot = s.boot := by
  obtain ⟨p, hp⟩ := wake_only s x
  rw [hp]

theorem wake_of_not_mem {x : SlackDom} (hx : x ∉ s.pw.asleep) : wake s x = s := if_neg (by simpa using hx)

theorem stewardRuns_wake (x : SlackDom) : stewardRuns (wake s x) = stewardRuns s := by
  unfold wake
  split
  · rfl
  · rfl

theorem endRefresh_of_none (hr : s.boot.refresh = none) : endRefresh s = s := by simp [endRefresh, hr]

theorem endRefresh_wake_refresh : (endRefresh (wake s .flash)).boot.refresh = none := by rw [endRefresh_boot]

theorem bankOf_endRefresh_wake (c : BankId) : bankOf (endRefresh (wake s .flash)) c = bankOf s c :=
  bankOf_congr (by rw [endRefresh_boot, wake_boot]) (by rw [endRefresh_boot, wake_boot]) c

theorem not_mem_asleep_endRefresh_wake : SlackDom.flash ∉ (endRefresh (wake s .flash)).pw.asleep := by
  rw [endRefresh_pw]
  exact not_mem_asleep_wake _

theorem stewardRuns_endRefresh_wake : stewardRuns (endRefresh (wake s .flash)) = stewardRuns s := by
  rw [← stewardRuns_wake (s := s) .flash]
  simp only [stewardRuns, endRefresh_pw, endRefresh_boot]

/-! A correction and an uncorrectable sector. -/

theorem eccCorrect_flash (a : Nat) (b : Fin 72) :
    eccCorrect s (flashMem d) a b = eccPut s (flashMem d) { eccGet s (flashMem d) with corr := (eccGet s (flashMem d)).corr.inc } := by
  cases d <;> rfl

@[simp] theorem eccPut_boot (m : MemId) (e : EccSet) : (eccPut s m e).boot = s.boot := by cases m <;> rfl

@[simp] theorem eccPut_pw (m : MemId) (e : EccSet) : (eccPut s m e).pw = s.pw := by cases m <;> rfl

theorem eccBad_boot (m : MemId) (a : Nat) (r : Reader) : (eccBad s m a r).boot = s.boot := by simp [eccBad]

theorem eccGet_eccBad (m : MemId) (a : Nat) (r : Reader) : eccGet (eccBad s m a r) m = { eccGet s m with
    unc := (eccGet s m).unc.inc, uaddr := if hasTable m then BitVec.ofNat 32 a else (eccGet s m).uaddr } := by simp [eccBad]

theorem flashBad_boot (k : Nat) :
    (flashBad s d k).boot = (modBank (eccBad s (flashMem d) (512 * k) .scrubber) d (spoilFlash · k)).boot := by
  cases d <;> simp only [flashBad, flashMem]

theorem flashBad_ecc (k : Nat) :
    (flashBad s d k).ecc = (modBank (eccBad s (flashMem d) (512 * k) .scrubber) d (spoilFlash · k)).ecc := by
  cases d <;> simp only [flashBad, flashMem]

theorem modBank_refresh (f : BankSt → BankSt) : (modBank s d f).boot.refresh = s.boot.refresh := by cases d <;> rfl

theorem eccGet_flashBad (k : Nat) : eccGet (flashBad s d k) (flashMem d) = eccGet (eccBad s (flashMem d) (512 * k) .scrubber) (flashMem d) :=
  (eccGet_congr (flashBad_ecc k) _).trans (eccGet_modBank _ _ _ _)

theorem bankOf_flashBad (k : Nat) (c : BankId) : bankOf (flashBad s d k) c = if c = d then spoilFlash (bankOf s d) k else bankOf s c := by
  have he (c : BankId) : bankOf (eccBad s (flashMem d) (512 * k) .scrubber) c = bankOf s c :=
    bankOf_congr (by rw [eccBad_boot]) (by rw [eccBad_boot]) c
  rw [← he c, ← he d, ← bankOf_modBank _ d c (spoilFlash · k)]
  exact bankOf_congr (by rw [flashBad_boot]) (by rw [flashBad_boot]) c

theorem flashBad_refresh (k : Nat) : (flashBad s d k).boot.refresh = s.boot.refresh := by
  rw [flashBad_boot, modBank_refresh, eccBad_boot]

theorem spoilFlash_memories (x : BankSt) (k : Nat) :
    (spoilFlash x k).fw = x.fw ∧ (spoilFlash x k).app0 = x.app0 ∧ (spoilFlash x k).app1 = x.app1 := by
  unfold spoilFlash
  exact ⟨rfl, rfl, rfl⟩

theorem mem_spoilFlash_bad (x : BankSt) (k : Nat) : k ∈ (spoilFlash x k).bad := by
  simp only [spoilFlash]
  split
  · next h => simpa using h
  · simp

end

/-- A rewrite of an erase block begins. -/
def withRewrite (s : State) (r : Refresh) : State := { s with boot := { s.boot with refresh := some r } }

theorem bankOf_withRewrite (s : State) (r : Refresh) : bankOf (withRewrite s r) = bankOf s := funext fun _ => bankOf_congr rfl rfl _

theorem eccGet_withRewrite (s : State) (r : Refresh) (m : MemId) : eccGet (withRewrite s r) m = eccGet s m := eccGet_congr rfl m

section
variable {s : State} {d : BankId} {addr bits : Nat} {h : Hit}

theorem scrubFlash_inRange (hd : s.pw.dstep = 0) (haddr : addr < 0x10000000) : scrubFlash s (flashMem d) d addr h bits =
    let u := endRefresh (wake s .flash)
    if addr / 512 ∈ (bankOf s d).bad then flashBad u d (addr / 512)
    else
      match h with
      | .none => u
      | .bad => flashBad u d (addr / 512)
      | .soft _ | .hard _ =>
        let t := eccCorrect u (flashMem d) (512 * (addr / 512)) 0
        if 4 ≤ bits ∧ stewardRuns s = true then withRewrite t ⟨d, addr / 0x20000, bits⟩ else t := by
  have hr : ¬(s.pw.dstep ≠ 0 ∨ 0x80000 ≤ addr / 512) := fun hn => hn.elim (absurd hd) (by omega)
  have hst : stewardRuns (eccCorrect (endRefresh (wake s .flash)) (flashMem d) (512 * (addr / 512)) 0) = stewardRuns s := by
    rw [← stewardRuns_endRefresh_wake (s := s), eccCorrect_flash]
    simp only [stewardRuns, eccPut_pw, eccPut_boot]
  simp only [scrubFlash, if_neg hr, bankOf_endRefresh_wake, List.contains_iff_mem, hst]
  rfl

theorem scrubFlash_sound (hd : s.pw.dstep = 0) (haddr : addr < 0x10000000) (hk : addr / 512 ∉ (bankOf s d).bad) :
    scrubFlash s (flashMem d) d addr .none bits = endRefresh (wake s .flash) := by
  rw [scrubFlash_inRange hd haddr]
  exact if_neg hk

theorem scrubFlash_bad (hd : s.pw.dstep = 0) (haddr : addr < 0x10000000) (hk : addr / 512 ∈ (bankOf s d).bad ∨ h = .bad) :
    scrubFlash s (flashMem d) d addr h bits = flashBad (endRefresh (wake s .flash)) d (addr / 512) := by
  rw [scrubFlash_inRange hd haddr]
  by_cases hm : addr / 512 ∈ (bankOf s d).bad
  · exact if_pos hm
  · rw [hk.resolve_left hm]
    exact if_neg hm

theorem scrubFlash_correctable {b : Fin 72} (hd : s.pw.dstep = 0) (haddr : addr < 0x10000000) (hk : addr / 512 ∉ (bankOf s d).bad)
    (hb : h = .soft b ∨ h = .hard b) :
    scrubFlash s (flashMem d) d addr h bits =
      let t := eccCorrect (endRefresh (wake s .flash)) (flashMem d) (512 * (addr / 512)) 0
      if 4 ≤ bits ∧ stewardRuns s = true then withRewrite t ⟨d, addr / 0x20000, bits⟩ else t := by
  rw [scrubFlash_inRange hd haddr]
  rcases hb with rfl | rfl
  · exact if_neg hk
  · exact if_neg hk

/-! The effect of the read of a sound, a correctable and an uncorrectable sector. -/

theorem scrubFlash_sound_effect (hd : s.pw.dstep = 0) (haddr : addr < 0x10000000) (hk : addr / 512 ∉ (bankOf s d).bad) :
    let t := scrubFlash s (flashMem d) d addr .none bits
    SlackDom.flash ∉ t.pw.asleep ∧ t.boot.refresh = none ∧ bankOf t = bankOf s ∧ eccGet t (flashMem d) = eccGet s (flashMem d) := by
  rw [scrubFlash_sound hd haddr hk]
  exact ⟨not_mem_asleep_endRefresh_wake, endRefresh_wake_refresh, funext bankOf_endRefresh_wake, by simp⟩

/-- The device and its EC_ set after a correction. -/
theorem eccCorrect_flash_effect :
    let t := eccCorrect (endRefresh (wake s .flash)) (flashMem d) (512 * (addr / 512)) 0
    t.boot.refresh = none ∧ bankOf t = bankOf s ∧ (eccGet t (flashMem d)).corr = (eccGet s (flashMem d)).corr.inc ∧
      (eccGet t (flashMem d)).unc = (eccGet s (flashMem d)).unc := by
  rw [eccCorrect_flash]
  refine ⟨by rw [eccPut_boot, endRefresh_wake_refresh], funext fun c => ?_, by simp, by simp⟩
  exact (bankOf_congr (by rw [eccPut_boot]) (by rw [eccPut_boot]) c).trans (bankOf_endRefresh_wake c)

theorem scrubFlash_few_effect {b : Fin 72} (hd : s.pw.dstep = 0) (haddr : addr < 0x10000000) (hk : addr / 512 ∉ (bankOf s d).bad)
    (hb : h = .soft b ∨ h = .hard b) (hbits : bits < 4) :
    let t := scrubFlash s (flashMem d) d addr h bits
    t.boot.refresh = none ∧ bankOf t = bankOf s ∧ (eccGet t (flashMem d)).corr = (eccGet s (flashMem d)).corr.inc := by
  rw [scrubFlash_correctable hd haddr hk hb]
  obtain ⟨hr, hbank, hc, _⟩ := eccCorrect_flash_effect (s := s) (d := d) (addr := addr)
  dsimp only
  rw [if_neg fun hn => absurd hn.1 (by omega)]
  exact ⟨hr, hbank, hc⟩

theorem scrubFlash_many_effect {b : Fin 72} (hd : s.pw.dstep = 0) (haddr : addr < 0x10000000) (hk : addr / 512 ∉ (bankOf s d).bad)
    (hb : h = .soft b ∨ h = .hard b) (hbits : 4 ≤ bits) (hst : stewardRuns s = true) :
    let t := scrubFlash s (flashMem d) d addr h bits
    t.boot.refresh = some ⟨d, addr / 0x20000, bits⟩ ∧ bankOf t = bankOf s ∧ (eccGet t (flashMem d)).corr = (eccGet s (flashMem d)).corr.inc ∧
      (eccGet t (flashMem d)).unc = (eccGet s (flashMem d)).unc := by
  rw [scrubFlash_correctable hd haddr hk hb]
  obtain ⟨_, hbank, hc, hu⟩ := eccCorrect_flash_effect (s := s) (d := d) (addr := addr)
  dsimp only
  rw [if_pos ⟨hbits, hst⟩, bankOf_withRewrite, eccGet_withRewrite]
  exact ⟨rfl, hbank, hc, hu⟩

theorem scrubFlash_bad_effect (hd : s.pw.dstep = 0) (haddr : addr < 0x10000000) (hk : addr / 512 ∈ (bankOf s d).bad ∨ h = .bad) :
    let t := scrubFlash s (flashMem d) d addr h bits
    t.boot.refresh = none ∧ addr / 512 ∈ (bankOf t d).bad ∧ (eccGet t (flashMem d)).unc = (eccGet s (flashMem d)).unc.inc ∧
      (eccGet t (flashMem d)).corr = (eccGet s (flashMem d)).corr ∧ (bankOf t d).fw = (bankOf s d).fw ∧ (bankOf t d).app0 = (bankOf s d).app0 ∧
      (bankOf t d).app1 = (bankOf s d).app1 ∧ bankOf t (otherBank d) = bankOf s (otherBank d) := by
  rw [scrubFlash_bad hd haddr hk]
  have hme : bankOf (flashBad (endRefresh (wake s .flash)) d (addr / 512)) d = spoilFlash (bankOf s d) (addr / 512) := by
    rw [bankOf_flashBad, if_pos rfl, bankOf_endRefresh_wake]
  have hother : bankOf (flashBad (endRefresh (wake s .flash)) d (addr / 512)) (otherBank d) = bankOf s (otherBank d) := by
    rw [bankOf_flashBad, if_neg (otherBank_ne d), bankOf_endRefresh_wake]
  dsimp only
  rw [flashBad_refresh, endRefresh_wake_refresh, eccGet_flashBad, eccGet_eccBad, hme, hother, eccGet_endRefresh, eccGet_wake]
  obtain ⟨hfw, h0, h1⟩ := spoilFlash_memories (bankOf s d) (addr / 512)
  exact ⟨rfl, mem_spoilFlash_bad _ _, rfl, rfl, hfw, h0, h1, rfl⟩

end

end Sys2Proof.Machine
end

section
/-! PROOF. Register writes from outside an instruction (01_module_architecture.md, R35, R38 to R40, R47; 16_power_and_clocks.md, R531). -/

namespace Sys2Proof.Machine

/-- Who writes where the write names a core, or the steward where it names none. -/
def writer : Option Ctx → Master
  | some c => .lane c.lane
  | none => .steward

/-- The lane whose domains the write needs awake. -/
def writerLane : Option Ctx → LaneId
  | some c => c.lane
  | none => .a

section
variable {s : State} {x : Option Ctx} {addr v : Word} {r : Reg}

/-- A write to a register that there is wakes its domain, and then does what the register takes. -/
theorem exec_registerWrite (ha : awake s = true) (h4 : addr.toNat % 4 = 0) (hr : regAt addr.toNat = some r) :
    exec (.registerWrite x addr v) s =
      .next ((regSet (wakeFor s (writerLane x) addr.toNat) (writer x) r v).getD (wakeFor s (writerLane x) addr.toNat)) := by
  show execRegisterWrite x addr v s = _
  cases x <;> simp [execRegisterWrite, ha, h4, hr, writer, writerLane]

/-- A write that the register takes, and what a state after it has whatever domain it woke. -/
theorem exec_registerWrite_taken {P : State → Prop} (ha : awake s = true) (h4 : addr.toNat % 4 = 0) (hr : regAt addr.toNat = some r)
    (hP : ∀ p, ∃ t, regSet { s with pw := p } (writer x) r v = some t ∧ P t) : ∃ t, exec (.registerWrite x addr v) s = .next t ∧ P t := by
  obtain ⟨p, hp⟩ := wakeFor_only s (writerLane x) addr.toNat
  obtain ⟨t, ht, hPt⟩ := hP p
  exact ⟨t, by rw [exec_registerWrite ha h4 hr, hp, ht]; rfl, hPt⟩

/-- A write that the register does not take wakes its domain alone. -/
theorem exec_registerWrite_ignored (ha : awake s = true) (h4 : addr.toNat % 4 = 0) (hr : regAt addr.toNat = some r)
    (hno : ∀ t, regSet t (writer x) r v = none) : exec (.registerWrite x addr v) s = .next (wakeFor s (writerLane x) addr.toNat) := by
  rw [exec_registerWrite ha h4 hr, hno]
  rfl

theorem exec_registerWrite_nowhere (h : addr.toNat % 4 ≠ 0 ∨ regAt addr.toNat = none) : exec (.registerWrite x addr v) s = .next s := by
  have hn : (if addr.toNat % 4 = 0 then regAt addr.toNat else none) = none := by
    split
    · next h4 => exact h.resolve_left (not_not_intro h4)
    · rfl
  show execRegisterWrite x addr v s = _
  simp [execRegisterWrite, hn]

theorem wake_asleep_only (d : SlackDom) : wake s d = { s with pw := { s.pw with asleep := (wake s d).pw.asleep } } := by
  unfold wake
  split
  · rfl
  · rfl

end

/-! The registers at the addresses of the statement. -/

theorem regAt_brPwli (e : Fin 16) : (BitVec.ofNat 32 (0x44000104 + 16 * e.val)).toNat % 4 = 0 ∧
    regAt (BitVec.ofNat 32 (0x44000104 + 16 * e.val)).toNat = some (.brPwli e) := by decide +revert

/-- The address of the priority of a requester at the Quay or the bridge arbiter. -/
def priAddr (b : Bool) (q : Fin 13) : Word := BitVec.ofNat 32 (0x47000000 + (if b then 0x40 else 0) + 4 * q.val)

theorem regAt_arPri {b : Bool} {q : Fin 13} (h : b = true → q.val ≠ 4) :
    (priAddr b q).toNat % 4 = 0 ∧ regAt (priAddr b q).toNat = some (.arPri b (q.castLE (by decide))) := by decide +revert

/-- The memories with an address table in the order of the EC_ block. -/
def tableMem (m : Fin 5) : MemId := if m = 0 then .lane .a else if m = 1 then .lane .b else if m = 2 then .lane .c else if m = 3 then .quay else .mram

theorem regAt_ecOvf (m : Fin 5) : (BitVec.ofNat 32 (0x4780000C + 256 * m.val)).toNat % 4 = 0 ∧
    regAt (BitVec.ofNat 32 (0x4780000C + 256 * m.val)).toNat = some (.ecOvf (tableMem m)) := by decide +revert

theorem domainOf_priAddr (l : LaneId) (b : Bool) (q : Fin 13) : domainOf l (priAddr b q).toNat = some (.regs 6) := by
  cases l <;> decide +revert

end Sys2Proof.Machine
end

section
/-! PROOF. The scrubber and register writes: the clauses of the obligation. -/

namespace Sys2Proof.Machine

section
variable {s : State} {v : Word}

/-! What each register takes of a write. -/

theorem registerWrite_brInt (ha : awake s = true) (x : Option Ctx) : ∃ t, exec (.registerWrite x 0x4400000C v) s = .next t ∧
    (∀ j, j < 4 → t.br.inte.getLsbD j = (s.br.inte.getLsbD j && !v.getLsbD (4 + j))) ∧ t.br.pwerr = (s.br.pwerr && !v.getLsbD 0) := by
  refine exec_registerWrite_taken (r := .brInt) ha (by decide) (by decide) fun p => ⟨_, rfl, fun j hj => ?_, rfl⟩
  simp [hj]

theorem registerWrite_brOvf (ha : awake s = true) (x : Option Ctx) : ∃ t, exec (.registerWrite x 0x44000024 v) s = .next t ∧
    t.br.backoff = clr v 0 s.br.backoff ∧ t.br.retry = clr v 1 s.br.retry ∧ t.br.pwlost = clr v 2 s.br.pwlost ∧
    t.br.inerr = clr v 3 s.br.inerr ∧ t.br.arbidle = clr v 4 s.br.arbidle :=
  exec_registerWrite_taken (r := .brOvf) ha (by decide) (by decide) fun _ => ⟨_, rfl, rfl, rfl, rfl, rfl, rfl⟩

theorem registerWrite_brPwli (ha : awake s = true) (x : Option Ctx) (e : Fin 16) :
    ∃ t, exec (.registerWrite x (BitVec.ofNat 32 (0x44000104 + 16 * e.val)) v) s = .next t ∧
      t.br.log = if v.getLsbD 31 then s.br.log.set e ⟨false, 0, 0, 0, 0, false, 0, 0, 0⟩ else s.br.log := by
  obtain ⟨h4, hr⟩ := regAt_brPwli e
  refine exec_registerWrite_taken ha h4 hr fun p => ⟨_, rfl, ?_⟩
  split
  · rfl
  · rfl

theorem registerWrite_arQlbrk (ha : awake s = true) (x : Option Ctx) :
    ∃ t, exec (.registerWrite x 0x47000100 v) s = .next t ∧ t.fab.qlbrk = s.fab.qlbrk &&& ~~~v :=
  exec_registerWrite_taken (r := .arQlbrk) ha (by decide) (by decide) fun _ => ⟨_, rfl, rfl⟩

theorem registerWrite_arOvf (ha : awake s = true) (x : Option Ctx) :
    ∃ t, exec (.registerWrite x 0x47000108 v) s = .next t ∧ t.fab.frel = clr v 0 s.fab.frel :=
  exec_registerWrite_taken (r := .arOvf) ha (by decide) (by decide) fun _ => ⟨_, rfl, rfl⟩

theorem registerWrite_arPri_steward (ha : awake s = true) {b : Bool} {q : Fin 13} (hq : b = true → q.val ≠ 4) :
    ∃ t, exec (.registerWrite none (priAddr b q) v) s = .next t ∧
      (if b then t.fab.bridgeArb else t.fab.quayArb).pri.toList[q.val]? = some (v.setWidth 4) := by
  obtain ⟨h4, hr⟩ := regAt_arPri hq
  refine exec_registerWrite_taken ha h4 hr fun p => ⟨_, if_neg (by simp; omega), ?_⟩
  cases b <;> simp [setPri]

theorem registerWrite_arPri_lane (ha : awake s = true) {b : Bool} {q : Fin 13} (hq : b = true → q.val ≠ 4) (x : Ctx) :
    ∃ t, exec (.registerWrite (some x) (priAddr b q) v) s = .next t ∧
      SlackDom.regs 6 ∉ t.pw.asleep ∧ t = { s with pw := { s.pw with asleep := t.pw.asleep } } := by
  obtain ⟨h4, hr⟩ := regAt_arPri hq
  refine ⟨_, exec_registerWrite_ignored ha h4 hr fun _ => rfl, ?_⟩
  simp only [wakeFor, domainOf_priAddr]
  exact ⟨not_mem_asleep_wake _, wake_asleep_only _⟩

theorem registerWrite_ecOvf (ha : awake s = true) (m : Fin 5) (x : Option Ctx) :
    ∃ t, exec (.registerWrite x (BitVec.ofNat 32 (0x4780000C + 256 * m.val)) v) s = .next t ∧
      (eccGet t (tableMem m)).corr = clr v 0 (eccGet s (tableMem m)).corr ∧ (eccGet t (tableMem m)).unc = clr v 1 (eccGet s (tableMem m)).unc ∧
      (eccGet t (tableMem m)).tlost = clr v 2 (eccGet s (tableMem m)).tlost := by
  obtain ⟨h4, hr⟩ := regAt_ecOvf m
  refine exec_registerWrite_taken ha h4 hr fun p => ⟨_, rfl, ?_⟩
  have hp : eccGet { s with pw := p } (tableMem m) = eccGet s (tableMem m) := eccGet_congr rfl _
  rw [eccGet_eccPut, if_pos rfl, hp]
  exact ⟨rfl, rfl, rfl⟩

/-- The parameter word of the lane takes no write, and no domain sleeps there. -/
theorem registerWrite_lnParam (ha : awake s = true) (x : Option Ctx) : exec (.registerWrite x 0x40000000 v) s = .next s :=
  exec_registerWrite_ignored (r := .lnParam) ha (by decide) (by decide) fun _ => rfl

theorem registerWrite_wakes (ha : awake s = true) (c : Ctx) :
    ∃ t, exec (.registerWrite (some c) 0x4400000C v) s = .next t ∧ SlackDom.regs 4 ∉ t.pw.asleep :=
  ⟨_, exec_registerWrite (r := .brInt) ha (by decide) (by decide), not_mem_asleep_wake _⟩

/-! A domain that goes to sleep (R531). -/

theorem exec_domainSlackEntry {d : SlackDom} (ha : awake s = true) (hd : d ∉ s.pw.asleep)
    (hidle : ∀ l p, d = .cores l p → (pair s l p).active = none ∧ (pair s l p).split = false) :
    exec (.domainSlackEntry d) s = .next { s with pw := { s.pw with asleep := d :: s.pw.asleep } } := by
  show execDomainSlackEntry d s = _
  cases d with
  | cores l p =>
    obtain ⟨hact, hsplit⟩ := hidle l p rfl
    simp [execDomainSlackEntry, ha, hd, hact, hsplit, modPower]
  | _ => simp [execDomainSlackEntry, ha, hd, modPower]

theorem exec_domainSlackEntry_busy {l : LaneId} {p : PairId} (hb : (pair s l p).active.isSome = true ∨ (pair s l p).split = true) :
    exec (.domainSlackEntry (.cores l p)) s = .next s := by
  show execDomainSlackEntry (.cores l p) s = _
  rcases hb with hb | hb <;> simp [execDomainSlackEntry, hb]

/-! The scrub read. -/

theorem scrubRead_sound {m : MemId} {addr : Nat} (ha : awake s = true) (ht : hasTable m = true)
    (hd : dmgFind (dmgOf s m) (wordStart m addr) = .none) : exec (.scrubRead m addr .none 0) s = .next s := by rw [exec_scrubRead_table ha ht, hd]

theorem scrubRead_bad {m : MemId} {addr : Nat} (ha : awake s = true) (ht : hasTable m = true)
    (hd : dmgFind (dmgOf s m) (wordStart m addr) = .bad) :
    ∃ t, exec (.scrubRead m addr .none 0) s = .next t ∧ (eccGet t m).unc = (eccGet s m).unc.inc ∧
      (eccGet t m).uaddr = BitVec.ofNat 32 (wordStart m addr) ∧ (eccGet t m).corr = (eccGet s m).corr ∧
      (eccGet t m).table = (eccGet s m).table ∧ dmgOf t m = dmgOf s m := by
  refine ⟨_, by rw [exec_scrubRead_table ha ht, hd], ?_⟩
  rw [eccGet_spoilRetain, dmgOf_spoilRetain, eccGet_eccBad, eccBad, dmgOf_record, dmgOf_eccPut]
  exact ⟨rfl, if_pos ht, rfl, rfl, rfl⟩

end

/-- Settles O44: each clause by the lemma on its register, its word or its sector. -/
theorem scrubberAndRegisterWrites : Obligations.ScrubberAndRegisterWrites := by
  unfold Obligations.ScrubberAndRegisterWrites
  refine ⟨fun s m addr ha ht => ?_, fun s d addr bits h ha haddr => ?_, fun s v ha => ?_⟩
  · intro a e at_
    refine ⟨scrubRead_sound ha ht, scrubRead_bad ha ht, fun b hd => ?_⟩
    obtain ⟨t, hx, hc, hu, hsoft, hhard, hlisted, hfree, hfull⟩ := exec_scrubRead_correctable ha ht hd
    refine ⟨t, hx, hc, hu, hsoft, hhard, fun i hi hfirst => ?_, hfree, hfull⟩
    obtain ⟨hlost, hrest, hy⟩ := hlisted i hi hfirst
    refine ⟨hlost, hrest, ?_⟩
    dsimp only
    rw [hy]
    exact ⟨hi.1, rfl, corrected_bit (e.table.get i) b, corrected_count (e.table.get i) b, rfl, rfl⟩
  · intro m known scrub
    have hx := exec_scrubRead_flash (addr := addr) (bits := bits) (h := h) (d := d) ha
    have hm : m = flashMem d := by cases d <;> rfl
    clear_value m
    subst hm
    refine ⟨fun hd => ?_, fun hd => ⟨?_, ?_, fun b hk hb => ⟨fun h4 hst => ⟨_, hx, scrubFlash_many_effect hd haddr hk hb h4 hst⟩,
      fun h4 => ⟨_, hx, scrubFlash_few_effect hd haddr hk hb h4⟩⟩, fun hk => ⟨_, hx, scrubFlash_bad_effect hd haddr hk⟩⟩⟩
    · rw [hx, scrubFlash_deferred hd]
    · rintro hk rfl hr hw
      rw [hx, scrubFlash_sound hd haddr hk, wake_of_not_mem hw, endRefresh_of_none hr]
    · rintro hk rfl
      exact ⟨_, hx, scrubFlash_sound_effect hd haddr hk⟩
  · exact ⟨registerWrite_brInt ha, registerWrite_brOvf ha, registerWrite_brPwli ha, registerWrite_arQlbrk ha, registerWrite_arOvf ha,
      fun b q hq => ⟨registerWrite_arPri_steward ha hq, registerWrite_arPri_lane ha hq⟩, registerWrite_ecOvf ha,
      fun x addr => exec_registerWrite_nowhere, registerWrite_lnParam ha, fun d => exec_domainSlackEntry ha,
      fun l p => exec_domainSlackEntry_busy, registerWrite_wakes ha⟩

end Sys2Proof.Machine
end

section
/-! PROOF. The accesses of a task to its pair's bank, and the state at reset (R30, R69, R72, R75, R76, R641). -/

namespace Sys2Proof.Machine

/-! The bank of a pair. -/

/-- A class that is neither tagged nor a store is a plain load (R58, R72). -/
theorem plainLoad_iff (cls : AccClass) : (!isTagged cls && !isStore cls) = true ↔ ∃ w, cls = .load w := by
  cases cls <;> simp [isTagged, isStore]

theorem isTagged_iff (cls : AccClass) : isTagged cls = true ↔ cls = .tagLoad ∨ cls = .tagStore := by
  cases cls <;> simp [isTagged]

/-- The table of R72, one clause for each space of the bank: CODE, K, PI, PQ, RET and WORK. -/
theorem bankPerm_iff (s : State) (p : PairId) (t : TaskId) (cls : AccClass) (o : Nat) :
    let u := layout s p
    bankPerm s p t cls o = true ↔ u.code ≤ o ∧ (o < u.k → ∃ w, cls = .load w) ∧
      (u.k ≤ o → o < u.pi → cls = .tagLoad ∧ inSect s p t .pi o = true) ∧
      (u.k ≤ o → u.pi ≤ o → o < u.pq → (cls = .tagLoad ∨ cls = .tagStore) ∧ inSect s p t .pq o = true) ∧
      (u.k ≤ o → u.pi ≤ o → u.pq ≤ o → o < u.ret → inSect s p t .ret o = true) ∧
      (u.k ≤ o → u.pi ≤ o → u.pq ≤ o → u.ret ≤ o → inSect s p t .work o = true) := by
  intro u
  simp only [bankPerm]
  by_cases hcode : o < u.code
  · simp [u, hcode, Nat.not_le.mpr hcode]
  by_cases hk : o < u.k
  · simpa [u, hcode, hk, Nat.not_le.mpr hk, Nat.not_lt.mp hcode] using plainLoad_iff cls
  by_cases hpi : o < u.pi
  · simp [u, hcode, hk, hpi, Nat.not_le.mpr hpi, Nat.not_lt.mp hcode, Nat.not_lt.mp hk]
  by_cases hpq : o < u.pq
  · simp [u, hcode, hk, hpi, hpq, Nat.not_le.mpr hpq, Nat.not_lt.mp hcode, Nat.not_lt.mp hk, Nat.not_lt.mp hpi, isTagged_iff]
  by_cases hret : o < u.ret
  · simp [u, hcode, hk, hpi, hpq, hret, Nat.not_le.mpr hret, Nat.not_lt.mp hcode, Nat.not_lt.mp hk, Nat.not_lt.mp hpi, Nat.not_lt.mp hpq]
  · simp [u, hcode, hk, hpi, hpq, hret, Nat.not_lt.mp hcode, Nat.not_lt.mp hk, Nat.not_lt.mp hpi, Nat.not_lt.mp hpq, Nat.not_lt.mp hret]

/-- Where an access to the bank goes, in the order of R641: its end, who accesses and what, then the alignment. -/
theorem access_bank (s : State) (c : Core) (cls : AccClass) (n : Nat) {a : Word} (ha : a.toNat < 0x200000) :
    access s c cls n a =
      if (layout s c.x.pair).work ≤ a.toNat then .error .mem
      else if (c.timed.any fun t => bankPerm s c.x.pair t cls a.toNat) = true then
        if a.toNat % n = 0 then .ok (.bank a.toNat) else .error .align
      else .error .access := by
  have hr : regionOf a.toNat = some (.bank a.toNat) := if_pos ha
  simp only [access, place, hr]
  by_cases hw : (layout s c.x.pair).work ≤ a.toNat
  · simp [hw]
  · cases ht : c.timed with
    | none => simp [hw]
    | some t => by_cases hp : bankPerm s c.x.pair t cls a.toNat = true <;> simp [hw, hp]

/-- Settles O7: `bankPerm_iff` is the table of R72 and `access_bank` the order of R641. -/
theorem bankAccessRules : Obligations.BankAccessRules := by
  intro s c a n cls ha u o own plainLoad tagged permitted
  have hp : permitted ↔ (c.timed.any fun t => bankPerm s c.x.pair t cls o) = true := by
    cases ht : c.timed with
    | none => simp [permitted, ht]
    | some t =>
      have hown (k : SectKind) : own k ↔ inSect s c.x.pair t k o = true := by simp [own, ht]
      simp only [permitted, hown, ht, Option.any_some, Option.isSome_some, true_and, bankPerm_iff]
      rfl
  rw [access_bank s c cls n ha, hp]
  refine ⟨fun hw => if_pos hw, fun hw hn => ?_, fun hw hy hm => ?_, fun hw hy hm => ?_⟩
  · rw [if_neg (Nat.not_le.mpr hw), if_neg hn]
  · rw [if_neg (Nat.not_le.mpr hw), if_pos hy, if_neg hm]
  · rw [if_neg (Nat.not_le.mpr hw), if_pos hy, if_pos hm]

/-! The reset state. -/

/-- Settles O57: every part of the reset state is read off its definition, one lane, entry or requester at a time, and `reset_memoriesOk` says that
its memories are in canonical form. -/
theorem resetStateAsTheSpecGivesIt : Obligations.ResetStateAsTheSpecGivesIt := by
  have hlane : ∀ l, lane State.reset l = resetLane := fun l => by cases l <;> rfl
  refine ⟨rfl, rfl, rfl, rfl, rfl, rfl, fun l => ?_, rfl, rfl, rfl, fun q => ⟨?_, ?_⟩, fun n => ?_, rfl, rfl, fun i => ?_, rfl, rfl, ?_,
    fun n => ⟨?_, ?_, ?_⟩, rfl, rfl, rfl, rfl, rfl, rfl, rfl, rfl, rfl, fun n => ?_, reset_memoriesOk⟩
  · rw [hlane]; exact ⟨rfl, rfl, rfl⟩
  · revert q; decide
  · revert q; decide
  · revert n; decide
  · revert i; decide
  · decide
  · revert n; decide
  · revert n; decide
  · revert n; decide
  · revert n; decide

end Sys2Proof.Machine
end

section
/-! PROOF. Registers and tags: what a register reads after a write to the same and to another one, and how tags combine field by field
(02_programming_model.md, R52, R54, R56). -/

namespace Sys2Proof.Machine

/-! The registers. -/

@[simp] theorem rdW_zero (b : Bank) : rdW b 0 = ⟨0, 0x90⟩ := rfl
@[simp] theorem rdB_zero (b : Bank) : rdB b 0 = ⟨true, 0x90⟩ := rfl
@[simp] theorem wrW_zero (b : Bank) (v : Word) (t : Byte) : wrW b 0 v t = b := rfl
@[simp] theorem wrB_zero (b : Bank) (v : Bool) (t : Byte) : wrB b 0 v t = b := rfl

@[simp] theorem rdB_wrW (b : Bank) (n k : BitVec 4) (v : Word) (t : Byte) : rdB (wrW b n v t) k = rdB b k := by
  unfold wrW
  split <;> rfl

@[simp] theorem rdW_wrB (b : Bank) (n k : BitVec 4) (v : Bool) (t : Byte) : rdW (wrB b n v t) k = rdW b k := by
  unfold wrB
  dsimp only
  split <;> rfl

theorem rdW_wrW_same (b : Bank) {n : BitVec 4} (v : Word) (t : Byte) (hn : n ≠ 0) : rdW (wrW b n v t) n = ⟨v, t⟩ := by
  rw [wrW, if_neg hn, rdW, if_neg hn]
  exact (vector_get_set b.w n.toFin n.toFin ⟨v, t⟩).trans (if_pos rfl)

theorem rdW_wrW_other (b : Bank) {n m : BitVec 4} (v : Word) (t : Byte) (h : n ≠ m) : rdW (wrW b n v t) m = rdW b m := by
  unfold wrW
  split
  · rfl
  · have hne : m.toFin ≠ n.toFin := fun e => h (BitVec.eq_of_toFin_eq e).symm
    simp only [rdW]
    split
    · rfl
    · exact (vector_get_set b.w n.toFin m.toFin ⟨v, t⟩).trans (if_neg hne)

/-- The low 3 bits tell the bit registers apart (R92). -/
theorem bitIndex_inj {n m : BitVec 4} (hn : n.toNat < 8) (hm : m.toNat < 8) (h : n.setWidth 3 = m.setWidth 3) : n = m := by bv_omega

theorem rdB_wrB_same (b : Bank) {n : BitVec 4} (v : Bool) (t : Byte) (hn : n ≠ 0) (h8 : n.toNat < 8) : rdB (wrB b n v t) n = ⟨v, t⟩ := by
  have hi : n.setWidth 3 ≠ 0 := fun e => hn (bitIndex_inj h8 (by decide) e)
  simp only [wrB, rdB, if_neg hi]
  exact (vector_get_set b.b (n.setWidth 3).toFin (n.setWidth 3).toFin ⟨v, t⟩).trans (if_pos rfl)

theorem rdB_wrB_other (b : Bank) {n m : BitVec 4} (v : Bool) (t : Byte) (h : n ≠ m) (hn : n.toNat < 8) (hm : m.toNat < 8) :
    rdB (wrB b n v t) m = rdB b m := by
  have hne : (m.setWidth 3).toFin ≠ (n.setWidth 3).toFin := fun e => h (bitIndex_inj hm hn (BitVec.eq_of_toFin_eq e)).symm
  unfold wrB
  dsimp only
  split
  · rfl
  · simp only [rdB]
    split
    · rfl
    · exact (vector_get_set b.b (n.setWidth 3).toFin (m.setWidth 3).toFin ⟨v, t⟩).trans (if_neg hne)

/-! The tags: a tag is its five fields, and `comb` acts on each by itself. -/

theorem tag_ext {a b : Byte} (hv : tagValid a = tagValid b) (hf : tagForced a = tagForced b) (hs : tagSubst a = tagSubst b)
    (hp : tagSafe a = tagSafe b) (hg : (tagAge a).toNat = (tagAge b).toNat) : a = b := by
  have hlow : ∀ i < 4, a.getLsbD i = b.getLsbD i := fun i hi => by
    have := congrArg (·.getLsbD i) (BitVec.eq_of_toNat_eq hg)
    simpa [tagAge, hi] using this
  refine BitVec.eq_of_getLsbD_eq fun i hi => ?_
  by_cases h4 : i < 4
  · exact hlow i h4
  · obtain rfl | rfl | rfl | rfl : i = 4 ∨ i = 5 ∨ i = 6 ∨ i = 7 := by omega
    · exact hp
    · exact hs
    · exact hf
    · exact hv

theorem tagAge_toNat (a : Byte) : (a &&& 0x0F).toNat = (tagAge a).toNat := by
  have h : (tagAge a).toNat = a.toNat % 2 ^ 4 := BitVec.toNat_setWidth 4 a
  rw [h, BitVec.toNat_and]
  exact Nat.and_two_pow_sub_one_eq_mod a.toNat 4

/-- A bit of `comb` above its AGE. -/
theorem comb_getLsbD (a b : Byte) {i : Nat} (hi : 4 ≤ i) (h8 : i < 8) :
    (comb a b).getLsbD i =
      (a.getLsbD i && b.getLsbD i && (0x90 : Byte).getLsbD i || (a.getLsbD i || b.getLsbD i) && (0x60 : Byte).getLsbD i) := by
  have hage : (if (a &&& 0x0F).toNat < (b &&& 0x0F).toNat then b &&& 0x0F else a &&& 0x0F).getLsbD i = false := by
    have hF : (0x0F : Byte).getLsbD i = false := by
      obtain rfl | rfl | rfl | rfl : i = 4 ∨ i = 5 ∨ i = 6 ∨ i = 7 := by omega
      all_goals rfl
    split <;> rw [BitVec.getLsbD_and, hF, Bool.and_false]
  simp only [comb, BitVec.getLsbD_or, BitVec.getLsbD_and, hage, Bool.or_false]

theorem tagValid_comb (a b : Byte) : tagValid (comb a b) = (tagValid a && tagValid b) :=
  (comb_getLsbD a b (i := 7) (by decide) (by decide)).trans (by simp [tagValid])

theorem tagForced_comb (a b : Byte) : tagForced (comb a b) = (tagForced a || tagForced b) :=
  (comb_getLsbD a b (i := 6) (by decide) (by decide)).trans (by simp [tagForced])

theorem tagSubst_comb (a b : Byte) : tagSubst (comb a b) = (tagSubst a || tagSubst b) :=
  (comb_getLsbD a b (i := 5) (by decide) (by decide)).trans (by simp [tagSubst])

theorem tagSafe_comb (a b : Byte) : tagSafe (comb a b) = (tagSafe a && tagSafe b) :=
  (comb_getLsbD a b (i := 4) (by decide) (by decide)).trans (by simp [tagSafe])

theorem tagAge_comb (a b : Byte) : (tagAge (comb a b)).toNat = max (tagAge a).toNat (tagAge b).toNat := by
  have h : tagAge (comb a b) = if (tagAge a).toNat < (tagAge b).toNat then tagAge b else tagAge a := by
    have hand : ∀ x : BitVec 4, x &&& 15#4 = x := fun _ => BitVec.and_allOnes
    simp only [comb, tagAge_toNat]
    split <;> simp [tagAge, BitVec.setWidth_or, BitVec.setWidth_and, hand]
  rw [h]
  split <;> omega

theorem comb_comm (a b : Byte) : comb a b = comb b a :=
  tag_ext (by simp only [tagValid_comb, Bool.and_comm]) (by simp only [tagForced_comb, Bool.or_comm])
    (by simp only [tagSubst_comb, Bool.or_comm]) (by simp only [tagSafe_comb, Bool.and_comm]) (by simp only [tagAge_comb, Nat.max_comm])

theorem comb_assoc (a b c : Byte) : comb (comb a b) c = comb a (comb b c) :=
  tag_ext (by simp only [tagValid_comb, Bool.and_assoc]) (by simp only [tagForced_comb, Bool.or_assoc])
    (by simp only [tagSubst_comb, Bool.or_assoc]) (by simp only [tagSafe_comb, Bool.and_assoc]) (by simp only [tagAge_comb, Nat.max_assoc])

theorem comb_neutral (a : Byte) : comb a 0x90 = a :=
  tag_ext ((tagValid_comb _ _).trans (Bool.and_true _)) ((tagForced_comb _ _).trans (Bool.or_false _))
    ((tagSubst_comb _ _).trans (Bool.or_false _)) ((tagSafe_comb _ _).trans (Bool.and_true _)) ((tagAge_comb _ _).trans (Nat.max_zero _))

theorem neutral_comb (a : Byte) : comb 0x90 a = a := (comb_comm _ _).trans (comb_neutral a)

/-- Settles O3: reads after writes of the registers, and the fields of combined tags. -/
theorem hardWiredRegistersAndTags : Obligations.HardWiredRegistersAndTags :=
  ⟨fun b _ _ v q t => ⟨rdW_zero b, rdB_zero b, wrW_zero b v t, wrB_zero b q t, rdW_wrW_same b v t, rdW_wrW_other b v t,
      rdB_wrB_same b q t, rdB_wrB_other b q t, fun k => rdB_wrW b _ k v t, fun k => rdW_wrB b _ k q t⟩,
    fun a b c => ⟨tagValid_comb a b, tagForced_comb a b, tagSubst_comb a b, tagSafe_comb a b, tagAge_comb a b, neutral_comb a,
      comb_neutral a, comb_comm a b, comb_assoc a b c⟩⟩

end Sys2Proof.Machine
end

section
/-! PROOF. The instruction skeleton: the fetch is a read of one word, a place that a core may reach is ready, and what an instruction that
retires or ends leaves of its pair (02_programming_model.md, R77, R82 to R85; 15_fabric_arbitration_and_memory.md, R531). -/

namespace Sys2Proof.Machine

/-! The fetch. -/

theorem regionOf_bank {a o : Nat} (h : regionOf a = some (.bank o)) : o = a := by
  unfold regionOf at h
  split at h
  · cases h
    rfl
  · repeat' split at h
    all_goals cases h

theorem regionOf_common {a o : Nat} (h : regionOf a = some (.common o)) : 0x1000000 ≤ a ∧ a < 0x1800000 ∧ o = a - 0x1000000 := by
  unfold regionOf at h
  split at h
  · cases h
  · split at h
    · next hr =>
      simp only [Option.some.injEq, Region.common.injEq] at h
      exact ⟨hr.1, hr.2, h.symm⟩
    · repeat' split at h
      all_goals cases h

/-- A fetch that meets no exception is a read of its word, and untimed work fetches from the lane-common area (R77). -/
theorem fetchCheck_none {s : State} {c : Core} {a : Nat} {h : Hit} (hf : (fetchCheck s c a h).2 = none) :
    (fetchCheck s c a h).1 = (readWord s c (fetchEc c a) h).1 ∧ (c.timed = none → 0x1000000 ≤ a ∧ a < 0x1800000) := by
  unfold fetchCheck at hf ⊢
  split at hf
  · cases hf
  · next r hr =>
    dsimp only at hf ⊢
    split at hf
    · cases hf
    · cases hf
    · next hok =>
      refine ⟨rfl, fun ht => ?_⟩
      cases r with
      | common o => exact ⟨(regionOf_common hr).1, (regionOf_common hr).2.1⟩
      | bank o =>
        dsimp only at hok
        split at hok <;> simp [ht] at hok
      | _ => cases hok

section
variable {s : State} {x : Ctx} {c : Core} (h : Executes s x c)
include h

theorem Executes.ctx : c.x = x := coreOf_ctx h.1

theorem Executes.fetchCheck_none : (fetchCheck s c c.bank.pc.toNat c.x.fetch).2 = none := by
  rw [h.ctx]
  exact h.2.2

theorem afterFetch_eq : afterFetch s c = (readWord s c (fetchEc c c.bank.pc.toNat) c.x.fetch).1 :=
  (Machine.fetchCheck_none h.fetchCheck_none).1

/-- The fetch changes the damage of the core's lane, the EC_ registers and the recorder alone. -/
theorem afterFetch_only : ∃ d e r, afterFetch s c = { modLane s c.x.lane (fun y => { y with dmg := d }) with ecc := e, rc := r } := by
  rw [afterFetch_eq h]
  exact readWord_only s c _ _

theorem afterFetch_sram (l : LaneId) : (lane (afterFetch s c) l).sram = (lane s l).sram := by
  rw [afterFetch_eq h]
  exact readWord_sram s c _ _ l

/-- Untimed work runs while the lane-common area is ready: its fetch has found it so (R531). -/
theorem domReady_common (ht : c.timed = none) : domReady (afterFetch s c) (.common c.x.lane) = true := by
  obtain ⟨d, e, r, hs⟩ := afterFetch_only h
  obtain ⟨hlo, hhi⟩ := (Machine.fetchCheck_none h.fetchCheck_none).2 ht
  have hr := h.2.1
  simp only [fetchReady, fetchDom, ht, Option.isNone_none, hlo, hhi, decide_true, Bool.and_self, if_true, Option.map_some,
    Option.getD_some] at hr
  rw [hs]
  exact hr

end

/-! The places of an ordinary access (R30, R72, R76). -/

section
variable {s : State} {c : Core} {cls : AccClass} {n : Nat} {a : Word} {q : Place}

theorem place_of_access (h : access s c cls n a = .ok q) : place s c cls a.toNat = .ok q ∧ a.toNat % n = 0 := by
  unfold access at h
  split at h
  · cases h
  · next hp =>
    split at h
    · cases h
      exact ⟨hp, ‹_›⟩
    · cases h

/-- Where a permitted access goes: to the bank for a timed task, to the lane-common area for untimed work, or to an LN_ register for a word
load. -/
theorem place_cases (h : place s c cls a.toNat = .ok q) :
    (∃ t, q = .bank a.toNat ∧ c.timed = some t) ∨
    (q = .common (a.toNat - 0x1000000) ∧ 0x1000000 ≤ a.toNat ∧ c.timed = none) ∨ ∃ r, q = .ln r ∧ cls = .load true := by
  unfold place at h
  split at h
  · cases h
  · next o ho =>
    obtain rfl := regionOf_bank ho
    split at h
    · cases h
    · split at h
      · next t ht =>
        split at h
        · cases h
          exact .inl ⟨t, rfl, ht⟩
        · cases h
      · cases h
  · next o ho =>
    obtain ⟨hlo, -, hoff⟩ := regionOf_common ho
    split at h
    · next hp =>
      cases h
      simp only [Bool.and_eq_true, Option.isNone_iff_eq_none] at hp
      exact .inr (.inl ⟨congrArg _ hoff, hlo, hp.1⟩)
    · cases h
  · split at h
    · cases h
    · split at h
      · cases h
        exact .inr (.inr ⟨_, rfl, ‹_›⟩)
      · cases h
  · split at h <;> cases h
  · cases h
  · cases h

/-- Word loads alone reach LN_ (R30). -/
theorem not_ln_of_access (h : access s c cls n a = .ok q) (hc : cls ≠ .load true) (r : Reg) : q ≠ .ln r := by
  rintro rfl
  rcases place_cases (place_of_access h).1 with ⟨_, he, _⟩ | ⟨he, _⟩ | ⟨_, _, he⟩
  · cases he
  · cases he
  · exact hc he

/-- The EC_ numbering keeps the place of a byte in its word. -/
theorem ecOf_mod (h : access s c cls n a = .ok q) (hq : ∀ r, q ≠ .ln r) : ecOf c q % 4 = a.toNat % 4 := by
  rcases place_cases (place_of_access h).1 with ⟨_, rfl, _⟩ | ⟨rfl, hlo, _⟩ | ⟨r, rfl, _⟩
  · show (c.x.pair.val * 0x200000 + a.toNat) % 4 = _
    omega
  · show (0x1000000 + (a.toNat - 0x1000000)) % 4 = _
    omega
  · exact absurd rfl (hq r)

end

/-- A permitted access of an executing core does not stall: the lane-common area is ready since the fetch (R531). -/
theorem reach_place {s : State} {x : Ctx} {c : Core} (h : Executes s x c) {cls : AccClass} {n : Nat} {a : Word} {q : Place}
    (hq : access (afterFetch s c) c cls n a = .ok q) (k : State → Act) :
    reach (afterFetch s c) c.x (placeDom c q) k = k (afterFetch s c) := by
  rcases place_cases (place_of_access hq).1 with ⟨_, rfl, _⟩ | ⟨rfl, _, ht⟩ | ⟨_, rfl, _⟩
  · rfl
  · exact if_pos (domReady_common h ht)
  · rfl

/-! What an instruction leaves of its pair when it retires with a contribution to the signature, and when it ends the work. -/

/-- A pair with contributions added to the signature of the activation that the core executes (R236). -/
def addSigs (c : Core) (sg : List SigEv) (o : PairSt) : PairSt :=
  match c.timed with
  | some k => { o with tasks := vmod o.tasks k fun r => { r with sigs := sg ++ r.sigs } }
  | none => o

theorem addSigs_nil (c : Core) (o : PairSt) : addSigs c [] o = o := by
  unfold addSigs
  split
  · next k _ =>
    have hv : (vmod o.tasks k fun r => { r with sigs := [] ++ r.sigs }) = o.tasks := vector_ext_get fun j => by
      rw [vmod_get]
      split
      · next hj => rw [hj]; rfl
      · rfl
    rw [hv]
  · rfl

theorem addSigs_addSigs (c : Core) (sg sg' : List SigEv) (o : PairSt) : addSigs c sg' (addSigs c sg o) = addSigs c (sg' ++ sg) o := by
  unfold addSigs
  split
  · next k _ =>
    have hv : vmod (vmod o.tasks k fun r => { r with sigs := sg ++ r.sigs }) k (fun r => { r with sigs := sg' ++ r.sigs }) =
        vmod o.tasks k fun r => { r with sigs := sg' ++ sg ++ r.sigs } := vector_ext_get fun j => by
      simp only [vmod_get]
      split <;> simp
    simp only [hv]
  · rfl

/-- An instruction that retires after it has added to the signature keeps its pair but for that. -/
theorem pairKept_addSigs {cost : Nat} {sg : List SigEv} {c : Core} {o q : PairSt} (h : PairKept cost [] c (addSigs c sg o) q) :
    PairKept cost sg c o q := by
  unfold addSigs PairKept at *
  cases ht : c.timed with
  | none => simpa [ht] using h
  | some k =>
    simp only [ht] at h ⊢
    obtain ⟨h1, h2, h3, h4, h5, h6, h7, h8, h9, h10, h11, hother, h12, h13, hsg, h14⟩ := h
    simp only [vmod_get, if_true, List.nil_append] at h12 h13 hsg h14
    refine ⟨h1, h2, h3, h4, h5, h6, h7, h8, h9, h10, h11, fun j hj => ?_, h12, h13, hsg, h14⟩
    rw [hother j hj, vmod_get, if_neg hj]

/-- A legal instruction whose body retires with contributions to the signature completes. -/
theorem completes_of_go_sigs {s base : State} {x : Ctx} {c : Core} {i : Instr} {cost : Nat} {body : State → Core → Act} {b : Bank}
    {sg : List SigEv} {ws : List Word} {legal : Bool} (h : Executes s x c) (hl : legal = true)
    (he : exec i s = .next (runInstr x (spells i) cost legal body s))
    (hb : body (afterFetch s c) c = .go (modPair base c.x.lane c.x.pair (addSigs c sg)) b ws) : CompletesFrom i s base c cost sg b := by
  intro hw
  obtain ⟨t, ht, hbank, q, rfl, hq⟩ := completes_of_go h hl he hb hw
  refine ⟨_, ht, hbank, q, by rw [modPair_modPair], pairKept_addSigs ?_⟩
  simpa using hq

/-- A legal instruction whose body ends the work ends it from the state in which it retires. -/
theorem exec_of_finish {s s2 : State} {x : Ctx} {c : Core} {i : Instr} {cost : Nat} {body : State → Core → Act} {b : Bank} {ws : List Word}
    {legal : Bool} (h : Executes s x c) (hl : legal = true) (he : exec i s = .next (runInstr x (spells i) cost legal body s))
    (hb : body (afterFetch s c) c = .finish s2 b ws) (hw : spells i (wordAtPc s c) = true) :
    exec i s = .next (finishCore (complete s2 c cost b ws) c) := by
  rw [he, runInstr_executes _ _ _ h hw, hl, if_pos rfl, hb]
  rfl

end Sys2Proof.Machine
end

section
/-! PROOF. The loads (02_programming_model.md, R58, R73, R74; 03_instruction_encoding_and_timing.md, R97; 04_instruction_semantics.md, R127). -/

namespace Sys2Proof.Machine

/-! The values of loaded bytes. -/

section
variable (m : Memory) (ea : Nat)

theorem ldZ_half : ldZ (memReadN 0 m ea 2) = BitVec.ofNat 32 (memRead 0 m (ea + 1) ++ memRead 0 m (ea + 0)).toNat := by
  rw [BitVec.ofNat_toNat]
  show ((0 : Byte) ++ (0 : Byte) ++ memRead 0 m (ea + 1) ++ memRead 0 m (ea + 0) : Word) = _
  refine BitVec.eq_of_getLsbD_eq fun i hi => ?_
  simp only [BitVec.getLsbD_append, BitVec.getLsbD_setWidth]
  grind

theorem ldZ_byte : ldZ (memReadN 0 m ea 1) = BitVec.ofNat 32 (memRead 0 m (ea + 0)).toNat := by
  rw [BitVec.ofNat_toNat]
  show ((0 : Byte) ++ (0 : Byte) ++ (0 : Byte) ++ memRead 0 m (ea + 0) : Word) = _
  refine BitVec.eq_of_getLsbD_eq fun i hi => ?_
  simp only [BitVec.getLsbD_append, BitVec.getLsbD_setWidth]
  grind

theorem ldS16_half : ldS16 (memReadN 0 m ea 2) = BitVec.ofInt 32 (memRead 0 m (ea + 1) ++ memRead 0 m (ea + 0)).toInt := by
  show sext ((ldZ (memReadN 0 m ea 2)).setWidth 16) = _
  rw [ldZ_half, BitVec.ofNat_toNat, BitVec.setWidth_setWidth_of_le _ (by decide), BitVec.setWidth_eq]
  rfl

theorem ldS8_byte : ldS8 (memReadN 0 m ea 1) = BitVec.ofInt 32 (memRead 0 m (ea + 0)).toInt := by
  show sext ((ldZ (memReadN 0 m ea 1)).setWidth 8) = _
  rw [ldZ_byte, BitVec.ofNat_toNat, BitVec.setWidth_setWidth_of_le _ (by decide), BitVec.setWidth_eq]
  rfl

/-- The low byte of a word, and bit 8, which a qualified bit slot holds its value in (R74). -/
theorem leWord_low (b0 b1 b2 b3 : Byte) : (leWord b0 b1 b2 b3).setWidth 8 = b0 := by
  refine BitVec.eq_of_getLsbD_eq fun i hi => ?_
  rw [BitVec.getLsbD_setWidth, leWord, BitVec.getLsbD_append, if_pos hi]
  simp [hi]

theorem leWord_bit8 (b0 b1 b2 b3 : Byte) : (leWord b0 b1 b2 b3).getLsbD 8 = b1.getLsbD 0 := by
  rw [leWord, BitVec.getLsbD_append, if_neg (by decide), BitVec.getLsbD_append]
  rfl

/-- A word is the little-endian word of its bytes. -/
theorem wordAt_wordBytes (w : Word) : wordAt (wordBytes w) 0 = w := by
  refine BitVec.eq_of_getLsbD_eq fun i hi => ?_
  show (byteOf w 3 ++ byteOf w 2 ++ byteOf w 1 ++ byteOf w 0 : Word).getLsbD i = _
  simp only [BitVec.getLsbD_append, byteOf, BitVec.getLsbD_setWidth, BitVec.getLsbD_ushiftRight]
  grind

end

/-! The read that a load makes. -/

theorem loadThen_error {s : State} {c : Core} {cls : AccClass} {n : Nat} {a : Word} {e : ExcCode} (k : State → List Byte → Act)
    (h : access s c cls n a = .error e) : loadThen s c cls n a k = .raise s e a 0 := by simp only [loadThen, h]

theorem loadThen_ln {s : State} {c : Core} {cls : AccClass} {n : Nat} {a : Word} {r : Reg} (k : State → List Byte → Act)
    (h : access s c cls n a = .ok (.ln r)) : loadThen s c cls n a k = k s (wordBytes (regGet s r)) := by simp only [loadThen, h]

section
variable {s : State} {x : Ctx} {c : Core} {cls : AccClass} {n : Nat} {a : Word} {q : Place} (k : State → List Byte → Act)

/-- A permitted load of memory reads the word at its address (R510, R515). -/
theorem loadThen_place (h : Executes s x c) (hq : access (afterFetch s c) c cls n a = .ok q) (hln : ∀ r, q ≠ .ln r) :
    loadThen (afterFetch s c) c cls n a k =
      let r := readWord (afterFetch s c) c (ecOf c q) c.x.data
      let r' := readWord r.1 c (ecOf c q + 4) .none
      if r.2 = false then .raise r.1 .mem a 0
      else if n ≤ 4 then k r.1 (sramBytes r.1 c (ecOf c q) n)
      else if r'.2 = false then .raise r'.1 .mem a 0
      else k r'.1 (sramBytes r'.1 c (ecOf c q) n) := by
  rcases q with o | o | r
  case ln => exact absurd rfl (hln r)
  all_goals
    simp only [loadThen, hq, reach_place h hq]
    rcases readWord (afterFetch s c) c (ecOf c _) c.x.data with ⟨t, _ | _⟩
    · rfl
    · simp only [Bool.true_eq_false, if_false]
      split
      · rfl
      · rcases readWord t c _ .none with ⟨u, _ | _⟩ <;> rfl

variable (h : Executes s x c) (hq : access (afterFetch s c) c cls n a = .ok q) (hln : ∀ r, q ≠ .ln r)
include h hq hln

theorem loadThen_bad (hr : (readWord (afterFetch s c) c (ecOf c q) c.x.data).2 = false) :
    loadThen (afterFetch s c) c cls n a k = .raise (readWord (afterFetch s c) c (ecOf c q) c.x.data).1 .mem a 0 :=
  (loadThen_place k h hq hln).trans (if_pos hr)

theorem loadThen_word (hn : n ≤ 4) (hr : (readWord (afterFetch s c) c (ecOf c q) c.x.data).2 = true) :
    loadThen (afterFetch s c) c cls n a k =
      k (readWord (afterFetch s c) c (ecOf c q) c.x.data).1 (memReadN 0 (lane (afterFetch s c) c.x.lane).sram (ecOf c q) n) := by
  rw [loadThen_place k h hq hln]
  dsimp only
  rw [if_neg (ne_false_of_eq_true hr), if_pos hn, sramBytes, readWord_sram]

theorem loadThen_badTag (hn : 4 < n) (hr : (readWord (afterFetch s c) c (ecOf c q) c.x.data).2 = true)
    (hr' : (readWord (readWord (afterFetch s c) c (ecOf c q) c.x.data).1 c (ecOf c q + 4) .none).2 = false) :
    loadThen (afterFetch s c) c cls n a k =
      .raise (readWord (readWord (afterFetch s c) c (ecOf c q) c.x.data).1 c (ecOf c q + 4) .none).1 .mem a 0 := by
  rw [loadThen_place k h hq hln]
  dsimp only
  rw [if_neg (ne_false_of_eq_true hr), if_neg (Nat.not_le.mpr hn), if_pos hr']

theorem loadThen_slot (hn : 4 < n) (hr : (readWord (afterFetch s c) c (ecOf c q) c.x.data).2 = true)
    (hr' : (readWord (readWord (afterFetch s c) c (ecOf c q) c.x.data).1 c (ecOf c q + 4) .none).2 = true) :
    loadThen (afterFetch s c) c cls n a k =
      k (readWord (readWord (afterFetch s c) c (ecOf c q) c.x.data).1 c (ecOf c q + 4) .none).1
        (memReadN 0 (lane (afterFetch s c) c.x.lane).sram (ecOf c q) n) := by
  rw [loadThen_place k h hq hln]
  dsimp only
  rw [if_neg (ne_false_of_eq_true hr), if_neg (Nat.not_le.mpr hn), if_neg (ne_false_of_eq_true hr'), sramBytes, readWord_sram, readWord_sram]

end

/-! The clauses of the statement. -/

section
variable {s : State} {x : Ctx} {c : Core} {i : Instr} {body : State → Core → Act} {legal : Bool} (h : Executes s x c) (hl : legal = true)
  (he : exec i s = .next (runInstr x (spells i) 2 legal body s)) {cls : AccClass} {n : Nat} {a : Word} {k : State → List Byte → Act}
  (hb : body (afterFetch s c) c = loadThen (afterFetch s c) c cls n a k)
include h hl he hb

/-- A load whose access is refused raises the exception of the access rules. -/
theorem load_refused (e : ExcCode) (hq : access (afterFetch s c) c cls n a = .error e) : Raises i s (afterFetch s c) c 2 e a 0 :=
  raises_of_raise h hl he (hb.trans (loadThen_error k hq))

/-- A load of at most one word of memory, bad or good. -/
theorem load_read (hn : n ≤ 4) {q : Place} (hq : access (afterFetch s c) c cls n a = .ok q) (hln : ∀ r, q ≠ .ln r) {b : Bank}
    (hk : ∀ t, ∃ ws, k t (memReadN 0 (lane (afterFetch s c) c.x.lane).sram (ecOf c q) n) = .go t b ws) :
    let r := readWord (afterFetch s c) c (ecOf c q) c.x.data
    (r.2 = false → Raises i s r.1 c 2 .mem a 0) ∧ (r.2 = true → CompletesFrom i s r.1 c 2 [] b) := by
  refine ⟨fun hr => raises_of_raise h hl he (hb.trans (loadThen_bad k h hq hln hr)), fun hr => ?_⟩
  obtain ⟨ws, hgo⟩ := hk (readWord (afterFetch s c) c (ecOf c q) c.x.data).1
  exact completes_of_go h hl he (hb.trans ((loadThen_word k h hq hln hn hr).trans hgo))

end

theorem loadW_eq (f : FormC) (n : Nat) (v : List Byte → Word) (s : State) (c : Core) :
    loadW f n v s c = loadThen s c (.load (n == 4)) n (addrC c.bank f) fun s bs => giveW s c.bank f.d (v bs) (loadTag (addrC c.bank f)) := rfl

theorem giveW_eq (s : State) (b : Bank) (d : BitVec 4) (v : Word) (t : Byte) : ∃ ws, giveW s b d v t = .go s (wordResult b d v t) ws := ⟨_, rfl⟩

theorem giveB_eq (s : State) (b : Bank) (d : BitVec 4) (v : Bool) (t : Byte) : ∃ ws, giveB s b d v t = .go s (bitResult b d v t) ws := ⟨_, rfl⟩

/-- A load into a word register, of the bytes' value `val`. -/
theorem loadW_clause {s : State} {x : Ctx} {c : Core} (h : Executes s x c) {i : Instr} {f : FormC} {n : Nat} {v : List Byte → Word}
    (he : exec i s = .next (runInstr x (spells i) 2 true (loadW f n v) s)) (hn : n ≤ 4) {val : Nat → Word}
    (hv : ∀ ea, v (memReadN 0 (lane (afterFetch s c) c.x.lane).sram ea n) = val ea) :
    (∀ e, access (afterFetch s c) c (.load (n == 4)) n (addrC c.bank f) = .error e → Raises i s (afterFetch s c) c 2 e (addrC c.bank f) 0) ∧
    ∀ q, access (afterFetch s c) c (.load (n == 4)) n (addrC c.bank f) = .ok q → (∀ r, q ≠ .ln r) →
      let r := readWord (afterFetch s c) c (ecOf c q) c.x.data
      (r.2 = false → Raises i s r.1 c 2 .mem (addrC c.bank f) 0) ∧
        (r.2 = true → CompletesFrom i s r.1 c 2 [] (wordResult c.bank f.d (val (ecOf c q)) (loadTag (addrC c.bank f)))) :=
  ⟨load_refused h rfl he (loadW_eq ..), fun q hq hln =>
    load_read h rfl he (loadW_eq ..) hn hq hln fun t => by
      rw [hv]
      exact giveW_eq ..⟩

/-- Settles O8: the loads into word registers are `loadW_clause` with the value of their bytes, LDQ reads its slot as one word, LDT as two, and
an LDW of an LN_ register reads the register. -/
theorem loadResults : Obligations.LoadResults := by
  intro s x c f h s1 a m by_ word half tag one
  refine ⟨loadW_clause (f := f) (n := 4) h rfl (by decide) fun _ => rfl, fun r hr => ?ldwReg,
    loadW_clause (f := f) (n := 2) h rfl (by decide) (ldS16_half m), loadW_clause (f := f) (n := 2) h rfl (by decide) (ldZ_half m),
    loadW_clause (f := f) (n := 1) h rfl (by decide) (ldS8_byte m), loadW_clause (f := f) (n := 1) h rfl (by decide) (ldZ_byte m),
    fun hf => ⟨load_refused h hf rfl rfl, fun q hq hln => ?ldq⟩, load_refused h rfl rfl rfl, fun q hq => ?ldt⟩
  case ldwReg =>
    have hgo := (loadW_eq f 4 ldZ s1 c).trans (loadThen_ln _ hr)
    have hv : ldZ (wordBytes (regGet s1 r)) = regGet s1 r := wordAt_wordBytes _
    rw [hv] at hgo
    exact completes_of_go h rfl rfl hgo
  case ldq =>
    refine load_read h hf rfl rfl (by decide) hq hln fun t => ?_
    have hbit : (wordAt (memReadN 0 m (ecOf c q) 4) 0).getLsbD 8 = (by_ (ecOf c q) 1).getLsbD 0 := leWord_bit8 _ _ _ _
    have hlow : (wordAt (memReadN 0 m (ecOf c q) 4) 0).setWidth 8 = by_ (ecOf c q) 0 := leWord_low _ _ _ _
    dsimp only
    rw [hbit, hlow]
    exact giveB_eq ..
  case ldt =>
    have hln := not_ln_of_access hq (by decide)
    have htag : (wordAt (memReadN 0 m (ecOf c q) 8) 4).setWidth 8 = by_ (ecOf c q) 4 := leWord_low _ _ _ _
    refine ⟨fun hr => raises_of_raise h rfl rfl (loadThen_bad _ h hq hln hr),
      fun hr hr' => raises_of_raise h rfl rfl (loadThen_badTag _ h hq hln (by decide) hr hr'), fun hr hr' => ?_⟩
    rw [← htag]
    exact completes_of_go h rfl rfl (loadThen_slot _ h hq hln (by decide) hr hr')

end Sys2Proof.Machine
end

section
/-! PROOF. What a store leaves: the bytes that it writes into the lanes that it reaches, its contribution to the signature, and nothing else
(02_programming_model.md, R73, R74; 04_instruction_semantics.md, R127; 07_lanes_voting_and_lockstep.md, R236, R247). -/

namespace Sys2Proof.Machine

/-! The bytes of a word that a write enables. -/

/-- The byte that a word write puts at an address (none: the byte there stays). -/
def enabledByte (ea : Nat) (w : Word) (be : BitVec 4) (k : Nat) : Option Byte :=
  if ea ≤ k ∧ k < ea + 4 ∧ be.getLsbD (k - ea) = true then some (byteOf w (k - ea)) else none

theorem memRead_memWrite {d : Byte} {lo : Nat} {m : Memory} (h : memOk d lo m = true) (a : Nat) (b : Byte) (k : Nat) :
    memRead d (memWrite d m a b) k = if k = a then b else memRead d m k := by
  split
  · next hk => rw [hk, memRead_memWrite_same h]
  · next hk => exact memRead_memWrite_other d m b hk

/-- A word write puts its enabled bytes in place of those that stood there. -/
theorem memRead_memWriteWord {m : Memory} (h : Memory.wf 0 m = true) (ea : Nat) (w : Word) (be : BitVec 4) (k : Nat) :
    memRead 0 (memWriteWord 0 m ea w be) k = (enabledByte ea w be k).getD (memRead 0 m k) := by
  by_cases hin : ∃ i < 4, k = ea + i ∧ be.getLsbD i = true
  · obtain ⟨i, hi, rfl, hb⟩ := hin
    have hen : enabledByte ea w be (ea + i) = some (byteOf w i) := by
      rw [enabledByte, Nat.add_sub_cancel_left, if_pos ⟨Nat.le_add_right _ _, by omega, hb⟩]
    have step : ∀ (m : Memory) (j : Nat), memOk 0 0 m = true →
        memOk 0 0 (if be.getLsbD j then memWrite 0 m (ea + j) (byteOf w j) else m) = true ∧
        memRead 0 (if be.getLsbD j then memWrite 0 m (ea + j) (byteOf w j) else m) (ea + i) =
          if i = j then byteOf w i else memRead 0 m (ea + i) := by
      intro m j hm
      by_cases hj : be.getLsbD j = true
      · rw [if_pos hj, memRead_memWrite hm]
        refine ⟨memWrite_ok hm (Nat.zero_le _) _, ?_⟩
        by_cases hij : i = j
        · subst hij; simp
        · simp [hij]
      · rw [if_neg hj]
        refine ⟨hm, ?_⟩
        rw [if_neg]
        rintro rfl
        exact hj hb
    obtain ⟨h0, e0⟩ := step m 0 h
    obtain ⟨h1, e1⟩ := step _ 1 h0
    obtain ⟨h2, e2⟩ := step _ 2 h1
    obtain ⟨-, e3⟩ := step _ 3 h2
    rw [hen, Option.getD_some]
    refine e3.trans ?_
    rw [e2, e1, e0]
    obtain rfl | rfl | rfl | rfl : i = 0 ∨ i = 1 ∨ i = 2 ∨ i = 3 := by omega
    all_goals rfl
  · have hen : enabledByte ea w be k = none := if_neg fun ⟨hlo, hhi, hb⟩ => hin ⟨k - ea, by omega, by omega, hb⟩
    rw [hen, Option.getD_none]
    exact memRead_memWriteWord_other 0 m ea w be k fun i hi hb he => hin ⟨i, hi, he, hb⟩

theorem enabledByte_full (ea : Nat) (w : Word) : enabledByte ea w 0xF = bytesFrom ea (wordBytes w) := by
  funext k
  by_cases hlo : ea ≤ k
  · obtain ⟨i, rfl⟩ := Nat.exists_eq_add_of_le hlo
    rw [enabledByte, bytesFrom, if_pos hlo, Nat.add_sub_cancel_left]
    match i with
    | 0 => simp [wordBytes]
    | 1 => simp [wordBytes]
    | 2 => simp [wordBytes]
    | 3 => simp [wordBytes]
    | i + 4 => simp [wordBytes]
  · rw [enabledByte, bytesFrom, if_neg hlo, if_neg fun h => hlo h.1]

/-- The byte enables of `n` bytes from byte `sh` of a word. -/
theorem byteEnables {n sh j : Nat} (hn : sh + n ≤ 4) (hj : j < 4) :
    (BitVec.ofNat 4 ((2 ^ n - 1) * 2 ^ sh)).getLsbD j = decide (sh ≤ j ∧ j < sh + n) := by
  have : ∀ sh < 5, ∀ n < 5, sh + n ≤ 4 → ∀ j < 4, (BitVec.ofNat 4 ((2 ^ n - 1) * 2 ^ sh)).getLsbD j = decide (sh ≤ j ∧ j < sh + n) := by decide
  exact this sh (by omega) n (by omega) hn j hj

theorem byteOf_shiftLeft (w : Word) {sh i : Nat} (h : sh + i < 4) : byteOf (BitVec.shiftLeft w (8 * sh)) (sh + i) = byteOf w i := by
  refine BitVec.eq_of_getLsbD_eq fun j hj => ?_
  show (((w <<< (8 * sh)) >>> (8 * (sh + i))).setWidth 8).getLsbD j = ((w >>> (8 * i)).setWidth 8).getLsbD j
  simp only [BitVec.getLsbD_setWidth, BitVec.getLsbD_ushiftRight, BitVec.getLsbD_shiftLeft]
  rw [show 8 * (sh + i) + j - 8 * sh = 8 * i + j by omega]
  have h1 : 8 * (sh + i) + j < 32 := by omega
  have h2 : ¬8 * (sh + i) + j < 8 * sh := by omega
  simp [h1, h2]

/-- A partial store puts its bytes at its address, within the word that holds it (R642). -/
theorem enabledByte_part (ea : Nat) (w : Word) {n : Nat} (hn : ea % 4 + n ≤ 4) {bs : List Byte} (hbs : bs = (List.range n).map (byteOf w)) :
    enabledByte (ea / 4 * 4) (BitVec.shiftLeft w (8 * (ea % 4))) (BitVec.ofNat 4 ((2 ^ n - 1) * 2 ^ (ea % 4))) = bytesFrom ea bs := by
  subst hbs
  funext k
  have hea := Nat.div_add_mod' ea 4
  by_cases hin : ea ≤ k ∧ k < ea + n
  · obtain ⟨i, rfl⟩ := Nat.exists_eq_add_of_le hin.1
    have hk : ea + i - ea / 4 * 4 = ea % 4 + i := by omega
    have hi : i < n := by omega
    rw [enabledByte, bytesFrom, if_pos hin.1, hk, byteOf_shiftLeft w (by omega), byteEnables hn (by omega), if_pos (by simp; omega),
      Nat.add_sub_cancel_left]
    simp [hi]
  · have hno : ¬(ea / 4 * 4 ≤ k ∧ k < ea / 4 * 4 + 4 ∧
        (BitVec.ofNat 4 ((2 ^ n - 1) * 2 ^ (ea % 4))).getLsbD (k - ea / 4 * 4) = true) := by
      rintro ⟨hlo, hhi, hb⟩
      rw [byteEnables hn (by omega), decide_eq_true_eq] at hb
      omega
    rw [enabledByte, bytesFrom, if_neg hno]
    split
    · rw [List.getElem?_eq_none]
      simp
      omega
    · rfl

/-! The relation of the states before and after a store. -/

/-- `t` differs from `s` by what stores of the core `c` leave before it retires: `sg` is added to its activation's signature, the bytes `wr` stand in
the lanes that are stored into, and their damage may differ. -/
def Stored (sg : List SigEv) (wr : Nat → Option Byte) (s t : State) (c : Core) : Prop :=
  ∃ ls : Lanes LaneSt, t = { s with lanes := ls } ∧
    ∀ r, (∃ m d, ls.get r = { lane s r with
        pairs := if r = c.x.lane then vmod (lane s r).pairs c.x.pair (addSigs c sg) else (lane s r).pairs, sram := m, dmg := d } ∧
      Memory.wf 0 m = true ∧ (¬storesInto s c.x.lane r → m = (lane s r).sram ∧ d = (lane s r).dmg) ∧
      ∀ k, storesInto s c.x.lane r → memRead 0 m k = (wr k).getD (memRead 0 (lane s r).sram k))

/-- The memories of the lanes are in canonical form. -/
def SramsOk (s : State) : Prop := ∀ r, Memory.wf 0 (lane s r).sram = true

theorem vmod_id {α : Type} {n : Nat} (v : Vector α n) (i : Fin n) {f : α → α} (hf : ∀ x, f x = x) : vmod v i f = v :=
  vector_ext_get fun j => by
    rw [vmod_get]
    split
    · next hj => rw [hf, hj]
    · rfl

theorem vmod_vmod {α : Type} {n : Nat} (v : Vector α n) (i : Fin n) (f g : α → α) : vmod (vmod v i f) i g = vmod v i fun x => g (f x) :=
  vector_ext_get fun j => by
    simp only [vmod_get, if_true]
    split <;> rfl

theorem stored_refl {s : State} (hm : SramsOk s) (c : Core) : Stored [] (fun _ => none) s s c :=
  ⟨s.lanes, rfl, fun r => ⟨(lane s r).sram, (lane s r).dmg, by
    rw [vmod_id _ _ (addSigs_nil c), ite_self]
    rfl, hm r, fun _ => ⟨rfl, rfl⟩, fun _ _ => rfl⟩⟩

section
variable {sg : List SigEv} {wr : Nat → Option Byte} {s t : State} {c : Core} (h : Stored sg wr s t c)
include h

theorem Stored.adm : t.adm = s.adm := by
  obtain ⟨ls, rfl, -⟩ := h
  rfl

theorem Stored.storesInto_iff (r : LaneId) : storesInto t c.x.lane r ↔ storesInto s c.x.lane r := by
  obtain ⟨ls, rfl, -⟩ := h
  rfl

theorem Stored.sramsOk : SramsOk t := by
  obtain ⟨ls, rfl, hl⟩ := h
  intro r
  obtain ⟨m, d, he, hm, -⟩ := hl r
  show Memory.wf 0 (ls.get r).sram = true
  rw [he]
  exact hm

/-- What stands in the lane of the core. -/
theorem Stored.memRead (k : Nat) : memRead 0 (lane t c.x.lane).sram k = (wr k).getD (memRead 0 (lane s c.x.lane).sram k) := by
  obtain ⟨ls, rfl, hl⟩ := h
  obtain ⟨m, d, he, -, -, hk⟩ := hl c.x.lane
  show Machine.memRead 0 (ls.get c.x.lane).sram k = _
  rw [he]
  exact hk k (.inl rfl)

/-- A store adds to the activation's signature. -/
theorem Stored.addSigs (sg' : List SigEv) : Stored (sg' ++ sg) wr s (modPair t c.x.lane c.x.pair (addSigs c sg')) c := by
  obtain ⟨ls, rfl, hl⟩ := h
  refine ⟨_, rfl, fun r => ?_⟩
  obtain ⟨m, d, he, hrest⟩ := hl r
  refine ⟨m, d, ?_, hrest⟩
  rw [lanes_get_set]
  by_cases hr : r = c.x.lane
  · subst hr
    simp only [if_true] at he ⊢
    simp only [he, vmod_vmod, addSigs_addSigs]
  · rw [if_neg hr, he]
    simp [hr]

/-- Damage of the core's lane changes. -/
theorem Stored.setDmg (f : Damage → Damage) : Stored sg wr s (modLane t c.x.lane fun y => { y with dmg := f y.dmg }) c := by
  obtain ⟨ls, rfl, hl⟩ := h
  refine ⟨_, rfl, fun r => ?_⟩
  obtain ⟨m, d, he, hm, hno, hk⟩ := hl r
  rw [lanes_get_set]
  by_cases hr : r = c.x.lane
  · subst hr
    exact ⟨m, f d, by simp [he], hm, fun hn => absurd (.inl rfl) hn, hk⟩
  · exact ⟨m, d, by rw [if_neg hr, he], hm, hno, hk⟩

end

/-! The word that a store puts into the lanes that it reaches (R247, R642). -/

/-- A lane after the word is written into its SRAM. -/
def putWord (ea : Nat) (w : Word) (be : BitVec 4) (x : LaneSt) : LaneSt :=
  { x with sram := memWriteWord 0 x.sram ea w be, dmg := dmgCure x.dmg ea }

/-- A lane with the enabled bytes of a word written into its SRAM. -/
def WordPut (ea : Nat) (w : Word) (be : BitVec 4) (x y : LaneSt) : Prop :=
  ∃ m d, y = { x with sram := m, dmg := d } ∧ Memory.wf 0 m = true ∧ ∀ k, memRead 0 m k = (enabledByte ea w be k).getD (memRead 0 x.sram k)

section
variable {ea : Nat} {w : Word} {be : BitVec 4}

theorem wordPut_put {x : LaneSt} (hx : Memory.wf 0 x.sram = true) :
    WordPut ea w be x (putWord ea w be x) :=
  ⟨_, _, rfl, memWriteWord_ok hx (Nat.zero_le _) w be, memRead_memWriteWord hx ea w be⟩

theorem WordPut.wf {x y : LaneSt} (h : WordPut ea w be x y) : Memory.wf 0 y.sram = true := by
  obtain ⟨m, d, rfl, hm, -⟩ := h
  exact hm

/-- The same word written twice is written once. -/
theorem WordPut.again {x y z : LaneSt} (h : WordPut ea w be x y) (g : WordPut ea w be y z) : WordPut ea w be x z := by
  obtain ⟨m, d, rfl, -, hk⟩ := h
  obtain ⟨m', d', rfl, hm', hk'⟩ := g
  refine ⟨m', d', rfl, hm', fun k => ?_⟩
  rw [hk', hk]
  cases enabledByte ea w be k <;> rfl

/-- A store reaches its own lane, and in the wait phase of a rejoin whose source that lane is the rejoining lane too. -/
theorem writeSram_cases (s : State) (l : LaneId) :
    (writeSram s l ea w be = modLane s l (putWord ea w be) ∧ ∀ r, storesInto s l r ↔ r = l) ∨
    ∃ j, writeSram s l ea w be = modLane (modLane s l (putWord ea w be)) j (putWord ea w be) ∧ ∀ r, storesInto s l r ↔ r = l ∨ r = j := by
  unfold writeSram
  dsimp only
  split
  · next j hj =>
    change s.rejoin.lane = some j at hj
    split
    · next hf =>
      change s.rejoin.phase = .wait ∧ s.rejoin.src = some l at hf
      exact .inr ⟨j, rfl, fun r => by simp [storesInto, hj, hf, eq_comm]⟩
    · next hf =>
      change ¬(s.rejoin.phase = .wait ∧ s.rejoin.src = some l) at hf
      exact .inl ⟨rfl, fun r => or_iff_left fun hw => hf ⟨hw.1, hw.2.1⟩⟩
  · next hj =>
    change s.rejoin.lane = none at hj
    exact .inl ⟨rfl, fun r => by simp [storesInto, hj]⟩

/-- A store into SRAM writes its word into the lanes that it reaches and leaves the others. -/
theorem writeSram_lane {s : State} (hm : SramsOk s) (l r : LaneId) :
    (storesInto s l r → WordPut ea w be (lane s r) (lane (writeSram s l ea w be) r)) ∧
    (¬storesInto s l r → lane (writeSram s l ea w be) r = lane s r) := by
  have hput : WordPut ea w be (lane s r) (putWord ea w be (lane s r)) := wordPut_put (hm r)
  rcases writeSram_cases (ea := ea) (w := w) (be := be) s l with ⟨he, hi⟩ | ⟨j, he, hi⟩
  · rw [he, hi, lane_modLane]
    refine ⟨fun hr => ?_, fun hr => if_neg hr⟩
    rwa [if_pos hr, ← hr]
  · rw [he, hi, lane_modLane, lane_modLane, lane_modLane]
    refine ⟨fun hr => ?_, fun hn => ?_⟩
    · by_cases hj : r = j
      · rw [if_pos hj, ← hj]
        split
        · next hl =>
          rw [← hl]
          exact hput.again (wordPut_put hput.wf)
        · exact hput
      · have hl := hr.resolve_right hj
        rwa [if_neg hj, if_pos hl, ← hl]
    · rw [if_neg fun hj => hn (.inr hj), if_neg fun hl => hn (.inl hl)]

end

section
variable {sg : List SigEv} {wr : Nat → Option Byte} {s t : State} {c : Core} (h : Stored sg wr s t c)
include h

theorem Stored.writeSram (ea : Nat) (w : Word) (be : BitVec 4) :
    Stored sg (fun k => (enabledByte ea w be k).or (wr k)) s (writeSram t c.x.lane ea w be) c := by
  have hok := h.sramsOk
  have hinto := h.storesInto_iff
  obtain ⟨ls, ht⟩ := writeSram_only t c.x.lane ea w be
  have hlane := fun r => writeSram_lane (ea := ea) (w := w) (be := be) hok c.x.lane r
  obtain ⟨ls', rfl, hl⟩ := h
  refine ⟨ls, by rw [ht], fun r => ?_⟩
  obtain ⟨m, d, he, hm, hno, hk⟩ := hl r
  obtain ⟨hyes', hno'⟩ := hlane r
  rw [ht, hinto] at hyes' hno'
  change storesInto s c.x.lane r → WordPut ea w be (ls'.get r) (ls.get r) at hyes'
  change ¬storesInto s c.x.lane r → ls.get r = ls'.get r at hno'
  by_cases hr : storesInto s c.x.lane r
  · obtain ⟨m', d', he', hm', hk'⟩ := hyes' hr
    refine ⟨m', d', by rw [he', he], hm', fun hn => absurd hr hn, fun k _ => ?_⟩
    rw [hk', he]
    dsimp only
    rw [hk k hr]
    cases enabledByte ea w be k <;> rfl
  · exact ⟨m, d, (hno' hr).trans he, hm, hno, fun _ hr' => absurd hr' hr⟩

/-- An instruction that retires after its stores leaves what they left. -/
theorem Stored.complete (cost : Nat) (b : Bank) (ws : List Word) :
    bankIn (complete t c cost b ws) c = b ∧ OnlyStore cost sg s (complete t c cost b ws) c wr := by
  obtain ⟨hb, q, hq, hkept⟩ := complete_onlyCore t c cost b ws
  refine ⟨hb, ?_⟩
  rw [hq]
  obtain ⟨ls, rfl, hl⟩ := h
  refine ⟨_, rfl, fun r => ?_⟩
  obtain ⟨m, d, he, -, hno, hk⟩ := hl r
  rw [lanes_get_set]
  by_cases hr : r = c.x.lane
  · subst hr
    rw [if_pos rfl] at he ⊢
    refine ⟨vmod (ls.get c.x.lane).pairs c.x.pair fun _ => q, m, d, by rw [he], fun p => ⟨?_, ?_⟩, hno, hk⟩
    · rintro ⟨-, rfl⟩
      rw [vmod_get, if_pos rfl]
      refine pairKept_addSigs ?_
      have hp : pair { s with lanes := ls } c.x.lane c.x.pair = Machine.addSigs c sg (pair s c.x.lane c.x.pair) := by
        show (ls.get c.x.lane).pairs.get c.x.pair = _
        rw [he]
        exact (vmod_get _ _ _ _).trans (if_pos rfl)
      rwa [hp] at hkept
    · intro hp
      have hpc : p ≠ c.x.pair := fun e => hp ⟨rfl, e⟩
      rw [vmod_get, if_neg hpc, he]
      dsimp only
      rw [vmod_get, if_neg hpc]
      rfl
  · rw [if_neg hr] at he ⊢
    exact ⟨(lane s r).pairs, m, d, he, fun p => ⟨fun hp => absurd hp.1 hr, fun _ => rfl⟩, hno, hk⟩

end

/-- A legal instruction whose body retires from a state that its stores have left. -/
theorem storesFrom_of_go {s base t : State} {x : Ctx} {c : Core} {i : Instr} {cost : Nat} {body : State → Core → Act} {b : Bank}
    {sg : List SigEv} {wr : Nat → Option Byte} {ws : List Word} {legal : Bool} (h : Executes s x c) (hl : legal = true)
    (he : exec i s = .next (runInstr x (spells i) cost legal body s)) (hb : body (afterFetch s c) c = .go t b ws)
    (ht : Stored sg wr base t c) : StoresFrom i s base c cost sg b wr := by
  intro hw
  refine ⟨_, he, ?_⟩
  rw [runInstr_executes _ _ _ h hw, hl, if_pos rfl, hb]
  exact ht.complete cost b ws

end Sys2Proof.Machine
end

section
/-! PROOF. The stores and EDGE (02_programming_model.md, R73, R74; 04_instruction_semantics.md, R119, R127; 06_cyclic_execution.md, R209;
07_lanes_voting_and_lockstep.md, R236). -/

namespace Sys2Proof.Machine

/-! What a store adds to the signature (R236). -/

/-- A word of the bank lies in the running task's own RET or WORK section. -/
def ownsWord (s : State) (c : Core) (o : Nat) : Bool :=
  match c.timed with
  | some t => inSect s c.x.pair t .ret o || inSect s c.x.pair t .work o
  | none => false

/-- What a store of a word of the bank adds to the activation's signature. -/
def bankEntry (s : State) (c : Core) (o : Nat) (w : Word) (be : BitVec 4) : List SigEv :=
  if ownsWord s c o then [.write (BitVec.ofNat 32 o) w be] else []

/-- Contributions that a place makes where it lies in the bank. -/
def sigAt (q : Place) (k : Nat → List SigEv) : List SigEv :=
  match q with
  | .bank o => k o
  | _ => []

/-- What a store of a word at a place adds to the activation's signature. -/
def logEntry (s : State) (c : Core) (q : Place) (w : Word) (be : BitVec 4) : List SigEv := sigAt q fun o => bankEntry s c o w be

theorem ownsWord_timed (s : State) {c : Core} {t : TaskId} (ht : c.timed = some t) (o : Nat) :
    ownsWord s c o = (inSect s c.x.pair t .ret o || inSect s c.x.pair t .work o) := by simp only [ownsWord, ht]

theorem ownsWord_untimed (s : State) {c : Core} (ht : c.timed = none) (o : Nat) : ownsWord s c o = false := by simp only [ownsWord, ht]

theorem inSect_congr {s t : State} (h : t.adm = s.adm) : inSect t = inSect s := by
  have hs : setup t = setup s := by rw [setup, setup?, h]; rfl
  unfold inSect taskDecl
  rw [hs]

theorem bankEntry_congr {s t : State} (h : t.adm = s.adm) : bankEntry t = bankEntry s := by
  unfold bankEntry ownsWord
  rw [inSect_congr h]

theorem logEntry_congr {s t : State} (h : t.adm = s.adm) : logEntry t = logEntry s := by
  unfold logEntry
  rw [bankEntry_congr h]

theorem modLane_id (s : State) (l : LaneId) {f : LaneSt → LaneSt} (hf : ∀ x, f x = x) : modLane s l f = s := by
  cases l <;> simp [modLane, hf, Lanes.set, Lanes.get]

theorem logWrite_eq (s : State) (c : Core) (q : Place) (w : Word) (be : BitVec 4) :
    logWrite s c q w be = modPair s c.x.lane c.x.pair (addSigs c (logEntry s c q w be)) := by
  have hnil : modPair s c.x.lane c.x.pair (addSigs c []) = s := modLane_id s _ fun x => by rw [vmod_id _ _ (addSigs_nil c)]
  cases q with
  | bank o =>
    show _ = modPair s c.x.lane c.x.pair (addSigs c (bankEntry s c o w be))
    unfold logWrite bankEntry
    split
    · next k hq hk =>
      cases hq
      rw [ownsWord_timed s hk]
      split
      · unfold addSigs modTask
        rw [hk]
        rfl
      · exact hnil.symm
    · next hno =>
      have hu : c.timed = none := by
        cases ht : c.timed with
        | none => rfl
        | some t => exact (hno o t rfl ht).elim
      rw [ownsWord_untimed s hu]
      exact hnil.symm
  | common o => exact hnil.symm
  | ln r => exact hnil.symm

section
variable {sg : List SigEv} {wr : Nat → Option Byte} {s t : State} {c : Core} (h : Stored sg wr s t c)
include h

theorem Stored.logWrite (q : Place) (w : Word) (be : BitVec 4) :
    Stored (logEntry s c q w be ++ sg) wr s (logWrite t c q w be) c := by
  rw [logWrite_eq, logEntry_congr h.adm]
  exact h.addSigs _

/-- One whole word stored after others. -/
theorem Stored.storeWord (q : Place) (w : Word) :
    Stored (logEntry s c q w 0xF ++ sg) (fun k => (bytesFrom (ecOf c q) (wordBytes w) k).or (wr k)) s (storeWord t c q w) c := by
  have hw := (h.writeSram (ecOf c q) w 0xF).logWrite q w 0xF
  rwa [enabledByte_full] at hw

end

/-- One whole word stored. -/
theorem stored_word {s : State} (hm : SramsOk s) (c : Core) (q : Place) (w : Word) :
    Stored (logEntry s c q w 0xF) (bytesFrom (ecOf c q) (wordBytes w)) s (storeWord s c q w) c := by
  simpa using (stored_refl hm c).storeWord q w

theorem bytesFrom_append (ea : Nat) (a b : List Byte) (k : Nat) :
    (bytesFrom (ea + a.length) b k).or (bytesFrom ea a k) = bytesFrom ea (a ++ b) k := by
  unfold bytesFrom
  by_cases h1 : ea ≤ k
  · obtain ⟨i, rfl⟩ := Nat.exists_eq_add_of_le h1
    by_cases h2 : a.length ≤ i
    · have : ea + i - (ea + a.length) = i - a.length := by omega
      simp [h2, this, List.getElem?_append_right h2]
    · simp [h2, List.getElem?_append_left (Nat.lt_of_not_le h2)]
  · have h2 : ¬ea + a.length ≤ k := by omega
    simp [h1, h2]

theorem ecOf_plus {c : Core} {q : Place} (hq : ∀ r, q ≠ .ln r) (n : Nat) : ecOf c (q.plus n) = ecOf c q + n := by
  cases q with
  | ln r => exact absurd rfl (hq r)
  | _ => exact (Nat.add_assoc _ _ _).symm

@[simp] theorem plus_zero (q : Place) : q.plus 0 = q := by cases q <;> rfl

/-- Two words stored, the second after the first. -/
theorem stored_words {s : State} (hm : SramsOk s) (c : Core) {q : Place} (hq : ∀ r, q ≠ .ln r) (w w' : Word) :
    Stored (logEntry s c (q.plus 4) w' 0xF ++ logEntry s c q w 0xF) (bytesFrom (ecOf c q) (wordBytes w ++ wordBytes w')) s
      (storeWord (storeWord s c q w) c (q.plus 4) w') c := by
  have h := (stored_word hm c q w).storeWord (q.plus 4) w'
  rw [ecOf_plus hq] at h
  have hb := funext (bytesFrom_append (ecOf c q) (wordBytes w) (wordBytes w'))
  exact hb ▸ h

/-! The stores of whole words. -/

section
variable {s : State} {x : Ctx} {c : Core} {cls : AccClass} {n : Nat} {a : Word} (ws : List Word) (k : State → Act)

theorem storeThen_error {e : ExcCode} (hq : access s c cls n a = .error e) : storeThen s c cls n a ws k = .raise s e a 0 := by
  simp only [storeThen, hq]

/-- A permitted store: a force on the slot discards it (R209). -/
theorem storeThen_place (h : Executes s x c) {q : Place} (hq : access (afterFetch s c) c cls n a = .ok q) :
    storeThen (afterFetch s c) c cls n a ws k =
      if storeForced (afterFetch s c) c q n = true then k (afterFetch s c)
      else k (ws.zipIdx.foldl (fun s p => storeWord s c (q.plus (4 * p.2)) p.1) (afterFetch s c)) := by
  simp only [storeThen, hq]
  exact reach_place h hq _

end

/-- A store of whole words: refused, held by a force (R209), and carried out. -/
theorem store_clause {s : State} {x : Ctx} {c : Core} (h : Executes s x c) {i : Instr} {body : State → Core → Act} {legal : Bool}
    (hl : legal = true) (he : exec i s = .next (runInstr x (spells i) 1 legal body s)) {cls : AccClass} {n : Nat} {a : Word} {ws : List Word}
    (hb : body (afterFetch s c) c = storeThen (afterFetch s c) c cls n a ws fun t => .go t (nextPc c.bank) (storeWords a ws 0xF))
    (hcls : cls ≠ .load true) {sg : Place → List SigEv} {bs : List Byte}
    (hs : ∀ q, (∀ r, q ≠ .ln r) → Stored (sg q) (bytesFrom (ecOf c q) bs) (afterFetch s c)
      (ws.zipIdx.foldl (fun s p => storeWord s c (q.plus (4 * p.2)) p.1) (afterFetch s c)) c) :
    (∀ e, access (afterFetch s c) c cls n a = .error e → Raises i s (afterFetch s c) c 1 e a 0) ∧
    (∀ q, access (afterFetch s c) c cls n a = .ok q → storeForced (afterFetch s c) c q n = true → Completes i s c 1 (nextPc c.bank)) ∧
    ∀ q, access (afterFetch s c) c cls n a = .ok q → storeForced (afterFetch s c) c q n = false →
      StoresFrom i s (afterFetch s c) c 1 (sg q) (nextPc c.bank) (bytesFrom (ecOf c q) bs) :=
  ⟨fun _ hq => raises_of_raise h hl he (hb.trans (storeThen_error ws _ hq)),
    fun _ hq hf => completes_of_go h hl he (hb.trans ((storeThen_place ws _ h hq).trans (if_pos hf))),
    fun q hq hf => storesFrom_of_go h hl he (hb.trans ((storeThen_place ws _ h hq).trans (if_neg (ne_true_of_eq_false hf))))
      (hs q (not_ln_of_access hq hcls))⟩

theorem stored_one {s : State} (hm : SramsOk s) (c : Core) (w : Word) (q : Place) :
    Stored (logEntry s c q w 0xF) (bytesFrom (ecOf c q) (wordBytes w)) s
      ([w].zipIdx.foldl (fun s p => storeWord s c (q.plus (4 * p.2)) p.1) s) c := by
  have he : [w].zipIdx.foldl (fun s p => storeWord s c (q.plus (4 * p.2)) p.1) s = storeWord s c (q.plus 0) w := rfl
  rw [he, plus_zero]
  exact stored_word hm c q w

theorem stored_two {s : State} (hm : SramsOk s) (c : Core) (w w' : Word) {q : Place} (hq : ∀ r, q ≠ .ln r) :
    Stored (logEntry s c (q.plus 4) w' 0xF ++ logEntry s c q w 0xF) (bytesFrom (ecOf c q) (wordBytes w ++ wordBytes w')) s
      ([w, w'].zipIdx.foldl (fun s p => storeWord s c (q.plus (4 * p.2)) p.1) s) c := by
  have he : [w, w'].zipIdx.foldl (fun s p => storeWord s c (q.plus (4 * p.2)) p.1) s =
      storeWord (storeWord s c (q.plus 0) w) c (q.plus 4) w' := rfl
  rw [he, plus_zero]
  exact stored_words hm c hq w w'

theorem logEntry_two (s : State) (c : Core) (q : Place) (w w' : Word) :
    logEntry s c (q.plus 4) w' 0xF ++ logEntry s c q w 0xF = sigAt q fun o => bankEntry s c (o + 4) w' 0xF ++ bankEntry s c o w 0xF := by
  cases q <;> rfl

/-! The partial stores (R515, R642). -/

@[simp] theorem readWord_adm (s : State) (c : Core) (ea : Nat) (h : Hit) : (readWord s c ea h).1.adm = s.adm := by
  obtain ⟨d, e, r, h'⟩ := readWord_only s c ea h
  rw [h']
  rfl

@[simp] theorem readWord_ctl (s : State) (c : Core) (ea : Nat) (h : Hit) : (readWord s c ea h).1.ctl = s.ctl := by
  obtain ⟨d, e, r, h'⟩ := readWord_only s c ea h
  rw [h']
  rfl

theorem readWord_sramsOk {s : State} (hm : SramsOk s) (c : Core) (ea : Nat) (h : Hit) : SramsOk (readWord s c ea h).1 := fun r => by
  rw [readWord_sram]
  exact hm r

/-- The word that holds an address, with the bytes of a partial store merged in. -/
def mergedWord (s : State) (c : Core) (ea : Nat) (bs : List Byte) : Word :=
  let now (k : Nat) : Byte := (bytesFrom ea bs k).getD (memRead 0 (lane s c.x.lane).sram k)
  leWord (now (ea / 4 * 4)) (now (ea / 4 * 4 + 1)) (now (ea / 4 * 4 + 2)) (now (ea / 4 * 4 + 3))

/-- A partial store reads its word and puts its bytes. -/
theorem stored_part {s : State} (hm : SramsOk s) (c : Core) (q : Place) (w : Word) {n : Nat} (hn : ecOf c q % 4 + n ≤ 4) {bs : List Byte}
    (hbs : bs = (List.range n).map (byteOf w)) :
    Stored (sigAt q fun o => bankEntry s c (o / 4 * 4) (mergedWord s c (ecOf c q) bs) (BitVec.ofNat 4 ((2 ^ n - 1) * 2 ^ (ecOf c q % 4))))
      (bytesFrom (ecOf c q) bs)
      (readWord s c (ecOf c q) c.x.data).1 (storePart s c q w n) c := by
  unfold storePart
  extract_lets ea wa sh be r old s1 s2 now
  have h1 : Stored [] (bytesFrom ea bs) r.1 s1 c := by
    have hw := (stored_refl (readWord_sramsOk hm c ea c.x.data) c).writeSram wa (BitVec.shiftLeft w (8 * sh)) be
    have hbe : enabledByte wa (BitVec.shiftLeft w (8 * sh)) be = bytesFrom ea bs := enabledByte_part ea w hn hbs
    simpa only [hbe, Option.or_none] using hw
  have h2 : Stored [] (bytesFrom ea bs) r.1 s2 c := by
    show Stored _ _ _ (if r.2 then s1 else _) c
    split
    · exact h1
    · exact h1.setDmg fun d => dmgSet d wa old
  have hnow : now = mergedWord s c ea bs := by
    show memWord 0 (lane s2 c.x.lane).sram wa = _
    simp only [memWord, h2.memRead, r, readWord_sram]
    rfl
  rw [← hnow]
  cases q with
  | bank o =>
    have hlog := h2.logWrite (.bank (o / 4 * 4)) now be
    rwa [logEntry_congr (readWord_adm s c ea c.x.data), List.append_nil] at hlog
  | common o => exact h2
  | ln r => exact h2

section
variable {s : State} {x : Ctx} {c : Core} {n : Nat} {a : Word} (w : Word) (k : State → Act)

theorem partThen_error {e : ExcCode} (hq : access s c (.store false) n a = .error e) : partThen s c n a w k = .raise s e a 0 := by
  simp only [partThen, hq]

theorem partThen_place (h : Executes s x c) {q : Place} (hq : access (afterFetch s c) c (.store false) n a = .ok q) :
    partThen (afterFetch s c) c n a w k =
      if storeForced (afterFetch s c) c q n = true then k (afterFetch s c) else k (storePart (afterFetch s c) c q w n) := by
  simp only [partThen, hq]
  exact reach_place h hq _

end

/-! The clauses of the statement. -/

theorem bitSlot_eq (v : Bool) (t : Byte) : bitSlot v t = (if v then 0x100 else 0) ||| t.setWidth 32 := by cases v <;> rfl

/-- Byte 0 of a qualified bit slot is its tag and bit 0 of byte 1 its value (R74). -/
theorem wordBytes_bitSlot (v : Bool) (t : Byte) : wordBytes (bitSlot v t) = [t, if v then 1 else 0, 0, 0] := by
  have hbit (j : Nat) : (bitSlot v t).getLsbD j = ((v && decide (8 = j)) || (decide (j < 32) && t.getLsbD j)) := by
    rw [bitSlot_eq, BitVec.getLsbD_or, BitVec.getLsbD_setWidth]
    cases v
    · simp
    · exact congrArg (· || _) (BitVec.getLsbD_twoPow 8 j)
  have hbyte (i : Nat) (b : Byte) (hb : ∀ j < 8, (bitSlot v t).getLsbD (8 * i + j) = b.getLsbD j) : byteOf (bitSlot v t) i = b :=
    BitVec.eq_of_getLsbD_eq fun j hj => by
      rw [← hb j hj, byteOf, BitVec.getLsbD_setWidth, BitVec.getLsbD_ushiftRight, decide_eq_true hj, Bool.true_and]
  have h0 : byteOf (bitSlot v t) 0 = t := hbyte 0 t fun j hj => by
    rw [hbit]
    grind
  have h1 : byteOf (bitSlot v t) 1 = if v then 1 else 0 := hbyte 1 _ fun j hj => by
    rw [hbit, BitVec.getLsbD_of_ge t (8 * 1 + j) (by omega)]
    cases v
    · simp
    · have hone : (1 : Byte).getLsbD j = (decide (0 < 8) && decide (j = 0)) := BitVec.getLsbD_one
      rw [if_pos rfl, hone]
      grind
  have hz (i : Nat) (hi : 2 ≤ i) : byteOf (bitSlot v t) i = 0 := hbyte i 0 fun j hj => by
    rw [hbit, BitVec.getLsbD_of_ge t (8 * i + j) (by omega), decide_eq_false (show ¬8 = 8 * i + j by omega)]
    simp
  rw [wordBytes, h0, h1, hz 2 (by decide), hz 3 (by decide)]

theorem wordBytes_tag (t : Byte) : wordBytes (zext t) = [t, 0, 0, 0] := by
  have h : bitSlot false t = zext t := BitVec.zero_or
  rw [← h]
  exact wordBytes_bitSlot false t

/-- A partial store: refused, held by a force, and carried out (R209, R642). -/
theorem part_clause {s : State} {x : Ctx} {c : Core} (h : Executes s x c) (hok : SramsOk (afterFetch s c)) {i : Instr}
    {body : State → Core → Act} (he : exec i s = .next (runInstr x (spells i) 1 true body s)) {n : Nat} {a : Word} (w : Word) {ms : List Word}
    (hb : body (afterFetch s c) c = partThen (afterFetch s c) c n a w fun t => .go t (nextPc c.bank) ms)
    (hn : ∀ k, k % n = 0 → k % 4 + n ≤ 4) {bs : List Byte} (hbs : bs = (List.range n).map (byteOf w)) :
    (∀ e, access (afterFetch s c) c (.store false) n a = .error e → Raises i s (afterFetch s c) c 1 e a 0) ∧
    (∀ q, access (afterFetch s c) c (.store false) n a = .ok q → storeForced (afterFetch s c) c q n = true → Completes i s c 1 (nextPc c.bank)) ∧
    ∀ q, access (afterFetch s c) c (.store false) n a = .ok q → storeForced (afterFetch s c) c q n = false →
      StoresFrom i s (readWord (afterFetch s c) c (ecOf c q) c.x.data).1 c 1
        (sigAt q fun o => bankEntry (afterFetch s c) c (o / 4 * 4) (mergedWord (afterFetch s c) c (ecOf c q) bs)
          (BitVec.ofNat 4 ((2 ^ n - 1) * 2 ^ (ecOf c q % 4)))) (nextPc c.bank) (bytesFrom (ecOf c q) bs) := by
  refine ⟨fun _ hq => raises_of_raise h rfl he (hb.trans (partThen_error w _ hq)),
    fun _ hq hf => completes_of_go h rfl he (hb.trans ((partThen_place w _ h hq).trans (if_pos hf))),
    fun q hq hf => storesFrom_of_go h rfl he (hb.trans ((partThen_place w _ h hq).trans (if_neg (ne_true_of_eq_false hf))))
      (stored_part hok c q w ?_ hbs)⟩
  rw [ecOf_mod hq (not_ln_of_access hq nofun)]
  exact hn _ (place_of_access hq).2

/-- A byte of a truncated word. -/
theorem byteOf_zext_setWidth (v : Word) {m i : Nat} (hm : 8 * i + 8 ≤ m) : byteOf (zext (v.setWidth m)) i = byteOf v i := by
  refine BitVec.eq_of_getLsbD_eq fun j hj => ?_
  simp only [byteOf, zext, BitVec.getLsbD_setWidth, BitVec.getLsbD_ushiftRight]
  grind

theorem bytes_half (v : Word) : [v.setWidth 8, (v >>> 8).setWidth 8] = (List.range 2).map (byteOf (zext (v.setWidth 16))) := by
  show _ = [byteOf (zext (v.setWidth 16)) 0, byteOf (zext (v.setWidth 16)) 1]
  rw [byteOf_zext_setWidth v (by decide), byteOf_zext_setWidth v (by decide), byteOf, byteOf, Nat.mul_zero,
    BitVec.ushiftRight_zero]

theorem bytes_byte (v : Word) : [v.setWidth 8] = (List.range 1).map (byteOf (zext (v.setWidth 8))) := by
  show _ = [byteOf (zext (v.setWidth 8)) 0]
  rw [byteOf_zext_setWidth v (by decide), byteOf, Nat.mul_zero, BitVec.ushiftRight_zero]

/-! EDGE (R119). -/

theorem rwForced_congr {s t : State} (hc : t.ctl = s.ctl) (ha : t.adm = s.adm) : rwForced t = rwForced s := by
  have hs : setup t = setup s := by rw [setup, setup?, ha]; rfl
  unfold rwForced taskDecl
  rw [hs, hc]

/-- A state block lies in the running task's own RET or WORK section (R119, R131). -/
theorem ownBlock_ok {s : State} {c : Core} {n : Nat} {a : Word} {o : Nat} (h : ownBlock s c n a = .ok o) :
    ∃ t, c.timed = some t ∧ (inSect s c.x.pair t .ret o || inSect s c.x.pair t .work o) = true := by
  unfold ownBlock at h
  split at h
  · cases h
  · next t _ ht =>
    repeat' split at h
    all_goals cases h
    exact ⟨t, ht, ‹_›⟩
  · split at h <;> cases h
  · split at h <;> cases h
  · split at h <;> cases h
  · cases h

section
variable {s : State} {c : Core} {f : FormG}

theorem edgeBody_error {e : ExcCode} (h : ownBlock s c 4 (addrG c.bank f) = .error e) : edgeBody f s c = .raise s e (addrG c.bank f) 0 := by
  unfold edgeBody
  simp only [h]

/-- EDGE of a slot of its own reads the slot's word, gives the rising edge, and stores the input unless a force holds the slot. -/
theorem edgeBody_ok {o : Nat} (h : ownBlock s c 4 (addrG c.bank f) = .ok o) :
    let b := rdB c.bank f.s1
    let r := readWord s c (bankBase c.x.pair + o) c.x.data
    let slot := memWord 0 (lane s c.x.lane).sram (bankBase c.x.pair + o)
    let bank := bitResult c.bank f.d (b.v && !slot.getLsbD 8) (comb b.t (slot.setWidth 8))
    (r.2 = false → edgeBody f s c = .raise r.1 .mem (addrG c.bank f) 0) ∧
    (r.2 = true → ∃ ws, edgeBody f s c =
      .go (if rwForced s c.x.pair (c.timed.getD 0) o 4 then r.1 else storeWord r.1 c (.bank o) (bitSlot b.v b.t)) bank ws) := by
  intro b r slot bank
  have hr : readWord s c (ecOf c (.bank o)) c.x.data = r := rfl
  have hslot : memWord 0 (lane r.1 c.x.lane).sram (ecOf c (.bank o)) = slot := by
    simp only [memWord, r, readWord_sram]
    rfl
  have hforced : rwForced r.1 = rwForced s := rwForced_congr (readWord_ctl ..) (readWord_adm ..)
  unfold edgeBody
  simp only [h, hr]
  rcases hc : r with ⟨t, g⟩
  rw [hc] at hslot hforced
  cases g with
  | false => exact ⟨fun _ => rfl, nofun⟩
  | true =>
    refine ⟨nofun, fun _ => ?_⟩
    dsimp only at hslot hforced ⊢
    rw [hslot, hforced]
    exact ⟨_, rfl⟩

end

/-- Settles O9: the stores of whole words are `store_clause`, the partial ones `part_clause`, and EDGE does what `edgeBody_ok` says. -/
theorem storeAndEdgeEffects : Obligations.StoreAndEdgeEffects := by
  refine ⟨fun s x c f hm h => ?stores, fun s x c f hm h hd hs => ?edge⟩
  all_goals have hok : SramsOk (afterFetch s c) := fun r => (afterFetch_sram h r).symm ▸ hm.1 r
  case stores =>
    have hstw := store_clause (i := .stw x f) (cls := .store true) (n := 4) h rfl rfl rfl nofun fun q _ => stored_one hok c _ q
    have hsth := part_clause (i := .sth x f) (n := 2) h hok rfl _ rfl (fun k hk => by omega) (bytes_half _)
    have hstb := part_clause (i := .stb x f) (n := 1) h hok rfl _ rfl (fun k hk => by omega) (bytes_byte _)
    have hstt := store_clause (i := .stt x f) (cls := .tagStore) (n := 8) h rfl rfl rfl nofun fun q hq => stored_two hok c _ _ hq
    simp only [wordBytes_tag, logEntry_two] at hstt
    refine ⟨hstw, hsth, hstb, fun hb => ?stq, hstt⟩
    case stq =>
      have hstq := store_clause (i := .stq x f) (cls := .tagStore) (n := 4) h hb rfl rfl nofun fun q _ => stored_one hok c _ q
      rwa [wordBytes_bitSlot, bitSlot_eq] at hstq
  case edge =>
    have hl : (bitField f.d && bitField f.s1) = true := by rw [hd, hs]; rfl
    refine ⟨fun e he => raises_of_raise h hl rfl (edgeBody_error he), fun o ho => ?_⟩
    obtain ⟨hbad, hgood⟩ := edgeBody_ok ho
    refine ⟨fun hr => raises_of_raise h hl rfl (hbad hr), fun hr hf => ?held, fun hr hf => ?stored⟩
    all_goals obtain ⟨ws, hgo⟩ := hgood hr
    case held =>
      rw [if_pos hf] at hgo
      exact completes_of_go h hl rfl hgo
    case stored =>
      obtain ⟨k, hk, hown⟩ := ownBlock_ok ho
      have hst := stored_word (readWord_sramsOk hok c (bankBase c.x.pair + o) c.x.data) c (.bank o) (bitSlot (rdB c.bank f.s1).v (rdB c.bank f.s1).t)
      have hlog (w : Word) : logEntry (readWord (afterFetch s c) c (bankBase c.x.pair + o) c.x.data).1 c (.bank o) w 0xF =
          [.write (BitVec.ofNat 32 o) w 0xF] := by
        rw [logEntry_congr (readWord_adm ..)]
        exact if_pos ((ownsWord_timed _ hk o).trans hown)
      rw [hlog, bitSlot_eq] at hst
      rw [if_neg (ne_true_of_eq_false hf), bitSlot_eq] at hgo
      exact storesFrom_of_go h hl rfl hgo hst

end Sys2Proof.Machine
end

section
/-! PROOF. The end of an activation and of a work item: the pair takes up its best ready task, or joins (02_programming_model.md, R61, R82, R85;
04_instruction_semantics.md, R129, R130, R149; 07_lanes_voting_and_lockstep.md, R251, R253, R257). -/

namespace Sys2Proof.Machine

/-! The best ready task depends on the phases of the pair's tasks and on the set-up. -/

theorem bestReady_congr {s t : State} {l : LaneId} {p : PairId} (ha : t.adm = s.adm)
    (hp : ∀ k, (taskRun t l p k).phase = (taskRun s l p k).phase) : bestReady t l p = bestReady s l p := by
  have hs : setup t = setup s := by rw [setup, setup?, ha]; rfl
  have hprio : prioOf t = prioOf s := by unfold prioOf taskDecl; rw [hs]
  unfold bestReady
  simp only [hp, hprio]

theorem modPair_const_self (s : State) (l : LaneId) (p : PairId) : modPair s l p (fun _ => pair s l p) = s := by
  rw [← modPair_const s l p fun q => q]
  exact modLane_id s l fun x => by rw [vmod_id _ _ fun _ => rfl]

/-- Both comparators of a pair pass their test by injection (R253). -/
def SoundComps (q : PairSt) : Prop := compPasses q.cmpX q.testCnt = true ∧ compPasses q.cmpY q.testCnt = true

@[simp] theorem closeWindow_comps (q : PairSt) : (closeWindow q).cmpX = q.cmpX ∧ (closeWindow q).cmpY = q.cmpY ∧ (closeWindow q).testCnt = q.testCnt := by
  unfold closeWindow
  split <;> exact ⟨rfl, rfl, rfl⟩

theorem soundComps_closeWindow {q : PairSt} (h : SoundComps q) : SoundComps (closeWindow q) := by
  obtain ⟨hx, hy, ht⟩ := closeWindow_comps q
  rwa [SoundComps, hx, hy, ht]

/-- Sound comparators pass the test, which counts up and changes nothing else. -/
theorem testComps_sound {s : State} {l : LaneId} {p : PairId} (h : SoundComps (pair s l p)) :
    testComps s l p = modPair s l p fun x => { x with testCnt := x.testCnt + 1 } := by
  unfold testComps
  dsimp only
  rw [h.1, h.2]
  rfl

/-- Two runs of a task that differ in the cycle count alone. -/
def SameRun (a b : TaskRun) : Prop := ∃ n, a = { b with cycles := n }

theorem SameRun.refl (a : TaskRun) : SameRun a a := ⟨a.cycles, rfl⟩

/-- With sound comparators a pair takes up its best ready task, and its tasks keep all but the cycles of the one that starts or resumes. -/
theorem reschedule_sound {s : State} {l : LaneId} {p : PairId} (h : SoundComps (pair s l p)) :
    ∃ q, reschedule s l p = modPair s l p (fun _ => q) ∧ q.active = bestReady s l p ∧ ∀ j, SameRun (q.tasks.get j) ((pair s l p).tasks.get j) := by
  unfold reschedule
  dsimp only
  split
  · next hb => exact ⟨pair s l p, (modPair_const_self s l p).symm, hb.symm, fun j => .refl _⟩
  · split
    · next hb => exact ⟨_, modPair_const _ _ _ _, rfl, fun j => by rw [closeWindow_tasks]; exact .refl _⟩
    · next t hb =>
      have hq : SoundComps (pair (modTask (modPair s l p fun x => { closeWindow x with active := bestReady s l p }) l p t
          fun x => { x with cycles := x.cycles + 4 }) l p) := by
        simp only [modTask, modPair_modPair, pair_modPair, and_self, if_true]
        exact soundComps_closeWindow h
      have hrun : ∀ j, SameRun ((vmod (closeWindow (pair s l p)).tasks t fun x => { x with cycles := x.cycles + 4 }).get j)
          ((pair s l p).tasks.get j) := fun j => by
        rw [closeWindow_tasks, vmod_get]
        split
        · next hj => rw [hj]; exact ⟨_, rfl⟩
        · exact .refl _
      split
      · rw [testComps_sound hq]
        simp only [modTask, modPair_modPair]
        exact ⟨_, modPair_const _ _ _ _, rfl, hrun⟩
      · simp only [modTask, modPair_modPair]
        exact ⟨_, modPair_const _ _ _ _, rfl, hrun⟩

/-- The end of an activation, with `g` what it leaves of its task, in a pair whose comparators are sound. -/
theorem endActivation {s : State} {l : LaneId} {p : PairId} {k : TaskId} {g : TaskRun → TaskRun} (h : SoundComps (pair s l p)) :
    let t := reschedule (modPair (modTask s l p k g) l p closeWindow) l p
    (∃ q, t = modPair s l p fun _ => q) ∧ (pair t l p).active = bestReady t l p ∧ SameRun (taskRun t l p k) (g (taskRun s l p k)) ∧
      ∀ j, j ≠ k → SameRun (taskRun t l p j) (taskRun s l p j) := by
  intro t
  have hm : modPair (modTask s l p k g) l p closeWindow = modPair s l p fun _ => closeWindow { pair s l p with tasks := vmod (pair s l p).tasks k g } := by
    simp only [modTask, modPair_modPair]
    exact modPair_const _ _ _ _
  have hsound : SoundComps (pair (modPair (modTask s l p k g) l p closeWindow) l p) := by
    rw [hm, pair_modPair, if_pos ⟨rfl, rfl⟩]
    exact soundComps_closeWindow h
  obtain ⟨q, hq, hactive, hrun⟩ := reschedule_sound hsound
  have ht : t = modPair s l p fun _ => q := by rw [show t = _ from hq, hm, modPair_modPair]
  have hpair : pair t l p = q := by rw [ht, pair_modPair, if_pos ⟨rfl, rfl⟩]
  have htask (j : TaskId) : SameRun (taskRun t l p j) (if j = k then g (taskRun s l p k) else taskRun s l p j) := by
    have := hrun j
    rwa [hm, pair_modPair, if_pos ⟨rfl, rfl⟩, closeWindow_tasks, vmod_get, ← hpair] at this
  refine ⟨⟨q, ht⟩, ?_, by simpa using htask k, fun j hj => by simpa [hj] using htask j⟩
  rw [hpair, hactive]
  refine (bestReady_congr ?_ fun j => ?_).symm
  · rw [ht, hm]
    rfl
  · obtain ⟨n, hn⟩ := hrun j
    show (taskRun t l p j).phase = _
    rw [taskRun, hpair, hn]
    rfl

/-! The end of a work item. -/

/-- A pair whose core has ended its work item. -/
def endCore (x : Ctx) (q : PairSt) : PairSt :=
  if x.odd then { q with odd := { q.odd with active := false, wait := none } } else { q with even := { q.even with active := false, wait := none } }

/-- A pair that joins once both cores have ended and no split is to resume (R257). -/
def joinPair (q : PairSt) : PairSt := { q with split := q.split && (q.even.active || q.odd.active || q.resume) }

theorem joinIfDone_eq (s : State) (l : LaneId) (p : PairId) : joinIfDone s l p = modPair s l p joinPair := by
  have hj : joinPair (pair s l p) =
      if (pair s l p).split && !(pair s l p).even.active && !(pair s l p).odd.active && !(pair s l p).resume then
        { pair s l p with split := false } else pair s l p := by
    unfold joinPair
    rcases pair s l p with ⟨_, _, _, _, _, _, _, _, _, _, split, resume, ⟨_, even, _⟩, ⟨_, odd, _⟩⟩
    cases split <;> cases even <;> cases odd <;> cases resume <;> rfl
  rw [modPair_const, hj]
  unfold joinIfDone
  dsimp only
  split
  · exact modPair_const _ _ _ _
  · exact (modPair_const_self _ _ _).symm

theorem endItem_eq (s : State) (x : Ctx) : endItem s x = modPair s x.lane x.pair fun q => joinPair (endCore x q) := by
  rw [endItem, joinIfDone_eq, modCore, modPair_modPair]
  rfl

end Sys2Proof.Machine
end

section
/-! PROOF. The flow instructions and the end of work (02_programming_model.md, R57, R67, R76; 03_instruction_encoding_and_timing.md, R99, R105
to R107; 04_instruction_semantics.md, R128 to R130, R149). -/

namespace Sys2Proof.Machine

/-! The operands of the flow instructions. -/

theorem target_eq (b : Bank) (f : FormD) : target b f = b.pc + BitVec.ofInt 32 (4 * f.off.toInt) := by
  have h : BitVec.ofInt 32 (4 * f.off.toInt) = BitVec.ofInt 32 4 * BitVec.ofInt 32 f.off.toInt := BitVec.ofInt_mul ..
  rw [h]
  rfl

theorem loopCount_eq (f : FormD) : (f.off.setWidth 16 : BitVec 16) = BitVec.ofNat 16 (f.off.toNat % 65536) := by
  refine BitVec.eq_of_toNat_eq ?_
  simp

/-! DONE and JOIN. -/

/-- A pair whose core has retired its last instruction with the bank `b` and has ended its work item. -/
def endedPair (x : Ctx) (b : Bank) (q : PairSt) : PairSt :=
  joinPair (endCore x (if x.odd then { q with odd := { q.odd with bank := b } } else { q with even := { q.even with bank := b } }))

theorem finishCore_untimed (s : State) {c : Core} (ht : c.timed = none) (cost : Nat) (b : Bank) (ws : List Word) :
    finishCore (complete s c cost b ws) c = modPair s c.x.lane c.x.pair (endedPair c.x b) := by
  simp only [finishCore, complete, putBank, ht, endItem_eq, modPair_modPair]
  rfl

theorem endedPair_spec (x : Ctx) (b : Bank) (q : PairSt) :
    (endedPair x b q).tasks = q.tasks ∧
    (if x.odd then (endedPair x b q).odd.active = false ∧ (endedPair x b q).even = q.even
      else (endedPair x b q).even.active = false ∧ (endedPair x b q).odd = q.odd) ∧
    (endedPair x b q).resume = q.resume ∧
    (endedPair x b q).split = (q.split && ((endedPair x b q).even.active || (endedPair x b q).odd.active || (endedPair x b q).resume)) := by
  unfold endedPair endCore joinPair
  cases x.odd <;> exact ⟨rfl, ⟨rfl, rfl⟩, rfl, rfl⟩

/-- DONE of a timed task ends its activation, which holds its bank (R129). -/
theorem finishCore_timed (s : State) {c : Core} {k : TaskId} (ht : c.timed = some k) (hs : SoundComps (pair s c.x.lane c.x.pair)) (cost : Nat)
    (b : Bank) (ws : List Word) :
    let l := c.x.lane
    let p := c.x.pair
    let t := finishCore (complete s c cost b ws) c
    (taskRun t l p k).phase = .done ∧ (taskRun t l p k).bank = b ∧ (pair t l p).active = bestReady t l p ∧
      (∀ j, j ≠ k → (taskRun t l p j).phase = (taskRun s l p j).phase ∧ (taskRun t l p j).bank = (taskRun s l p j).bank) ∧
      ∃ q, t = modPair s l p fun _ => q := by
  intro l p t
  obtain ⟨hbank, q, hq, hkept⟩ := complete_onlyCore s c cost b ws
  have hpair : pair (complete s c cost b ws) l p = q := by rw [hq, pair_modPair, if_pos ⟨rfl, rfl⟩]
  simp only [PairKept, ht] at hkept
  obtain ⟨-, hx, hy, hn, -, -, -, -, -, -, -, hother, -⟩ := hkept
  have hsound : SoundComps (pair (complete s c cost b ws) l p) := by rwa [hpair, SoundComps, hx, hy, hn]
  have ht' : t = reschedule (modPair (modTask (complete s c cost b ws) l p k fun r => { r with phase := .done }) l p closeWindow) l p := by
    show finishCore _ c = _
    simp only [finishCore, ht]
    rfl
  obtain ⟨⟨q', hq'⟩, hactive, ⟨n, hk⟩, hj⟩ := endActivation (k := k) (g := fun r => { r with phase := .done }) hsound
  rw [← ht'] at hq' hactive hk hj
  refine ⟨by rw [hk], ?_, hactive, fun j hjk => ?_, q', ?_⟩
  · rw [hk]
    simpa [bankIn, ht] using hbank
  · obtain ⟨m, hm⟩ := hj j hjk
    have hsame : taskRun (complete s c cost b ws) l p j = taskRun s l p j := by
      rw [taskRun, hpair, hother j hjk]
      rfl
    rw [hm, hsame]
    exact ⟨rfl, rfl⟩
  · rw [hq', hq, modPair_modPair]

/-- Settles O10: each flow instruction is its body in the state after the fetch; DONE of a timed task is `finishCore_timed`, and the end of a work
item `endedPair_spec`. -/
theorem flowAndWorkEndResults : Obligations.FlowAndWorkEndResults := by
  refine ⟨fun s x c f h => ?flow, fun s x c h => ⟨fun f k hl ht hs hw => ?done, fun i ht hi hw => ?item, fun f hl ht => ?join⟩⟩
  case flow =>
    intro s1 b to_ next n
    have htarget : target b f = to_ := target_eq b f
    refine ⟨fun hl => ⟨?br, fun hr => ?call, fun hr => ?callFull⟩, fun hl => ⟨?bt, ?bf⟩, fun hl => ⟨fun r rs hr => ?ret, fun hr => ?retEmpty,
      fun e es he hc => ?endl, fun e es he hc => ?endlLast, fun he => ?endlEmpty⟩, fun hl => ⟨fun hc => ?loop, fun hc => ?loopFull⟩, fun hl => ?jtab⟩
    case br => exact htarget ▸ completes_of_go h hl rfl rfl
    case call => exact htarget ▸ completes_of_go h hl rfl (if_neg (Nat.not_le.mpr hr))
    case callFull => exact raises_of_raise h hl rfl (if_pos hr)
    case bt => exact htarget ▸ completes_of_go h hl rfl rfl
    case bf => exact htarget ▸ completes_of_go h hl rfl rfl
    case ret => exact completes_of_go h hl rfl (by simp only [show c.bank.ret = r :: rs from hr]; rfl)
    case retEmpty => exact raises_of_raise h hl rfl (by simp only [show c.bank.ret = [] from hr]; rfl)
    case endl => exact completes_of_go h hl rfl (by simp only [show c.bank.loops = e :: es from he]; exact if_pos hc)
    case endlLast => exact completes_of_go h hl rfl (by simp only [show c.bank.loops = e :: es from he]; exact if_neg (Nat.not_lt.mpr hc))
    case endlEmpty => exact raises_of_raise h hl rfl (by simp only [show c.bank.loops = [] from he]; rfl)
    case loop =>
      rw [← loopCount_eq]
      exact completes_of_go h hl rfl (if_neg (Nat.not_le.mpr hc))
    case loopFull => exact raises_of_raise h hl rfl (if_pos hc)
    case jtab =>
      intro i at_ r
      have hn : (f.off.setWidth 16 : BitVec 16).toNat = n := BitVec.toNat_setWidth 16 f.off
      have hpc : next - 4 = c.bank.pc := BitVec.add_sub_cancel _ _
      have hat : c.bank.pc + 4 + BitVec.ofNat 32 (4 * jtabIndex (rdW c.bank f.a).v (f.off.setWidth 16 : BitVec 16).toNat) = at_ := by
        rw [hn]
        rfl
      have hfetch (o : Option ExcCode) (hr : r.2 = o) : fetchCheck (afterFetch s c) c at_.toNat x.data = (r.1, o) := by
        rw [← h.ctx]
        exact Prod.ext rfl hr
      refine ⟨fun hr => ?_, fun e hr => ?_⟩
      · rw [hpc]
        exact completes_of_go h hl rfl (by simp only [hat, hfetch none hr]; rfl)
      · exact raises_of_raise h hl rfl (by simp only [hat, hfetch (some e) hr])
  case done =>
    obtain ⟨hphase, hbank, hactive, hother, hq⟩ := finishCore_timed (afterFetch s c) ht (by rw [h.ctx]; exact hs) 1 (nextPc c.bank) []
    rw [h.ctx] at hphase hbank hactive hother hq
    exact ⟨_, exec_of_finish h hl rfl rfl hw, hphase, hbank, hactive, hother, hq⟩
  case join => exact raises_of_raise h hl rfl (if_pos ht)
  case item =>
    have hend (s2 : State) (cost : Nat) := finishCore_untimed s2 ht cost (nextPc c.bank) []
    rw [h.ctx] at hend
    rcases hi with ⟨f, hl, rfl⟩ | ⟨f, hl, rfl⟩
    · obtain ⟨htasks, hcores, hresume, hsplit⟩ := endedPair_spec x (nextPc c.bank) (pair (afterFetch s c) x.lane x.pair)
      refine ⟨_, exec_of_finish h hl rfl rfl hw, ⟨_, (hend _ _).trans (modPair_const _ _ _ _)⟩, ?_⟩
      rw [hend, pair_modPair, if_pos ⟨rfl, rfl⟩]
      exact ⟨htasks, hcores, (fun ⟨_, he⟩ => nomatch he), fun _ => hresume, hsplit⟩
    · have hbody : (fun s c => if c.timed.isSome then Act.raise s .access 0 0
          else .finish (modPair s x.lane x.pair fun q => { q with resume := false }) (nextPc c.bank) []) (afterFetch s c) c =
          .finish (modPair (afterFetch s c) x.lane x.pair fun q => { q with resume := false }) (nextPc c.bank) [] := by simp [ht]
      obtain ⟨htasks, hcores, hresume, hsplit⟩ :=
        endedPair_spec x (nextPc c.bank) { pair (afterFetch s c) x.lane x.pair with resume := false }
      refine ⟨_, exec_of_finish h hl rfl hbody hw, ⟨_, ((hend _ _).trans (modPair_modPair _ _ _ _ _)).trans (modPair_const _ _ _ _)⟩, ?_⟩
      rw [hend, modPair_modPair, pair_modPair, if_pos ⟨rfl, rfl⟩]
      exact ⟨htasks, hcores, fun _ => hresume, (fun ⟨_, he⟩ => nomatch he), hsplit⟩

end Sys2Proof.Machine
end

section
/-! PROOF. The opcode map: every word spells the command that it gives, and no other word spells that command (03_instruction_encoding_and_timing.md,
R91, R96, R102). -/

namespace Sys2Proof.Machine

/-! A word is its opcode with its fields. -/

theorem opOf_eq (w : Word) : opOf w = (w.extractLsb' 25 7).toNat := by
  rw [opOf, field, BitVec.extractLsb'_toNat]

section
variable {op : BitVec 7} {w : Word} (h : opOf w = op.toNat)
include h

theorem opcode_of_opOf : op = w.extractLsb' 25 7 := BitVec.eq_of_toNat_eq (by rw [← opOf_eq, h])

theorem wordA_formA : wordA op (formA w) = w := by
  rw [opcode_of_opOf h]
  refine BitVec.eq_of_getLsbD_eq fun i hi => ?_
  simp only [wordA, formA, BitVec.getLsbD_append, BitVec.getLsbD_extractLsb', BitVec.getLsbD_ofBool]
  grind

theorem wordB_formB : wordB op (formB w) = w := by
  rw [opcode_of_opOf h]
  refine BitVec.eq_of_getLsbD_eq fun i hi => ?_
  simp only [wordB, formB, BitVec.getLsbD_append, BitVec.getLsbD_extractLsb', BitVec.getLsbD_ofBool]
  grind

theorem wordC_formC : wordC op (formC w) = w := by
  rw [opcode_of_opOf h]
  refine BitVec.eq_of_getLsbD_eq fun i hi => ?_
  simp only [wordC, formC, BitVec.getLsbD_append, BitVec.getLsbD_extractLsb']
  grind

theorem wordT_formT : wordT op (formT w) = w := by
  rw [opcode_of_opOf h]
  refine BitVec.eq_of_getLsbD_eq fun i hi => ?_
  simp only [wordT, formT, BitVec.getLsbD_append, BitVec.getLsbD_extractLsb', BitVec.getLsbD_ofBool]
  grind

theorem wordD_formD : wordD op (formD w) = w := by
  rw [opcode_of_opOf h]
  refine BitVec.eq_of_getLsbD_eq fun i hi => ?_
  simp only [wordD, formD, BitVec.getLsbD_append, BitVec.getLsbD_extractLsb']
  grind

theorem wordE_formE : wordE op (formE w) = w := by
  rw [opcode_of_opOf h]
  refine BitVec.eq_of_getLsbD_eq fun i hi => ?_
  simp only [wordE, formE, BitVec.getLsbD_append, BitVec.getLsbD_extractLsb']
  grind

theorem wordG_formG : wordG op (formG w) = w := by
  rw [opcode_of_opOf h]
  refine BitVec.eq_of_getLsbD_eq fun i hi => ?_
  simp only [wordG, formG, BitVec.getLsbD_append, BitVec.getLsbD_extractLsb']
  grind

theorem isA_formA (v : Word) : isA op (formA w) v = true ↔ v = w := by rw [isA, wordA_formA h, beq_iff_eq]
theorem isB_formB (v : Word) : isB op (formB w) v = true ↔ v = w := by rw [isB, wordB_formB h, beq_iff_eq]
theorem isC_formC (v : Word) : isC op (formC w) v = true ↔ v = w := by rw [isC, wordC_formC h, beq_iff_eq]
theorem isT_formT (v : Word) : isT op (formT w) v = true ↔ v = w := by rw [isT, wordT_formT h, beq_iff_eq]
theorem isD_formD (v : Word) : isD op (formD w) v = true ↔ v = w := by rw [isD, wordD_formD h, beq_iff_eq]
theorem isE_formE (v : Word) : isE op (formE w) v = true ↔ v = w := by rw [isE, wordE_formE h, beq_iff_eq]
theorem isG_formG (v : Word) : isG op (formG w) v = true ↔ v = w := by rw [isG, wordG_formG h, beq_iff_eq]

end

/-- A command is the one of the word `w`: the word spells it, and where its opcode has an instruction no other word does. -/
def Spelt (i : Instr) (w : Word) : Prop :=
  spells i w = true ∧ (opUnassigned (opOf w) = false → opSetup (opOf w) = false → ∀ v, spells i v = true → v = w)

theorem spelt_of_iff {i : Instr} {w : Word} (h : ∀ v, spells i v = true ↔ v = w) : Spelt i w := ⟨(h w).mpr rfl, fun _ _ v => (h v).mp⟩

theorem spelt_ite {c : Prop} [Decidable c] {i j : Instr} {w : Word} (hi : c → Spelt i w) (hj : ¬c → Spelt j w) : Spelt (if c then i else j) w := by
  split
  · exact hi ‹_›
  · exact hj ‹_›

theorem opOf_lt (w : Word) : opOf w < 128 := by rw [opOf_eq]; omega

theorem isOp_opOf (v w : Word) : isOp (BitVec.ofNat 7 (opOf w)) v = true ↔ opOf v = opOf w := by
  rw [isOp, beq_iff_eq, BitVec.toNat_ofNat, Nat.mod_eq_of_lt (opOf_lt w)]

/-- One arm of the opcode map after another; what is left is an opcode below 128 that no arm names. -/
theorem spelt_commandOf (x : Ctx) (w : Word) : Spelt (commandOf x w) w := by
  unfold commandOf
  dsimp only
  repeat' refine spelt_ite (fun h => by
    simp [Spelt, spells, isA_formA, isB_formB, isC_formC, isT_formT, isD_formD, isE_formE, isG_formG, isOp_opOf, h]) fun _ => ?_
  refine ⟨(isOp_opOf w w).mpr rfl, fun hu _ => ?_⟩
  have := opOf_lt w
  simp only [opUnassigned, opSetup, Bool.or_eq_false_iff, Bool.and_eq_true, Bool.and_eq_false_imp, decide_eq_true_eq, decide_eq_false_iff_not,
    beq_eq_false_iff_ne] at *
  omega

/-- R91, R96, R102: the third clause of the statement. -/
theorem encoding_clause (x : Ctx) (w : Word) : spells (commandOf x w) w = true ∧
    (opUnassigned (opOf w) = false → opSetup (opOf w) = false → ∀ v, commandOf x v = commandOf x w → v = w) := by
  obtain ⟨hw, only⟩ := spelt_commandOf x w
  exact ⟨hw, fun hu hs v hv => only hu hs v (hv ▸ (spelt_commandOf x v).1)⟩

end Sys2Proof.Machine
end

section
/-! PROOF. The system instructions, and the instructions that raise EX_ILLEGAL (02_programming_model.md, R78 to R80; 03, R93, R94, R102, R104;
04_instruction_set.md, R147 to R151). -/

namespace Sys2Proof.Machine

/-! The words that the system registers give (R78 to R80). -/

theorem taskid_timed (p : PairId) (k : TaskId) : put p.val 4 4 ||| put k.val 0 4 = BitVec.ofNat 32 (16 * p.val + k.val) := by
  revert p k; decide

theorem taskid_untimed (p : PairId) (odd : Bool) :
    bit true 8 ||| put p.val 4 4 ||| put (b2n odd) 0 4 = BitVec.ofNat 32 (256 + 16 * p.val + if odd then 1 else 0) := by
  revert p odd; decide

theorem depth_word {a b : Nat} (ha : a ≤ 4) (hb : b ≤ 8) : put a 4 4 ||| put b 0 4 = BitVec.ofNat 32 (16 * a + b) := by
  have all : ∀ (a : Fin 5) (b : Fin 9), put a.val 4 4 ||| put b.val 0 4 = BitVec.ofNat 32 (16 * a.val + b.val) := by decide
  exact all ⟨a, by omega⟩ ⟨b, by omega⟩

theorem laneNo_word (l : LaneId) : BitVec.ofNat 32 (laneNo l) = (match l with | .a => 1 | .b => 2 | .c => 3 : Word) := by
  cases l <;> rfl

theorem splitEntry_iff (w : Word) : splitEntry w = true ↔ 0x1000000 ≤ w.toNat ∧ w.toNat < 0x1800000 ∧ w.toNat % 4 = 0 := by
  simp [splitEntry, and_assoc]

section
variable {s : State} {x : Ctx} {c : Core} (h : Executes s x c)
include h

theorem rdsys_completes {f : FormB} {n : Nat} {v : Word} (hl : legalB f = true) (hz : f.s1 = 0) (hn : f.imm.toNat = n) (hn6 : n < 6)
    (hok : n = 1 → c.timed = none) (hv : sysReg (afterFetch s c) c n = v) :
    Completes (.rdsys x f) s c 1 (wordResult c.bank f.d v 0x90) := by
  subst hn hv
  obtain ⟨ws, hws⟩ := giveW_eq (afterFetch s c) c.bank f.d (sysReg (afterFetch s c) c f.imm.toNat) neutral
  refine completes_of_go h (by simp [hl, hz, sysLegal, hn6]) rfl (ws := ws) ?_
  rw [if_neg]
  · exact hws
  · rintro ⟨h1, ht⟩
    rw [hok (by rw [h1]; rfl)] at ht
    exact absurd ht (by decide)

theorem rdsys_clause (f : FormB) (hl : legalB f = true) (hz : f.s1 = 0) :
    let s1 := afterFetch s c
    let reads (n : Nat) (v : Word) : Prop := f.imm.toNat = n → Completes (.rdsys x f) s c 1 (wordResult c.bank f.d v 0x90)
    (∀ k, c.timed = some k → reads 0 (BitVec.ofNat 32 (16 * x.pair.val + k.val))) ∧
    (c.timed = none → reads 0 (BitVec.ofNat 32 (256 + 16 * x.pair.val + if x.odd then 1 else 0)) ∧
      reads 1 (match x.lane with | .a => 1 | .b => 2 | .c => 3)) ∧
    (c.timed.isSome = true → f.imm = 1 → Raises (.rdsys x f) s s1 c 1 .access 0 0) ∧
    reads 2 ((if finvTrap s1 c then 256 else 0) ||| (if c.bank.finv then 2 else 0) ||| (if c.bank.dz then 1 else 0)) ∧
    (c.bank.ret.length ≤ 8 → c.bank.loops.length ≤ 4 →
      reads 3 (BitVec.ofNat 32 (16 * c.bank.loops.length + c.bank.ret.length))) ∧
    reads 4 s1.ctl.stopcause ∧ reads 5 s1.ctl.stoppc ∧
    (6 ≤ f.imm.toNat → Raises (.rdsys x f) s s1 c 1 .illegal 0 0) := by
  have hx := h.ctx
  refine ⟨fun k hk hn => ?_, fun ht => ⟨fun hn => ?_, fun hn => ?_⟩, fun ht hi => ?_, fun hn => ?_, fun hr hlo hn => ?_, fun hn => ?_, fun hn => ?_,
    fun hn => ?_⟩
  · refine rdsys_completes h hl hz hn (by decide) (by simp) ?_
    rw [sysReg, taskidWord, hk, hx, ← taskid_timed]
  · refine rdsys_completes h hl hz hn (by decide) (by simp) ?_
    rw [sysReg, taskidWord, ht, hx, ← taskid_untimed]
  · refine rdsys_completes h hl hz hn (by decide) (fun _ => ht) ?_
    rw [← hx]; exact laneNo_word _
  · exact raises_of_raise h (by simp [hl, hz, sysLegal, hi]) rfl (if_pos ⟨hi, ht⟩)
  · exact rdsys_completes h hl hz hn (by decide) (by simp) rfl
  · exact rdsys_completes h hl hz hn (by decide) (by simp) (depth_word hlo hr)
  · exact rdsys_completes h hl hz hn (by decide) (by simp) rfl
  · exact rdsys_completes h hl hz hn (by decide) (by simp) rfl
  · exact raises_of_illegal h (by simp [sysLegal, hn]) rfl

theorem wrsys_arpri_clause (f : FormB) (hl : legalB f = true) (hz : f.d = 0) :
    let s1 := afterFetch s c
    let next := nextPc c.bank
    let w := (rdW c.bank f.s1).v
    (f.imm = 2 → Completes (.wrsys x f) s c 1
      { next with dz := c.bank.dz && !w.getLsbD 0, finv := c.bank.finv && !w.getLsbD 1 }) ∧
    (f.imm.toNat < 6 → f.imm ≠ 2 → Raises (.wrsys x f) s s1 c 1 .access 0 0) ∧
    (6 ≤ f.imm.toNat → Raises (.wrsys x f) s s1 c 1 .illegal 0 0) ∧
    (c.timed = none → ∀ (h : f.imm.toNat % 256 < 14), f.imm.toNat / 256 < 2 →
      assigned (f.imm.toNat / 256 == 1) (f.imm.toNat % 256) = true →
      CompletesFrom (.arpri x f) s (setPri s1 (f.imm.toNat / 256 == 1) ⟨f.imm.toNat % 256, h⟩ (w.setWidth 4)) c 0 [] next) ∧
    (arpriLegal f.imm = true → c.timed.isSome = true → Raises (.arpri x f) s s1 c 0 .access 0 0) ∧
    (arpriLegal f.imm = false → Raises (.arpri x f) s s1 c 0 .illegal 0 0) := by
  refine ⟨fun hi => ?_, fun hn hi => ?_, fun hn => ?_, fun ht hq ha has => ?_, fun ha ht => ?_, fun ha => ?_⟩
  · exact completes_of_go h (by simp [hl, hz, sysLegal, hi]) rfl (if_pos hi)
  · exact raises_of_raise h (by simp [hl, hz, sysLegal, hn]) rfl (if_neg hi)
  · exact raises_of_illegal h (by simp [sysLegal, hn]) rfl
  · refine completes_of_go h (by simp [hl, hz, arpriLegal, ha, has]) rfl (ws := []) ?_
    rw [ht, if_neg (by decide)]
    exact dif_pos hq
  · exact raises_of_raise h (by simp [hl, hz, ha]) rfl (if_pos ht)
  · exact raises_of_illegal h (by simp [ha]) rfl

theorem split_clause (f : FormA) (hl : legalA3 f = true) (hz : f.d = 0) :
    let s1 := afterFetch s c
    let next := nextPc c.bank
    let a := (rdW c.bank f.s1).v
    let b := (rdW c.bank f.s2).v
    let fits (w : Word) : Prop := 0x1000000 ≤ w.toNat ∧ w.toNat < 0x1800000 ∧ w.toNat % 4 = 0
    (fits a → fits b → CompletesFrom (.split x f) s (modPair s1 x.lane x.pair fun q => { q with splitPend := some (a, b) }) c 2 [] next) ∧
    (¬(fits a ∧ fits b) → ∃ w, (w = a ∨ w = b) ∧ ¬fits w ∧
      CompletesFrom (.split x f) s
        (record (modPair s1 x.lane x.pair fun q => { q with splitPend := none }) 0x0C0A
          (d1 (laneNo x.lane) ++ d1 x.pair.val ++ d4 w.toNat)) c 2 [] next) := by
  intro s1 next a b fits
  have legal : (legalA3 f && f.d == 0) = true := by simp [hl, hz]
  refine ⟨fun ha hb => ?_, fun hbad => ?_⟩
  · refine completes_of_go h legal rfl (ws := []) (if_pos ?_)
    rw [Bool.and_eq_true]
    exact ⟨(splitEntry_iff a).mpr ha, (splitEntry_iff b).mpr hb⟩
  · have hno : ¬(splitEntry a && splitEntry b) = true := by
      rw [Bool.and_eq_true, splitEntry_iff, splitEntry_iff]; exact hbad
    refine ⟨if splitEntry a then b else a, ?_, ?_, completes_of_go h legal rfl (ws := []) (if_neg hno)⟩
    · split
      · exact Or.inr rfl
      · exact Or.inl rfl
    · split
      · rename_i ha
        exact fun hb => hbad ⟨(splitEntry_iff a).mp ha, hb⟩
      · rename_i ha
        exact fun hb => ha ((splitEntry_iff a).mpr hb)

theorem sig_clause (f : FormA) (hl : legalA2 f = true) (hz : f.d = 0) :
    let a := rdW c.bank f.s1
    CompletesFrom (.sig x f) s (afterFetch s c) c 1 (if c.timed.isSome then [.sig a.v a.t] else []) (nextPc c.bank) := by
  intro a
  have legal : (legalA2 f && f.d == 0) = true := by simp [hl, hz]
  cases ht : c.timed with
  | some k =>
    have adds : (addSigs c [.sig a.v a.t]) = fun q => { q with tasks := vmod q.tasks k fun r => { r with sigs := .sig a.v a.t :: r.sigs } } := by
      funext q; simp only [addSigs, ht]; rfl
    refine completes_of_go_sigs h legal rfl (sg := [.sig a.v a.t]) (ws := []) ?_
    rw [h.ctx, adds, ht]; rfl
  | none =>
    refine completes_of_go h legal rfl (ws := []) ?_
    rw [ht]

end

/-! Where the condition code of a comparison is reserved (R101). -/

theorem intCond_isSome (c : BitVec 4) (a b : Word) : (intCond c a b).isSome = decide (c.toNat < 10) := by
  have hc := c.isLt
  unfold intCond
  split <;> simp_all; omega

theorem cmpiCond_toNat (f : FormB) : (cmpiCond f).toNat = f.imm.toNat / 4096 := by
  have hi := f.imm.isLt
  rw [cmpiCond, BitVec.extractLsb'_toNat, Nat.shiftRight_eq_div_pow]
  omega

/-- An unassigned opcode and a set-up class instruction: the body is an EX_ILLEGAL once the opcode is one of them (R94, R104). -/
theorem raises_of_opcode {s : State} {x : Ctx} {c : Core} {i : Instr} {op : Bool} (h : Executes s x c) (hop : op = true)
    (he : exec i s = .next (if op then runInstr x (spells i) 0 false (fun s _ => .raise s .illegal 0 0) s else s)) :
    Raises i s (afterFetch s c) c 0 .illegal 0 0 :=
  raises_of_illegal h rfl (by rw [he, if_pos hop])

/-- Settles O14: the value of each system register, one lemma per group of system instructions; every other form of an instruction is not legal,
and `raises_of_illegal` gives it EX_ILLEGAL; `encoding_clause` gives the opcode map. -/
theorem systemAndIllegalInstructions : Obligations.SystemAndIllegalInstructions := by
  refine ⟨fun s x c h => ⟨rdsys_clause h, wrsys_arpri_clause h, split_clause h, sig_clause h, fun f hl => completes_of_go h hl rfl rfl⟩,
    fun s x c h => ⟨fun f hl hd hz => raises_of_raise h (by simp [hl, hd, hz]) rfl rfl, fun op hop => raises_of_opcode h hop rfl,
      fun op h1 h2 => raises_of_opcode h (by simp [opSetup, h1, h2]) rfl, ?a3, ?a2, ?a1, ?a0, ?shift, ?a4, ?sel, ?cmp, ?fcmp, ?split, ?sig,
      ?b, ?movi, ?wrsys, ?trap, ?cmpi, ?qchk, ?bset, ?btst, ?bld, ?bst, ?b3, ?b2, ?edge, ?slot, ?timer, ?dA, ?branch, ?d0, ?loop, ?jtab⟩,
    encoding_clause⟩
  case cmp => exact fun f hf => raises_of_illegal h (by rw [intCond_isSome]; exact hf) rfl
  case cmpi => exact fun f hf => raises_of_illegal h (by rw [intCond_isSome, cmpiCond_toNat]; exact hf) rfl
  case movi => exact fun f hf => ⟨raises_of_illegal h hf rfl, raises_of_illegal h (by rw [hf, Bool.false_and]) rfl⟩
  case wrsys =>
    exact fun f hf => ⟨raises_of_illegal h (by rw [hf, Bool.false_and]) rfl, raises_of_illegal h (by rw [hf, Bool.false_and]) rfl⟩
  all_goals
    intro f hf
    and_intros <;> exact raises_of_illegal h hf rfl

end Sys2Proof.Machine
end

section
/-! PROOF. Exceptions: what each ends, and how the records of one activation are classified over the lanes (02_programming_model.md, R82 to R89;
R199). -/

namespace Sys2Proof.Machine

/-! An exception on one core (R82, R84, R85). -/

theorem excNo_le_three (code : ExcCode) : excNo code ≤ 3 ↔ code = .mem ∨ code = .align ∨ code = .access := by
  cases code <;> decide

/-- An exception of a timed task, in a pair whose comparators are sound, ends the activation with its record. -/
theorem raiseExc_timed {s : State} {c : Core} {k : TaskId} (hk : c.timed = some k) (hst : (lane s c.x.lane).st ≠ .rejoining)
    (hs : SoundComps (pair s c.x.lane c.x.pair)) (cost : Nat) (code : ExcCode) (addr : Word) (imm : BitVec 16) :
    let l := c.x.lane
    let p := c.x.pair
    let t := raiseExc s c cost code addr imm
    (taskRun t l p k).exc = some ⟨code, c.bank.pc, if code = .mem ∨ code = .align ∨ code = .access then addr else 0, imm⟩ ∧
      (taskRun t l p k).phase = .ended ∧ (∀ j, (taskRun t l p j).bank = (taskRun s l p j).bank) ∧
      (∀ j, j ≠ k → (taskRun t l p j).phase = (taskRun s l p j).phase ∧ (taskRun t l p j).exc = (taskRun s l p j).exc) ∧
      (pair t l p).active = bestReady t l p ∧ ∃ q, t = modPair s l p fun _ => q := by
  intro l p t
  have ht : t = reschedule (modPair (modTask s l p k fun r =>
      { r with exc := some (excRec code c.bank.pc addr imm), phase := .ended, cycles := r.cycles + cost }) l p closeWindow) l p := by
    show raiseExc s c cost code addr imm = _
    simp only [raiseExc, hk, if_neg hst]
    rfl
  obtain ⟨hq, hactive, ⟨n, hrun⟩, hother⟩ := endActivation (k := k)
    (g := fun r => { r with exc := some (excRec code c.bank.pc addr imm), phase := .ended, cycles := r.cycles + cost }) hs
  rw [← ht] at hq hactive hrun hother
  refine ⟨?_, by rw [hrun], fun j => ?_, fun j hj => ?_, hactive, hq⟩
  · rw [hrun]
    simp only [excRec, excNo_le_three]
  · by_cases hj : j = k
    · rw [hj, hrun]
    · obtain ⟨m, hm⟩ := hother j hj
      rw [hm]
  · obtain ⟨m, hm⟩ := hother j hj
    rw [hm]
    exact ⟨rfl, rfl⟩

theorem exception_clause (s : State) (c : Core) (cost : Nat) (code : ExcCode) (addr : Word) (imm : BitVec 16) :
    let l := c.x.lane
    let p := c.x.pair
    let t := raiseExc s c cost code addr imm
    (∀ k, c.timed = some k → (lane s l).st = .rejoining → t = rejoinFail s 0x0A) ∧
    (c.timed = none →
      ∃ q, t = record (modPair s l p fun _ => q) 0x0C0B
          (d1 (laneNo l) ++ d1 p.val ++ d1 (if c.x.odd then 1 else 0) ++ d1 (excNo code) ++ d4 c.bank.pc.toNat) ∧
        q.tasks = (pair s l p).tasks ∧ q.even.bank = (pair s l p).even.bank ∧ q.odd.bank = (pair s l p).odd.bank ∧
        (if c.x.odd then q.odd.active = false ∧ q.even = (pair s l p).even
         else q.even.active = false ∧ q.odd = (pair s l p).odd)) := by
  refine ⟨fun k hk hst => ?_, fun hk => ?_⟩
  · simp only [raiseExc, hk]
    exact if_pos hst
  · refine ⟨joinPair (endCore c.x (pair s c.x.lane c.x.pair)), ?_, ?_⟩
    · simp only [raiseExc, hk, endItem_eq]
      rw [modPair_const]
      rfl
    · unfold joinPair endCore
      cases c.x.odd <;> exact ⟨rfl, rfl, rfl, rfl, rfl⟩

/-- DEADLINE_OVERRUN raises EX_OVERRUN in an activation that has not ended (R83). -/
theorem execDeadlineOverrun_due {s : State} {l : LaneId} {p : PairId} {t : TaskId} (hrun : s.ctl.state = .run)
    (hlive : (relOf s p t).live = true) (hl : runsTimed s l = true) (he : (relOf s p t).endTide ≤ s.tide + 1)
    (hph : (taskRun s l p t).phase = .released ∨ (taskRun s l p t).phase = .ready) :
    exec (.deadlineOverrun l p t) s = .next (raiseExc s ⟨cleanCtx l p, some t, (taskRun s l p t).bank⟩ 0 .overrun 0 0) := by
  show execDeadlineOverrun l p t s = _
  unfold execDeadlineOverrun
  simp only
  rw [if_pos]
  simp [hrun, hlive, hl, he, hph]

/-! The records of one activation over the voting lanes (R87, R88). -/

theorem sameRecord_iff (a b : ExcRec) : sameRecord a b = true ↔ a = b ∨ (a.code = .overrun ∧ b.code = .overrun) := by
  simp [sameRecord]

theorem faultCause_eq (p : PairId) (t : TaskId) (r : ExcRec) :
    faultCause p t r = BitVec.ofNat 32 (0xC0000000 + excNo r.code * 0x1000000 + p.val * 0x100000 + t.val * 0x10000) := by
  unfold faultCause
  revert p t
  cases r.code <;> decide

theorem forAll_ctl {α : Type} {f : State → α → State} (hf : ∀ s a, (f s a).ctl = s.ctl) (l : List α) (s : State) : (forAll l s f).ctl = s.ctl := by
  induction l generalizing s with
  | nil => rfl
  | cons a l ih => exact (ih (f s a)).trans (hf s a)

/-- Records of the members of a list: a record for each and none for the others. -/
def postedOf {α β : Type} (f : α → Option β) (l : List α) : List (α × β) := l.filterMap fun a => (f a).map fun r => (a, r)

/-- The members of a list without a record. -/
def silentOf {α β : Type} (f : α → Option β) (l : List α) : List α := l.filter fun a => (f a).isNone

theorem length_postedOf {α β : Type} (f : α → Option β) (l : List α) : (postedOf f l).length + (silentOf f l).length = l.length := by
  induction l with
  | nil => rfl
  | cons a l ih =>
    unfold postedOf silentOf at *
    cases h : f a <;> simp [h] <;> omega

theorem mem_postedOf {α β : Type} {f : α → Option β} {l : List α} {x : α × β} : x ∈ postedOf f l ↔ x.1 ∈ l ∧ f x.1 = some x.2 := by
  obtain ⟨a, r⟩ := x
  simp only [postedOf, List.mem_filterMap, Option.map_eq_some_iff, Prod.mk.injEq]
  constructor
  · rintro ⟨b, hb, r', hr, rfl, rfl⟩
    exact ⟨hb, hr⟩
  · rintro ⟨ha, hr⟩
    exact ⟨a, ha, r, hr, rfl, rfl⟩

theorem silentOf_eq {α β : Type} [BEq α] [LawfulBEq α] (f : α → Option β) (l : List α) :
    (l.filter fun a => !((postedOf f l).any fun y => y.1 == a)) = silentOf f l := by
  refine List.filter_congr fun a ha => ?_
  rw [Bool.eq_iff_iff]
  simp only [Bool.not_eq_true', List.any_eq_false, beq_iff_eq, Option.isNone_iff_eq_none]
  constructor
  · intro h
    rw [Option.eq_none_iff_forall_ne_some]
    exact fun r hr => h (a, r) (mem_postedOf.mpr ⟨ha, hr⟩) rfl
  · rintro h ⟨b, r⟩ hb rfl
    exact absurd (mem_postedOf.mp hb).2 (by simp [h])

/-- The member without a record, where there is exactly one. -/
theorem silentOf_single {α β : Type} {f : α → Option β} {l : List α} {k : α} (hk : k ∈ l) (hno : ∀ x ∈ postedOf f l, x.1 ≠ k)
    (hlen : (postedOf f l).length + 1 = l.length) : silentOf f l = [k] := by
  have hmem : k ∈ silentOf f l := by
    refine List.mem_filter.mpr ⟨hk, ?_⟩
    cases h : f k with
    | none => rfl
    | some r => exact absurd rfl (hno (k, r) (mem_postedOf.mpr ⟨hk, h⟩))
  have hone : (silentOf f l).length = 1 := by have := length_postedOf f l; omega
  obtain ⟨a, ha⟩ := List.length_eq_one_iff.mp hone
  rw [ha, List.mem_singleton] at hmem
  rw [ha, hmem]

/-- The state in which the records of an activation are used up. -/
def cleared (s : State) (p : PairId) (t : TaskId) : State :=
  forAll (voters s) s fun s l => modTask s l p t fun x => { x with exc := none }

/-- A program fault with what its event names after the address (R88, R89). -/
def faultOf (s : State) (p : PairId) (t : TaskId) (e : ExcRec) (third : List Byte) : State :=
  let cause : Word := BitVec.ofNat 32 (0xC0000000 + excNo e.code * 0x1000000 + p.val * 0x100000 + t.val * 0x10000)
  pendStopAt (record (cleared s p t) 0x0C05 (d4 cause.toNat ++ d4 e.pc.toNat ++ third)) (relOf s p t).endTide (some (cause, e.pc))

theorem cleared_relOf (s : State) (p : PairId) (t : TaskId) : relOf (cleared s p t) p t = relOf s p t := by
  have hctl : (cleared s p t).ctl = s.ctl := forAll_ctl (fun s l => modTask_ctl s l p t _) _ _
  rw [relOf, hctl, relOf]

theorem programFault_cleared (s : State) (p : PairId) (t : TaskId) (e : ExcRec) (third : Option LaneId) :
    programFault (cleared s p t) p t e third = faultOf s p t e (match third with | some l => d1 (laneNo l) | none => []) := by
  simp only [programFault, faultCause_eq, cleared_relOf]
  rfl

section
variable {s : State} {p : PairId} {t : TaskId}

theorem classify_nil (h : recordsFor s p t = []) : classify s p t = s := by simp only [classify, h]

variable {l : LaneId} {e : ExcRec} {rest : List (LaneId × ExcRec)} (h : recordsFor s p t = (l, e) :: rest)
include h

theorem classify_single (h1 : (voters s).length = 1) : classify s p t = faultOf s p t e [] := by
  simp only [classify, h, if_pos h1]
  exact programFault_cleared s p t e none

variable (h1 : (voters s).length ≠ 1)
include h1

/-- One record in a controller of several lanes is a lane fault. -/
theorem classify_lane (hr : rest = []) : classify s p t = dropLane (cleared s p t) l 0x01 p.val t.val := by
  simp only [classify, h, if_neg h1, hr]
  rfl

/-- Records that do not match are a fault of no one lane. -/
theorem classify_differing (hr : rest ≠ []) (hd : ¬∀ x ∈ rest, e = x.2 ∨ (e.code = .overrun ∧ x.2.code = .overrun)) :
    classify s p t = pendStopAt (cleared s p t) (relOf s p t).endTide none := by
  have hall : ¬rest.all (fun x => sameRecord e x.2) = true := by
    simpa only [List.all_eq_true, sameRecord_iff] using hd
  simp only [classify, h, if_neg h1, List.isEmpty_iff, if_neg hr, if_neg hall]
  rw [← cleared_relOf s]
  rfl

/-- Records that match are a program fault, with the lane that posted none. -/
theorem classify_matching (hr : rest ≠ []) (hm : ∀ x ∈ rest, e = x.2 ∨ (e.code = .overrun ∧ x.2.code = .overrun)) :
    classify s p t = faultOf s p t e
      (match (silentOf (fun l => (taskRun s l p t).exc) (voters s)).head? with | some l => d1 (laneNo l) | none => []) := by
  have hall : rest.all (fun x => sameRecord e x.2) = true := by
    simpa only [List.all_eq_true, sameRecord_iff] using hm
  have hsilent := silentOf_eq (fun l => (taskRun s l p t).exc) (voters s)
  rw [← programFault_cleared, ← hsilent, show postedOf _ _ = (l, e) :: rest from h]
  simp only [classify, h, if_neg h1, List.isEmpty_iff, if_neg hr, if_pos hall]
  rfl

end

theorem execExceptionClassify_due {s : State} {p : PairId} {t : TaskId} {atCommit : Bool} (hrun : s.ctl.state = .run)
    (hlive : (relOf s p t).live = true)
    (hdue : if atCommit then (relOf s p t).endTide ≤ s.tide + 1 else ∀ l ∈ voters s, (taskRun s l p t).exc.isSome = true) :
    exec (.exceptionClassify p t atCommit) s = .next (classify s p t) := by
  show execExceptionClassify p t atCommit s = _
  unfold execExceptionClassify
  simp only
  rw [if_pos]
  cases atCommit <;> simpa [hrun, hlive] using hdue

/-- Settles O15: what an exception ends on its core, and `classify` by the number of the records and whether they match. -/
theorem exceptionsAndTheirClasses : Obligations.ExceptionsAndTheirClasses := by
  refine ⟨fun s c cost code addr imm => ⟨fun k hk hst hx hy => raiseExc_timed hk hst ⟨hx, hy⟩ cost code addr imm,
    exception_clause s c cost code addr imm⟩, fun s p t hrun hlive => ⟨fun l hl he hph hst hx hy => ?_, fun atCommit hdue => ?_⟩⟩
  · obtain ⟨hexc, hphase, hbank, -, -, hq⟩ := raiseExc_timed (c := ⟨cleanCtx l p, some t, (taskRun s l p t).bank⟩) rfl hst ⟨hx, hy⟩ 0 .overrun 0 0
    exact ⟨_, execDeadlineOverrun_due hrun hlive hl he hph, hq, hexc, hphase, hbank t⟩
  · intro posted s0 same cause fault run
    have hexec : run = .next (classify s p t) := execExceptionClassify_due hrun hlive hdue
    rw [hexec]
    refine ⟨fun h => by rw [classify_nil h], fun l e rest h => ⟨fun h1 => by rw [classify_single h h1]; rfl,
      fun h1 hr => by rw [classify_lane h h1 hr]; rfl, fun h1 hr hd => by rw [classify_differing h h1 hr hd]; rfl, fun h1 hr hm => ?_⟩⟩
    have hlen := length_postedOf (fun l => (taskRun s l p t).exc) (voters s)
    rw [classify_matching h h1 hr hm]
    refine ⟨fun hall => ?_, fun k hk hno hall => ?_⟩
    · rw [List.eq_nil_of_length_eq_zero (show (silentOf _ _).length = 0 by have : (postedOf _ _).length = _ := hall; omega)]
      rfl
    · rw [silentOf_single hk hno hall]
      rfl

end Sys2Proof.Machine
end

section
/-! PROOF. What the Parapet's refresh of the drives leaves of each channel (10_field_io.md, R17, R409). -/

namespace Sys2Proof.Machine

/-- A loop that, from states that have `I`, gives each member of its list `P` and never takes it back. -/
theorem forAll_each {α : Type} {I : State → Prop} {P : α → State → Prop} {f : State → α → State} (hI : ∀ s a, I s → I (f s a))
    (hset : ∀ s a, I s → P a (f s a)) (hkeep : ∀ s a b, I s → P b s → P b (f s a)) (l : List α) {s : State} (hs : I s) {a : α} (ha : a ∈ l) :
    P a (forAll l s f) := by
  induction l generalizing s with
  | nil => nomatch ha
  | cons b l ih =>
    have hfs : I (f s b) := hI s b hs
    by_cases hal : a ∈ l
    · exact ih hfs hal
    · obtain rfl : a = b := (List.mem_cons.mp ha).resolve_right hal
      exact (forAll_keeps (fun t => I t ∧ P a t) l _ f ⟨hfs, hset s a hs⟩ fun t x _ h => ⟨hI t x h.1, hkeep t x a h.1 h.2⟩).2

/-- What an island's own actions leave of the channels: every other channel, and of this one its committed value, its drive and its enable. -/
def DrivesKept (c : Chan) (s t : State) : Prop :=
  (∀ j, j ≠ c → t.chans.get j = s.chans.get j) ∧ (t.chans.get c).base = (s.chans.get c).base ∧ (t.chans.get c).drv = (s.chans.get c).drv ∧
    (t.chans.get c).en = (s.chans.get c).en ∧ (t.chans.get c).held = (s.chans.get c).held

theorem DrivesKept.refl (c : Chan) (s : State) : DrivesKept c s s := ⟨fun _ _ => rfl, rfl, rfl, rfl, rfl⟩

theorem DrivesKept.trans {c : Chan} {s t u : State} (h : DrivesKept c s t) (g : DrivesKept c t u) : DrivesKept c s u :=
  ⟨fun j hj => (g.1 j hj).trans (h.1 j hj), g.2.1.trans h.2.1, g.2.2.1.trans h.2.2.1, g.2.2.2.1.trans h.2.2.2.1,
    g.2.2.2.2.trans h.2.2.2.2⟩

theorem DrivesKept.modChan {c : Chan} {s t : State} (h : DrivesKept c s t) {f : ChanSt → ChanSt}
    (hf : ∀ x, (f x).base = x.base ∧ (f x).drv = x.drv ∧ (f x).en = x.en ∧ (f x).held = x.held := by intro x; exact ⟨rfl, rfl, rfl, rfl⟩) :
    DrivesKept c s (modChan t c f) := by
  refine h.trans ?_
  simp only [DrivesKept, Sys2Proof.Machine.modChan, vmod_get, if_true]
  exact ⟨fun j hj => if_neg hj, hf _⟩

theorem DrivesKept.record {c : Chan} {s t : State} (h : DrivesKept c s t) (code : BitVec 16) (d : List Byte) : DrivesKept c s (record t code d) := by
  obtain ⟨r, hr⟩ := record_only t code d
  rw [hr]
  exact h

theorem demand_drivesKept (s : State) (c : Chan) : DrivesKept c s (demand s c) := by
  simp only [demand]
  split
  · exact .refl c s
  · exact (DrivesKept.refl c s).modChan
  · split
    · exact (((DrivesKept.refl c s).modChan).modChan).record _ _
    · exact (DrivesKept.refl c s).modChan

theorem releaseTrip_drivesKept (s : State) (c : Chan) : DrivesKept c s (releaseTrip s c) := by
  have dropped : DrivesKept c s (modChan (modChan s c fun x => { x with latched := false }) c fun x =>
      { x with causes := x.causes.filter fun y => y ≠ .overload }) :=
    ((DrivesKept.refl c s).modChan).modChan
  simp only [releaseTrip, dropCause, settleBit]
  split
  · split
    · exact (dropped.modChan).record _ _
    · exact dropped
  · exact .refl c s

theorem takeDrive_drivesKept (s : State) (c : Chan) : DrivesKept c s (takeDrive s c) := by
  have accepts : DrivesKept c s (modIsland s c fun x => { x with drvAcc := x.drv }) := by
    refine DrivesKept.modChan (.refl c s) fun x => ?_
    dsimp only
    split <;> exact ⟨rfl, rfl, rfl, rfl⟩
  simp only [takeDrive]
  split
  · split
    · exact accepts
    · exact accepts.trans (releaseTrip_drivesKept _ c)
  · exact .refl c s

/-- A refresh gives its channel the value of the state, the enable, and the drive that they make; the committed value and every other channel
stay. -/
theorem refreshDrive_get (s : State) (c : Chan) :
    (∀ j, j ≠ c → (refreshDrive s c).chans.get j = s.chans.get j) ∧
      ((refreshDrive s c).chans.get c).base = valueOf s c ∧ ((refreshDrive s c).chans.get c).drv = (valueOf s c && enabled s c) ∧
      ((refreshDrive s c).chans.get c).en = enabled s c ∧ ((refreshDrive s c).chans.get c).held = (s.chans.get c).held := by
  have hd (u : State) (hu : DrivesKept c s u) :
      DrivesKept c (modChan u c fun x => { x with base := valueOf s c, drv := valueOf s c && enabled s c, en := enabled s c })
        (settleSwitch (takeDrive (modChan u c fun x => { x with base := valueOf s c, drv := valueOf s c && enabled s c, en := enabled s c }) c) c) :=
    (takeDrive_drivesKept _ c).modChan
  have hu : DrivesKept c s (if (valueOf s c && enabled s c) = (s.chans.get c).drv ∧ enabled s c = (s.chans.get c).en then s else demand s c) := by
    split
    · exact .refl c s
    · exact demand_drivesKept s c
  obtain ⟨hother, hbase, hdrv, hen, hheld⟩ := hd _ hu
  simp only [Sys2Proof.Machine.modChan, vmod_get, if_true] at hother hbase hdrv hen hheld
  exact ⟨fun j hj => ((hother j hj).trans (if_neg hj)).trans (hu.1 j hj), hbase, hdrv, hen, hheld.trans hu.2.2.2.2⟩

/-- The value of an output channel in STOPPED, once a first set-up has been admitted, is its SAFE state (R199, R201). -/
theorem valueOf_stopped {s : State} {c : Chan} {d : ChanDecl} (hst : s.ctl.state = .stopped) (he : s.ctl.everCommit = true)
    (hd : chanDecl s c = some d) (hk : d.kind = .output) : valueOf s c = safeOf s d := by
  simp [valueOf, hst, he, hd, hk]

/-- Only the channels and the record differ, and every channel's committed value stays. -/
def HeldKept (s u : State) : Prop := ChansOnly s u ∧ ∀ j, (u.chans.get j).held = (s.chans.get j).held

/-- A channel of `u` stands at the SAFE state that `s` gives it, under its safety enable. -/
def AtSafe (s : State) (c : Chan) (d : ChanDecl) (u : State) : Prop :=
  (u.chans.get c).base = safeOf s d ∧ (u.chans.get c).drv = (safeOf s d && (u.chans.get c).en) ∧ (u.chans.get c).en = enabled s c

theorem refreshDrive_heldKept {s u : State} (h : HeldKept s u) (c : Chan) : HeldKept s (refreshDrive u c) := by
  refine ⟨h.1.trans (refreshDrive_chansOnly u c), fun j => ?_⟩
  rw [← h.2 j]
  by_cases hj : j = c
  · exact hj ▸ (refreshDrive_get u c).2.2.2.2
  · rw [(refreshDrive_get u c).1 j hj]

theorem refreshDrive_atSafe {s u : State} {c : Chan} {d : ChanDecl} (hst : s.ctl.state = .stopped) (he : s.ctl.everCommit = true)
    (hd : chanDecl s c = some d) (hk : d.kind = .output) (hu : HeldKept s u) : AtSafe s c d (refreshDrive u c) := by
  obtain ⟨-, hbase, hdrv, hen, -⟩ := refreshDrive_get u c
  obtain ⟨⟨ch, r, rfl⟩, hheld⟩ := hu
  rw [valueOf_stopped (s := { s with chans := ch, rc := r }) hst he hd hk] at hbase hdrv
  rw [AtSafe, hbase, hdrv, hen, safeOf, safeOf, hheld]
  exact ⟨rfl, rfl, rfl⟩

/-- Where the controller is STOPPED, every output channel stands at its SAFE state under its safety enable after a refresh. -/
theorem refreshDrives_stopped {s : State} {c : Chan} {d : ChanDecl} (hst : s.ctl.state = .stopped) (he : s.ctl.everCommit = true)
    (hd : chanDecl s c = some d) (hk : d.kind = .output) : AtSafe s c d (refreshDrives s) :=
  forAll_each (f := refreshDrive) (I := HeldKept s) (P := fun j u => j = c → AtSafe s c d u)
    (fun u a hu => refreshDrive_heldKept hu a)
    (fun u a hu ha => by
      subst ha
      exact refreshDrive_atSafe hst he hd hk hu)
    (fun u a b hu hb hbc => by
      by_cases ha : c = a
      · subst ha
        exact refreshDrive_atSafe hst he hd hk hu
      · rw [AtSafe, (refreshDrive_get u a).1 c ha]
        exact hb hbc)
    (fins 48) ⟨.refl s, fun _ => rfl⟩ (List.mem_finRange c) rfl

end Sys2Proof.Machine
end

section
/-! PROOF. What is taken back of a lane that leaves the vote (07_lanes_voting_and_lockstep.md, R242; R226, R498, R504, R532). -/

namespace Sys2Proof.Machine

/-! Only records, arbiters, lock words, movers and the posting queue change while holdings are taken back. -/

/-- Only the record, the fabric, the bridge and Quay differ. -/
def HoldingsOnly (s t : State) : Prop := ∃ rc fab br q qd, t = { s with rc := rc, fab := fab, br := br, quay := q, quayDmg := qd }

theorem HoldingsOnly.refl (s : State) : HoldingsOnly s s := ⟨_, _, _, _, _, rfl⟩

theorem HoldingsOnly.trans {s t u : State} (h : HoldingsOnly s t) (g : HoldingsOnly t u) : HoldingsOnly s u := by
  obtain ⟨_, _, _, _, _, rfl⟩ := h
  obtain ⟨_, _, _, _, _, rfl⟩ := g
  exact ⟨_, _, _, _, _, rfl⟩

theorem HoldingsOnly.ite {c : Prop} [Decidable c] {s t u : State} (h : HoldingsOnly s t) (g : HoldingsOnly s u) :
    HoldingsOnly s (if c then t else u) := by
  split
  · exact h
  · exact g

theorem record_holdingsOnly (s : State) (code : BitVec 16) (d : List Byte) : HoldingsOnly s (record s code d) := by
  obtain ⟨r, hr⟩ := record_only s code d
  rw [hr]
  exact ⟨_, _, _, _, _, rfl⟩

theorem forcedRelease_holdingsOnly (s : State) (r h : Nat) : HoldingsOnly s (forcedRelease s r h) :=
  HoldingsOnly.trans ⟨_, _, _, _, _, rfl⟩ (record_holdingsOnly _ _ _)

theorem quayWrite_holdingsOnly (s : State) (o : Nat) (w : Word) (be : BitVec 4) (who : LockOwner) : HoldingsOnly s (quayWrite s o w be who) := by
  unfold quayWrite
  split
  · dsimp only
    split <;> exact ⟨_, _, _, _, _, rfl⟩
  · split
    · unfold writeHead
      dsimp only
      split
      · exact .refl s
      · split
        · exact .refl s
        · exact ⟨_, _, _, _, _, rfl⟩
    · exact .refl s

theorem moverError_holdingsOnly (s : State) (n : Fin 8) (err : Nat) : HoldingsOnly s (moverError s n err) := by
  have status (m : Mover) : HoldingsOnly s (writeStatus s m err) := (quayWrite_holdingsOnly _ _ _ _ _).trans (quayWrite_holdingsOnly _ _ _ _ _)
  exact ((status _).trans ⟨_, _, _, _, _, rfl⟩).trans (record_holdingsOnly _ _ _)

theorem stopMovers_holdingsOnly (s : State) : HoldingsOnly s (stopMovers s) := by
  refine forAll_keeps (HoldingsOnly s) _ s _ (.refl s) fun t n _ h => h.trans ?_
  dsimp only
  split
  · exact .ite ((forcedRelease_holdingsOnly _ _ _).trans (moverError_holdingsOnly _ _ _)) (.refl t)
  · exact .refl t

theorem breakLock_holdingsOnly (s : State) (i : Fin 32) : HoldingsOnly s (breakLock s i) := by
  unfold breakLock
  split
  · exact .refl s
  · exact (HoldingsOnly.trans ⟨_, _, _, _, _, rfl⟩ (record_holdingsOnly _ _ _)).trans (forcedRelease_holdingsOnly _ _ _)

theorem maskArbiters_holdingsOnly (s : State) : HoldingsOnly s (maskArbiters s) := by
  have frees (u : State) (b : Bool) (r h : Nat) : HoldingsOnly u (if b then forcedRelease u r h else u) :=
    .ite (forcedRelease_holdingsOnly _ _ _) (.refl u)
  exact (HoldingsOnly.trans ⟨_, _, _, _, _, rfl⟩ (frees _ _ _ _)).trans (frees _ _ _ _)

theorem dropLock_holdingsOnly (s : State) (l : LaneId) : HoldingsOnly s (dropLock s l) := by
  unfold dropLock
  split
  · exact .ite ((HoldingsOnly.trans ⟨_, _, _, _, _, rfl⟩ (record_holdingsOnly _ _ _)).trans (forcedRelease_holdingsOnly _ _ _)) (.refl s)
  · exact .refl s

theorem orphanQueue_holdingsOnly (s : State) (l : LaneId) : HoldingsOnly s (orphanQueue s l) ∧ (orphanQueue s l).fab.owner = s.fab.owner := by
  unfold orphanQueue
  dsimp only
  split
  · refine ⟨HoldingsOnly.trans ⟨_, _, _, _, _, rfl⟩ (forcedRelease_holdingsOnly _ _ _), ?_⟩
    obtain ⟨r, hr⟩ := record_only _ _ _
    rw [forcedRelease, hr]
  · exact ⟨.refl s, rfl⟩

/-! No lock word stays with a masked owner (R498). -/

theorem HoldingsOnly.ownerMasked {s t : State} (h : HoldingsOnly s t) (o : LockOwner) : ownerMasked t o = ownerMasked s o := by
  obtain ⟨_, _, _, _, _, rfl⟩ := h
  rfl

theorem breakLock_owner {s : State} {i : Fin 32} {o : LockOwner} (ho : s.fab.owner.get i = some o) :
    (breakLock s i).fab.owner = s.fab.owner.set i none := by
  simp only [breakLock, ho, forcedRelease]
  obtain ⟨r1, h1⟩ := record_only _ _ _
  obtain ⟨r2, h2⟩ := record_only _ _ _
  rw [h2, h1]

/-- One step of `breakLocks`. -/
def breakMasked (s : State) (i : Fin 32) : State :=
  match s.fab.owner.get i with
  | some o => if ownerMasked s o then breakLock s i else s
  | none => s

theorem breakLocks_eq (s : State) : breakLocks s = forAll (fins 32) s breakMasked := rfl

theorem breakMasked_holdingsOnly (s : State) (i : Fin 32) : HoldingsOnly s (breakMasked s i) := by
  unfold breakMasked
  split
  · exact .ite (breakLock_holdingsOnly s i) (.refl s)
  · exact .refl s

theorem breakLocks_holdingsOnly (s : State) : HoldingsOnly s (breakLocks s) :=
  forAll_keeps (HoldingsOnly s) _ s _ (.refl s) fun t i _ h => h.trans (breakMasked_holdingsOnly t i)

/-- A step frees a lock word of a masked owner, and changes no other word. -/
theorem breakMasked_owner {s : State} {i j : Fin 32} {o : LockOwner} (h : (breakMasked s i).fab.owner.get j = some o) :
    s.fab.owner.get j = some o ∧ (j = i → ownerMasked s o = false) := by
  unfold breakMasked at h
  split at h
  · next p hp =>
    split at h
    · rw [breakLock_owner hp, vector_get_set] at h
      split at h
      · nomatch h
      · next hj => exact ⟨h, fun he => absurd he hj⟩
    · next hm =>
      refine ⟨h, fun he => ?_⟩
      rw [he, hp, Option.some.injEq] at h
      exact h ▸ Bool.eq_false_iff.mpr hm
  · next hn =>
    refine ⟨h, fun he => ?_⟩
    rw [he, hn] at h
    nomatch h

/-- A lock word that is held in `t` is held by a party that is not masked in `s`. -/
def HeldSoundly (s : State) (i : Fin 32) (t : State) : Prop := ∀ o, t.fab.owner.get i = some o → ownerMasked s o = false

theorem breakLocks_heldSoundly (s : State) (i : Fin 32) : HeldSoundly s i (breakLocks s) :=
  forAll_each (I := HoldingsOnly s) (P := HeldSoundly s) (fun t j ht => ht.trans (breakMasked_holdingsOnly t j))
    (fun _ _ ht o ho => ht.ownerMasked o ▸ (breakMasked_owner ho).2 rfl)
    (fun _ _ _ _ hk o ho => hk o (breakMasked_owner ho).1) (fins 32) (.refl s) (List.mem_finRange i)

/-! What the end of a lane leaves. -/

/-- The retain writer after lane `l` has gone: its cycle is abandoned where it was the source (R226). -/
def retainAfter (r : Retain) (l : LaneId) : Retain :=
  if r.busy && r.src == some l then { r with busy := false, full := false, src := none, caps := [] } else r

theorem retainAfter_busy {r : Retain} {l : LaneId} (h : r.busy = false) : (retainAfter r l).busy = false := by
  rw [retainAfter, if_neg (by simp [h])]
  exact h

theorem retainAfter_src {r : Retain} {l : LaneId} (h : r.src = some l) : (retainAfter r l).busy = false := by
  unfold retainAfter
  split
  · rfl
  · next hn => simpa [h] using hn

/-- What the release of a lane's holdings changes, and that no lock word is left to a core of a lane that does not vote. -/
theorem releaseHoldings_only (s : State) (l : LaneId) :
    ∃ rc fab br q qd pw, releaseHoldings s l =
        { s with rc := rc, fab := fab, br := br, quay := q, quayDmg := qd, pw := { s.pw with waking := pw },
                 ctl := { s.ctl with retain := retainAfter s.ctl.retain l } } ∧
      ∀ i r q odd, fab.owner.get i = some (.core r q odd) → (lane s r).st = .voting := by
  have before : HoldingsOnly s (stopMovers (dropLock (maskArbiters s) l)) :=
    ((maskArbiters_holdingsOnly s).trans (dropLock_holdingsOnly _ l)).trans (stopMovers_holdingsOnly _)
  obtain ⟨orphans, howner⟩ := orphanQueue_holdingsOnly (breakLocks (stopMovers (dropLock (maskArbiters s) l))) l
  have owners (i : Fin 32) (r : LaneId) (q : PairId) (odd : Bool)
      (h : (orphanQueue (breakLocks (stopMovers (dropLock (maskArbiters s) l))) l).fab.owner.get i = some (.core r q odd)) :
      (lane s r).st = .voting := by
    rw [howner] at h
    have hm := breakLocks_heldSoundly _ i _ h
    rw [before.ownerMasked] at hm
    simpa [ownerMasked, masterMasked, isVoting] using hm
  obtain ⟨rc, fab, br, q, qd, hu⟩ := (before.trans (breakLocks_holdingsOnly _)).trans orphans
  rw [hu] at owners
  refine ⟨rc, fab, br, q, qd, s.pw.waking.map fun w => { w with by_ := w.by_.filter fun a => !ofLane l a }, ?_, owners⟩
  unfold releaseHoldings
  dsimp only
  rw [hu]
  unfold withdrawStalled retainAfter abandonRetain
  dsimp only
  split <;> rfl

end Sys2Proof.Machine
end

section
/-! PROOF. Leaving the vote, the end of a rejoin, the entry into STOPPED and the drop of a lane (02_programming_model.md, R89; 06_cyclic_execution.md,
R199, R201; 07_lanes_voting_and_lockstep.md, R242, R243, R248). -/

namespace Sys2Proof.Machine

/-! A lane leaves the vote. -/

/-- A lane as `leaveVote` leaves it. -/
def leftLane (s : State) (l : LaneId) (st : LaneState) (cause p k : Nat) : LaneSt :=
  { resetLaneSt (lane s l) st with
      cause := BitVec.ofNat 8 cause, dropPair := BitVec.ofNat 4 p, dropTask := BitVec.ofNat 4 k, fellAt := some s.up, uncounted := cause == 0x09 }

/-- Lane `l` is as `x`, every other lane as before, and what `l` held is taken back. -/
structure LeftVote (s t : State) (l : LaneId) (x : LaneSt) : Prop where
  self : lane t l = x
  other : ∀ r, r ≠ l → lane t r = lane s r
  owner : ∀ i r q odd, t.fab.owner.get i = some (.core r q odd) → (lane t r).st = .voting
  ctl : t.ctl = { s.ctl with retain := retainAfter s.ctl.retain l }
  chans : t.chans = s.chans
  adm : t.adm = s.adm
  para : t.para = s.para
  straps : t.pw.straps = s.pw.straps

theorem leaveVote_leftVote (s : State) (l : LaneId) (st : LaneState) (cause p k : Nat) :
    LeftVote s (leaveVote s l st cause p k) l (leftLane s l st cause p k) ∧ (leaveVote s l st cause p k).rejoin = s.rejoin := by
  obtain ⟨rc, fab, br, q, qd, pw, he, howner⟩ := releaseHoldings_only (modLane s l fun _ => leftLane s l st cause p k) l
  have hleave : leaveVote s l st cause p k = releaseHoldings (modLane s l fun _ => leftLane s l st cause p k) l := rfl
  rw [hleave, he]
  refine ⟨⟨?_, fun r hr => ?_, fun i r q odd h => howner i r q odd h, rfl, rfl, rfl, rfl, rfl⟩, rfl⟩
  · exact (lane_modLane s l l fun _ => leftLane s l st cause p k).trans (if_pos rfl)
  · exact (lane_modLane s l r fun _ => leftLane s l st cause p k).trans (if_neg hr)

/-! The end of a rejoin (R248). -/

/-- Of the lanes only a rejoining one has left the vote, and what it held is taken back. -/
structure RejoinEnded (s t : State) : Prop where
  lane : ∀ r, lane t r = lane s r ∨ (s.rejoin.lane = some r ∧ ∃ cause, lane t r = leftLane s r .dropped cause 0 0)
  owner : ∀ i r q odd, t.fab.owner.get i = some (.core r q odd) → s.fab.owner.get i = some (.core r q odd) ∨ (Machine.lane t r).st = .voting
  ctl : ∃ rt, t.ctl = { s.ctl with retain := rt } ∧ (s.ctl.retain.busy = false → rt.busy = false)
  rejoin : ∀ r, t.rejoin.lane = some r → s.rejoin.lane = some r
  chans : t.chans = s.chans
  adm : t.adm = s.adm
  para : t.para = s.para
  straps : t.pw.straps = s.pw.straps

theorem RejoinEnded.refl (s : State) : RejoinEnded s s :=
  ⟨fun _ => .inl rfl, fun _ _ _ _ h => .inl h, ⟨_, rfl, id⟩, fun _ => id, rfl, rfl, rfl, rfl⟩

theorem rejoinFail_rejoinEnded (s : State) (cause : Nat) : RejoinEnded s (rejoinFail s cause) := by
  unfold rejoinFail
  split
  · exact .refl s
  · next l hl =>
    dsimp only
    obtain ⟨rc, hrc⟩ := record_only (clearRejoin s) 0x0204 (d1 (laneNo l) ++ d1 (phaseNo s.rejoin.phase))
    rw [hrc]
    obtain ⟨⟨hself, hother, howner, hctl, hchans, hadm, hpara, hstraps⟩, hrejoin⟩ :=
      leaveVote_leftVote { clearRejoin s with rc := rc } l .dropped cause 0 0
    generalize leaveVote { clearRejoin s with rc := rc } l .dropped cause 0 0 = t at *
    refine ⟨fun r => ?_, fun i r q odd h => .inr (howner i r q odd h), ⟨_, hctl, retainAfter_busy⟩, fun r hr => ?_, hchans, hadm, hpara, hstraps⟩
    · by_cases hr : r = l
      · exact hr ▸ .inr ⟨hl, cause, hself⟩
      · exact .inl (hother r hr)
    · rw [hrejoin] at hr
      nomatch hr

theorem RejoinEnded.ite {c : Prop} [Decidable c] {s t : State} (h : RejoinEnded s t) : RejoinEnded s (if c then t else s) := by
  split
  · exact h
  · exact .refl s

/-! The entry into STOPPED. -/

/-- STOPCAUSE and STOPPC of an entry into STOPPED. -/
def stopCauseOf (pf : Option (Word × Word)) : Word := match pf with | some f => f.1 | none => 0x80000000
def stopPcOf (s : State) (pf : Option (Word × Word)) : Word := match pf with | some f => f.2 | none => s.ctl.stoppc

/-- The state in which the controller is STOPPED and no activation is under way, before a rejoin ends and requests are discarded. -/
def stopEntry (s : State) (pf : Option (Word × Word)) : State :=
  let u := setCtl s .stopped
  { u with
      lanes := u.lanes.map fun _ x => endTasks x,
      ctl := { u.ctl with
        stopcause := stopCauseOf pf, stoppc := stopPcOf s pf, pendStop := none,
        retain := { u.ctl.retain with stopcause := stopCauseOf pf, stoppc := stopPcOf s pf }, rel := u.ctl.rel.map endRels } }

theorem lanes_map_get {α β : Type} (v : Lanes α) (f : LaneId → α → β) (l : LaneId) : (v.map f).get l = f l (v.get l) := by
  cases l <;> rfl

/-- The entry differs from the state before it in its lanes, its controller and its records. -/
theorem stopEntry_only (s : State) (pf : Option (Word × Word)) :
    ∃ rc, stopEntry s pf = { s with
      rc := rc, lanes := s.lanes.map fun _ x => endTasks x,
      ctl := { s.ctl with
        state := .stopped, stopcause := stopCauseOf pf, stoppc := stopPcOf s pf, pendStop := none,
        retain := { s.ctl.retain with stopcause := stopCauseOf pf, stoppc := stopPcOf s pf }, rel := s.ctl.rel.map endRels } } := by
  obtain ⟨rc, hrc⟩ := record_only { s with ctl := { s.ctl with state := .stopped } } 0x0C0C (d1 (ctlNo s.ctl.state) ++ d1 (ctlNo .stopped) ++ d4 s.tide)
  have hset : setCtl s .stopped = { s with ctl := { s.ctl with state := .stopped }, rc := rc } := hrc
  exact ⟨rc, by rw [stopEntry, hset]⟩

/-- Only records, requests and the withheld rejoin differ. -/
def RequestsOnly (s t : State) : Prop :=
  ∃ rc net olcs done last w, t = { s with
    rc := rc, net := net, ctl := { s.ctl with olcs := olcs, olcDone := done, olcLast := last }, rejoin := { s.rejoin with withheld := w } }

theorem RequestsOnly.refl (s : State) : RequestsOnly s s := ⟨_, _, _, _, _, _, rfl⟩

theorem RequestsOnly.trans {s t u : State} (h : RequestsOnly s t) (g : RequestsOnly t u) : RequestsOnly s u := by
  obtain ⟨_, _, _, _, _, _, rfl⟩ := h
  obtain ⟨_, _, _, _, _, _, rfl⟩ := g
  exact ⟨_, _, _, _, _, _, rfl⟩

theorem record_requestsOnly (s : State) (code : BitVec 16) (d : List Byte) : RequestsOnly s (record s code d) := by
  obtain ⟨r, hr⟩ := record_only s code d
  rw [hr]
  exact ⟨_, _, _, _, _, _, rfl⟩

theorem discardOlcs_requestsOnly (s : State) : RequestsOnly s (discardOlcs s) := by
  have records (rs : List OlcReq) : RequestsOnly s (forAll rs s fun s r =>
      forAll r.items.zipIdx s fun s p => if p.1.outcome = .pending then recordItem s r.num p.2 .discarded else s) := by
    refine forAll_keeps (RequestsOnly s) _ s _ (.refl s) fun t r _ h => forAll_keeps (RequestsOnly s) _ t _ h fun u p _ hu => ?_
    split
    · exact hu.trans (record_requestsOnly _ _ _)
    · exact hu
  unfold discardOlcs discardSome
  dsimp only
  split
  · exact records _
  · exact (records _).trans ⟨_, _, _, _, _, _, rfl⟩

theorem withdrawMode_requestsOnly (s : State) : RequestsOnly s (withdrawMode s) := by
  unfold withdrawMode
  split
  · exact RequestsOnly.trans ⟨_, _, _, _, _, _, rfl⟩ (record_requestsOnly _ _ _)
  · exact .refl s

/-- The entry into STOPPED: the entry itself, the end of a rejoin, requests withdrawn, and the refresh of the drives. -/
theorem enterStopped_steps (s : State) (pf : Option (Word × Word)) :
    ∃ u y, RejoinEnded (stopEntry s pf) u ∧ RequestsOnly u y ∧ enterStopped s pf = refreshDrives y := by
  have heq : enterStopped s pf = refreshDrives (withdrawMode (discardOlcs
      { (if s.ctl.state == .run then rejoinFail (stopEntry s pf) 0x0A else stopEntry s pf) with
        rejoin := { (if s.ctl.state == .run then rejoinFail (stopEntry s pf) 0x0A else stopEntry s pf).rejoin with withheld := false } })) := rfl
  refine ⟨_, _, (rejoinFail_rejoinEnded (stopEntry s pf) 0x0A).ite (c := (s.ctl.state == .run) = true), ?_, heq⟩
  exact (RequestsOnly.trans ⟨_, _, _, _, _, _, rfl⟩ (discardOlcs_requestsOnly _)).trans (withdrawMode_requestsOnly _)

end Sys2Proof.Machine
end

section
/-! PROOF. What an entry into STOPPED and the drop of a lane leave (R89, R199, R201, R226, R242, R243). -/

namespace Sys2Proof.Machine

/-! A lane that has fallen. -/

/-- A lane in DROPPED without banks, memory, activation or self-test. -/
structure DroppedLane (x : LaneSt) : Prop where
  st : x.st = .dropped
  selfTest : x.selfTest = none
  sram : x.sram = []
  tasks : ∀ q j, ((x.pairs.get q).tasks.get j).phase = .idle ∧ ((x.pairs.get q).tasks.get j).com = none
  split : ∀ q, (x.pairs.get q).split = false

theorem leftLane_pair (s : State) (l : LaneId) (st : LaneState) (cause p k : Nat) (q : PairId) :
    (leftLane s l st cause p k).pairs.get q = resetPair := by
  simp [leftLane, resetLaneSt, Vector.get]

theorem resetPair_task (j : TaskId) : resetPair.tasks.get j = resetTask := by
  simp [resetPair, Vector.get]

theorem leftLane_dropped (s : State) (l : LaneId) (cause p k : Nat) : DroppedLane (leftLane s l .dropped cause p k) := by
  refine ⟨rfl, rfl, rfl, fun q j => ?_, fun q => ?_⟩
  · rw [leftLane_pair, resetPair_task]
    exact ⟨rfl, rfl⟩
  · rw [leftLane_pair]
    rfl

theorem endTasks_task (x : LaneSt) (q : PairId) (j : TaskId) :
    ((endTasks x).pairs.get q).tasks.get j = endTask ((x.pairs.get q).tasks.get j) := by
  simp [endTasks]

theorem endTasks_dropped {x : LaneSt} (h : DroppedLane x) : DroppedLane (endTasks x) := by
  refine ⟨h.st, h.selfTest, h.sram, fun q j => ?_, fun q => ?_⟩
  · rw [endTasks_task]
    exact ⟨rfl, (h.tasks q j).2⟩
  · simpa [endTasks] using h.split q

/-! The entry into STOPPED, by what it leaves. -/

section
variable (s : State) (pf : Option (Word × Word))

/-- Of the lanes, the fabric and the controller, the entry and the end of the rejoin alone decide, but for the requests. -/
theorem enterStopped_kept : ∃ u, RejoinEnded (stopEntry s pf) u ∧ (enterStopped s pf).lanes = u.lanes ∧ (enterStopped s pf).fab = u.fab ∧
    ∃ olcs done last, (enterStopped s pf).ctl = { u.ctl with olcs := olcs, olcDone := done, olcLast := last } := by
  obtain ⟨u, y, hu, ⟨_, _, _, _, _, _, rfl⟩, ht⟩ := enterStopped_steps s pf
  obtain ⟨_, _, hr⟩ := refreshDrives_chansOnly _
  rw [ht, hr]
  exact ⟨u, hu, rfl, rfl, _, _, _, rfl⟩

theorem enterStopped_ctl :
    let t := enterStopped s pf
    t.ctl.state = .stopped ∧ t.ctl.pendStop = none ∧ t.ctl.stopcause = stopCauseOf pf ∧ t.ctl.stoppc = stopPcOf s pf ∧
      t.ctl.rel = s.ctl.rel.map endRels ∧ (s.ctl.retain.busy = false → t.ctl.retain.busy = false) := by
  intro t
  obtain ⟨u, hu, -, -, _, _, _, hctl⟩ := enterStopped_kept s pf
  obtain ⟨rt, hctl', hbusy⟩ := hu.ctl
  obtain ⟨rc, he⟩ := stopEntry_only s pf
  rw [he] at hctl' hbusy
  rw [show t.ctl = _ from hctl, hctl']
  exact ⟨rfl, rfl, rfl, rfl, rfl, hbusy⟩

theorem enterStopped_lane (r : LaneId) : lane (enterStopped s pf) r = endTasks (lane s r) ∨
    (s.rejoin.lane = some r ∧ ∃ u cause, lane (enterStopped s pf) r = leftLane u r .dropped cause 0 0) := by
  obtain ⟨u, hu, hlanes, -⟩ := enterStopped_kept s pf
  have hr := hu.lane r
  obtain ⟨rc, he⟩ := stopEntry_only s pf
  rw [show lane u r = lane (enterStopped s pf) r by rw [lane, lane, hlanes]] at hr
  refine hr.imp (fun h => ?_) fun ⟨hl, cause, h⟩ => ⟨?_, _, cause, h⟩
  · rw [h, he, lane, lanes_map_get]
    rfl
  · rw [he] at hl
    exact hl

theorem enterStopped_owner {i : Fin 32} {r : LaneId} {q : PairId} {odd : Bool}
    (h : (enterStopped s pf).fab.owner.get i = some (.core r q odd)) :
    s.fab.owner.get i = some (.core r q odd) ∨ (lane (enterStopped s pf) r).st = .voting := by
  obtain ⟨u, hu, hlanes, hfab, -⟩ := enterStopped_kept s pf
  rw [hfab] at h
  obtain ⟨rc, he⟩ := stopEntry_only s pf
  refine (hu.owner i r q odd h).imp (fun h => ?_) fun h => ?_
  · rw [he] at h
    exact h
  · rwa [lane, hlanes]

theorem enterStopped_idle (r : LaneId) (p : PairId) (k : TaskId) : (taskRun (enterStopped s pf) r p k).phase = .idle := by
  unfold taskRun pair
  obtain h | ⟨-, u, cause, h⟩ := enterStopped_lane s pf r
  · rw [h, endTasks_task]
    rfl
  · rw [h, leftLane_pair, resetPair_task]
    rfl

theorem enterStopped_rel (p : PairId) (k : TaskId) : (((enterStopped s pf).ctl.rel.get p).get k).live = false := by
  obtain ⟨-, -, -, -, hrel, -⟩ := enterStopped_ctl s pf
  rw [hrel]
  simp [endRels]

/-- Every output channel stands at its SAFE state under its safety enable (R199, R201). -/
theorem enterStopped_output (hever : s.ctl.everCommit = true) {d : ChanDecl} (hd : chanDecl s d.ch = some d) (hk : d.kind = .output) :
    let x := (enterStopped s pf).chans.get d.ch
    x.base = safeOf s d ∧ x.drv = (safeOf s d && x.en) ∧ x.en = enabled (enterStopped s pf) d.ch := by
  intro x
  obtain ⟨u, y, hu, hy, ht⟩ := enterStopped_steps s pf
  obtain ⟨rt, hctl, -⟩ := hu.ctl
  obtain ⟨rc, he⟩ := stopEntry_only s pf
  have hadm : u.adm = s.adm := by rw [hu.adm, he]
  have hchans : u.chans = s.chans := by rw [hu.chans, he]
  have hyadm : y.adm = u.adm := by obtain ⟨_, _, _, _, _, _, rfl⟩ := hy; rfl
  have hychans : y.chans = u.chans := by obtain ⟨_, _, _, _, _, _, rfl⟩ := hy; rfl
  have hyctl : y.ctl.state = .stopped ∧ y.ctl.everCommit = true := by
    obtain ⟨_, _, _, _, _, _, rfl⟩ := hy
    simp [hctl, he, hever]
  have hdecl : chanDecl y d.ch = some d := by rw [← hd, chanDecl, chanDecl, setup, setup, setup?, setup?, hyadm, hadm]
  have hsafe : safeOf y d = safeOf s d := by rw [safeOf, safeOf, hychans, hchans]
  have hen : enabled (refreshDrives y) d.ch = enabled y d.ch := by
    obtain ⟨_, _, hr⟩ := refreshDrives_chansOnly y
    rw [hr]
    rfl
  have hat := refreshDrives_stopped hyctl.1 hyctl.2 hdecl hk
  rwa [AtSafe, hsafe, ← hen, ← ht] at hat

end

end Sys2Proof.Machine
end

section
/-! PROOF. The drop of a voting lane, a rejoin whose source it was, and the controller that it may stop (R242, R243, R248). -/

namespace Sys2Proof.Machine

/-- What the drop of lane `l` with its cause leaves, whatever follows it at the same instant. -/
structure Fallen (l : LaneId) (cause p k : Nat) (t : State) : Prop where
  dropped : DroppedLane (lane t l)
  cause : (lane t l).cause = BitVec.ofNat 8 cause
  pair : (lane t l).dropPair = BitVec.ofNat 4 p
  task : (lane t l).dropTask = BitVec.ofNat 4 k
  owner : ∀ i q odd, t.fab.owner.get i ≠ some (.core l q odd)

section
variable {l : LaneId} {cause p k : Nat} {s t : State}

theorem LeftVote.fallen {u : State} (h : LeftVote s t l (leftLane u l .dropped cause p k)) : Fallen l cause p k t := by
  refine ⟨h.self ▸ leftLane_dropped _ _ _ _ _, by rw [h.self]; rfl, by rw [h.self]; rfl, by rw [h.self]; rfl, fun i q odd hi => ?_⟩
  have hv := h.owner i l q odd hi
  rw [h.self] at hv
  nomatch hv

/-- A fallen lane stays so where its activations alone end, and a lock word goes to no lane that does not vote. -/
theorem Fallen.next (h : Fallen l cause p k s) (hlane : lane t l = lane s l ∨ lane t l = endTasks (lane s l))
    (howner : ∀ i q odd, t.fab.owner.get i = some (.core l q odd) → s.fab.owner.get i = some (.core l q odd) ∨ (lane t l).st = .voting) :
    Fallen l cause p k t := by
  obtain ⟨hdropped, hcause, hpair, htask, hown⟩ := h
  have owner (hd : DroppedLane (lane t l)) (i : Fin 32) (q : PairId) (odd : Bool) : t.fab.owner.get i ≠ some (.core l q odd) := fun hi => by
    obtain hs | hv := howner i q odd hi
    · exact hown i q odd hs
    · rw [hd.st] at hv
      nomatch hv
  obtain hl | hl := hlane
  · have hd : DroppedLane (lane t l) := hl ▸ hdropped
    exact ⟨hd, hl ▸ hcause, hl ▸ hpair, hl ▸ htask, owner hd⟩
  · have hd : DroppedLane (lane t l) := hl ▸ endTasks_dropped hdropped
    exact ⟨hd, hl ▸ hcause, hl ▸ hpair, hl ▸ htask, owner hd⟩

variable (hl : s.rejoin.lane ≠ some l)
include hl

/-- The end of a rejoin and an entry into STOPPED leave the state of every lane that is not rejoining. -/
theorem RejoinEnded.lane_eq (ht : RejoinEnded s t) : Machine.lane t l = Machine.lane s l := (ht.lane l).resolve_right fun h => hl h.1

theorem enterStopped_lane_eq (pf : Option (Word × Word)) : lane (enterStopped s pf) l = endTasks (lane s l) :=
  (enterStopped_lane s pf l).resolve_right fun h => hl h.1

theorem checkVoters_st : (lane (checkVoters s) l).st = (lane s l).st := by
  unfold checkVoters
  split
  · rw [enterStopped_lane_eq hl]
    rfl
  · rfl

theorem Fallen.rejoinEnded (h : Fallen l cause p k s) (ht : RejoinEnded s t) : Fallen l cause p k t :=
  h.next (.inl (ht.lane_eq hl)) fun i q odd => ht.owner i l q odd

theorem Fallen.checkVoters (h : Fallen l cause p k s) : Fallen l cause p k (checkVoters s) := by
  unfold Machine.checkVoters
  split
  · exact h.next (.inr (enterStopped_lane_eq hl none)) fun _ _ _ => enterStopped_owner s none
  · exact h

end

theorem checkVoters_busy {s : State} (h : s.ctl.retain.busy = false) : (checkVoters s).ctl.retain.busy = false := by
  unfold checkVoters
  split
  · obtain ⟨-, -, -, -, -, hb⟩ := enterStopped_ctl s none
    exact hb h
  · exact h

/-- In RUN, the controller is STOPPED exactly where too few lanes vote. -/
theorem checkVoters_stopped {s : State} (h : s.ctl.state = .run) : (checkVoters s).ctl.state = .stopped ↔ tooFew s = true := by
  unfold checkVoters
  rw [h]
  split
  · next hf => exact iff_of_true (enterStopped_ctl s none).1 hf
  · next hf =>
    refine iff_of_false (fun hs => ?_) hf
    rw [h] at hs
    nomatch hs

/-- One lane fewer votes after the drop of `l`. -/
theorem length_voters_drop {s t : State} {l : LaneId} (hl : (lane s l).st = .voting) (ht : ∀ r, isVoting t r = (isVoting s r && r != l)) :
    (voters t).length + 1 = (voters s).length := by
  have hmem : l ∈ voters s := List.mem_filter.mpr ⟨by cases l <;> decide, by simpa [isVoting] using hl⟩
  have hnodup : (voters s).Nodup := List.Nodup.filter _ (by decide)
  have herase : voters t = (voters s).erase l := by
    rw [hnodup.erase_eq_filter, voters, voters, List.filter_filter]
    exact List.filter_congr fun r _ => by rw [ht r, Bool.and_comm]
  have hpos := List.length_pos_of_mem hmem
  rw [herase, List.length_erase_of_mem hmem]
  omega

/-- The drop of a voting lane: it leaves the vote, a rejoin may end, and the controller may stop. -/
theorem dropLane_steps {s : State} {l : LaneId} (hl : (lane s l).st = .voting) (cause p k : Nat) :
    ∃ u a b, LeftVote s a l (leftLane u l .dropped cause p k) ∧ a.rejoin = s.rejoin ∧ RejoinEnded a b ∧
      dropLane s l cause p k = checkVoters b := by
  have hv : isVoting s l = true := by simpa [isVoting] using hl
  obtain ⟨rc, hrc⟩ : ∃ rc, recordDrop s l cause p k = { s with rc := rc } := record_only _ _ _
  have hdrop : dropLane s l cause p k =
      checkVoters (if s.rejoin.src == some l then rejoinFail (leaveVote (recordDrop s l cause p k) l .dropped cause p k) 0x0A
        else leaveVote (recordDrop s l cause p k) l .dropped cause p k) := by
    rw [dropLane, if_pos hv]
  rw [hrc] at hdrop
  obtain ⟨⟨hself, hother, howner, hctl, hchans, hadm, hpara, hstraps⟩, hrejoin⟩ := leaveVote_leftVote { s with rc := rc } l .dropped cause p k
  exact ⟨_, _, _, ⟨hself, hother, howner, hctl, hchans, hadm, hpara, hstraps⟩, hrejoin, (rejoinFail_rejoinEnded _ _).ite, hdrop⟩

/-- A further cause at the instant of a drop leaves the lowest code (R243). -/
theorem dropLane_fallen {s : State} {l : LaneId} (hl : (lane s l).st ≠ .voting) (hf : (lane s l).fellAt = some s.up) (cause p k : Nat) :
    let x := lane s l
    dropLane s l cause p k =
      if cause < x.cause.toNat then
        modLane s l fun _ => { x with cause := BitVec.ofNat 8 cause, dropPair := BitVec.ofNat 4 p, dropTask := BitVec.ofNat 4 k }
      else s := by
  intro x
  have hv : ¬isVoting s l = true := by simpa [isVoting] using hl
  have hn : fellNow s l = true := by simp [fellNow, hf]
  rw [dropLane, if_neg hv, lowerCause, hn]
  simp only [Bool.true_and, decide_eq_true_eq]
  rfl

/-- A retain cycle whose source the lane was is abandoned (R226). -/
theorem dropLane_retain {s : State} {l : LaneId} (hl : (lane s l).st = .voting) (cause p k : Nat) (hsrc : s.ctl.retain.src = some l) :
    (dropLane s l cause p k).ctl.retain.busy = false := by
  obtain ⟨u, a, b, ha, -, hb, hdrop⟩ := dropLane_steps hl cause p k
  obtain ⟨rt, hctl, hbusy⟩ := hb.ctl
  rw [hdrop]
  refine checkVoters_busy ?_
  rw [hctl]
  refine hbusy ?_
  rw [ha.ctl]
  exact retainAfter_src hsrc

section
variable {s : State} {l : LaneId} (hl : (lane s l).st = .voting) (hr : ∀ r, s.rejoin.lane = some r → (lane s r).st = .rejoining)
  (cause p k : Nat)
include hl hr

theorem rejoin_ne_of_voting : s.rejoin.lane ≠ some l := fun h => by
  rw [hr l h] at hl
  nomatch hl

theorem dropLane_fallenLane : Fallen l cause p k (dropLane s l cause p k) := by
  obtain ⟨u, a, b, ha, hrejoin, hb, hdrop⟩ := dropLane_steps hl cause p k
  have hla : a.rejoin.lane ≠ some l := hrejoin ▸ rejoin_ne_of_voting hl hr
  rw [hdrop]
  exact (ha.fallen.rejoinEnded hla hb).checkVoters fun h => hla (hb.rejoin l h)

theorem dropLane_others {r : LaneId} (hne : r ≠ l) (hv : (lane s r).st = .voting) : (lane (dropLane s l cause p k) r).st = .voting := by
  obtain ⟨u, a, b, ha, hrejoin, hb, hdrop⟩ := dropLane_steps hl cause p k
  have hra : a.rejoin.lane ≠ some r := hrejoin ▸ rejoin_ne_of_voting hv hr
  rw [hdrop, checkVoters_st fun h => hra (hb.rejoin r h), hb.lane_eq hra, ha.other r hne, hv]

/-- After the drop the lanes that vote are those that voted but `l`. -/
theorem isVoting_drop {u a b : State} (ha : LeftVote s a l (leftLane u l .dropped cause p k)) (hrejoin : a.rejoin = s.rejoin)
    (hb : RejoinEnded a b) (r : LaneId) : isVoting b r = (isVoting s r && r != l) := by
  have hla : a.rejoin.lane ≠ some l := hrejoin ▸ rejoin_ne_of_voting hl hr
  by_cases hrl : r = l
  · have hst : (lane b l).st = .dropped := by
      rw [hb.lane_eq hla, ha.self]
      rfl
    simp [isVoting, hrl, hst]
  · obtain h | ⟨h, c, hleft⟩ := hb.lane r
    · simp [isVoting, h, ha.other r hrl, hrl]
    · rw [hrejoin] at h
      simp only [isVoting, hleft, hr r h]
      rfl

/-- In RUN, the controller is STOPPED exactly where too few lanes are left (R227, R243). -/
theorem dropLane_stopped (hrun : s.ctl.state = .run) :
    (if benchMode s then (voters s).length = 1 else (voters s).length ≤ 2) ↔ (dropLane s l cause p k).ctl.state = .stopped := by
  obtain ⟨u, a, b, ha, hrejoin, hb, hdrop⟩ := dropLane_steps hl cause p k
  obtain ⟨rt, hctl, -⟩ := hb.ctl
  have hbrun : b.ctl.state = .run := by rw [hctl, ha.ctl, hrun]
  have hbench : benchMode b = benchMode s := by rw [benchMode, benchMode, hb.straps, ha.straps]
  have hlen := length_voters_drop hl (isVoting_drop hl hr cause p k ha hrejoin hb)
  rw [hdrop, checkVoters_stopped hbrun, tooFew, hbench]
  cases benchMode s
  · simp only [Bool.false_eq_true, if_false, decide_eq_true_eq]
    omega
  · simp only [if_true, beq_iff_eq]
    omega

end

/-- Settles O16: an entry into STOPPED by its steps, the drives by the refresh that ends it; a drop by `dropLane_steps`, each of which keeps what
the fallen lane has come to. -/
theorem stopsAndDrops : Obligations.StopsAndDrops := by
  refine ⟨fun s pf hever => ?_, fun s l cause p k hl hf => dropLane_fallen hl hf cause p k, fun s l cause p k hl hr => ?_⟩
  · obtain ⟨hstate, hpend, hcause, hpc, -, -⟩ := enterStopped_ctl s pf
    exact ⟨hstate, hpend, hcause, hpc, enterStopped_rel s pf, enterStopped_idle s pf,
      fun d hd hk => enterStopped_output s pf hever hd hk⟩
  · obtain ⟨hdropped, hcause, hpair, htask, howner⟩ := dropLane_fallenLane hl hr cause p k
    exact ⟨hdropped.st, hdropped.selfTest, hdropped.sram, hdropped.tasks, hdropped.split, hcause, hpair, htask, howner,
      fun hsrc _ => dropLane_retain hl cause p k hsrc, fun r hne hv => dropLane_others hl hr cause p k hne hv,
      dropLane_stopped hl hr cause p k⟩

end Sys2Proof.Machine
end

section
/-! PROOF. REAL32 words: what a word stands for, and the word of a significand and an exponent (04_instruction_semantics.md, R121, R122). -/

namespace Sys2Proof.Machine

/-! The fields of a word. -/

theorem field_exponent (w : Word) : field w 30 23 = w.toNat % 2147483648 / 8388608 := by
  have h : field w 30 23 = w.toNat / 8388608 % 256 := congrArg (· % 256) (Nat.shiftRight_eq_div_pow _ 23)
  omega

theorem field_fraction (w : Word) : field w 22 0 = w.toNat % 2147483648 % 8388608 := by
  have h : field w 22 0 = w.toNat % 8388608 := rfl
  omega

theorem sign_eq (w : Word) : w.getLsbD 31 = decide (2147483648 ≤ w.toNat) := BitVec.msb_eq_decide w

theorem lowBit_eq (w : Word) : w.getLsbD 0 = decide (w.toNat % 2 = 1) := Nat.testBit_zero _

/-- A word from bit 31 and the bits below it. -/
theorem fSign_toNat (neg : Bool) {k : Nat} (hk : k < 2147483648) :
    (fSign neg (BitVec.ofNat 32 k)).toNat = (if neg then 2147483648 else 0) + k := by
  have hmod : k % 2 ^ 32 = k := Nat.mod_eq_of_lt (by omega)
  cases neg with
  | false =>
    show k % 2 ^ 32 = 0 + k
    omega
  | true =>
    show k % 2 ^ 32 ||| 2 ^ 31 * 1 = 2147483648 + k
    rw [hmod, Nat.or_comm, ← Nat.two_pow_add_eq_or_of_lt (i := 31) hk]

section
variable (neg : Bool) {k : Nat} (hk : k < 2147483648)
include hk

theorem fSign_sign : (fSign neg (BitVec.ofNat 32 k)).getLsbD 31 = neg := by
  rw [sign_eq, fSign_toNat neg hk]
  cases neg <;> simp [hk]

theorem fSign_low : (fSign neg (BitVec.ofNat 32 k)).toNat % 2147483648 = k := by
  rw [fSign_toNat neg hk]
  cases neg <;> simp [Nat.mod_eq_of_lt hk]

end

/-! What a word stands for. -/

/-- The number with its sign inverted. -/
def negFlt : Flt → Flt
  | .nan s => .nan s
  | .inf s => .inf !s
  | .fin s m e => .fin (!s) m e

theorem fUnpack_xor_sign (w : Word) : fUnpack (w ^^^ 0x80000000) = negFlt (fUnpack w) := by
  have hlow : (w ^^^ 0x80000000).toNat % 2147483648 = w.toNat % 2147483648 := by
    have h : (w ^^^ 0x80000000).setWidth 31 = w.setWidth 31 := by
      rw [BitVec.setWidth_xor]
      exact BitVec.xor_zero
    have h' := congrArg BitVec.toNat h
    rwa [BitVec.toNat_setWidth, BitVec.toNat_setWidth] at h'
  have hs : (w ^^^ 0x80000000).getLsbD 31 = !w.getLsbD 31 := by simp
  have hq : (w ^^^ 0x80000000).getLsbD 22 = w.getLsbD 22 := by simp
  simp only [fUnpack, field_exponent, field_fraction, hlow, hs, hq]
  split
  · split <;> rfl
  · split <;> rfl

/-- A significand and an exponent of a finite non-zero word (R120, R121). -/
def Normal (m : Nat) (e : Int) : Prop := 8388608 ≤ m ∧ m < 16777216 ∧ -149 ≤ e ∧ e ≤ 104

theorem fUnpack_finite {w : Word} (h : realFinite w = true) :
    fUnpack w = .fin (w.getLsbD 31) 0 0 ∨ ∃ m e, fUnpack w = .fin (w.getLsbD 31) m e ∧ Normal m e := by
  have h255 : field w 30 23 ≠ 255 := bne_iff_ne.mp h
  simp only [fUnpack, if_neg h255]
  split
  · exact .inl rfl
  · refine .inr ⟨_, _, rfl, ?_⟩
    have he := field_exponent w
    have hf := field_fraction w
    unfold Normal
    omega

/-- The word of a sign, a significand and an exponent in range stands for them, and its low bit is that of the significand. -/
theorem fPack_normal (neg : Bool) {q : Nat} {e : Int} (h : Normal q e) :
    realFinite (fPack neg q e) = true ∧ fUnpack (fPack neg q e) = .fin neg q e ∧ (fPack neg q e).getLsbD 0 = decide (q % 2 = 1) := by
  obtain ⟨hq, hq', he, he'⟩ := h
  have hk : (e + 150).toNat * 8388608 + (q - 8388608) < 2147483648 := by omega
  rw [fPack, if_neg (by omega), if_neg (by omega)]
  have hx : field (fSign neg (BitVec.ofNat 32 ((e + 150).toNat * 8388608 + (q - 8388608)))) 30 23 = (e + 150).toNat := by
    rw [field_exponent, fSign_low neg hk]
    omega
  have hf : field (fSign neg (BitVec.ofNat 32 ((e + 150).toNat * 8388608 + (q - 8388608)))) 22 0 = q - 8388608 := by
    rw [field_fraction, fSign_low neg hk]
    omega
  refine ⟨?_, ?_, ?_⟩
  · rw [realFinite, hx, bne_iff_ne]
    omega
  · rw [fUnpack, hx, hf, fSign_sign neg hk]
    simp only [show (e + 150).toNat ≠ 255 by omega, show (e + 150).toNat ≠ 0 by omega, if_false]
    rw [Nat.add_sub_cancel' hq, show (((e + 150).toNat : Int) - 150) = e by omega]
  · rw [lowBit_eq, fSign_toNat neg hk]
    refine decide_eq_decide.mpr ?_
    cases neg
    · rw [if_neg Bool.false_ne_true]
      omega
    · rw [if_pos rfl]
      omega

/-! The value of a word. -/

/-- The factor of a sign. -/
def signOf (neg : Bool) : Int := if neg then -1 else 1

theorem realScaled_fin {w : Word} {neg : Bool} {m : Nat} {e : Int} (h : fUnpack w = .fin neg m e) :
    realScaled w = signOf neg * (m * 2 ^ (e + 200).toNat) := by
  rw [realScaled, h]
  rfl

@[simp] theorem signOf_false : signOf false = 1 := rfl
@[simp] theorem signOf_true : signOf true = -1 := rfl

theorem signOf_mul_self (neg : Bool) : signOf neg * signOf neg = 1 := by cases neg <;> rfl

theorem signOf_bne (a b : Bool) : signOf (a != b) = signOf a * signOf b := by cases a <;> cases b <;> rfl

theorem realFinite_iff (w : Word) : realFinite w = true ↔ ∃ neg m e, fUnpack w = .fin neg m e := by
  refine ⟨fun h => ?_, fun ⟨neg, m, e, h⟩ => bne_iff_ne.mpr fun h255 => ?_⟩
  · obtain h0 | ⟨m, e, h0, -⟩ := fUnpack_finite h
    · exact ⟨_, _, _, h0⟩
    · exact ⟨_, _, _, h0⟩
  · rw [fUnpack, if_pos h255] at h
    split at h <;> cases h

theorem realFinite_xor_sign {w : Word} (h : realFinite w = true) : realFinite (w ^^^ 0x80000000) = true := by
  obtain ⟨neg, m, e, hw⟩ := (realFinite_iff w).mp h
  exact (realFinite_iff _).mpr ⟨_, _, _, (fUnpack_xor_sign w).trans (congrArg negFlt hw)⟩

theorem realScaled_xor_sign (w : Word) : realScaled (w ^^^ 0x80000000) = -realScaled w := by
  rw [realScaled, realScaled, fUnpack_xor_sign]
  rcases fUnpack w with _ | _ | ⟨neg, m, e⟩
  · rfl
  · rfl
  · cases neg <;> simp [negFlt]

end Sys2Proof.Machine
end

section
/-! PROOF. Rounding to nearest, ties to even: a right shift, 24 significant bits, and the finite numbers on both sides of the result
(04_instruction_semantics.md, R120 to R122). -/

namespace Sys2Proof.Machine

/-- `n` stands for the number `y` in a rounding: it is `y`, or the odd integer next to a `y` that is none. -/
def Sticky (n : Nat) (y : ℝ) : Prop := y = n ∨ n % 2 = 1 ∧ (n : ℝ) - 1 < y ∧ y < n + 1

theorem sticky_self (n : Nat) : Sticky n (n : ℝ) := .inl rfl

/-- Twice a whole part, and one that tells whether anything is left. -/
theorem sticky_of_floor {q : Nat} {y : ℝ} {exact : Prop} [Decidable exact] (he : exact → y = 2 * q)
    (hn : ¬exact → (2 : ℝ) * q < y ∧ y < 2 * q + 2) : Sticky (2 * q + if exact then 0 else 1) y := by
  split
  · next h =>
    rw [he h]
    exact .inl (by push_cast; ring)
  · next h =>
    obtain ⟨hlo, hhi⟩ := hn h
    refine .inr ⟨by omega, ?_, ?_⟩
    · push_cast
      linarith
    · push_cast
      linarith

/-- What a right shift leaves of the number lies on the same side of half a unit as the bits that it shifts out. -/
theorem remainder_sides {n k : Nat} {y : ℝ} (h : Sticky n y) (hk : y ≠ n → 2 ≤ k) :
    ∃ z : ℝ, y = (n / 2 ^ k : Nat) * 2 ^ k + z ∧ 0 ≤ z ∧ z ≤ 2 ^ k ∧ (2 * (n % 2 ^ k) < 2 ^ k → 2 * z < 2 ^ k) ∧
      (2 ^ k < 2 * (n % 2 ^ k) → (2 : ℝ) ^ k < 2 * z) ∧ (2 ^ k = 2 * (n % 2 ^ k) → 2 * z = 2 ^ k) := by
  have hdiv : ((n / 2 ^ k : Nat) : ℝ) * 2 ^ k + (n % 2 ^ k : Nat) = n := by exact_mod_cast Nat.div_add_mod' n (2 ^ k)
  have hlt : n % 2 ^ k < 2 ^ k := Nat.mod_lt _ (by positivity)
  have hpow : ((2 ^ k : Nat) : ℝ) = 2 ^ k := by push_cast; rfl
  rw [← hpow] at hdiv ⊢
  refine ⟨y - (n / 2 ^ k : Nat) * (2 ^ k : Nat), by ring, ?_⟩
  have exact (h : y = n) : y - (n / 2 ^ k : Nat) * (2 ^ k : Nat) = (n % 2 ^ k : Nat) := by linarith
  by_cases hy : y = n
  · rw [exact hy]
    exact ⟨by positivity, by exact_mod_cast hlt.le, fun h => by exact_mod_cast h, fun h => by exact_mod_cast h,
      fun h => by exact_mod_cast h.symm⟩
  · obtain ⟨hodd, hlo, hhi⟩ := h.resolve_left hy
    obtain ⟨j, hj⟩ : 4 ∣ 2 ^ k := pow_dvd_pow 2 (hk hy)
    have hr : n % 2 ^ k % 2 = 1 := (Nat.mod_mod_of_dvd n ⟨2 * j, by omega⟩).trans hodd
    have h1 : (1 : ℝ) ≤ (n % 2 ^ k : Nat) := by exact_mod_cast (by omega : 1 ≤ n % 2 ^ k)
    have h2 : ((n % 2 ^ k : Nat) : ℝ) + 1 ≤ (2 ^ k : Nat) := by exact_mod_cast hlt
    refine ⟨by linarith, by linarith, fun h => ?_, fun h => ?_, fun h => by omega⟩
    · have h3 : 2 * ((n % 2 ^ k : Nat) : ℝ) + 2 ≤ (2 ^ k : Nat) := by exact_mod_cast (by omega : 2 * (n % 2 ^ k) + 2 ≤ 2 ^ k)
      linarith
    · have h3 : ((2 ^ k : Nat) : ℝ) + 2 ≤ 2 * (n % 2 ^ k : Nat) := by exact_mod_cast (by omega : 2 ^ k + 2 ≤ 2 * (n % 2 ^ k))
      linarith

/-- A right shift with rounding is within half a unit, on a tie with an even result, and where it has not carried it is not above. -/
theorem roundShift_near {n k : Nat} {y : ℝ} (h : Sticky n y) (hk : y ≠ n → 2 ≤ k) :
    let q := roundShift n k
    (2 * q - 1 : ℝ) * 2 ^ k ≤ 2 * y ∧ 2 * y ≤ (2 * q + 1 : ℝ) * 2 ^ k ∧
      (2 * y = (2 * q - 1 : ℝ) * 2 ^ k ∨ 2 * y = (2 * q + 1 : ℝ) * 2 ^ k → q % 2 = 0) ∧
      (q = n / 2 ^ k ∧ (q : ℝ) * 2 ^ k ≤ y ∨ q = n / 2 ^ k + 1) := by
  obtain ⟨z, hy, h0, h1, hlt, hgt, heq⟩ := remainder_sides h hk
  have hP : (0 : ℝ) < 2 ^ k := by positivity
  unfold roundShift
  dsimp only
  split
  · next hup =>
    have hz : (2 : ℝ) ^ k ≤ 2 * z := hup.elim (fun h => (hgt h).le) fun h => (heq h.1).ge
    refine ⟨?_, ?_, ?_, .inr rfl⟩
    · push_cast; linarith
    · push_cast; linarith
    · push_cast
      rintro (h | h)
      · have : ¬2 ^ k < 2 * (n % 2 ^ k) := fun h' => by linarith [hgt h']
        omega
      · linarith
  · next hdown =>
    have hz : 2 * z ≤ 2 ^ k := by
      rcases Nat.lt_trichotomy (2 * (n % 2 ^ k)) (2 ^ k) with h | h | h
      · exact (hlt h).le
      · exact (heq h.symm).le
      · exact absurd (.inl h) hdown
    refine ⟨?_, ?_, ?_, .inl ⟨rfl, ?_⟩⟩
    · linarith
    · linarith
    · rintro (h | h)
      · linarith
      · have : ¬2 * (n % 2 ^ k) < 2 ^ k := fun h' => by linarith [hlt h']
        omega
    · linarith

/-- Four times the middle between the 24-bit significand `q` and the number before it. -/
def lowerMiddle (q : Nat) : Nat := if q = 8388608 then 4 * q - 1 else 4 * q - 2

/-- The 24-bit significand `q` with the exponent `e` is the nearest to `y`, and an even one on a tie (R120). -/
def RoundsTo (q : Nat) (e : Int) (y : ℝ) : Prop :=
  8388608 ≤ q ∧ q < 16777216 ∧ lowerMiddle q * (2 : ℝ) ^ e ≤ 4 * y ∧ 4 * y ≤ (4 * q + 2) * (2 : ℝ) ^ e ∧
    (4 * y = lowerMiddle q * (2 : ℝ) ^ e ∨ 4 * y = (4 * q + 2) * (2 : ℝ) ^ e → q % 2 = 0)

/-- A number within half a unit of `q` rounds to it; the number before 2^23 is only half a unit away. -/
theorem roundsTo_of_half {q : Nat} (hq : 8388608 ≤ q) (hq' : q < 16777216) {e : Int} {z : ℝ} (hlo : (2 * q - 1 : ℝ) * 2 ^ e ≤ 2 * z)
    (hhi : 2 * z ≤ (2 * q + 1 : ℝ) * 2 ^ e) (htie : 2 * z = (2 * q - 1 : ℝ) * 2 ^ e ∨ 2 * z = (2 * q + 1 : ℝ) * 2 ^ e → q % 2 = 0)
    (hmin : q = 8388608 → (q : ℝ) * 2 ^ e ≤ z) : RoundsTo q e z := by
  have hu : (0 : ℝ) < 2 ^ e := by positivity
  by_cases h : q = 8388608
  · have hl : (lowerMiddle q : ℝ) = 4 * q - 1 := by
      rw [h, lowerMiddle, if_pos rfl]
      norm_num
    have := hmin h
    refine ⟨hq, hq', ?_, by linarith, fun _ => by omega⟩
    rw [hl]
    linarith
  · have hl : (lowerMiddle q : ℝ) = 4 * q - 2 := by
      rw [lowerMiddle, if_neg h, Nat.cast_sub (by omega)]
      push_cast
      rfl
    refine ⟨hq, hq', ?_, by linarith, ?_⟩
    · rw [hl]
      linarith
    · rw [hl]
      rintro (h | h)
      · exact htie (.inl (by linarith))
      · exact htie (.inr (by linarith))

theorem RoundsTo.scale {q : Nat} {e : Int} {y : ℝ} (h : RoundsTo q e y) (n : Int) : RoundsTo q (n + e) (y * 2 ^ n) := by
  obtain ⟨hq, hq', hlo, hhi, htie⟩ := h
  have hu : (0 : ℝ) < 2 ^ n := by positivity
  have hlo' := mul_le_mul_of_nonneg_right hlo hu.le
  have hhi' := mul_le_mul_of_nonneg_right hhi hu.le
  refine ⟨hq, hq', ?_, ?_, fun h => htie ?_⟩
  · rw [zpow_add₀ two_ne_zero]
    linarith
  · rw [zpow_add₀ two_ne_zero]
    linarith
  · rw [zpow_add₀ two_ne_zero] at h
    exact h.imp (fun h => mul_right_cancel₀ hu.ne' (by linarith)) fun h => mul_right_cancel₀ hu.ne' (by linarith)

/-- The leading 24 bits of a longer number, rounded, with a carry into the next power of two. -/
theorem roundShift_roundsTo {m k : Nat} {y : ℝ} (h : Sticky m y) (hk : y ≠ m → 2 ≤ k) (hlo : 8388608 ≤ m / 2 ^ k)
    (hhi : m / 2 ^ k < 16777216) :
    let q := roundShift m k
    if q = 16777216 then RoundsTo 8388608 (k + 1 : Int) y else RoundsTo q (k : Int) y := by
  obtain ⟨hlow, hhigh, htie, hcarry⟩ := roundShift_near h hk
  generalize roundShift m k = q at *
  have hu : (0 : ℝ) < 2 ^ k := by positivity
  dsimp only
  split
  · next hq =>
    have hmid : lowerMiddle 8388608 = 33554431 := rfl
    rw [hq] at hlow hhigh
    push_cast at hlow hhigh
    refine ⟨by decide, by decide, ?_, ?_, fun _ => rfl⟩
    all_goals
      rw [zpow_add_one₀ two_ne_zero, zpow_natCast]
      push_cast [hmid]
      linarith
  · next hq =>
    refine roundsTo_of_half (by omega) (by omega) ?_ ?_ ?_ fun h => ?_
    all_goals rw [zpow_natCast]
    · exact hlow
    · exact hhigh
    · exact htie
    · exact (hcarry.resolve_right (by omega)).2

/-- What `fRound` delivers: the significand and the exponent nearest to the number that `m` stands for. -/
theorem fRound_roundsTo (neg : Bool) {m : Nat} (e : Int) {y : ℝ} (hm : m ≠ 0) (h : Sticky m y) (hs : y ≠ m → 2 ^ 25 ≤ m) :
    ∃ q E, fRound neg m e = fPack neg q E ∧ RoundsTo q E (y * 2 ^ e) := by
  have hlo : 2 ^ Nat.log2 m ≤ m := Nat.log2_self_le hm
  have hhi : m < 2 ^ (Nat.log2 m + 1) := Nat.lt_log2_self
  unfold fRound
  rw [if_neg hm]
  dsimp only
  split
  · next hn =>
    obtain ⟨j, hj⟩ : ∃ j, 24 = Nat.log2 m + 1 + j := Nat.exists_eq_add_of_le hn
    rw [hj, Nat.add_sub_cancel_left]
    have hm24 : m < 2 ^ 24 := hhi.trans_le (Nat.pow_le_pow_right (by decide) hn)
    have hy : y = m := by_contra fun hy => by
      have := hs hy
      omega
    have hz : y = (m * 2 ^ j : Nat) * (2 : ℝ) ^ (-(j : Int)) := by
      rw [hy, zpow_neg, zpow_natCast]
      push_cast
      field_simp
    have hu : (0 : ℝ) < 2 ^ (-(j : Int)) := by positivity
    have hround : RoundsTo (m * 2 ^ j) (-(j : Int)) y := by
      rw [hz]
      refine roundsTo_of_half ?_ ?_ (by linarith) (by linarith) (by rintro (h | h) <;> linarith) fun _ => le_rfl
      · calc 8388608 = 2 ^ Nat.log2 m * 2 ^ j := by rw [← pow_add, show Nat.log2 m + j = 23 by omega]; rfl
          _ ≤ m * 2 ^ j := Nat.mul_le_mul_right _ hlo
      · calc m * 2 ^ j < 2 ^ (Nat.log2 m + 1) * 2 ^ j := Nat.mul_lt_mul_of_pos_right hhi (by positivity)
          _ = 16777216 := by rw [← pow_add, ← hj]; rfl
    exact ⟨_, _, rfl, hround.scale e⟩
  · next hn =>
    obtain ⟨k, hk⟩ : ∃ k, Nat.log2 m + 1 = 24 + k := Nat.exists_eq_add_of_le (by omega)
    rw [hk, Nat.add_sub_cancel_left]
    have hk2 (hy : y ≠ m) : 2 ≤ k := by
      have h25 : 2 ^ 25 < 2 ^ (24 + k) := (hs hy).trans_lt (hk ▸ hhi)
      have := (Nat.pow_lt_pow_iff_right (by decide)).mp h25
      omega
    have hdiv : 8388608 ≤ m / 2 ^ k := by
      rw [Nat.le_div_iff_mul_le (by positivity)]
      calc 8388608 * 2 ^ k = 2 ^ Nat.log2 m := by rw [show Nat.log2 m = 23 + k by omega, pow_add]; norm_num
        _ ≤ m := hlo
    have hdiv' : m / 2 ^ k < 16777216 := by
      rw [Nat.div_lt_iff_lt_mul (by positivity)]
      calc m < 2 ^ (Nat.log2 m + 1) := hhi
        _ = 16777216 * 2 ^ k := by rw [hk, pow_add]; norm_num
    have hround := roundShift_roundsTo h hk2 hdiv hdiv'
    dsimp only at hround ⊢
    split at hround
    · next hq =>
      rw [if_pos hq, Int.add_assoc]
      exact ⟨_, _, rfl, hround.scale e⟩
    · next hq =>
      rw [if_neg hq]
      exact ⟨_, _, rfl, hround.scale e⟩

end Sys2Proof.Machine
end

section
/-! PROOF. The finite number nearest to an exact one: what `fRound` delivers is nearer than every other finite word
(04_instruction_semantics.md, R120 to R122). -/

namespace Sys2Proof.Machine

/-! The size of a rounded number. -/

section
variable {q : Nat} {e : Int} {y : ℝ} (h : RoundsTo q e y)
include h

theorem RoundsTo.exponent_gt {n : Int} (hy : (2 : ℝ) ^ n ≤ y) : n < e + 24 := by
  obtain ⟨-, hq, -, hhi, -⟩ := h
  have hu : (0 : ℝ) < 2 ^ e := by positivity
  have hq2 : (4 * q + 2 : ℝ) < 67108864 := by exact_mod_cast (by omega : 4 * q + 2 < 67108864)
  have hlt : (2 : ℝ) ^ n < 2 ^ (e + 24) := by
    rw [zpow_add₀ two_ne_zero]
    norm_num
    nlinarith
  exact (zpow_lt_zpow_iff_right₀ one_lt_two).mp hlt

theorem RoundsTo.exponent_lt {n : Int} (hy : y < (2 : ℝ) ^ n) : e + 22 < n := by
  obtain ⟨hq, -, hlo, -, -⟩ := h
  have hu : (0 : ℝ) < 2 ^ e := by positivity
  have hq2 : (16777216 : ℝ) ≤ lowerMiddle q := by
    have : 16777216 ≤ lowerMiddle q := by unfold lowerMiddle; split <;> omega
    exact_mod_cast this
  have hlt : (2 : ℝ) ^ (e + 22) < 2 ^ n := by
    rw [zpow_add₀ two_ne_zero]
    norm_num
    nlinarith
  exact (zpow_lt_zpow_iff_right₀ one_lt_two).mp hlt

end

/-! The finite numbers about a rounded one. -/

/-- A number, scaled by 2^200, that is no more than 0 or that a normal word stands for. -/
def OnGrid (v : Int) : Prop := v ≤ 0 ∨ ∃ m k : Nat, v = m * 2 ^ k ∧ 8388608 ≤ m ∧ m < 16777216

theorem onGrid_realScaled {w : Word} (h : realFinite w = true) (neg : Bool) : OnGrid (signOf neg * realScaled w) := by
  obtain hw | ⟨m, e, hw, hm, hm', -⟩ := fUnpack_finite h
  · left
    rw [realScaled_fin hw]
    simp
  · rw [realScaled_fin hw, ← Int.mul_assoc, ← signOf_bne]
    cases neg != w.getLsbD 31
    · exact .inr ⟨m, _, Int.one_mul _, hm, hm'⟩
    · left
      have : (0 : Int) ≤ m * 2 ^ (e + 200).toNat := by positivity
      rw [signOf_true]
      omega

theorem lowerMiddle_ge {q : Nat} (hq : 8388608 ≤ q) : 2 * q + 16777215 ≤ lowerMiddle q := by
  unfold lowerMiddle
  split <;> omega

/-- A number other than that of `q` lies beyond the middle between `q` and its neighbour on that side. -/
theorem onGrid_sides {q : Nat} (K : Nat) (hq : 8388608 ≤ q) {v : Int} (hv : OnGrid v) :
    v = q * 2 ^ K ∨ (q * 2 ^ K < v ∧ (4 * q + 2) * 2 ^ K ≤ 2 * (v + q * 2 ^ K)) ∨
      (v < q * 2 ^ K ∧ 2 * (v + q * 2 ^ K) ≤ lowerMiddle q * 2 ^ K) := by
  have hU : (0 : Int) < 2 ^ K := by positivity
  have hmid : 2 * (q : Int) + 16777215 ≤ lowerMiddle q := by exact_mod_cast lowerMiddle_ge hq
  obtain hv | ⟨m, k, rfl, hm, hm'⟩ := hv
  · have := mul_le_mul_of_nonneg_right hmid hU.le
    have : (0 : Int) < q * 2 ^ K := by positivity
    exact .inr (.inr ⟨by omega, by linarith⟩)
  · obtain hk | hk := Nat.lt_or_ge k K
    · obtain ⟨j, rfl⟩ := Nat.exists_eq_add_of_lt hk
      have hu : (0 : Int) < 2 ^ k := by positivity
      have hD : (2 : Int) ≤ 2 ^ (j + 1) := by
        rw [pow_succ]
        have : (0 : Int) < 2 ^ j := by positivity
        omega
      rw [Nat.add_assoc, pow_add]
      have h1 : (m : Int) < q * 2 ^ (j + 1) := by nlinarith
      have h2 : 2 * (m + q * 2 ^ (j + 1) : Int) ≤ lowerMiddle q * 2 ^ (j + 1) := by nlinarith
      exact .inr (.inr ⟨by nlinarith, by nlinarith⟩)
    · obtain ⟨j, rfl⟩ := Nat.exists_eq_add_of_le hk
      have hmt : m ≤ m * 2 ^ j := Nat.le_mul_of_pos_right m (by positivity)
      have ht : (m : Int) * 2 ^ (K + j) = (m * 2 ^ j : Nat) * 2 ^ K := by
        push_cast
        ring
      rw [ht]
      generalize m * 2 ^ j = t at hmt
      rcases Nat.lt_trichotomy t q with h | h | h
      · have hl : (lowerMiddle q : Int) = 4 * q - 2 := by
          rw [lowerMiddle, if_neg (by omega)]
          omega
        refine .inr (.inr ⟨by nlinarith, ?_⟩)
        rw [hl]
        nlinarith
      · exact .inl (by rw [h])
      · exact .inr (.inl ⟨by nlinarith, by nlinarith⟩)

/-- A number as near to `y` as the middle allows is nearer to it than its neighbour. -/
theorem abs_sub_le_of_middle {p v y : ℝ} (h : p < v ∧ 2 * y ≤ v + p ∨ v < p ∧ v + p ≤ 2 * y) :
    |p - y| ≤ |v - y| ∧ (|p - y| = |v - y| → 2 * y = v + p) := by
  rcases h with ⟨hlt, hy⟩ | ⟨hlt, hy⟩
  · rw [abs_of_nonneg (by linarith : 0 ≤ v - y)]
    refine ⟨abs_le.mpr ⟨by linarith, by linarith⟩, fun h => ?_⟩
    rcases abs_cases (p - y) with ⟨h', -⟩ | ⟨h', -⟩ <;> linarith
  · rw [abs_of_nonpos (by linarith : v - y ≤ 0)]
    refine ⟨abs_le.mpr ⟨by linarith, by linarith⟩, fun h => ?_⟩
    rcases abs_cases (p - y) with ⟨h', -⟩ | ⟨h', -⟩ <;> linarith

theorem cast_scaled (m : Nat) {e : Int} (he : -200 ≤ e) : ((m * 2 ^ (e + 200).toNat : Int) : ℝ) = m * 2 ^ e * 2 ^ 200 := by
  have h : (2 : ℝ) ^ (e + 200).toNat = 2 ^ e * 2 ^ 200 := by
    rw [← zpow_natCast, Int.toNat_of_nonneg (by omega), zpow_add₀ two_ne_zero]
    rfl
  push_cast
  rw [h]
  ring

/-- A rounded number and any finite number `v` on its grid: the middle of the two, and evenness where `y` is the middle. -/
theorem RoundsTo.middle {q : Nat} {e : Int} {y : ℝ} (h : RoundsTo q e y) (he : -200 ≤ e) {v : Int} (hv : OnGrid v) :
    let p : Int := q * 2 ^ (e + 200).toNat
    v = p ∨ (((p : ℝ) < v ∧ 2 * (y * 2 ^ 200) ≤ v + p ∨ (v : ℝ) < p ∧ v + p ≤ 2 * (y * 2 ^ 200)) ∧ (2 * (y * 2 ^ 200) = v + p → q % 2 = 0)) := by
  obtain ⟨hq, -, hlo, hhi, htie⟩ := h
  have hpow : (2 : ℝ) ^ (e + 200).toNat = 2 ^ e * 2 ^ 200 := by simpa using cast_scaled 1 he
  have hS : (0 : ℝ) < 2 ^ 200 := by positivity
  have hlo' := mul_le_mul_of_nonneg_right hlo hS.le
  have hhi' := mul_le_mul_of_nonneg_right hhi hS.le
  intro p
  obtain h | ⟨hlt, h⟩ | ⟨hlt, h⟩ := onGrid_sides (e + 200).toNat hq hv
  · exact .inl h
  · right
    have hr : ((4 * q + 2) * 2 ^ (e + 200).toNat : ℝ) ≤ 2 * (v + p) := by exact_mod_cast h
    rw [hpow] at hr
    refine ⟨.inl ⟨by exact_mod_cast hlt, by linarith⟩, fun hm => htie (.inr ?_)⟩
    exact mul_right_cancel₀ hS.ne' (by linarith)
  · right
    have hr : 2 * (v + p) ≤ (lowerMiddle q * 2 ^ (e + 200).toNat : ℝ) := by exact_mod_cast h
    rw [hpow] at hr
    refine ⟨.inr ⟨by exact_mod_cast hlt, by linarith⟩, fun hm => htie (.inl ?_)⟩
    exact mul_right_cancel₀ hS.ne' (by linarith)

theorem natAbs_signed (neg : Bool) (v n d : Int) {z : ℝ} (hn : (n : ℝ) = signOf neg * z * d) :
    ((signOf neg * v * d - n).natAbs : ℝ) = |v - z| * |(d : ℝ)| := by
  have h : ((signOf neg * v * d - n : Int) : ℝ) = (signOf neg : ℝ) * ((v - z) * d) := by
    push_cast
    rw [hn]
    ring
  rw [Nat.cast_natAbs, Int.cast_abs, h, abs_mul, abs_mul]
  cases neg <;> simp

/-- The word of a rounded significand and exponent in range is the finite number nearest to the quotient that `y` is. -/
theorem nearestReal_fPack {neg : Bool} {q : Nat} {e : Int} {y : ℝ} {n d : Int} (h : RoundsTo q e y) (hN : Normal q e) (hd : d ≠ 0)
    (hn : (n : ℝ) = signOf neg * (y * 2 ^ 200) * d) : NearestReal (fPack neg q e) n d := by
  obtain ⟨hfin, hval, hlow⟩ := fPack_normal neg hN
  have hlo : -149 ≤ e := hN.2.2.1
  have hd' : 0 < |(d : ℝ)| := abs_pos.mpr (by exact_mod_cast hd)
  refine ⟨hfin, fun w hw => ?_⟩
  have hwv : realScaled w = signOf neg * (signOf neg * realScaled w) := by rw [← Int.mul_assoc, signOf_mul_self, Int.one_mul]
  rw [realScaled_fin hval, hwv, ← Nat.cast_le (α := ℝ), ← Nat.cast_inj (R := ℝ), natAbs_signed neg _ n d hn, natAbs_signed neg _ n d hn, hlow]
  obtain heq | ⟨hside, htie⟩ := h.middle (by omega) (onGrid_realScaled hw neg)
  · rw [heq]
    exact ⟨le_rfl, fun _ hne => absurd rfl hne⟩
  · obtain ⟨hle, hmid⟩ := abs_sub_le_of_middle hside
    refine ⟨mul_le_mul_of_nonneg_right hle hd'.le, fun h _ => decide_eq_false ?_⟩
    rw [htie (hmid (mul_right_cancel₀ hd'.ne' h))]
    decide

/-! The range (R121, R122). -/

theorem fInf_infinite (neg : Bool) : fUnpack (fInf neg) = .inf neg := by cases neg <;> rfl

theorem fZero_zero (neg : Bool) : fUnpack (fZero neg) = .fin neg 0 0 := by cases neg <;> rfl

theorem realScaled_fZero (neg : Bool) : realScaled (fZero neg) = 0 := by rw [realScaled_fin (fZero_zero neg)]; simp

/-- A result that is finite and no zero has its exponent in range. -/
theorem normal_of_fPack {neg : Bool} {q : Nat} {e : Int} {y : ℝ} (h : RoundsTo q e y) (hfin : realFinite (fPack neg q e) = true)
    (hne : realScaled (fPack neg q e) ≠ 0) : Normal q e := by
  refine ⟨h.1, h.2.1, ?_, ?_⟩
  · by_contra hlt
    rw [fPack, if_neg (by omega), if_pos (by omega), realScaled_fZero] at hne
    exact hne rfl
  · by_contra hlt
    rw [fPack, if_pos (by omega)] at hfin
    cases neg <;> exact absurd hfin (by decide)

/-- What `fRound` delivers of the number `y`·2^`e` that `m` stands for, where it is finite and no zero, is the nearest finite number. -/
theorem nearestReal_fRound {neg : Bool} {m : Nat} {e : Int} {y : ℝ} {n d : Int} (h : Sticky m y) (hs : y ≠ m → 2 ^ 25 ≤ m)
    (hd : d ≠ 0) (hn : (n : ℝ) = signOf neg * (y * 2 ^ e * 2 ^ 200) * d) (hfin : realFinite (fRound neg m e) = true)
    (hne : realScaled (fRound neg m e) ≠ 0) : NearestReal (fRound neg m e) n d := by
  have hm : m ≠ 0 := by
    rintro rfl
    exact hne (realScaled_fZero neg)
  obtain ⟨q, E, he, hr⟩ := fRound_roundsTo neg e hm h hs
  rw [he] at hfin hne ⊢
  exact nearestReal_fPack hr (normal_of_fPack hr hfin hne) hd hn

end Sys2Proof.Machine
end

section
/-! PROOF. The REAL32 operations on finite numbers: each result is the finite number nearest to the exact one (04_instruction_semantics.md, R120,
R124). -/

namespace Sys2Proof.Machine

/-- The number that a finite word stands for. -/
theorem fin_of_realFinite {w : Word} (h : realFinite w = true) :
    ∃ neg m e, fUnpack w = .fin neg m e ∧ (realScaled w : ℝ) = signOf neg * (m * 2 ^ e * 2 ^ 200) ∧ -149 ≤ e ∧ e ≤ 104 ∧
      (m = 0 ∨ 8388608 ≤ m) ∧ m < 16777216 := by
  obtain hw | ⟨m, e, hw, hm, hm', he, he'⟩ := fUnpack_finite h
  · refine ⟨_, 0, 0, hw, ?_, by decide, by decide, .inl rfl, by decide⟩
    rw [realScaled_fin hw]
    simp
  · refine ⟨_, m, e, hw, ?_, he, he', .inr hm, hm'⟩
    rw [realScaled_fin hw, Int.cast_mul, cast_scaled m (by omega)]

theorem signOf_natAbs (v : Int) : signOf (decide (v < 0)) * v.natAbs = v := by
  unfold signOf
  split
  · next h =>
    have := of_decide_eq_true h
    omega
  · next h =>
    have := of_decide_eq_false (eq_false_of_ne_true h)
    omega

/-- Aligning a significand to a smaller exponent keeps the number. -/
theorem aligned {m : Nat} {e e' : Int} (h : e' ≤ e) : ((m * 2 ^ (e - e').toNat : Nat) : ℝ) * 2 ^ e' = m * 2 ^ e := by
  have hp : (2 : ℝ) ^ (e - e').toNat = 2 ^ e / 2 ^ e' := by
    rw [← zpow_natCast, Int.toNat_of_nonneg (by omega), zpow_sub₀ two_ne_zero]
  push_cast
  rw [hp]
  field_simp

/-- The exact sum of two numbers as an integer at the smaller exponent. -/
theorem addExact_eq (na : Bool) (ma : Nat) (ea : Int) (nb : Bool) (mb : Nat) (eb : Int) :
    ∃ v : Int, addExact na ma ea nb mb eb = (if v = 0 then fZero (na && nb) else fRound (decide (v < 0)) v.natAbs (min ea eb)) ∧
      (v : ℝ) * 2 ^ min ea eb = signOf na * (ma * 2 ^ ea) + signOf nb * (mb * 2 ^ eb) := by
  refine ⟨_, rfl, ?_⟩
  have signed (neg : Bool) (x : Int) : (if neg then -x else x) = signOf neg * x := by cases neg <;> simp
  rw [signed, signed, ← aligned (m := ma) (min_le_left ea eb), ← aligned (m := mb) (min_le_right ea eb)]
  push_cast
  ring

/-- The quotient that `divExact` rounds stands for the exact one, and is long enough. -/
theorem divExact_sticky {ma mb : Nat} (ha : 8388608 ≤ ma) (hb : 0 < mb) (hb' : mb < 16777216) :
    Sticky (2 * (ma * 2 ^ 50 / mb) + if ma * 2 ^ 50 % mb = 0 then 0 else 1) (ma * 2 ^ 51 / mb) ∧
      2 ^ 25 ≤ 2 * (ma * 2 ^ 50 / mb) + if ma * 2 ^ 50 % mb = 0 then 0 else 1 := by
  have hmb : (0 : ℝ) < mb := by exact_mod_cast hb
  have hdiv : (mb : ℝ) * (ma * 2 ^ 50 / mb : Nat) + (ma * 2 ^ 50 % mb : Nat) = ma * 2 ^ 50 := by
    exact_mod_cast Nat.div_add_mod (ma * 2 ^ 50) mb
  have hlt : ((ma * 2 ^ 50 % mb : Nat) : ℝ) < mb := by exact_mod_cast Nat.mod_lt _ hb
  constructor
  · generalize ma * 2 ^ 50 / mb = q at *
    generalize ma * 2 ^ 50 % mb = r at *
    refine sticky_of_floor (fun h => ?_) fun h => ?_
    · rw [h, Nat.cast_zero] at hdiv
      rw [div_eq_iff hmb.ne']
      linarith
    · have hpos : (0 : ℝ) < r := by exact_mod_cast Nat.pos_of_ne_zero h
      rw [lt_div_iff₀ hmb, div_lt_iff₀ hmb]
      constructor <;> linarith
  · have h24 : 2 ^ 24 ≤ ma * 2 ^ 50 / mb := by
      rw [Nat.le_div_iff_mul_le hb]
      omega
    omega

section
variable {a b : Word} (ha : realFinite a = true) (hb : realFinite b = true)
include ha hb

theorem nearestReal_fAdd (hfin : realFinite (fAdd a b).1 = true) (hne : realScaled (fAdd a b).1 ≠ 0) :
    NearestReal (fAdd a b).1 (realScaled a + realScaled b) 1 := by
  obtain ⟨na, ma, ea, hua, hva, -⟩ := fin_of_realFinite ha
  obtain ⟨nb, mb, eb, hub, hvb, -⟩ := fin_of_realFinite hb
  obtain ⟨v, hv, hsum⟩ := addExact_eq na ma ea nb mb eb
  have hadd : (fAdd a b).1 = addExact na ma ea nb mb eb := by rw [fAdd, hua, hub]; rfl
  rw [hadd, hv] at hfin hne ⊢
  by_cases h0 : v = 0
  · rw [if_pos h0, realScaled_fZero] at hne
    exact absurd rfl hne
  · rw [if_neg h0] at hfin hne ⊢
    refine nearestReal_fRound (sticky_self _) (absurd rfl) one_ne_zero ?_ hfin hne
    have habs : (v : ℝ) = signOf (decide (v < 0)) * v.natAbs := by
      rw [← Int.cast_natCast v.natAbs, ← Int.cast_mul, signOf_natAbs]
    rw [habs] at hsum
    push_cast
    rw [hva, hvb]
    linear_combination (-2 ^ 200) * hsum

theorem nearestReal_fMul (hfin : realFinite (fMul a b).1 = true) (hne : realScaled (fMul a b).1 ≠ 0) :
    NearestReal (fMul a b).1 (realScaled a * realScaled b) (2 ^ 200) := by
  obtain ⟨na, ma, ea, hua, hva, -⟩ := fin_of_realFinite ha
  obtain ⟨nb, mb, eb, hub, hvb, -⟩ := fin_of_realFinite hb
  have hmul : (fMul a b).1 = fRound (na != nb) (ma * mb) (ea + eb) := by rw [fMul, hua, hub]; rfl
  rw [hmul] at hfin hne ⊢
  refine nearestReal_fRound (sticky_self _) (absurd rfl) (by positivity) ?_ hfin hne
  push_cast [signOf_bne, zpow_add₀ (two_ne_zero (α := ℝ))]
  rw [hva, hvb]
  ring

theorem nearestReal_fDiv (hfin : realFinite (fDiv a b).1 = true) (hne : realScaled (fDiv a b).1 ≠ 0) :
    NearestReal (fDiv a b).1 (realScaled a * 2 ^ 200) (realScaled b) := by
  obtain ⟨na, ma, ea, hua, hva, -, -, hma, -⟩ := fin_of_realFinite ha
  obtain ⟨nb, mb, eb, hub, hvb, -, -, hmb, hmb'⟩ := fin_of_realFinite hb
  have hdiv : (fDiv a b).1 = if mb = 0 then (if ma = 0 then fNan else fInf (na != nb))
      else if ma = 0 then fZero (na != nb) else divExact (na != nb) ma ea mb eb := by
    rw [fDiv, hua, hub]
    dsimp only
    split
    · split <;> rfl
    · split <;> rfl
  rw [hdiv] at hfin hne ⊢
  by_cases hb0 : mb = 0
  · rw [if_pos hb0] at hfin
    split at hfin
    · exact absurd hfin (by decide)
    · cases hn : na != nb <;> rw [hn] at hfin <;> exact absurd hfin (by decide)
  by_cases ha0 : ma = 0
  · rw [if_neg hb0, if_pos ha0, realScaled_fZero] at hne
    exact absurd rfl hne
  rw [if_neg hb0, if_neg ha0] at hfin hne ⊢
  have hma8 := hma.resolve_left ha0
  have hmb0 : (0 : ℝ) < mb := by exact_mod_cast Nat.pos_of_ne_zero hb0
  obtain ⟨hst, hbig⟩ := divExact_sticky hma8 (Nat.pos_of_ne_zero hb0) hmb'
  refine nearestReal_fRound hst (fun _ => hbig) ?_ ?_ hfin hne
  · rintro h0
    rw [h0, Int.cast_zero] at hvb
    have hu : (2 : ℝ) ^ eb ≠ 0 := by positivity
    cases nb <;> simp [hb0, hu] at hvb
  · push_cast [signOf_bne]
    rw [hva, hvb, zpow_sub₀ two_ne_zero, zpow_sub₀ two_ne_zero]
    have hsq : (signOf nb : ℝ) * signOf nb = 1 := by exact_mod_cast signOf_mul_self nb
    field_simp
    linear_combination (-signOf na * 2 ^ 200) * hsq

theorem nearestReal_fSub (hfin : realFinite (fSub a b).1 = true) (hne : realScaled (fSub a b).1 ≠ 0) :
    NearestReal (fSub a b).1 (realScaled a - realScaled b) 1 := by
  have h := nearestReal_fAdd ha (realFinite_xor_sign hb) hfin hne
  rwa [realScaled_xor_sign, ← Int.sub_eq_add_neg] at h

end

/-! Scaling and conversion. -/

theorem two_pow_toNat (n : Int) : (2 : ℝ) ^ n.toNat = 2 ^ n * 2 ^ (-n).toNat := by
  rw [← zpow_natCast, ← zpow_natCast, ← zpow_add₀ two_ne_zero]
  congr 1
  omega

theorem nearestReal_fScale {a : Word} (ha : realFinite a = true) (n : Int) (hfin : realFinite (fScale a n).1 = true)
    (hne : realScaled (fScale a n).1 ≠ 0) : NearestReal (fScale a n).1 (realScaled a * 2 ^ n.toNat) (2 ^ (-n).toNat) := by
  obtain ⟨neg, m, e, hu, hv, -⟩ := fin_of_realFinite ha
  have hscale : (fScale a n).1 = fRound neg m (e + n) := by rw [fScale, hu]; rfl
  rw [hscale] at hfin hne ⊢
  refine nearestReal_fRound (sticky_self _) (absurd rfl) (by positivity) ?_ hfin hne
  push_cast
  rw [hv, two_pow_toNat n, zpow_add₀ two_ne_zero]
  ring

theorem fRound_zero (neg : Bool) (e : Int) : fRound neg 0 e = fZero neg := if_pos rfl

theorem nearestReal_fOfInt (a : Word) : NearestReal (fOfInt a).1 (a.toInt * 2 ^ 200) 1 := by
  have hconv : (fOfInt a).1 = fRound (decide (a.toInt < 0)) a.toInt.natAbs 0 := rfl
  rw [hconv]
  by_cases h0 : a.toInt = 0
  · rw [h0]
    refine ⟨by decide, fun w _ => ?_⟩
    have hz : realScaled (fRound (decide ((0 : Int) < 0)) (0 : Int).natAbs 0) = 0 :=
      (congrArg realScaled (fRound_zero _ _)).trans (realScaled_fZero _)
    rw [hz]
    exact ⟨by simp, fun h hne => absurd (Int.natAbs_eq_zero.mp (by simpa using h.symm)) (by simpa using hne)⟩
  · have hN : a.toInt.natAbs ≠ 0 := Int.natAbs_ne_zero.mpr h0
    obtain ⟨q, E, he, hr⟩ := fRound_roundsTo (decide (a.toInt < 0)) 0 hN (sticky_self _) (absurd rfl)
    have hlo : 0 < E + 24 := hr.exponent_gt (by
      have : (1 : ℝ) ≤ a.toInt.natAbs := by exact_mod_cast Nat.pos_of_ne_zero hN
      simpa using this)
    have hhi : E + 22 < 32 := hr.exponent_lt (by
      have hlt : a.toInt.natAbs < 2 ^ 32 := by
        have := a.toInt_lt
        have := a.le_toInt
        omega
      rw [zpow_zero, mul_one]
      exact_mod_cast hlt)
    rw [he]
    refine nearestReal_fPack hr ⟨hr.1, hr.2.1, by omega, by omega⟩ one_ne_zero ?_
    have habs : (a.toInt : ℝ) = signOf (decide (a.toInt < 0)) * a.toInt.natAbs := by
      rw [← Int.cast_natCast a.toInt.natAbs, ← Int.cast_mul, signOf_natAbs]
    rw [Int.cast_mul, habs]
    push_cast
    ring

/-- The nearest integer, an even one on a tie. -/
theorem fInt_near (m : Nat) (e : Int) :
    (2 * fInt m e - 1 : ℝ) ≤ 2 * (m * 2 ^ e) ∧ 2 * (m * 2 ^ e : ℝ) ≤ 2 * fInt m e + 1 ∧
      (2 * (m * 2 ^ e : ℝ) = 2 * fInt m e - 1 ∨ 2 * (m * 2 ^ e : ℝ) = 2 * fInt m e + 1 → fInt m e % 2 = 0) := by
  unfold fInt
  split
  · next he =>
    have hp : (m : ℝ) * 2 ^ e = (m * 2 ^ e.toNat : Nat) := by
      push_cast
      rw [← zpow_natCast, Int.toNat_of_nonneg he]
    rw [hp]
    refine ⟨by linarith, by linarith, ?_⟩
    rintro (h | h) <;> linarith
  · next he =>
    obtain ⟨hlo, hhi, htie, -⟩ := roundShift_near (k := (-e).toNat) (sticky_self m) (absurd rfl)
    have hp : (2 : ℝ) ^ e * 2 ^ (-e).toNat = 1 := by
      rw [← zpow_natCast, Int.toNat_of_nonneg (by omega), ← zpow_add₀ two_ne_zero, Int.add_right_neg, zpow_zero]
    have hu : (0 : ℝ) < 2 ^ (-e).toNat := by positivity
    have hm : (m : ℝ) = m * 2 ^ e * 2 ^ (-e).toNat := by rw [mul_assoc, hp, mul_one]
    rw [hm, ← mul_assoc] at hlo hhi htie
    refine ⟨le_of_mul_le_mul_right hlo hu, le_of_mul_le_mul_right hhi hu, fun h => htie (h.imp (fun h => ?_) fun h => ?_)⟩
    · rw [h]
    · rw [h]

/-- The conversion of a finite number that is not invalid. -/
theorem fToInt_fin {a : Word} {neg : Bool} {m : Nat} {e : Int} (hu : fUnpack a = .fin neg m e) :
    fToInt a = if 2147483647 < signOf neg * fInt m e then (0x7FFFFFFF, true, false)
      else if signOf neg * fInt m e < -2147483648 then (0x80000000, true, false)
      else fOk (BitVec.ofInt 32 (signOf neg * fInt m e)) := by
  have hs : (if neg then -(fInt m e : Int) else fInt m e) = signOf neg * fInt m e := by cases neg <;> simp
  rw [← hs, fToInt, hu]

theorem fToInt_nearest {a : Word} (ha : realFinite a = true) (hok : (fToInt a).2.1 = false) :
    2 * ((fToInt a).1.toInt * 2 ^ 200 - realScaled a).natAbs ≤ 2 ^ 200 ∧
      (2 * ((fToInt a).1.toInt * 2 ^ 200 - realScaled a).natAbs = 2 ^ 200 → (fToInt a).1.toInt % 2 = 0) := by
  obtain ⟨neg, m, e, hu, hv, -⟩ := fin_of_realFinite ha
  obtain ⟨hlo, hhi, htie⟩ := fInt_near m e
  rw [fToInt_fin hu] at hok ⊢
  generalize fInt m e = i at *
  split at hok
  · cases hok
  split at hok
  · cases hok
  next h1 h2 =>
  rw [if_neg h1, if_neg h2, fOk, BitVec.toInt_ofInt, Int.bmod_eq_of_le (by omega) (by omega)]
  have hdist : ((signOf neg * (i : Int) * 2 ^ 200 - realScaled a).natAbs : ℝ) = |(i : ℝ) - m * 2 ^ e| * 2 ^ 200 := by
    have h := natAbs_signed neg i (realScaled a) (2 ^ 200) (z := m * 2 ^ e) (by rw [hv]; push_cast; ring)
    rw [h, abs_of_pos (by positivity : (0 : ℝ) < ((2 ^ 200 : Int) : ℝ))]
    norm_num
  generalize (signOf neg * (i : Int) * 2 ^ 200 - realScaled a).natAbs = k at hdist
  have hS : (0 : ℝ) < 2 ^ 200 := by positivity
  have habs : |(i : ℝ) - m * 2 ^ e| ≤ 1 / 2 := abs_le.mpr ⟨by linarith, by linarith⟩
  constructor
  · have hk : (2 * k : ℝ) ≤ 2 ^ 200 := by
      rw [hdist]
      nlinarith
    exact_mod_cast hk
  · intro heq
    have hk : (2 * k : ℝ) = 2 ^ 200 := by exact_mod_cast heq
    rw [hdist, ← mul_assoc] at hk
    have hhalf : 2 * |(i : ℝ) - m * 2 ^ e| = 1 := mul_right_cancel₀ hS.ne' (by linarith)
    have heven : i % 2 = 0 := htie (by
      rcases abs_cases ((i : ℝ) - m * 2 ^ e) with ⟨h, -⟩ | ⟨h, -⟩
      · left; linarith
      · right; linarith)
    obtain ⟨j, hj⟩ := Nat.dvd_of_mod_eq_zero heven
    cases neg
    · simp; omega
    · simp; omega

/-! The square root. -/

/-- The root that `sqrtBits` finds bit by bit is the integer square root. -/
theorem sqrtBits_spec (x n r : Nat) (hlo : r * r ≤ x) (hhi : x < (r + 2 ^ n) * (r + 2 ^ n)) :
    sqrtBits x n r * sqrtBits x n r ≤ x ∧ x < (sqrtBits x n r + 1) * (sqrtBits x n r + 1) := by
  induction n generalizing r with
  | zero => exact ⟨hlo, hhi⟩
  | succ n ih =>
    have hp : r + 2 ^ n + 2 ^ n = r + 2 ^ (n + 1) := by omega
    unfold sqrtBits
    dsimp only
    split
    · next h => exact ih _ h (hp ▸ hhi)
    · next h => exact ih _ hlo (Nat.lt_of_not_le h)

/-- What `sqrtExact` rounds stands for twice the root of `x`, and is long enough. -/
theorem sqrt_sticky {x : Nat} (hx : 2 ^ 75 ≤ x) (hx' : x < 2 ^ 80) :
    let r := sqrtBits x 40 0
    Sticky (2 * r + if r * r = x then 0 else 1) (2 * √(x : ℝ)) ∧ 2 ^ 25 ≤ 2 * r + if r * r = x then 0 else 1 := by
  intro r
  obtain ⟨hlo, hhi⟩ := sqrtBits_spec x 40 0 (Nat.zero_le _) (by omega)
  change r * r ≤ x at hlo
  change x < (r + 1) * (r + 1) at hhi
  constructor
  · refine sticky_of_floor (fun h => ?_) fun h => ?_
    · rw [← h, Nat.cast_mul, Real.sqrt_mul_self (by positivity)]
    · have h1 : (r : ℝ) < √(x : ℝ) := Real.lt_sqrt_of_sq_lt (by exact_mod_cast (by rw [sq]; omega : r ^ 2 < x))
      have h2 : √(x : ℝ) < r + 1 := (Real.sqrt_lt' (by positivity)).mpr (by exact_mod_cast (by rw [sq]; exact hhi : x < (r + 1) ^ 2))
      constructor <;> linarith
  · have : 2 ^ 24 ≤ r := by
      by_contra h
      have : (r + 1) * (r + 1) ≤ 2 ^ 24 * 2 ^ 24 := Nat.mul_le_mul (by omega) (by omega)
      omega
    omega

/-- The root that is delivered is the significand nearest to the exact root. -/
theorem sqrtExact_roundsTo {m : Nat} {e : Int} (h : Normal m e) :
    ∃ (q : Nat) (E : Int) (y : ℝ), sqrtExact m e = fPack false q E ∧ RoundsTo q E y ∧ 0 ≤ y ∧ y ^ 2 = m * 2 ^ e := by
  obtain ⟨hm, hm', -, -⟩ := h
  unfold sqrtExact
  extract_lets odd m' e' x r
  obtain ⟨j, hj, hx, hmx⟩ : ∃ j : Int, e' = 2 * j ∧ (2 ^ 75 ≤ x ∧ x < 2 ^ 80) ∧ (x : ℝ) * 2 ^ e' = m * 2 ^ e * 2 ^ 52 := by
    by_cases ho : odd
    · have hm2 : x = 2 * m * 2 ^ 52 := congrArg (· * 2 ^ 52) (if_pos ho)
      have he2 : e' = e - 1 := if_pos ho
      change e % 2 = 1 at ho
      refine ⟨e / 2, by omega, by omega, ?_⟩
      rw [hm2, he2, zpow_sub_one₀ two_ne_zero]
      push_cast
      ring
    · have hm2 : x = m * 2 ^ 52 := congrArg (· * 2 ^ 52) (if_neg ho)
      have he2 : e' = e := if_neg ho
      change ¬e % 2 = 1 at ho
      refine ⟨e / 2, by omega, by omega, ?_⟩
      rw [hm2, he2]
      push_cast
      ring
  obtain ⟨hst, hbig⟩ := sqrt_sticky hx.1 hx.2
  obtain ⟨q, E, he, hr⟩ := fRound_roundsTo false (e' / 2 - 27) (by omega) hst fun _ => hbig
  refine ⟨q, E, _, he, hr, by positivity, ?_⟩
  have hpow : ((2 : ℝ) ^ (e' / 2 - 27)) ^ 2 * (2 ^ 52 * 4) = 2 ^ e' := by
    have h54 : (2 : ℝ) ^ 52 * 4 = 2 ^ (54 : Int) := by norm_num
    rw [hj, Int.mul_ediv_cancel_left _ two_ne_zero, ← zpow_natCast, ← zpow_mul, h54, ← zpow_add₀ two_ne_zero]
    congr 1
    push_cast
    ring
  rw [mul_pow, mul_pow, Real.sq_sqrt (by positivity)]
  have h52 : (0 : ℝ) < 2 ^ 52 := by positivity
  refine mul_right_cancel₀ h52.ne' ?_
  rw [← hmx, ← hpow]
  ring

/-- The root of a normal number is normal. -/
theorem normal_of_root {m q : Nat} {e E : Int} {y : ℝ} (h : Normal m e) (hr : RoundsTo q E y) (hy0 : 0 ≤ y) (hy : y ^ 2 = m * 2 ^ e) :
    Normal q E := by
  obtain ⟨hm, hm', hlo, hhi⟩ := h
  have hgt : -63 < E + 24 := hr.exponent_gt (by
    refine (pow_le_pow_iff_left₀ (by positivity) hy0 two_ne_zero).mp ?_
    rw [hy]
    calc ((2 : ℝ) ^ (-63 : Int)) ^ 2 = 8388608 * 2 ^ (-149 : Int) := by norm_num
      _ ≤ m * 2 ^ e := mul_le_mul (by exact_mod_cast hm) (zpow_le_zpow_right₀ one_le_two hlo) (by positivity) (by positivity))
  have hlt : E + 22 < 64 := hr.exponent_lt (by
    refine (pow_lt_pow_iff_left₀ hy0 (by positivity) two_ne_zero).mp ?_
    rw [hy]
    calc (m : ℝ) * 2 ^ e < 16777216 * 2 ^ (104 : Int) :=
          mul_lt_mul (by exact_mod_cast hm') (zpow_le_zpow_right₀ one_le_two hhi) (by positivity) (by positivity)
      _ = ((2 : ℝ) ^ (64 : Int)) ^ 2 := by norm_num)
  exact ⟨hr.1, hr.2.1, by omega, by omega⟩

/-- The squares of the middles on both sides of a rounded number. -/
theorem RoundsTo.squares {q : Nat} {e : Int} {y : ℝ} (h : RoundsTo q e y) (he : -200 ≤ e) (hy : 0 ≤ y) {v : Int} (hv : OnGrid v)
    (hv0 : 0 ≤ v) :
    let m : Int := q * 2 ^ (e + 200).toNat + v
    (v < q * 2 ^ (e + 200).toNat → (m * m : ℝ) ≤ 4 * (y * 2 ^ 200) ^ 2) ∧
      (q * 2 ^ (e + 200).toNat < v → 4 * (y * 2 ^ 200) ^ 2 ≤ (m * m : ℝ)) := by
  have hp0 : (0 : Int) ≤ q * 2 ^ (e + 200).toNat := by positivity
  have hmiddle := h.middle he hv
  dsimp only at hmiddle ⊢
  generalize (q * 2 ^ (e + 200).toNat : Int) = p at *
  have hm0 : (0 : ℝ) ≤ p + v := by exact_mod_cast Int.add_nonneg hp0 hv0
  have hY : 0 ≤ y * 2 ^ 200 := by positivity
  push_cast
  refine ⟨fun hlt => ?_, fun hlt => ?_⟩
  · have hlt' : (v : ℝ) < p := by exact_mod_cast hlt
    obtain heq | ⟨⟨h', -⟩ | ⟨-, h'⟩, -⟩ := hmiddle
    · omega
    · exact absurd h' hlt'.asymm
    · nlinarith
  · have hlt' : (p : ℝ) < v := by exact_mod_cast hlt
    obtain heq | ⟨⟨-, h'⟩ | ⟨h', -⟩, -⟩ := hmiddle
    · omega
    · nlinarith
    · exact absurd h' hlt'.asymm

theorem fSqrt_fin {a : Word} {m : Nat} {e : Int} (hu : fUnpack a = .fin false m e) (hm : m ≠ 0) : fSqrt a = fOk (sqrtExact m e) := by
  rw [fSqrt, hu]
  exact if_neg hm

/-- A positive finite word stands for a normal number. -/
theorem fUnpack_positive {a : Word} (ha : realFinite a = true) (hpos : 0 < realScaled a) : ∃ m e, fUnpack a = .fin false m e ∧ Normal m e := by
  obtain hu | ⟨m, e, hu, hN⟩ := fUnpack_finite ha
  · rw [realScaled_fin hu] at hpos
    simp at hpos
  · cases hs : a.getLsbD 31 with
    | false => exact ⟨m, e, hs ▸ hu, hN⟩
    | true =>
      rw [realScaled_fin hu, hs, signOf_true] at hpos
      have : (0 : Int) ≤ m * 2 ^ (e + 200).toNat := by positivity
      omega

theorem fSqrt_nearest {a : Word} (ha : realFinite a = true) (hpos : 0 < realScaled a) :
    let r := (fSqrt a).1
    0 < realScaled r ∧ realFinite r = true ∧
      ∀ w, realFinite w = true → 0 ≤ realScaled w →
        let m := realScaled r + realScaled w
        (realScaled w < realScaled r → m * m ≤ 4 * realScaled a * 2 ^ 200) ∧
          (realScaled r < realScaled w → 4 * realScaled a * 2 ^ 200 ≤ m * m) := by
  obtain ⟨m, e, hu, hN⟩ := fUnpack_positive ha hpos
  obtain ⟨q, E, y, he, hr, hy0, hy⟩ := sqrtExact_roundsTo hN
  have hNE : Normal q E := normal_of_root hN hr hy0 hy
  obtain ⟨hfin, hval, -⟩ := fPack_normal false hNE
  obtain ⟨hm, -, hlo, -⟩ := hN
  obtain ⟨hq, -, hlo', -⟩ := hNE
  have hq0 : 0 < q := by omega
  have hval' : realScaled (fPack false q E) = q * 2 ^ (E + 200).toNat := (realScaled_fin hval).trans (Int.one_mul _)
  have ha' : realScaled a = m * 2 ^ (e + 200).toNat := (realScaled_fin hu).trans (Int.one_mul _)
  have hA : (4 * realScaled a * 2 ^ 200 : ℝ) = 4 * (y * 2 ^ 200) ^ 2 := by
    rw [ha', cast_scaled m (by omega), ← hy]
    ring
  rw [fSqrt_fin hu (by omega), he]
  simp only [fOk, hval']
  refine ⟨by positivity, hfin, fun w hw hw0 => ?_⟩
  have hgrid : OnGrid (realScaled w) := Int.one_mul (realScaled w) ▸ onGrid_realScaled hw false
  obtain ⟨hbelow, habove⟩ := hr.squares (by omega) hy0 hgrid hw0
  rw [← hA] at hbelow habove
  exact ⟨fun h => by exact_mod_cast hbelow h, fun h => by exact_mod_cast habove h⟩

/-- Settles O6: each operation hands the exact result, or the odd integer beside it, to `fRound`, which delivers the nearest finite number. -/
theorem realRoundsToNearest : Obligations.RealRoundsToNearest := fun a _ ha hb =>
  ⟨nearestReal_fAdd ha hb, nearestReal_fSub ha hb, nearestReal_fMul ha hb, nearestReal_fDiv ha hb, nearestReal_fScale ha,
    nearestReal_fOfInt a, fToInt_nearest ha, fSqrt_nearest ha⟩

end Sys2Proof.Machine
end

section
/-! PROOF. The kinds of REAL32 words, and which operations are invalid (04_instruction_semantics.md, R121, R124, R126). -/

namespace Sys2Proof.Machine

/-! The kinds of words (R121), each by what the word stands for. -/

def IsInf (w : Word) : Prop := field w 30 23 = 255 ∧ field w 22 0 = 0
def IsNan (w : Word) : Prop := field w 30 23 = 255 ∧ field w 22 0 ≠ 0
def IsSignalling (w : Word) : Prop := IsNan w ∧ w.getLsbD 22 = false
def IsQuiet (w : Word) : Prop := IsNan w ∧ w.getLsbD 22 = true
def IsZero (w : Word) : Prop := field w 30 23 = 0

/-- What a word stands for, by its kind. -/
theorem fUnpack_kind (w : Word) :
    (IsNan w ∧ fUnpack w = .nan !w.getLsbD 22) ∨ (IsInf w ∧ fUnpack w = .inf (w.getLsbD 31)) ∨
      (IsZero w ∧ fUnpack w = .fin (w.getLsbD 31) 0 0) ∨
      ∃ m e, ¬IsZero w ∧ realFinite w = true ∧ fUnpack w = .fin (w.getLsbD 31) (m + 1) e := by
  unfold IsNan IsInf IsZero realFinite fUnpack
  by_cases h255 : field w 30 23 = 255
  · by_cases hf : field w 22 0 = 0
    · exact .inr (.inl ⟨⟨h255, hf⟩, by simp only [h255, hf, if_true]⟩)
    · exact .inl ⟨⟨h255, hf⟩, by simp only [h255, hf, if_true, if_false]⟩
  · by_cases h0 : field w 30 23 = 0
    · exact .inr (.inr (.inl ⟨h0, by simp [h0]⟩))
    · exact .inr (.inr (.inr ⟨8388607 + field w 22 0, _, h0, bne_iff_ne.mpr h255, by
        simp only [h255, h0, if_false]
        congr 1
        omega⟩))

section
variable (w : Word)

theorem isNan_iff : IsNan w ↔ ∃ s, fUnpack w = .nan s := by
  rcases fUnpack_kind w with ⟨h, hu⟩ | ⟨h, hu⟩ | ⟨h, hu⟩ | ⟨m, e, -, h, hu⟩
  · simp [h, hu]
  · simp [hu, IsNan, h.2]
  · simp [hu, IsNan, show field w 30 23 = 0 from h]
  · simp [hu, IsNan, bne_iff_ne.mp h]

theorem isInf_iff : IsInf w ↔ ∃ s, fUnpack w = .inf s := by
  rcases fUnpack_kind w with ⟨h, hu⟩ | ⟨h, hu⟩ | ⟨h, hu⟩ | ⟨m, e, -, h, hu⟩
  · simp [hu, IsInf, h.2]
  · simp [h, hu]
  · simp [hu, IsInf, show field w 30 23 = 0 from h]
  · simp [hu, IsInf, bne_iff_ne.mp h]

theorem isZero_iff : IsZero w ↔ ∃ s e, fUnpack w = .fin s 0 e := by
  rcases fUnpack_kind w with ⟨h, hu⟩ | ⟨h, hu⟩ | ⟨h, hu⟩ | ⟨m, e, h, -, hu⟩
  · simp [hu, IsZero, h.1]
  · simp [hu, IsZero, h.1]
  · simp [h, hu]
  · simp [hu, h]

theorem isSignalling_iff : IsSignalling w ↔ fUnpack w = .nan true := by
  rcases fUnpack_kind w with ⟨h, hu⟩ | h
  · simp [IsSignalling, h, hu]
  · have hn : ¬IsNan w := fun hn => by
      obtain ⟨s, hs⟩ := (isNan_iff w).mp hn
      rcases h with ⟨-, hu⟩ | ⟨-, hu⟩ | ⟨m, e, -, -, hu⟩ <;> cases hs.symm.trans hu
    exact iff_of_false (fun h => hn h.1) fun h => hn ((isNan_iff w).mpr ⟨_, h⟩)

theorem isQuiet_iff : IsQuiet w ↔ fUnpack w = .nan false := by
  rcases fUnpack_kind w with ⟨h, hu⟩ | h
  · simp [IsQuiet, h, hu]
  · have hn : ¬IsNan w := fun hn => by
      obtain ⟨s, hs⟩ := (isNan_iff w).mp hn
      rcases h with ⟨-, hu⟩ | ⟨-, hu⟩ | ⟨m, e, -, -, hu⟩ <;> cases hs.symm.trans hu
    exact iff_of_false (fun h => hn h.1) fun h => hn ((isNan_iff w).mpr ⟨_, h⟩)

variable {w}

theorem sign_of_inf {s : Bool} (h : fUnpack w = .inf s) : w.getLsbD 31 = s := by
  rcases fUnpack_kind w with ⟨-, hu⟩ | ⟨-, hu⟩ | ⟨-, hu⟩ | ⟨m, e, -, -, hu⟩ <;> cases hu.symm.trans h
  rfl

theorem sign_of_fin {s : Bool} {m : Nat} {e : Int} (h : fUnpack w = .fin s m e) : w.getLsbD 31 = s := by
  rcases fUnpack_kind w with ⟨-, hu⟩ | ⟨-, hu⟩ | ⟨-, hu⟩ | ⟨m, e, -, -, hu⟩ <;> cases hu.symm.trans h
  · rfl
  · rfl

end

/-! The invalid operations (R124, R126). -/

/-- An invalid operation delivers the canonical NaN and sets no DZ. -/
def InvalidGivesNan (r : FRes) : Prop := r.2.1 = true → r.1 = 0x7FC00000 ∧ r.2.2 = false

@[simp] theorem invalidGivesNan_ok (w : Word) : InvalidGivesNan (fOk w) := nofun
@[simp] theorem invalidGivesNan_invalid : InvalidGivesNan fInvalid := fun _ => ⟨rfl, rfl⟩
@[simp] theorem invalidGivesNan_nan (s : Bool) : InvalidGivesNan (fNanRes s) := by cases s <;> simp [fNanRes]
@[simp] theorem invalidGivesNan_dz (w : Word) : InvalidGivesNan (w, false, true) := nofun

@[simp] theorem fOk_invalid (w : Word) : (fOk w).2.1 = false := rfl
@[simp] theorem fInvalid_invalid : fInvalid.2.1 = true := rfl
@[simp] theorem fNanRes_invalid (s : Bool) : (fNanRes s).2.1 = s := by cases s <;> rfl
@[simp] theorem fOk_dz (w : Word) : (fOk w).2.2 = false := rfl
@[simp] theorem fInvalid_dz : fInvalid.2.2 = false := rfl
@[simp] theorem fNanRes_dz (s : Bool) : (fNanRes s).2.2 = false := by cases s <;> rfl

theorem infs_iff (a b : Word) (p : Bool → Bool → Prop) :
    IsInf a ∧ IsInf b ∧ p (a.getLsbD 31) (b.getLsbD 31) ↔ ∃ s t, fUnpack a = .inf s ∧ fUnpack b = .inf t ∧ p s t := by
  rw [isInf_iff, isInf_iff]
  constructor
  · rintro ⟨⟨s, ha⟩, ⟨t, hb⟩, h⟩
    exact ⟨s, t, ha, hb, by rwa [sign_of_inf ha, sign_of_inf hb] at h⟩
  · rintro ⟨s, t, ha, hb, h⟩
    exact ⟨⟨s, ha⟩, ⟨t, hb⟩, by rwa [sign_of_inf ha, sign_of_inf hb]⟩

theorem fAdd_invalid (a b : Word) :
    ((fAdd a b).2.1 = true ↔ IsSignalling a ∨ IsSignalling b ∨ (IsInf a ∧ IsInf b ∧ a.getLsbD 31 ≠ b.getLsbD 31)) ∧
      InvalidGivesNan (fAdd a b) := by
  rw [isSignalling_iff, isSignalling_iff, infs_iff a b (· ≠ ·), fAdd]
  rcases fUnpack a with s | s | ⟨s, m, e⟩ <;> rcases fUnpack b with t | t | ⟨t, n, d⟩ <;> simp
  split <;> simp [*]

theorem isSignalling_xor_sign (w : Word) : IsSignalling (w ^^^ 0x80000000) ↔ IsSignalling w := by
  rw [isSignalling_iff, isSignalling_iff, fUnpack_xor_sign]
  cases fUnpack w <;> simp [negFlt]

theorem isInf_xor_sign (w : Word) : IsInf (w ^^^ 0x80000000) ↔ IsInf w := by
  rw [isInf_iff, isInf_iff, fUnpack_xor_sign]
  cases fUnpack w <;> simp [negFlt]

theorem fSub_invalid (a b : Word) :
    ((fSub a b).2.1 = true ↔ IsSignalling a ∨ IsSignalling b ∨ (IsInf a ∧ IsInf b ∧ a.getLsbD 31 = b.getLsbD 31)) ∧
      InvalidGivesNan (fSub a b) := by
  have h := fAdd_invalid a (b ^^^ 0x80000000)
  have hs : (b ^^^ 0x80000000).getLsbD 31 = !b.getLsbD 31 := by simp
  rwa [isSignalling_xor_sign, isInf_xor_sign, hs, Bool.ne_not] at h

theorem fMul_invalid (a b : Word) :
    ((fMul a b).2.1 = true ↔ IsSignalling a ∨ IsSignalling b ∨ (IsZero a ∧ IsInf b) ∨ (IsInf a ∧ IsZero b)) ∧
      InvalidGivesNan (fMul a b) := by
  rw [isSignalling_iff, isSignalling_iff, isInf_iff, isInf_iff, isZero_iff, isZero_iff, fMul]
  rcases fUnpack a with s | s | ⟨s, m, e⟩ <;> rcases fUnpack b with t | t | ⟨t, n, d⟩ <;> simp
  all_goals split <;> simp [*]

theorem fDiv_invalid (a b : Word) :
    ((fDiv a b).2.1 = true ↔ IsSignalling a ∨ IsSignalling b ∨ (IsZero a ∧ IsZero b) ∨ (IsInf a ∧ IsInf b)) ∧
      InvalidGivesNan (fDiv a b) := by
  rw [isSignalling_iff, isSignalling_iff, isInf_iff, isInf_iff, isZero_iff, isZero_iff, fDiv]
  rcases fUnpack a with s | s | ⟨s, m, e⟩ <;> rcases fUnpack b with t | t | ⟨t, n, d⟩ <;> simp
  split <;> split <;> simp [*]

theorem fDiv_zeroDivisor (a b : Word) :
    ((fDiv a b).2.2 = true ↔ IsZero b ∧ ¬IsZero a ∧ ¬IsInf a ∧ ¬IsNan a) ∧
      (IsZero b → ¬IsZero a → ¬IsInf a → ¬IsNan a → (fDiv a b).1 = if a.getLsbD 31 != b.getLsbD 31 then 0xFF800000 else 0x7F800000) := by
  rw [isNan_iff, isInf_iff, isZero_iff, isZero_iff, fDiv]
  rcases ha : fUnpack a with s | s | ⟨s, m, e⟩
  · rcases fUnpack b with t | t | ⟨t, n, d⟩ <;> simp
  · rcases fUnpack b with t | t | ⟨t, n, d⟩ <;> simp
  · rcases hb : fUnpack b with t | t | ⟨t, n, d⟩
    · simp
    · simp
    · rw [sign_of_fin ha, sign_of_fin hb]
      by_cases hn : n = 0 <;> by_cases hm : m = 0 <;> simp [hn, hm, fInf, fSign]

theorem fSqrt_invalid (a : Word) :
    ((fSqrt a).2.1 = true ↔ IsSignalling a ∨ (¬IsNan a ∧ ¬IsZero a ∧ a.getLsbD 31 = true)) ∧ InvalidGivesNan (fSqrt a) := by
  rw [isSignalling_iff, isNan_iff, isZero_iff, fSqrt]
  rcases ha : fUnpack a with s | s | ⟨s, m, e⟩
  · simp
  · rw [sign_of_inf ha]
    cases s <;> simp
  · rw [sign_of_fin ha]
    by_cases hm : m = 0 <;> cases s <;> simp [hm]

theorem fScale_invalid (a : Word) (n : Int) : ((fScale a n).2.1 = true ↔ IsSignalling a) ∧ InvalidGivesNan (fScale a n) := by
  rw [isSignalling_iff, fScale]
  rcases fUnpack a with s | s | ⟨s, m, e⟩ <;> simp

theorem fIsNan_iff (w : Word) : fIsNan w = true ↔ IsNan w := by
  rw [isNan_iff, fIsNan]
  cases fUnpack w <;> simp

theorem fIsSnan_iff (w : Word) : fIsSnan w = true ↔ IsSignalling w := by
  rw [isSignalling_iff, fIsSnan]
  cases fUnpack w <;> simp

theorem fPick_invalid (lt : Int → Int → Bool) (neg : Bool) (a b : Word) :
    ((fPick lt neg a b).2.1 = true ↔ IsSignalling a ∨ IsSignalling b) ∧ InvalidGivesNan (fPick lt neg a b) := by
  rw [← fIsSnan_iff, ← fIsSnan_iff, ← Bool.or_eq_true, fPick]
  split
  · simp [*]
  · next h =>
    rw [iff_false_intro h]
    repeat' split
    all_goals simp

theorem fLim_invalid (a b h : Word) : ((fLim a b h).2.1 = true ↔ IsNan a ∨ IsNan b ∨ IsNan h) ∧ InvalidGivesNan (fLim a b h) := by
  rw [← fIsNan_iff, ← fIsNan_iff, ← fIsNan_iff, ← Bool.or_eq_true, ← Bool.or_eq_true, ← Bool.or_assoc, fLim]
  split
  · simp [*]
  · next h =>
    rw [iff_false_intro h]
    repeat' split
    all_goals simp

/-! The conversion to an integer (R124). -/

theorem fToInt_nan {a : Word} (h : IsNan a) : fToInt a = (0, true, false) := by
  obtain ⟨s, hs⟩ := (isNan_iff a).mp h
  rw [fToInt, hs]

/-- The nearest integer reaches an even number where the number reaches the middle below it, and passes it past the middle above. -/
theorem fInt_bounds (m : Nat) (e : Int) {k : Nat} (hk : k % 2 = 0) :
    (k ≤ fInt m e ↔ (2 * k - 1 : ℝ) ≤ 2 * (m * 2 ^ e)) ∧ (k < fInt m e ↔ (2 * k + 1 : ℝ) < 2 * (m * 2 ^ e)) := by
  obtain ⟨hlo, hhi, htie⟩ := fInt_near m e
  generalize fInt m e = i at *
  constructor
  · constructor
    · intro h
      have : (k : ℝ) ≤ i := by exact_mod_cast h
      linarith
    · intro h
      by_contra hlt
      have hi : (i : ℝ) + 1 ≤ k := by exact_mod_cast Nat.lt_of_not_le hlt
      have heven := htie (.inr (by linarith))
      have hne : i + 1 ≠ k := by omega
      have hi : (i : ℝ) + 2 ≤ k := by exact_mod_cast (by omega : i + 2 ≤ k)
      linarith
  · constructor
    · intro h
      have hi : (k : ℝ) + 1 ≤ i := by exact_mod_cast h
      refine lt_of_le_of_ne (by linarith) fun heq => ?_
      have heven := htie (.inl (by linarith))
      have hi : (k : ℝ) + 2 ≤ i := by exact_mod_cast (by omega : k + 2 ≤ i)
      linarith
    · intro h
      by_contra hle
      have hi : (i : ℝ) ≤ k := by exact_mod_cast Nat.le_of_not_lt hle
      linarith

theorem fInt_above (s : Bool) (m : Nat) (e : Int) :
    2147483647 < signOf s * (fInt m e : Int) ↔ (2 ^ 32 - 1) * 2 ^ 200 ≤ 2 * (signOf s * (m * 2 ^ e * 2 ^ 200) : ℝ) := by
  have hge := (fInt_bounds m e (k := 2147483648) (by decide)).1
  have hz : (0 : ℝ) ≤ m * 2 ^ e := by positivity
  cases s
  · have hi : 2147483647 < signOf false * (fInt m e : Int) ↔ 2147483648 ≤ fInt m e := by rw [signOf_false]; omega
    rw [hi, hge, signOf_false, Int.cast_one]
    constructor <;> intro h <;> norm_num at h ⊢ <;> linarith
  · rw [signOf_true]
    refine iff_of_false (by omega) ?_
    push_cast
    linarith

theorem fInt_below (s : Bool) (m : Nat) (e : Int) :
    signOf s * (fInt m e : Int) < -2147483648 ↔ 2 * (signOf s * (m * 2 ^ e * 2 ^ 200) : ℝ) < -(2 ^ 32 + 1) * 2 ^ 200 := by
  have hgt := (fInt_bounds m e (k := 2147483648) (by decide)).2
  have hz : (0 : ℝ) ≤ m * 2 ^ e := by positivity
  cases s
  · rw [signOf_false]
    refine iff_of_false (by omega) ?_
    push_cast
    linarith
  · have hi : signOf true * (fInt m e : Int) < -2147483648 ↔ 2147483648 < fInt m e := by rw [signOf_true]; omega
    rw [hi, hgt, signOf_true, Int.cast_neg, Int.cast_one]
    constructor <;> intro h <;> norm_num at h ⊢ <;> linarith

theorem fToInt_invalid {a : Word} (h : ¬IsNan a) :
    ((fToInt a).2.1 = true ↔
        IsInf a ∨ (2 * realScaled a ≥ (2 ^ 32 - 1) * 2 ^ 200) ∨ (2 * realScaled a < -(2 ^ 32 + 1) * 2 ^ 200)) ∧
      ((fToInt a).2.1 = true → (fToInt a).1 = if a.getLsbD 31 then 0x80000000 else 0x7FFFFFFF) := by
  rw [isNan_iff] at h
  rw [isInf_iff]
  rcases ha : fUnpack a with s | s | ⟨s, m, e⟩
  · exact absurd ⟨s, ha⟩ h
  · rw [fToInt, ha, sign_of_inf ha]
    simp
  · obtain ⟨s', m', e', ha', hv, -⟩ := fin_of_realFinite ((realFinite_iff a).mpr ⟨_, _, _, ha⟩)
    cases ha'.symm.trans ha
    have habove : 2 * realScaled a ≥ (2 ^ 32 - 1) * 2 ^ 200 ↔ 2147483647 < signOf s * (fInt m e : Int) := by
      rw [fInt_above, ← hv]
      exact_mod_cast Iff.rfl
    have hbelow : 2 * realScaled a < -(2 ^ 32 + 1) * 2 ^ 200 ↔ signOf s * (fInt m e : Int) < -2147483648 := by
      rw [fInt_below, ← hv]
      exact_mod_cast Iff.rfl
    rw [fToInt_fin ha, sign_of_fin ha, habove, hbelow]
    by_cases h1 : 2147483647 < signOf s * (fInt m e : Int)
    · have hs : s = false := by
        cases s
        · rfl
        · rw [signOf_true] at h1
          omega
      rw [if_pos h1, hs]
      exact ⟨iff_of_true rfl (.inr (.inl (hs ▸ h1))), fun _ => rfl⟩
    · rw [if_neg h1]
      by_cases h2 : signOf s * (fInt m e : Int) < -2147483648
      · have hs : s = true := by
          cases s
          · rw [signOf_false] at h2
            omega
          · rfl
        rw [if_pos h2, hs]
        exact ⟨iff_of_true rfl (.inr (.inr (hs ▸ h2))), fun _ => rfl⟩
      · rw [if_neg h2]
        simp [h1, h2]

end Sys2Proof.Machine
end

section
/-! PROOF. The corner values of REAL32: subnormal words, results beyond the range, NaN operands, and the order that FMIN, FMAX, FLIM and FCMP
go by (04_instruction_semantics.md, R121 to R123, R125). -/

namespace Sys2Proof.Machine

/-! Subnormal operands (R121). -/

theorem fFlush_zero {w : Word} (h : IsZero w) : fFlush w = fZero (w.getLsbD 31) := if_pos h

theorem fZero_eq (neg : Bool) : fZero neg = if neg then 0x80000000 else 0 := by cases neg <;> rfl

theorem fFlush_other {w : Word} (h : ¬IsZero w) : fFlush w = w := if_neg h

@[simp] theorem fUnpack_fFlush (w : Word) : fUnpack (fFlush w) = fUnpack w := by
  by_cases h : IsZero w
  · obtain ⟨s, e, hu⟩ := (isZero_iff w).mp h
    have h0 : fUnpack w = .fin (w.getLsbD 31) 0 0 := by
      rw [fUnpack, show field w 30 23 = 0 from h]
      rfl
    rw [fFlush_zero h, fZero_zero, h0]
  · rw [fFlush_other h]

theorem fAdd_congr {a b c d : Word} (ha : fUnpack a = fUnpack c) (hb : fUnpack b = fUnpack d) : fAdd a b = fAdd c d := by
  rw [fAdd, fAdd, ha, hb]

theorem fSub_congr {a b c d : Word} (ha : fUnpack a = fUnpack c) (hb : fUnpack b = fUnpack d) : fSub a b = fSub c d :=
  fAdd_congr ha (by rw [fUnpack_xor_sign, fUnpack_xor_sign, hb])

theorem fMul_congr {a b c d : Word} (ha : fUnpack a = fUnpack c) (hb : fUnpack b = fUnpack d) : fMul a b = fMul c d := by
  rw [fMul, fMul, ha, hb]

theorem fDiv_congr {a b c d : Word} (ha : fUnpack a = fUnpack c) (hb : fUnpack b = fUnpack d) : fDiv a b = fDiv c d := by
  rw [fDiv, fDiv, ha, hb]

theorem fSqrt_congr {a c : Word} (ha : fUnpack a = fUnpack c) : fSqrt a = fSqrt c := by rw [fSqrt, fSqrt, ha]

theorem fToInt_congr {a c : Word} (ha : fUnpack a = fUnpack c) : fToInt a = fToInt c := by rw [fToInt, fToInt, ha]

/-! Delivered words: no subnormal, and no NaN but the canonical one (R121, R123). -/

/-- A word that a REAL32 operation may deliver. -/
def Delivered (r : Word) : Prop := (field r 30 23 = 0 → field r 22 0 = 0) ∧ (IsNan r → r = 0x7FC00000)

@[simp] theorem delivered_fNan : Delivered fNan := ⟨by decide, fun _ => rfl⟩

@[simp] theorem delivered_fZero (neg : Bool) : Delivered (fZero neg) := by
  cases neg <;> exact ⟨by decide, fun h => absurd h.1 (by decide)⟩

@[simp] theorem delivered_fInf (neg : Bool) : Delivered (fInf neg) := by
  cases neg <;> exact ⟨by decide, fun h => absurd h.2 (by decide)⟩

/-- A word that is neither subnormal nor a NaN. -/
theorem delivered_other {w : Word} (hz : ¬IsZero w) (hn : ¬IsNan w) : Delivered w := ⟨fun h => absurd h hz, fun h => absurd h hn⟩

theorem delivered_fFlush {w : Word} (hn : ¬IsNan w) : Delivered (fFlush w) := by
  unfold fFlush
  split
  · exact delivered_fZero _
  · exact delivered_other ‹_› hn

theorem delivered_fPack (neg : Bool) {q : Nat} {e : Int} (hq : 8388608 ≤ q) (hq' : q < 16777216) : Delivered (fPack neg q e) := by
  by_cases h : Normal q e
  · obtain ⟨-, hu, -⟩ := fPack_normal neg h
    refine delivered_other ?_ ?_
    · rw [isZero_iff, hu]
      rintro ⟨s, e', he⟩
      cases he
      omega
    · rw [isNan_iff, hu]
      rintro ⟨s, hs⟩
      cases hs
  · unfold fPack
    split
    · exact delivered_fInf _
    · split
      · exact delivered_fZero _
      · exact absurd ⟨hq, hq', by omega, by omega⟩ h

@[simp] theorem delivered_fRound (neg : Bool) (m : Nat) (e : Int) : Delivered (fRound neg m e) := by
  by_cases hm : m = 0
  · rw [hm, fRound_zero]
    exact delivered_fZero _
  · obtain ⟨q, E, he, hr⟩ := fRound_roundsTo neg e hm (sticky_self m) (absurd rfl)
    rw [he]
    exact delivered_fPack neg hr.1 hr.2.1

@[simp] theorem fOk_word (w : Word) : (fOk w).1 = w := rfl
@[simp] theorem fInvalid_word : fInvalid.1 = fNan := rfl
@[simp] theorem fNanRes_word (s : Bool) : (fNanRes s).1 = fNan := by cases s <;> rfl

theorem delivered_addExact (na : Bool) (ma : Nat) (ea : Int) (nb : Bool) (mb : Nat) (eb : Int) : Delivered (addExact na ma ea nb mb eb) := by
  obtain ⟨v, hv, -⟩ := addExact_eq na ma ea nb mb eb
  rw [hv]
  split <;> simp

theorem delivered_fAdd (a b : Word) : Delivered (fAdd a b).1 := by
  rw [fAdd]
  rcases fUnpack a with s | s | ⟨s, m, e⟩ <;> rcases fUnpack b with t | t | ⟨t, n, d⟩ <;> simp [delivered_addExact]
  split <;> simp

theorem delivered_fMul (a b : Word) : Delivered (fMul a b).1 := by
  rw [fMul]
  rcases fUnpack a with s | s | ⟨s, m, e⟩ <;> rcases fUnpack b with t | t | ⟨t, n, d⟩ <;> simp
  all_goals split <;> simp

theorem delivered_fDiv (a b : Word) : Delivered (fDiv a b).1 := by
  rw [fDiv]
  rcases fUnpack a with s | s | ⟨s, m, e⟩ <;> rcases fUnpack b with t | t | ⟨t, n, d⟩ <;> simp
  split <;> split <;> simp [divExact]

theorem delivered_fSqrt (a : Word) : Delivered (fSqrt a).1 := by
  rw [fSqrt]
  rcases fUnpack a with s | s | ⟨s, m, e⟩
  · simp
  · cases s <;> simp
  · by_cases hm : m = 0 <;> cases s <;> simp [hm, sqrtExact]

theorem delivered_fPick (lt : Int → Int → Bool) (neg : Bool) (a b : Word) : Delivered (fPick lt neg a b).1 := by
  have hnan (w : Word) (h : ¬fIsNan w = true) : Delivered (fFlush w) := delivered_fFlush (mt (fIsNan_iff w).mpr h)
  unfold fPick
  split
  · simp
  split
  · split
    · simp
    · simp [hnan _ ‹_›]
  next ha =>
  split
  · simp [hnan _ ha]
  next hb =>
  repeat' split
  all_goals simp [hnan _ ha, hnan _ hb]

theorem delivered_fLim (a b h : Word) : Delivered (fLim a b h).1 := by
  have hnan (w : Word) (h : fIsNan w = false) : Delivered (fFlush w) := delivered_fFlush fun h' => by simp [(fIsNan_iff w).mpr h'] at h
  unfold fLim
  split
  · simp
  next hn =>
  simp only [Bool.or_eq_true, not_or, Bool.not_eq_true] at hn
  obtain ⟨⟨ha, hb⟩, hh⟩ := hn
  repeat' split
  all_goals simp [hnan _ ha, hnan _ hb, hnan _ hh]

/-! Quiet NaNs (R123). -/

theorem quiet_of_nan {b : Word} (hb : ¬IsNan b ∨ IsQuiet b) {t : Bool} (hu : fUnpack b = .nan t) : t = false := by
  rw [isNan_iff, isQuiet_iff, hu] at hb
  simpa using hb

section
variable {a : Word} (ha : IsQuiet a) {b : Word} (hb : ¬IsNan b ∨ IsQuiet b)
include ha

theorem fSqrt_quiet : fSqrt a = (0x7FC00000, false, false) := by
  rw [fSqrt, (isQuiet_iff a).mp ha]
  rfl

include hb

theorem fAdd_quiet : fAdd a b = (0x7FC00000, false, false) := by
  rw [fAdd, (isQuiet_iff a).mp ha]
  rcases hu : fUnpack b with t | t | ⟨t, n, d⟩
  · rw [quiet_of_nan hb hu]
    rfl
  · rfl
  · rfl

theorem fMul_quiet : fMul a b = (0x7FC00000, false, false) := by
  rw [fMul, (isQuiet_iff a).mp ha]
  rcases hu : fUnpack b with t | t | ⟨t, n, d⟩
  · rw [quiet_of_nan hb hu]
    rfl
  · rfl
  · rfl

theorem fDiv_quiet : fDiv a b = (0x7FC00000, false, false) := by
  rw [fDiv, (isQuiet_iff a).mp ha]
  rcases hu : fUnpack b with t | t | ⟨t, n, d⟩
  · rw [quiet_of_nan hb hu]
    rfl
  · rfl
  · rfl

end

/-! Results beyond the range (R121, R122). -/

/-- A number of 2^128 or more is delivered as an infinity. -/
theorem fRound_overflow {m : Nat} {e : Int} (neg : Bool) (h : (2 : ℝ) ^ (128 : Int) ≤ m * 2 ^ e) : fRound neg m e = fInf neg := by
  have hm : m ≠ 0 := by
    rintro rfl
    rw [Nat.cast_zero, zero_mul] at h
    exact absurd h (not_le.mpr (by positivity))
  obtain ⟨q, E, he, hr⟩ := fRound_roundsTo neg e hm (sticky_self m) (absurd rfl)
  have := hr.exponent_gt h
  rw [he, fPack, if_pos (by omega)]

/-- A number below 2^-127 is delivered as a zero. -/
theorem fRound_underflow {m : Nat} {e : Int} (neg : Bool) (h : (m * 2 ^ e : ℝ) < 2 ^ (-127 : Int)) : fRound neg m e = fZero neg := by
  by_cases hm : m = 0
  · rw [hm, fRound_zero]
  obtain ⟨q, E, he, hr⟩ := fRound_roundsTo neg e hm (sticky_self m) (absurd rfl)
  have := hr.exponent_lt h
  rw [he, fPack, if_neg (by omega), if_pos (by omega)]

theorem fAdd_overflow {a b : Word} (ha : realFinite a = true) (hb : realFinite b = true) (h : realScaled a + realScaled b ≥ 2 ^ 328) :
    (fAdd a b).1 = 0x7F800000 := by
  obtain ⟨na, ma, ea, hua, hva, -⟩ := fin_of_realFinite ha
  obtain ⟨nb, mb, eb, hub, hvb, -⟩ := fin_of_realFinite hb
  obtain ⟨v, hv, hsum⟩ := addExact_eq na ma ea nb mb eb
  have hadd : (fAdd a b).1 = addExact na ma ea nb mb eb := by rw [fAdd, hua, hub]; rfl
  have hu : (0 : ℝ) < 2 ^ min ea eb := by positivity
  have hbig : (2 : ℝ) ^ (128 : Int) ≤ v * 2 ^ min ea eb := by
    have h' : ((2 ^ 328 : Int) : ℝ) ≤ (realScaled a + realScaled b : Int) := Int.cast_le.mpr h
    have h328 : (2 : ℝ) ^ 328 = 2 ^ 128 * 2 ^ 200 := pow_add 2 128 200
    rw [Int.cast_pow, Int.cast_ofNat, h328, Int.cast_add, hva, hvb] at h'
    rw [hsum]
    refine le_of_mul_le_mul_right ?_ (by positivity : (0 : ℝ) < 2 ^ 200)
    exact h'.trans_eq (by ring)
  have hpos : 0 < v := by
    have h0 : (0 : ℝ) < v * 2 ^ min ea eb := lt_of_lt_of_le (by positivity) hbig
    exact_mod_cast (pos_iff_pos_of_mul_pos h0).mpr hu
  rw [hadd, hv, if_neg hpos.ne', decide_eq_false (by omega), fRound_overflow]
  · rfl
  · have habs : (v : ℝ) = v.natAbs := by rw [← Int.cast_natCast v.natAbs, Int.natAbs_of_nonneg hpos.le]
    rwa [habs] at hbig

theorem fMul_underflow {a b : Word} (ha : realFinite a = true) (hb : realFinite b = true) (hpos : 0 < realScaled a * realScaled b)
    (h : realScaled a * realScaled b < 2 ^ 273) : (fMul a b).1 = 0 := by
  obtain ⟨na, ma, ea, hua, hva, -⟩ := fin_of_realFinite ha
  obtain ⟨nb, mb, eb, hub, hvb, -⟩ := fin_of_realFinite hb
  have hmul : (fMul a b).1 = fRound (na != nb) (ma * mb) (ea + eb) := by rw [fMul, hua, hub]; rfl
  have hprod : ((realScaled a * realScaled b : Int) : ℝ) = signOf (na != nb) * ((ma * mb : Nat) * 2 ^ (ea + eb)) * (2 ^ 200 * 2 ^ 200) := by
    push_cast [signOf_bne, zpow_add₀ (two_ne_zero (α := ℝ))]
    rw [hva, hvb]
    ring
  have hnn : (0 : ℝ) ≤ (ma * mb : Nat) * 2 ^ (ea + eb) := by positivity
  have hpos' : (0 : ℝ) < (realScaled a * realScaled b : Int) := by exact_mod_cast hpos
  have hsign : (na != nb) = false := by
    by_contra hn
    rw [hprod, eq_true_of_ne_false hn, signOf_true] at hpos'
    push_cast at hpos' hnn
    linarith
  rw [hsign, signOf_false, Int.cast_one, one_mul] at hprod
  rw [hmul, hsign, fRound_underflow]
  · rfl
  · refine lt_of_mul_lt_mul_right ?_ (by positivity : (0 : ℝ) ≤ 2 ^ 200 * 2 ^ 200)
    have h273 : (2 : ℝ) ^ (-127 : Int) * (2 ^ 200 * 2 ^ 200) = 2 ^ 273 := by
      have h400 : (2 : ℝ) ^ 200 * 2 ^ 200 = 2 ^ 127 * 2 ^ 273 := (pow_add 2 200 200).symm.trans (pow_add 2 127 273)
      rw [h400, zpow_neg]
      exact inv_mul_cancel_left₀ (by positivity) _
    have hlt : ((realScaled a * realScaled b : Int) : ℝ) < (2 ^ 273 : Int) := Int.cast_lt.mpr h
    rwa [← hprod, h273, ← Int.cast_ofNat, ← Int.cast_pow]

/-! The order of the numbers (R125). -/

/-- The magnitude, scaled by 2^200, of the word with these low 31 bits. -/
def magnitude (k : Nat) : Nat := if k = 0 then 0 else (8388608 + k % 8388608) * 2 ^ (k / 8388608 + 50)

theorem magnitude_strictMono : StrictMono magnitude := by
  refine strictMono_nat_of_lt_succ fun k => ?_
  have hp : 0 < 2 ^ (k / 8388608 + 50) := by positivity
  unfold magnitude
  rw [if_neg (Nat.succ_ne_zero k)]
  split
  · exact Nat.mul_pos (by omega) (Nat.two_pow_pos _)
  · by_cases hc : k % 8388608 = 8388607
    · have hd : (k + 1) / 8388608 + 50 = k / 8388608 + 50 + 1 := by omega
      rw [hd, pow_succ 2 (k / 8388608 + 50), show (k + 1) % 8388608 = 0 by omega, hc]
      generalize 2 ^ (k / 8388608 + 50) = u at hp ⊢
      omega
    · have hd : (k + 1) / 8388608 = k / 8388608 := by omega
      rw [hd, show (k + 1) % 8388608 = k % 8388608 + 1 by omega]
      exact Nat.mul_lt_mul_of_pos_right (by omega) hp

/-- The key that orders numbers, and the number that it stands for. -/
theorem fKey_eq {w : Word} (h : realFinite w = true) :
    ∃ (neg : Bool) (k : Nat), fKey w = signOf neg * k ∧ realScaled w = signOf neg * magnitude k := by
  refine ⟨w.getLsbD 31, field (fFlush w) 30 0, ?_, ?_⟩
  · rw [fKey]
    cases w.getLsbD 31 <;> simp
  · by_cases hz : IsZero w
    · obtain ⟨s, e, hu⟩ := (isZero_iff w).mp hz
      have hk : field (fFlush w) 30 0 = 0 := by
        rw [fFlush_zero hz]
        cases w.getLsbD 31 <;> rfl
      rw [hk, realScaled_fin hu]
      simp [magnitude]
    · have hx := field_exponent w
      have hf := field_fraction w
      have h255 : field w 30 23 ≠ 255 := bne_iff_ne.mp h
      have h0 : field w 30 23 ≠ 0 := hz
      have hk : field w 30 0 = w.toNat % 2147483648 := rfl
      have hu : fUnpack w = .fin (w.getLsbD 31) (8388608 + field w 22 0) ((field w 30 23 : Int) - 150) := by
        rw [fUnpack]
        simp only [h255, h0, if_false]
      rw [fFlush_other hz, realScaled_fin hu, hk, magnitude, if_neg (by omega), ← hx, ← hf,
        show ((field w 30 23 : Int) - 150 + 200).toNat = field w 30 23 + 50 by omega]
      push_cast
      rfl

/-- Numbers are in the order of their keys. -/
theorem fKey_lt_iff {a b : Word} (ha : realFinite a = true) (hb : realFinite b = true) : fKey a < fKey b ↔ realScaled a < realScaled b := by
  obtain ⟨s, k, hka, hva⟩ := fKey_eq ha
  obtain ⟨t, n, hkb, hvb⟩ := fKey_eq hb
  have hlt : magnitude k < magnitude n ↔ k < n := magnitude_strictMono.lt_iff_lt
  have hgt : magnitude n < magnitude k ↔ n < k := magnitude_strictMono.lt_iff_lt
  have hk0 : magnitude 0 < magnitude k ↔ 0 < k := magnitude_strictMono.lt_iff_lt
  have hn0 : magnitude 0 < magnitude n ↔ 0 < n := magnitude_strictMono.lt_iff_lt
  have h0 : magnitude 0 = 0 := rfl
  rw [hka, hkb, hva, hvb]
  cases s <;> cases t <;> simp only [signOf_false, signOf_true] <;> omega

theorem fKey_eq_iff {a b : Word} (ha : realFinite a = true) (hb : realFinite b = true) : fKey a = fKey b ↔ realScaled a = realScaled b := by
  have h1 := fKey_lt_iff ha hb
  have h2 := fKey_lt_iff hb ha
  omega

/-! FMIN, FMAX, FLIM and FCMP. -/

theorem fIsNan_false {w : Word} (h : ¬IsNan w) : fIsNan w = false := eq_false_of_ne_true (mt (fIsNan_iff w).mp h)

theorem fIsSnan_false {w : Word} (h : ¬IsNan w ∨ IsQuiet w) : fIsSnan w = false := by
  refine eq_false_of_ne_true fun hs => ?_
  have hs' := (fIsSnan_iff w).mp hs
  rcases h with h | h
  · exact h hs'.1
  · exact absurd (h.2.symm.trans hs'.2) (by decide)

theorem not_isNan_of_finite {w : Word} (h : realFinite w = true) : ¬IsNan w := fun hn => bne_iff_ne.mp h hn.1

section
variable (lt : Int → Int → Bool) (neg : Bool) {a b : Word}

/-- A quiet NaN gives way to the other operand. -/
theorem fPick_quiet_left (ha : IsQuiet a) (hb : ¬IsNan b) : fPick lt neg a b = (fFlush b, false, false) := by
  rw [fPick, fIsSnan_false (.inr ha), fIsSnan_false (.inl hb), (fIsNan_iff a).mpr ha.1, fIsNan_false hb]
  rfl

theorem fPick_quiet_right (hb : IsQuiet b) (ha : ¬IsNan a) : fPick lt neg a b = (fFlush a, false, false) := by
  rw [fPick, fIsSnan_false (.inl ha), fIsSnan_false (.inr hb), (fIsNan_iff b).mpr hb.1, fIsNan_false ha]
  rfl

theorem fPick_quiet (ha : IsQuiet a) (hb : IsQuiet b) : fPick lt neg a b = (0x7FC00000, false, false) := by
  rw [fPick, fIsSnan_false (.inr ha), fIsSnan_false (.inr hb), (fIsNan_iff a).mpr ha.1, (fIsNan_iff b).mpr hb.1]
  rfl

theorem fPick_numbers (ha : ¬IsNan a) (hb : ¬IsNan b) :
    (fPick lt neg a b).1 = if lt (fKey a) (fKey b) then fFlush a else if lt (fKey b) (fKey a) then fFlush b
      else if a.getLsbD 31 = neg then fFlush a else fFlush b := by
  rw [fPick, fIsSnan_false (.inl ha), fIsSnan_false (.inl hb), fIsNan_false ha, fIsNan_false hb]
  simp only [Bool.or_self, Bool.false_eq_true, if_false]
  split
  · rfl
  split
  · rfl
  split <;> rfl

end

section
variable {a b : Word} (ha : realFinite a = true) (hb : realFinite b = true)
include ha hb

/-- FMIN delivers the lesser number and FMAX the greater, whichever operand it is. -/
theorem minMax_of_lt (h : realScaled a < realScaled b) :
    (fMin a b).1 = fFlush a ∧ (fMin b a).1 = fFlush a ∧ (fMax a b).1 = fFlush b ∧ (fMax b a).1 = fFlush b := by
  have hna := not_isNan_of_finite ha
  have hnb := not_isNan_of_finite hb
  have hk : fKey a < fKey b := (fKey_lt_iff ha hb).mpr h
  simp only [fMin, fMax, fPick_numbers _ _ hna hnb, fPick_numbers _ _ hnb hna, decide_eq_true hk, decide_eq_false hk.asymm, if_true,
    Bool.false_eq_true, if_false, and_self]

theorem fLim_numbers {h : Word} (hh : realFinite h = true) :
    (fLim a b h).1 = if realScaled h < realScaled b then fFlush h else if realScaled a < realScaled b then fFlush b
      else if realScaled h < realScaled a then fFlush h else fFlush a := by
  rw [fLim, fIsNan_false (not_isNan_of_finite ha), fIsNan_false (not_isNan_of_finite hb), fIsNan_false (not_isNan_of_finite hh)]
  simp only [Bool.or_self, Bool.false_eq_true, if_false, fKey_lt_iff ha hb, fKey_lt_iff hh hb, fKey_lt_iff hh ha]
  repeat' split
  all_goals rfl

theorem fCmp_numbers :
    fCmp 0 a b = decide (realScaled a = realScaled b) ∧ fCmp 1 a b = decide (realScaled a ≠ realScaled b) ∧
      fCmp 2 a b = decide (realScaled a < realScaled b) ∧ fCmp 3 a b = decide (realScaled b ≤ realScaled a) ∧
      fCmp 4 a b = decide (realScaled a ≤ realScaled b) ∧ fCmp 5 a b = decide (realScaled b < realScaled a) ∧
      fCmp 10 a b = false ∧ fCmp 11 a b = true := by
  simp only [fCmp, fIsNan_false (not_isNan_of_finite ha), fIsNan_false (not_isNan_of_finite hb), fKey_eq_iff ha hb, fKey_lt_iff ha hb,
    fKey_lt_iff hb ha, ← Int.not_lt]
  and_intros <;> simp [fKey_eq_iff ha hb]

end

theorem fCmp_nan {a b : Word} (h : IsNan a ∨ IsNan b) :
    fCmp 0 a b = false ∧ fCmp 1 a b = true ∧ fCmp 2 a b = false ∧ fCmp 3 a b = false ∧ fCmp 4 a b = false ∧ fCmp 5 a b = false ∧
      fCmp 10 a b = true ∧ fCmp 11 a b = false := by
  have hn : (fIsNan a || fIsNan b) = true := by rwa [Bool.or_eq_true, fIsNan_iff, fIsNan_iff]
  simp only [fCmp, hn]
  and_intros <;> simp

end Sys2Proof.Machine
end

section
/-! PROOF. The REAL32 instructions, and the statement on them (04_instruction_semantics.md, R116, R120 to R126; 02_programming_model.md, R82). -/

namespace Sys2Proof.Machine

section
variable {s : State} {x : Ctx} {c : Core} (h : Executes s x c)
include h

/-- An instruction whose operation may be invalid completes, or traps where it is invalid and FINVTRAP is 1 (R82, R124). -/
theorem trap_clause {i : Instr} {cost : Nat} {legal : Bool} {body : State → Core → Act} {bad : Bool} {b : Bank} {ws : List Word}
    (hl : legal = true) (he : exec i s = .next (runInstr x (spells i) cost legal body s))
    (hb : body (afterFetch s c) c =
      if bad && finvTrap (afterFetch s c) c then .raise (afterFetch s c) .arith 0 0 else .go (afterFetch s c) b ws) :
    (finvTrap (afterFetch s c) c = false → Completes i s c cost b) ∧ (bad = false → Completes i s c cost b) ∧
      (bad = true → finvTrap (afterFetch s c) c = true → Raises i s (afterFetch s c) c cost .arith 0 0) := by
  have runs (hno : (bad && finvTrap (afterFetch s c) c) = false) : Completes i s c cost b :=
    completes_of_go h hl he (hb.trans (if_neg (ne_true_of_eq_false hno)))
  refine ⟨fun ht => runs ?_, fun hr => runs ?_, fun hr ht => raises_of_raise h hl he (hb.trans (if_pos ?_))⟩
  · rw [ht, Bool.and_false]
  · rw [hr, Bool.false_and]
  · rw [hr, ht, Bool.and_true]

/-- A REAL32 instruction that gives a word with its flags. -/
theorem giveF_clause {i : Instr} {cost : Nat} {legal : Bool} {body : State → Core → Act} {d : BitVec 4} {r : FRes} {t : Byte}
    (hl : legal = true) (he : exec i s = .next (runInstr x (spells i) cost legal body s))
    (hb : body (afterFetch s c) c = giveF (afterFetch s c) c d r t) :
    let trap := finvTrap (afterFetch s c) c
    let done := Completes i s c cost (wordResult { c.bank with finv := c.bank.finv || r.2.1, dz := c.bank.dz || r.2.2 } d r.1 t)
    (trap = false → done) ∧ (r.2.1 = false → done) ∧ (r.2.1 = true → trap = true → Raises i s (afterFetch s c) c cost .arith 0 0) :=
  trap_clause h hl he hb

end

/-- Settles O5: `giveF_clause` runs each instruction; the invalid operations and the corner values are those of the operations. -/
theorem realInstructionResults : Obligations.RealInstructionResults := by
  refine ⟨fun s x c h => ⟨fun f hl => ?three, fun f hl => ?two, fun f hl => giveF_clause h hl rfl rfl,
    fun f hl => ⟨giveF_clause h hl rfl rfl, fun hd hc => trap_clause h (by rw [hl, hd, hc]; rfl) rfl rfl⟩⟩, fun a b h => ?invalid, fun a b h => ?corners⟩
  case three =>
    exact ⟨giveF_clause h hl rfl rfl, giveF_clause h hl rfl rfl, giveF_clause h hl rfl rfl, giveF_clause h hl rfl rfl,
      giveF_clause h hl rfl rfl, giveF_clause h hl rfl rfl⟩
  case two =>
    exact ⟨giveF_clause h hl rfl rfl, giveF_clause h hl rfl rfl, giveF_clause h hl rfl rfl, giveF_clause h hl rfl rfl,
      giveF_clause h hl rfl rfl⟩
  case invalid =>
    obtain ⟨hadd, hadd'⟩ := fAdd_invalid a b
    obtain ⟨hsub, hsub'⟩ := fSub_invalid a b
    obtain ⟨hmul, hmul'⟩ := fMul_invalid a b
    obtain ⟨hdiv, hdiv'⟩ := fDiv_invalid a b
    obtain ⟨hsqrt, hsqrt'⟩ := fSqrt_invalid a
    obtain ⟨hmin, hmin'⟩ := fPick_invalid (fun x y => decide (x < y)) true a b
    obtain ⟨hmax, hmax'⟩ := fPick_invalid (fun x y => decide (y < x)) false a b
    obtain ⟨hlim, hlim'⟩ := fLim_invalid a b h
    obtain ⟨hdz, hquot⟩ := fDiv_zeroDivisor a b
    exact ⟨hadd, hadd', hsub, hsub', hmul, hmul', hdiv, hdiv', hsqrt, hsqrt', hmin, hmin', hmax, hmax', fScale_invalid a, hlim, hlim',
      Bool.false_ne_true, Bool.false_ne_true, Bool.false_ne_true, fToInt_nan, fToInt_invalid, hdz, hquot⟩
  case corners =>
    have hfa := (fUnpack_fFlush a).symm
    have hfb := (fUnpack_fFlush b).symm
    refine ⟨fun hz => (fFlush_zero hz).trans (fZero_eq _), fFlush_other, fAdd_congr hfa hfb, fSub_congr hfa hfb, fMul_congr hfa hfb,
      fDiv_congr hfa hfb, fSqrt_congr hfa, fToInt_congr hfa, ?delivered,
      fun ha hb => ⟨fAdd_quiet ha hb, fMul_quiet ha hb, fDiv_quiet ha hb, fSqrt_quiet ha⟩,
      fun ha hb => ⟨fAdd_overflow ha hb, fMul_underflow ha hb⟩, rfl, rfl,
      fun ha hb => ⟨fPick_quiet_left _ _ ha hb, fPick_quiet_left _ _ ha hb⟩,
      fun hb ha => ⟨fPick_quiet_right _ _ hb ha, fPick_quiet_right _ _ hb ha⟩,
      fun ha hb => ⟨fPick_quiet _ _ ha hb, fPick_quiet _ _ ha hb⟩, by decide, by decide, by decide, by decide,
      minMax_of_lt, fun ha hb hh => fLim_numbers ha hb hh, fCmp_nan, fCmp_numbers⟩
    intro r hr
    simp only [List.mem_cons, List.not_mem_nil, or_false] at hr
    rcases hr with rfl | rfl | rfl | rfl | rfl | rfl | rfl | rfl | rfl
    · exact delivered_fAdd a b
    · exact delivered_fAdd a _
    · exact delivered_fMul a b
    · exact delivered_fDiv a b
    · exact delivered_fSqrt a
    · exact delivered_fPick _ _ a b
    · exact delivered_fPick _ _ a b
    · exact delivered_fLim a b h
    · exact delivered_fRound _ _ _

end Sys2Proof.Machine
end

section
/-! PROOF. The integer instructions (03_instruction_encoding_and_timing.md, R101; 04_instruction_semantics.md, R116, R117). -/

namespace Sys2Proof.Machine

/-! The results as numbers. -/

section
variable (a b : Word)

theorem add_eq_ofNat : a + b = BitVec.ofNat 32 (a.toNat + b.toNat) := rfl

theorem mul_eq_ofNat : a * b = BitVec.ofNat 32 (a.toNat * b.toNat) := rfl

theorem add_eq_ofInt : a + b = BitVec.ofInt 32 (a.toInt + b.toInt) := by rw [BitVec.ofInt_add, BitVec.ofInt_toInt, BitVec.ofInt_toInt]

theorem sub_eq_ofInt : a - b = BitVec.ofInt 32 (a.toInt - b.toInt) := by
  rw [Int.sub_eq_add_neg, BitVec.ofInt_add, BitVec.ofInt_neg, BitVec.ofInt_toInt, BitVec.ofInt_toInt, BitVec.sub_eq_add_neg]

theorem neg_eq_ofInt : 0 - a = BitVec.ofInt 32 (-a.toInt) := by
  rw [BitVec.ofInt_neg, BitVec.ofInt_toInt]
  exact zero_sub a

theorem toInt_minS : (minS a b).toInt = min a.toInt b.toInt := by
  rw [minS]
  split
  · next h =>
    have := BitVec.slt_iff_toInt_lt.mp h
    omega
  · next h =>
    have := mt BitVec.slt_iff_toInt_lt.mpr h
    omega

theorem toInt_maxS : (maxS a b).toInt = max a.toInt b.toInt := by
  rw [maxS]
  split
  · next h =>
    have := BitVec.slt_iff_toInt_lt.mp h
    omega
  · next h =>
    have := mt BitVec.slt_iff_toInt_lt.mpr h
    omega

theorem minS_eq_ofInt : minS a b = BitVec.ofInt 32 (min a.toInt b.toInt) := by rw [← toInt_minS, BitVec.ofInt_toInt]

theorem maxS_eq_ofInt : maxS a b = BitVec.ofInt 32 (max a.toInt b.toInt) := by rw [← toInt_maxS, BitVec.ofInt_toInt]

theorem limitS_eq_ofInt (lo hi : Word) : limitS a lo hi = BitVec.ofInt 32 (min (max a.toInt lo.toInt) hi.toInt) := by
  rw [limitS, minS_eq_ofInt, toInt_maxS]

theorem sign_iff : a.getLsbD 31 = true ↔ a.toInt < 0 := by
  rw [BitVec.toInt_neg_iff, sign_eq, decide_eq_true_eq]
  omega

theorem absS_eq_ofNat : absS a = BitVec.ofNat 32 a.toInt.natAbs := by
  rw [← BitVec.ofInt_natCast, absS]
  split
  · next h =>
    have := (sign_iff a).mp h
    rw [neg_eq_ofInt, Int.ofNat_natAbs_of_nonpos this.le]
  · next h =>
    have := mt (sign_iff a).mpr h
    rw [Int.natAbs_of_nonneg (by omega), BitVec.ofInt_toInt]

theorem shiftLeft_eq_ofNat (n : Nat) : a <<< n = BitVec.ofNat 32 (a.toNat * 2 ^ n) :=
  BitVec.eq_of_toNat_eq (by rw [BitVec.toNat_shiftLeft, Nat.shiftLeft_eq, BitVec.toNat_ofNat])

theorem shiftRight_eq_ofNat (n : Nat) : a >>> n = BitVec.ofNat 32 (a.toNat / 2 ^ n) :=
  BitVec.eq_of_toNat_eq (by
    rw [BitVec.toNat_ushiftRight, Nat.shiftRight_eq_div_pow, BitVec.toNat_ofNat, Nat.mod_eq_of_lt (lt_of_le_of_lt (Nat.div_le_self _ _) a.isLt)])

theorem sshiftRight_eq_ofInt (n : Nat) : a.sshiftRight n = BitVec.ofInt 32 (a.toInt / 2 ^ n) :=
  congrArg (BitVec.ofInt 32) (Int.shiftRight_eq_div_pow _ _)

theorem rotateLeft_eq_ofNat {n : Nat} (hn : n < 32) :
    a.rotateLeft n = BitVec.ofNat 32 (a.toNat * 2 ^ n) ||| BitVec.ofNat 32 (a.toNat / 2 ^ (32 - n)) := by
  rw [BitVec.rotateLeft_def, Nat.mod_eq_of_lt hn, shiftLeft_eq_ofNat, shiftRight_eq_ofNat]

theorem append_eq_ofNat (i : BitVec 16) : (i ++ a.setWidth 16 : Word) = BitVec.ofNat 32 (i.toNat * 65536 + a.toNat % 65536) := by
  have hi := i.isLt
  have ha : a.toNat % 2 ^ 16 < 2 ^ 16 := Nat.mod_lt _ (by decide)
  refine BitVec.eq_of_toNat_eq ?_
  rw [BitVec.toNat_append, BitVec.toNat_setWidth, ← Nat.shiftLeft_add_eq_or_of_lt ha, BitVec.toNat_ofNat, Nat.shiftLeft_eq]
  omega

end

theorem sext_toInt (i : BitVec 16) : (sext i).toInt = i.toInt := by
  rw [sext, BitVec.toInt_signExtend_of_le (by decide)]

theorem add_sext_eq (a : Word) (i : BitVec 16) : a + sext i = BitVec.ofInt 32 (a.toInt + i.toInt) := by rw [add_eq_ofInt, sext_toInt]

theorem sub_sext_eq (a : Word) (i : BitVec 16) : a - sext i = BitVec.ofInt 32 (a.toInt - i.toInt) := by rw [sub_eq_ofInt, sext_toInt]

theorem amount_lt (b : Bank) (f : FormA) : amount b f < 32 := by
  unfold amount
  split
  · exact f.imm5.isLt
  · exact Nat.mod_lt _ (by decide)

/-! The condition codes (R101). -/

theorem intCond_codes (a b : Word) :
    intCond 0 a b = some (decide (a = b)) ∧ intCond 1 a b = some (decide (a ≠ b)) ∧
      intCond 2 a b = some (decide (a.toInt < b.toInt)) ∧ intCond 3 a b = some (decide (b.toInt ≤ a.toInt)) ∧
      intCond 4 a b = some (decide (a.toInt ≤ b.toInt)) ∧ intCond 5 a b = some (decide (b.toInt < a.toInt)) ∧
      intCond 6 a b = some (decide (a.toNat < b.toNat)) ∧ intCond 7 a b = some (decide (b.toNat ≤ a.toNat)) ∧
      intCond 8 a b = some (decide (a.toNat ≤ b.toNat)) ∧ intCond 9 a b = some (decide (b.toNat < a.toNat)) ∧
      ∀ k : BitVec 4, 10 ≤ k.toNat → intCond k a b = none := by
  refine ⟨rfl, ?_, rfl, ?_, rfl, ?_, rfl, ?_, rfl, ?_, fun k hk => ?_⟩
  · exact congrArg some (Bool.eq_iff_iff.mpr (by rw [bne_iff_ne, decide_eq_true_eq]))
  · show some (!decide (a.toInt < b.toInt)) = _
    rw [← decide_not, decide_eq_decide.mpr Int.not_lt]
  · show some (!decide (a.toInt ≤ b.toInt)) = _
    rw [← decide_not, decide_eq_decide.mpr Int.not_le]
  · show some (!decide (a.toNat < b.toNat)) = _
    rw [← decide_not, decide_eq_decide.mpr Nat.not_lt]
  · show some (!decide (a.toNat ≤ b.toNat)) = _
    rw [← decide_not, decide_eq_decide.mpr Nat.not_le]
  · have h := intCond_isSome k a b
    rwa [decide_eq_false (by omega), Option.isSome_eq_false_iff, Option.isNone_iff_eq_none] at h

theorem intCond_legal {k : BitVec 4} {a b : Word} {r : Bool} (h : intCond k a b = some r) : (intCond k 0 0).isSome = true := by
  rw [intCond_isSome, ← intCond_isSome k a b, h]
  rfl

/-! The instructions. -/

section
variable {s : State} {x : Ctx} {c : Core} (h : Executes s x c) {i : Instr} {cost : Nat} {legal : Bool} {body : State → Core → Act}
include h

/-- A legal instruction whose body gives a word completes with that word in its register. -/
theorem completes_giveW {b : Bank} {d : BitVec 4} {v v' : Word} {t : Byte} (hl : legal = true)
    (he : exec i s = .next (runInstr x (spells i) cost legal body s)) (hb : body (afterFetch s c) c = giveW (afterFetch s c) b d v t)
    (hv : v = v') : Completes i s c cost (wordResult b d v' t) := by
  subst hv
  exact completes_of_go h hl he hb

/-- A legal instruction whose body gives a bit completes with that bit in its register. -/
theorem completes_giveB {b : Bank} {d : BitVec 4} {v v' : Bool} {t : Byte} (hl : legal = true)
    (he : exec i s = .next (runInstr x (spells i) cost legal body s)) (hb : body (afterFetch s c) c = giveB (afterFetch s c) b d v t)
    (hv : v = v') : Completes i s c cost (bitResult b d v' t) := by
  subst hv
  exact completes_of_go h hl he hb

end

/-- Settles O2: each instruction gives the value of its body, which the lemmas on values turn into the number of the table. -/
theorem integerInstructionResults : Obligations.IntegerInstructionResults := by
  refine ⟨fun s x c h => ⟨fun f hl => ?three, fun f hl => ?two, fun f hl => ?imm, fun f hl => ?shift, fun f hl => ⟨?limit, fun hb => ?sel,
    fun r hd hr => ?cmp⟩, fun f r hl hd hr => ?cmpi⟩, intCond_codes, fun s x c f h hl hb => ?divzero⟩
  case three =>
    refine ⟨completes_giveW h hl rfl rfl (add_eq_ofNat _ _), completes_giveW h hl rfl rfl (sub_eq_ofInt _ _), completes_giveW h hl rfl rfl rfl,
      completes_giveW h hl rfl rfl rfl, completes_giveW h hl rfl rfl (mul_eq_ofNat _ _), completes_giveW h hl rfl rfl rfl,
      completes_giveW h hl rfl rfl (minS_eq_ofInt _ _), completes_giveW h hl rfl rfl (maxS_eq_ofInt _ _), completes_giveW h hl rfl rfl rfl,
      completes_giveW h hl rfl rfl rfl, completes_giveW h hl rfl rfl rfl, fun hb => ?_⟩
    exact ⟨completes_giveW h hl rfl (if_neg hb) rfl, completes_giveW h hl rfl (if_neg hb) rfl, completes_giveW h hl rfl (if_neg hb) rfl⟩
  case two =>
    exact ⟨completes_giveW h hl rfl rfl (neg_eq_ofInt _), completes_giveW h hl rfl rfl (absS_eq_ofNat _), completes_giveW h hl rfl rfl rfl,
      completes_giveW h hl rfl rfl rfl⟩
  case imm =>
    refine ⟨completes_giveW h hl rfl rfl (add_sext_eq _ _), completes_giveW h hl rfl rfl (sub_sext_eq _ _), completes_giveW h hl rfl rfl rfl, completes_giveW h hl rfl rfl rfl,
      completes_giveW h hl rfl rfl rfl, completes_giveW h hl rfl rfl (append_eq_ofNat _ _), fun hz => completes_giveW h ?_ rfl rfl rfl⟩
    rw [hl, hz]
    rfl
  case shift =>
    exact ⟨completes_giveW h hl rfl rfl (shiftLeft_eq_ofNat _ _), completes_giveW h hl rfl rfl (shiftRight_eq_ofNat _ _),
      completes_giveW h hl rfl rfl (sshiftRight_eq_ofInt _ _), completes_giveW h hl rfl rfl (rotateLeft_eq_ofNat _ (amount_lt _ _))⟩
  case limit => exact completes_giveW h hl rfl rfl (limitS_eq_ofInt _ _ _)
  case sel => exact completes_giveW h (by rw [hl, hb]; rfl) rfl rfl rfl
  case cmp => exact completes_giveB h (by rw [hl, hd, intCond_legal hr]; rfl) rfl rfl (by rw [hr]; rfl)
  case cmpi => exact completes_giveB h (by rw [hl, hd, intCond_legal hr]; rfl) rfl rfl (by rw [hr]; rfl)
  case divzero =>
    exact ⟨completes_giveW h hl rfl (if_pos hb) rfl, completes_giveW h hl rfl (if_pos hb) rfl, completes_giveW h hl rfl (if_pos hb) rfl⟩

end Sys2Proof.Machine
end

section
/-! PROOF. The bit instructions, and NOW, TIDE, AGE, QCHK and SUBST (04_instruction_semantics.md, R118, R136 to R140). -/

namespace Sys2Proof.Machine

/-- Settles O4: each instruction gives the value of its body. -/
theorem bitResults : Obligations.BitResults := by
  intro s x c f h hl
  refine ⟨fun hz => ?word, fun hz hd => ?load, fun hb => ?store, fun hbit hd => ⟨?test, fun h1 => ⟨fun h2 => ?three, fun hz => ?two⟩⟩⟩
  case word =>
    have legal : (legalE f && f.s2 == 0) = true := by rw [hl, hz]; rfl
    exact ⟨completes_giveW h legal rfl rfl rfl, completes_giveW h legal rfl rfl rfl⟩
  case load => exact completes_giveB h (by rw [hl, hz, hd]; rfl) rfl rfl rfl
  case store => exact completes_giveW h (by rw [hl, hb]; rfl) rfl rfl rfl
  case test => exact completes_giveB h (by rw [hl, hbit, hd]; rfl) rfl rfl rfl
  case three =>
    have legal : legalB3 f = true := by rw [legalB3, hl, hbit, hd, h1, h2]; rfl
    exact ⟨completes_giveB h legal rfl rfl rfl, completes_giveB h legal rfl rfl rfl, completes_giveB h legal rfl rfl rfl⟩
  case two =>
    have legal : legalB2 f = true := by rw [legalB2, hl, hbit, hz, hd, h1]; rfl
    exact ⟨completes_giveB h legal rfl rfl rfl, completes_giveB h legal rfl rfl rfl⟩

/-! Time and quality. -/

section
variable {s : State} {x : Ctx} {c : Core} (h : Executes s x c)
include h

/-- NOW and TIDE in a timed task give what its release has fixed (R136). -/
theorem nowOf_timed {k : TaskId} (ht : c.timed = some k) : nowOf (afterFetch s c) c = (((afterFetch s c).ctl.rel.get x.pair).get k).now := by
  rw [nowOf, ht, h.ctx]

theorem tideOf_timed {k : TaskId} (ht : c.timed = some k) : tideOf (afterFetch s c) c = (((afterFetch s c).ctl.rel.get x.pair).get k).tide := by
  rw [tideOf, ht, h.ctx]

end

theorem nowOf_untimed {s : State} {c : Core} (ht : c.timed = none) : nowOf s c = BitVec.ofNat 32 (trainNs s / 1000) := by rw [nowOf, ht]

theorem tideOf_untimed {s : State} {c : Core} (ht : c.timed = none) : tideOf s c = BitVec.ofNat 32 (trainNs s / 250000) := by
  rw [tideOf, ht]
  rfl

/-- The tag test of QCHK, condition by condition (R139). -/
theorem qchkPass_eq (t : Byte) (imm : BitVec 16) :
    qchkPass t imm = decide ((imm.getLsbD 11 → t.getLsbD 7) ∧ (imm.getLsbD 10 → !t.getLsbD 6) ∧ (imm.getLsbD 9 → !t.getLsbD 5) ∧
      (imm.getLsbD 8 → t.getLsbD 4) ∧ (imm.getLsbD 4 → t.toNat % 16 ≤ imm.toNat % 16)) := by
  have hage : (tagAge t).toNat = t.toNat % 16 := BitVec.toNat_setWidth 4 t
  have himm : (imm.setWidth 4).toNat = imm.toNat % 16 := BitVec.toNat_setWidth 4 imm
  rw [qchkPass, hage, himm, Bool.eq_iff_iff, decide_eq_true_eq]
  simp only [tagValid, tagForced, tagSubst, tagSafe, Bool.and_eq_true, Bool.or_eq_true, Bool.not_eq_true', decide_eq_true_eq, and_assoc,
    ← Bool.not_eq_true, ← imp_iff_not_or]

/-- Settles O12: NOW and TIDE by whether the task is timed, QCHK by its test, SUBST by the VALID bit of its operand. -/
theorem timeAndQualityResults : Obligations.TimeAndQualityResults := by
  intro s x c h s1 rel ns
  refine ⟨fun f hl => ⟨fun k ht => ?timed, fun ht => ?untimed⟩, fun f hl => completes_giveW h hl rfl rfl rfl, fun f hl hd hz => ?qchk,
    fun f hl => ⟨fun hv => completes_giveW h hl rfl (if_pos hv) rfl,
      fun hv => completes_giveW h hl rfl (if_neg (ne_true_of_eq_false hv)) rfl⟩⟩
  case timed =>
    exact ⟨completes_giveW h hl rfl (by rw [ht]; rfl) (nowOf_timed h ht), completes_giveW h hl rfl (by rw [ht]; rfl) (tideOf_timed h ht)⟩
  case untimed =>
    exact ⟨completes_giveW h hl rfl (by rw [ht]; rfl) (nowOf_untimed ht), completes_giveW h hl rfl (by rw [ht]; rfl) (tideOf_untimed ht)⟩
  case qchk =>
    have legal : (legalB f && bitField f.d && qchkLegal f.imm) = true := by rw [hl, hd, qchkLegal, hz]; rfl
    exact completes_giveB h legal rfl rfl (qchkPass_eq _ _)

end Sys2Proof.Machine
end

section
/-! PROOF. Untimed shared memory: where an access goes, and what LDX, STX, CAS, XCHG and FENCE do there (04_instruction_semantics.md, R141 to
R146; 01_module_architecture.md, R35; 14_corbel_bridge.md, R472, R473; 16_power_and_clocks.md, R531). -/

namespace Sys2Proof.Machine

/-! Where an access goes. -/

/-- A permitted place of an access, once its class is: untimed work alone, and aligned (R141). -/
def permitted (c : Core) (a : Word) (q : SharedPlace) : Except ExcCode SharedPlace :=
  if c.timed.isSome then .error .access else if a.toNat % 4 = 0 then .ok q else .error .align

theorem permitted_ok {c : Core} {a : Word} {p q : SharedPlace} (h : permitted c a p = .ok q) : c.timed = none ∧ a.toNat % 4 = 0 ∧ p = q := by
  unfold permitted at h
  split at h
  · cases h
  · next ht =>
    split at h
    · cases h
      exact ⟨Option.not_isSome_iff_eq_none.mp ht, ‹_›, rfl⟩
    · cases h

/-- An access that goes somewhere comes from untimed work and is aligned; a register that STX reaches takes the write. -/
theorem sharedPlace_ok {s : State} {c : Core} {op : SharedOp} {a w : Word} {q : SharedPlace} (h : sharedPlace s c op a w = .ok q) :
    c.timed = none ∧ a.toNat % 4 = 0 ∧ ∀ r, q = .reg r → op = .stx → (regSet s (.lane c.x.lane) r w).isSome = true := by
  unfold sharedPlace at h
  dsimp only at h
  split at h
  · cases h
  · obtain ⟨ht, ha, rfl⟩ := permitted_ok h
    exact ⟨ht, ha, nofun⟩
  · obtain ⟨ht, ha, rfl⟩ := permitted_ok h
    exact ⟨ht, ha, nofun⟩
  · split at h <;> cases h
  · cases h
  · split at h <;> cases h
  · split at h
    · cases h
    · split at h
      · obtain ⟨ht, ha, rfl⟩ := permitted_ok h
        exact ⟨ht, ha, fun _ _ => nofun⟩
      · split at h
        · obtain ⟨ht, ha, rfl⟩ := permitted_ok h
          refine ⟨ht, ha, fun r hr _ => ?_⟩
          cases hr
          assumption
        · cases h
      · cases h

/-! What an instruction does at the place of its access. -/

/-- The body of a shared-memory instruction: by the place of its access, or its exception. -/
def sharedAct (s : State) (c : Core) (op : SharedOp) (a w : Word) (quay : Nat → Act) (reg : Reg → Act) (corbel : Nat → Act) : Act :=
  match sharedPlace s c op a w with
  | .error e => .raise s e a 0
  | .ok (.quay o) => quay o
  | .ok (.reg r) => reg r
  | .ok (.corbel o) => corbel o

section
variable {s : State} {c : Core} {op : SharedOp} {a w : Word} (quay : Nat → Act) (reg : Reg → Act) (corbel : Nat → Act)

theorem sharedAct_error {e : ExcCode} (h : sharedPlace s c op a w = .error e) : sharedAct s c op a w quay reg corbel = .raise s e a 0 := by
  simp only [sharedAct, h]

theorem sharedAct_quay {o : Nat} (h : sharedPlace s c op a w = .ok (.quay o)) : sharedAct s c op a w quay reg corbel = quay o := by
  simp only [sharedAct, h]

theorem sharedAct_reg {r : Reg} (h : sharedPlace s c op a w = .ok (.reg r)) : sharedAct s c op a w quay reg corbel = reg r := by
  simp only [sharedAct, h]

theorem sharedAct_corbel {o : Nat} (h : sharedPlace s c op a w = .ok (.corbel o)) : sharedAct s c op a w quay reg corbel = corbel o := by
  simp only [sharedAct, h]

end

/-- A read of Quay: uncorrectable data raises EX_MEM (R146). -/
theorem quayRead_eq (s : State) (c : Core) (o : Nat) (a : Word) (k : State → Word → Act) :
    quayRead s c o a k =
      let r := quayHit s o .untimed c.x.data
      if r.2 then k r.1 (quayWord r.1 o) else .raise r.1 .mem a 0 := by
  unfold quayRead
  rcases quayHit s o .untimed c.x.data with ⟨t, _ | _⟩ <;> rfl

theorem reach_ready {s : State} {x : Ctx} {d : Option SlackDom} (k : State → Act) (h : ∀ e, d = some e → domReady s e = true) :
    reach s x d k = k s := by
  cases d with
  | none => rfl
  | some e => exact if_pos (h e rfl)

theorem reach_stalls {s : State} {x : Ctx} {d : Option SlackDom} (k : State → Act) {e : SlackDom} (he : d = some e)
    (h : domReady s e = false) : reach s x d k = .stall (stallOn s e (agentOf x)) := by
  subst he
  exact if_neg (ne_true_of_eq_false h)

/-- A legal instruction whose body stalls leaves the state that it stalls in. -/
theorem exec_of_stall {s s2 : State} {x : Ctx} {c : Core} {i : Instr} {cost : Nat} {body : State → Core → Act} {legal : Bool}
    (h : Executes s x c) (hl : legal = true) (he : exec i s = .next (runInstr x (spells i) cost legal body s))
    (hb : body (afterFetch s c) c = .stall s2) (hw : spells i (wordAtPc s c) = true) : exec i s = .next s2 := by
  rw [he, runInstr_executes _ _ _ h hw, hl, if_pos rfl, hb]
  rfl

/-! The posting queue (R472, R473). -/

theorem enqueue_br (s : State) (ag : Agent) (k : AccKind) (o : Nat) :
    (enqueue s ag k o).br = { s.br with
      nextSeq := s.br.nextSeq + 1,
      queue := s.br.queue ++ [⟨s.br.nextSeq, ag, k, BitVec.ofNat 32 (s.br.wbase.toNat * 0x40000000 + o), BitVec.ofNat 4 (o / 0x4000000), false⟩],
      headAt := if s.br.queue = [] then s.up else s.br.headAt } := by
  have hempty : (if s.br.queue.isEmpty then s.up else s.br.headAt) = if s.br.queue = [] then s.up else s.br.headAt := by
    simp only [List.isEmpty_iff]
  rw [← hempty]
  rfl

theorem queueFull_iff (s : State) : queueFull s = true ↔ 16 ≤ s.br.queue.length := decide_eq_true_iff

/-- The fetch leaves the banks of the pairs. -/
theorem bankIn_afterFetch {s : State} {x : Ctx} {c : Core} (h : Executes s x c) : bankIn (afterFetch s c) c = c.bank := by
  obtain ⟨d, e, r, hs⟩ := afterFetch_only h
  have hl : (lane (modLane s c.x.lane fun y => { y with dmg := d }) c.x.lane).pairs = (lane s c.x.lane).pairs := by simp
  have hp : pair (afterFetch s c) c.x.lane c.x.pair = pair s c.x.lane c.x.pair := by
    rw [hs]
    exact congrArg (·.get c.x.pair) hl
  rw [← coreOf_bank h.1]
  simp only [bankIn, taskRun, hp]

/-- A core of a split pair that waits for an access keeps its bank. -/
theorem bankIn_wait {s : State} {c : Core} (ht : c.timed = none) (v : Option AccWait) :
    bankIn (modCore s c.x fun u => { u with wait := v }) c = bankIn s c := by
  simp only [bankIn, ht, modCore, pair_modPair, and_self, if_true]
  cases c.x.odd <;> rfl

theorem bankIn_enqueue (s : State) (c : Core) (ag : Agent) (k : AccKind) (o : Nat) : bankIn (enqueue s ag k o) c = bankIn s c := rfl

/-- An access to the Corbel window, of a core that then waits for it or goes on after a store (R472, R473). -/
def EntersQueue (i : Instr) (s : State) (x : Ctx) (c : Core) (k : AccKind) (d : BitVec 4) (o : Nat) : Prop :=
  let s1 := afterFetch s c
  (16 ≤ s1.br.queue.length → exec i s = .next s1) ∧
  (s1.br.queue.length < 16 → ∃ t, exec i s = .next t ∧
    t.br = { s1.br with nextSeq := s1.br.nextSeq + 1,
                        queue := s1.br.queue ++ [⟨s1.br.nextSeq, .core x.lane x.pair x.odd, k,
                          BitVec.ofNat 32 (s1.br.wbase.toNat * 0x40000000 + o), BitVec.ofNat 4 (o / 0x4000000), false⟩],
                        headAt := if s1.br.queue = [] then s1.up else s1.br.headAt } ∧
    ((∃ v, k = .store v) → bankIn t c = nextPc c.bank ∧ OnlyCore 0 [] { s1 with br := t.br } t c) ∧
    ((∀ v, k ≠ .store v) → bankIn t c = c.bank ∧
      t = modPair { s1 with br := t.br } x.lane x.pair fun q =>
        if x.odd then { q with odd := { q.odd with wait := some ⟨s1.br.nextSeq, d⟩ } }
        else { q with even := { q.even with wait := some ⟨s1.br.nextSeq, d⟩ } }))

section
variable {s : State} {x : Ctx} {c : Core} {i : Instr} {legal : Bool} {body : State → Core → Act} (h : Executes s x c) (hl : legal = true)
  (he : exec i s = .next (runInstr x (spells i) 0 legal body s)) {o : Nat} {d : BitVec 4}
include h hl he

theorem entersQueue_wait {k : AccKind} (ht : c.timed = none) (hk : ∀ v, k ≠ .store v)
    (hb : body (afterFetch s c) c = waitAcc (afterFetch s c) c k o d) (hw : spells i (wordAtPc s c) = true) : EntersQueue i s x c k d o := by
  have hx := h.ctx
  subst hx
  constructor
  · intro hfull
    exact exec_of_stall h hl he (hb.trans (if_pos ((queueFull_iff _).mpr hfull))) hw
  · intro hroom
    refine ⟨_, exec_of_stall h hl he (hb.trans (if_neg fun hf => ?_)) hw, enqueue_br _ _ _ _, fun ⟨v, hv⟩ => absurd hv (hk v), fun _ => ⟨?_, rfl⟩⟩
    · have := (queueFull_iff _).mp hf
      omega
    · rw [bankIn_wait ht, bankIn_enqueue, bankIn_afterFetch h]

theorem entersQueue_store {v : Word}
    (hb : body (afterFetch s c) c =
      if queueFull (afterFetch s c) then .stall (afterFetch s c) else .go (enqueue (afterFetch s c) (coreAgent c) (.store v) o) (nextPc c.bank) [])
    (hw : spells i (wordAtPc s c) = true) : EntersQueue i s x c (.store v) d o := by
  have hx := h.ctx
  subst hx
  constructor
  · intro hfull
    exact exec_of_stall h hl he (hb.trans (if_pos ((queueFull_iff _).mpr hfull))) hw
  · intro hroom
    have hno : ¬queueFull (afterFetch s c) = true := fun hf => by
      have := (queueFull_iff _).mp hf
      omega
    obtain ⟨t, hexec, hbank, hq⟩ := completes_of_go h hl he (hb.trans (if_neg hno)) hw
    have hbr : t.br = (enqueue (afterFetch s c) (coreAgent c) (.store v) o).br := by
      obtain ⟨q, rfl, -⟩ := hq
      rfl
    refine ⟨t, hexec, hbr.trans (enqueue_br _ _ _ _), fun _ => ⟨hbank, ?_⟩, fun hk => absurd rfl (hk v)⟩
    rw [hbr]
    exact hq

/-- A read of Quay that an instruction makes, with the write that follows it (R142, R143, R146). -/
theorem quay_clause {a : Word} {post : State → Nat → Word → State}
    (hb : body (afterFetch s c) c =
      quayRead (afterFetch s c) c o a fun t w => giveW (post t o w) c.bank d w outside) :
    let r := quayHit (afterFetch s c) o .untimed x.data
    let v := quayWord r.1 o
    (r.2 = false → Raises i s r.1 c 0 .mem a 0) ∧
      (r.2 = true → CompletesFrom i s (post r.1 o v) c 0 [] (wordResult c.bank d v 0x80)) := by
  have hx := h.ctx
  subst hx
  rw [quayRead_eq] at hb
  exact ⟨fun hr => raises_of_raise h hl he (hb.trans (if_neg (ne_true_of_eq_false hr))),
    fun hr => completes_of_go h hl he (hb.trans (if_pos hr))⟩

end

/-! The registers (R35, R141, R531). -/

section
variable {s : State} {x : Ctx} {c : Core} {i : Instr} {legal : Bool} {body : State → Core → Act} (h : Executes s x c) (hl : legal = true)
  (he : exec i s = .next (runInstr x (spells i) 0 legal body s)) {dom : Option SlackDom} {k : State → Act}
  (hb : body (afterFetch s c) c = reach (afterFetch s c) c.x dom k)
include h hl he hb

theorem reach_completes (hready : ∀ e, dom = some e → domReady (afterFetch s c) e = true) {t : State} {b : Bank} {ws : List Word}
    (hk : k (afterFetch s c) = .go t b ws) : CompletesFrom i s t c 0 [] b :=
  completes_of_go h hl he (hb.trans ((reach_ready k hready).trans hk))

theorem exec_of_reach_stalls {e : SlackDom} (hd : dom = some e) (hn : domReady (afterFetch s c) e = false)
    (hw : spells i (wordAtPc s c) = true) : exec i s = .next (stallOn (afterFetch s c) e (.core x.lane x.pair x.odd)) := by
  have hx := h.ctx
  subst hx
  exact exec_of_stall h hl he (hb.trans (reach_stalls k hd hn)) hw

end

/-- FENCE goes on where no store, CAS or XCHG of its core is outstanding (R145). -/
theorem hasOutstanding_iff (s : State) (ag : Agent) : hasOutstanding s ag = false ↔ ∀ e ∈ s.br.queue, e.agent = ag → e.kind = .load := by
  rw [hasOutstanding, List.any_eq_false]
  refine forall₂_congr fun e _ => ?_
  rw [Bool.and_eq_true, beq_iff_eq, bne_iff_ne, not_and_not_right]

/-- Settles O13: the place of the access decides; `sharedAct` names the case and one lemma says what happens in each. -/
theorem sharedMemoryResults : Obligations.SharedMemoryResults := by
  intro s x c h
  have hx := h.ctx
  subst hx
  refine ⟨fun f => ⟨?ldxErr, ?stxErr, ?ldxQuay, ?stxQuay, ?ldxReg, ?stxReg, ?ldxCorbel, ?stxCorbel⟩, fun f hl => ⟨?casErr, ?casQuay, ?casCorbel⟩,
    fun f hl => ⟨?xchgErr, ?xchgQuay, ?xchgCorbel⟩, fun f hl => ⟨?timed, fun ht => ⟨?done, ?waits⟩⟩,
    fun op a w q hq => ⟨(sharedPlace_ok hq).1, (sharedPlace_ok hq).2.1⟩⟩
  case ldxErr => exact fun e he => raises_of_raise h rfl rfl (sharedAct_error _ _ _ he)
  case stxErr => exact fun e he => raises_of_raise h rfl rfl (sharedAct_error _ _ _ he)
  case casErr => exact fun e he => raises_of_raise h hl rfl (sharedAct_error _ _ _ he)
  case xchgErr => exact fun e he => raises_of_raise h hl rfl (sharedAct_error _ _ _ he)
  case ldxQuay => exact fun o ho => quay_clause (post := fun t _ _ => t) h rfl rfl (sharedAct_quay _ _ _ ho)
  case stxQuay => exact fun o ho => completes_of_go h rfl rfl (sharedAct_quay _ _ _ ho)
  case casQuay =>
    exact fun o ho => quay_clause (post := fun t o w => if w = (rdW c.bank f.d).v then quayWrite t o (rdW c.bank f.s2).v 0xF (coreOwner c) else t)
      h hl rfl (sharedAct_quay _ _ _ ho)
  case xchgQuay =>
    exact fun o ho => quay_clause (post := fun t o _ => quayWrite t o (rdW c.bank f.d).v 0xF (coreOwner c)) h hl rfl (sharedAct_quay _ _ _ ho)
  case ldxReg =>
    exact fun r hr => ⟨fun hready => reach_completes h rfl rfl (sharedAct_reg _ _ _ hr) hready rfl,
      fun d hd hn hw => exec_of_reach_stalls h rfl rfl (sharedAct_reg _ _ _ hr) hd hn hw⟩
  case stxReg =>
    intro r hr
    refine ⟨fun hready t ht => ?_, (sharedPlace_ok hr).2.2 r rfl rfl,
      fun d hd hn hw => exec_of_reach_stalls h rfl rfl (sharedAct_reg _ _ _ hr) hd hn hw⟩
    have hgo := reach_completes (i := .stx c.x f) h rfl rfl (sharedAct_reg _ _ _ hr) hready rfl
    rwa [ht] at hgo
  case ldxCorbel => exact fun o ho => entersQueue_wait h rfl rfl (sharedPlace_ok ho).1 nofun (sharedAct_corbel _ _ _ ho)
  case stxCorbel => exact fun o ho => entersQueue_store h rfl rfl (sharedAct_corbel _ _ _ ho)
  case casCorbel => exact fun o ho => entersQueue_wait h hl rfl (sharedPlace_ok ho).1 nofun (sharedAct_corbel _ _ _ ho)
  case xchgCorbel => exact fun o ho => entersQueue_wait h hl rfl (sharedPlace_ok ho).1 nofun (sharedAct_corbel _ _ _ ho)
  case timed => exact fun ht => raises_of_raise h hl rfl (if_pos ht)
  case done =>
    intro hnone
    have ho := (hasOutstanding_iff _ _).mpr hnone
    exact completes_of_go h hl rfl ((if_neg (by rw [ht]; decide)).trans (if_neg (ne_true_of_eq_false ho)))
  case waits =>
    intro hsome hw
    have ho := eq_true_of_ne_false (mt (hasOutstanding_iff _ _).mp hsome)
    exact exec_of_stall h hl rfl ((if_neg (by rw [ht]; decide)).trans (if_pos ho)) hw

end Sys2Proof.Machine
end

section
/-! PROOF. TON on a section that is shorter than its block (04_instruction_semantics.md, R131 to R134; 07_lanes_voting_and_lockstep.md, R236). -/

namespace Sys2Proof.Machine

/-! What a store that retires adds to the signature of the running task, which TimerAndCounterResults fixes word by word. -/

/-- The contributions that a completed store of a timed task names are the ones that its task gains. -/
theorem StoresFrom.sigs_timed {i : Instr} {s base t : State} {c : Core} {k : TaskId} {cost : Nat} {sg : List SigEv} {b : Bank}
    {wr : Nat → Option Byte} (h : StoresFrom i s base c cost sg b wr) (hw : spells i (wordAtPc s c) = true) (hk : c.timed = some k)
    (ht : exec i s = .next t) :
    (taskRun t c.x.lane c.x.pair k).sigs = sg ++ (taskRun base c.x.lane c.x.pair k).sigs := by
  obtain ⟨u, hu, -, ls, rfl, hl⟩ := h hw
  cases ht.symm.trans hu
  obtain ⟨q, m, d, hq, hp, -, -⟩ := hl c.x.lane
  have hkept := (hp c.x.pair).1 ⟨rfl, rfl⟩
  rw [PairKept, hk] at hkept
  obtain ⟨-, -, -, -, -, -, -, -, -, -, -, -, -, -, hsigs, -⟩ := hkept
  calc (((ls.get c.x.lane).pairs.get c.x.pair).tasks.get k).sigs = ((q.get c.x.pair).tasks.get k).sigs := by rw [hq]
    _ = _ := hsigs

/-! The counterexample: a task whose RET section holds 4 bytes, so that ET, LAST and FL of a block at its first word lie outside it. R70
excludes such a section; the statement does not. -/

/-- Task 0 of pair 0, with its section RET of 4 bytes at 0x4000 of the bank. -/
def shortRetSetup : Setup :=
  { emptySetup with
      layouts := [⟨0, 0x1000, 0x2000, 0x3000, 0x4000, 0x5000, 0x6000, 0⟩]
      tasks := [⟨0, 0, 1, 0, 0, ⟨0, 64⟩, ⟨0, 64⟩, ⟨0, 4⟩, ⟨0, 64⟩, false, 1⟩] }

/-- The fields of `TON B1, W1, B2` at block 0, whose instruction word is 0xB2224000. -/
def shortRetForm : FormT := ⟨false, 1, 1, false, 2, 0⟩

def shortRetCtx : Ctx := ⟨.a, 0, false, .none, .none⟩

def shortRetTon : Instr := .ton shortRetCtx shortRetForm

/-- The bank of the running task: the PC at 0 and the address of the block in W1. -/
def shortRetBank : Bank := wrW (resetBank 0) 1 0x4000 0x80

def shortRetCore : Core := ⟨shortRetCtx, some 0, shortRetBank⟩

/-- Lane A runs task 0 of pair 0, with the instruction word at the first address of CODE. -/
def shortRetLane : LaneSt :=
  { resetLane with
      st := .voting
      sram := memWriteWord 0 [] 0 0xB2224000 0xF
      pairs := vmod resetLane.pairs 0 fun q =>
        { q with active := some 0, tasks := vmod q.tasks 0 fun r => { r with phase := .ready, bank := shortRetBank } } }

def shortRetState : State :=
  { State.reset with
      lanes := ⟨shortRetLane, resetLane, resetLane⟩
      adm := { resetAdm with
        cur := some { setup := shortRetSetup, image := { words := [], segs := [], outdef := [], trust := 0, version := 1, svn := 0 },
                      digest := 0, tags := [], append := false } }
      ctl := { resetCtl with state := .run } }

theorem shortRetState_memoriesOk : MemoriesOk shortRetState :=
  (memoriesOk_iff _).2 ⟨fun l => by
      cases l
      · exact memWriteWord_ok (d := 0) (m := []) rfl (Nat.zero_le 0) 0xB2224000 0xF
      · rfl
      · rfl, rfl, reset_memoriesOk.2.2 .a, reset_memoriesOk.2.2 .b⟩

theorem shortRetState_executes : Executes shortRetState shortRetCtx shortRetCore := ⟨rfl, rfl, rfl⟩

theorem shortRetState_spells : spells shortRetTon (wordAtPc shortRetState shortRetCore) = true := by decide +kernel

/-- The block is the task's own: its first word lies in RET, and that is all that R131's check asks of it. -/
theorem shortRetState_ownBlock : ownBlock (afterFetch shortRetState shortRetCore) shortRetCore 16 0x4000 = .ok 0x4000 := rfl

theorem shortRetState_readBlock : (readBlock (afterFetch shortRetState shortRetCore) shortRetCore 0x4000).2 = true := rfl

/-- The words that TON stores lie outside the section, so none of them enters the signature (R236). -/
theorem shortRetState_ton_sigs : ∃ t, exec shortRetTon shortRetState = .next t ∧ (taskRun t .a 0 0).sigs = [] := ⟨_, rfl, rfl⟩

/-- Refutes O11: a block counts as the task's own by its first word (`ownBlock`), but the words that TON stores enter the signature only where
they lie in RET or WORK themselves (`logWrite`). With a RET section of 4 bytes the stores of FL and ET contribute nothing, and the statement
asks for an entry of each. A set-up program cannot name such a section (R70: every section boundary is a multiple of 64 bytes, and `sectOfWord`
counts in these units), but the statement asks nothing of the set-up. -/
theorem not_timerAndCounterResults : ¬ Obligations.TimerAndCounterResults := by
  unfold Obligations.TimerAndCounterResults
  rintro ⟨-, h⟩
  obtain ⟨⟨-, hton⟩, -⟩ :=
    h shortRetState shortRetCtx shortRetCore shortRetForm shortRetState_memoriesOk shortRetState_executes rfl
  have hstores := (hton 0x4000 shortRetState_ownBlock).2 shortRetState_readBlock
  obtain ⟨t, ht, hnone⟩ := shortRetState_ton_sigs
  have hsigs := hstores.sigs_timed shortRetState_spells rfl ht
  exact absurd (hnone.symm.trans hsigs) (by decide +kernel)

end Sys2Proof.Machine
end

section
/-! PROOF. What the service answers to a request that role, password and controller state let through (17_engineering_service.md, R549 to R563). -/

namespace Sys2Proof.Machine

/-- A state whose sessions, and last reply, are those that a request leaves. -/
def afterRequest (u : State) (f : Session → Session) (last : Option Reply) : State :=
  { u with svc := { u.svc with sessions := u.svc.sessions.map f, last := last } }

/-- Command `i` leaves what its outcome `out` gives, but for the sessions and the last reply, which is that of the outcome if there is one. -/
def Yields (i : Instr) (s : State) (e : Env) (cmd : Nat) (x : Session) (out : SvcOut) : Prop :=
  ∃ f, exec i s = .next (afterRequest out.1 f ((out.2.map fun y => mkReply out.1 e cmd x.id y.1 y.2 true).or out.1.svc.last))

section
variable {i : Instr} {s u : State} {e : Env} {cmd : Nat} {x : Session}

/-- A command of the service that is granted passes every check before its body. -/
theorem yields_of_serve {role : Role} {ss : List CtlState} {states : CtlState → Bool} {body : State → Session → SvcOut}
    (hg : Granted s i e cmd x) (hcmd : sessionCommand i = some (e, cmd, role, ss))
    (hexec : exec i s = .next (serve s e cmd role states body)) (hst : ∀ c, ss = [] ∨ c ∈ ss → states c = true) :
    Yields i s e cmd x (body s x) := by
  obtain ⟨role', ss', hcmd', ⟨hserve, hrom, hip, hwell, htarget⟩, ⟨hsess, hzero, htag, hnew, hlater⟩, hfac, hrole, hstate⟩ := hg
  obtain ⟨rfl, rfl⟩ : role = role' ∧ ss = ss' := by simpa [hcmd] using hcmd'
  have hgo (go : State → State) : admitDatagram s e cmd go = go s := by
    unfold admitDatagram
    obtain ⟨hi, ht⟩ | ⟨hi, ht⟩ := htarget
    · rw [hi, if_pos rfl, if_pos ht]
      simp [hserve, hip, hwell]
    · simp [hserve, hip, hwell, hi, ht]
  have hseq : ((x.last.map fun l => later e.seq l).getD true) = true := by
    cases hl : x.last with
    | none => rfl
    | some l => exact hlater l hl
  have hnotlow : ¬roleNo x.role < roleNo role := by omega
  refine ⟨fun y => if y.id = x.id then
    { stay s y with last := some e.seq, reply := (body s x).2.map fun y => mkReply (body s x).1 e cmd x.id y.1 y.2 true } else y, ?_⟩
  rw [hexec, serve, hgo, if_neg (by simp [hrom]), inSession, hsess]
  dsimp only
  rw [if_neg (by simp [hzero, ← htag]), if_neg hnew, if_pos hseq, hfac, Bool.false_and, if_neg Bool.false_ne_true, if_neg hnotlow,
    hst _ hstate, if_neg (by simp)]
  cases (body s x).2 <;> rfl

/-- An outcome with a status and a body is answered with them. -/
theorem Yields.answered {st : Nat} {b : ReplyBody} {p : State → Prop} (h : Yields i s e cmd x (u, some (st, b)))
    (huid : u.boot.uid = s.boot.uid) (hp : ∀ f r, p (afterRequest u f r)) : Answered i s e cmd x st b p := by
  obtain ⟨f, hf⟩ := h
  refine ⟨_, hf, hp _ _, replyHead u e.iface ((resolve u .mnt e.ip).getD e.net.mac), rfl, rfl, rfl, ?_⟩
  rw [← huid]
  rfl

/-- A refusal is answered with its status, and nothing else changes. -/
theorem Yields.refused {st : Nat} {p : State → Prop} (h : Yields i s e cmd x (reject s st)) (hp : ∀ f r, p (afterRequest s f r)) :
    Answered i s e cmd x st .empty p := h.answered rfl hp

/-- Where its first check `c` fails, a body refuses; else it goes on. -/
theorem Yields.refused_of {c : Prop} [Decidable c] {st : Nat} {out : SvcOut} {p : State → Prop}
    (h : Yields i s e cmd x (if c then reject s st else out)) (hc : c) (hp : ∀ f r, p (afterRequest s f r)) : Answered i s e cmd x st .empty p := by
  rw [if_pos hc] at h
  exact h.refused hp

theorem Yields.passed {c : Prop} [Decidable c] {a b : SvcOut} (h : Yields i s e cmd x (if c then a else b)) (hc : ¬c) : Yields i s e cmd x b := by
  rwa [if_neg hc] at h

end

end Sys2Proof.Machine
end

section
/-! PROOF. Forces and online changes as the service accepts them (06_cyclic_execution.md, R203, R209 to R218; 17_engineering_service.md, R563, R566,
R567). -/

namespace Sys2Proof.Machine

theorem serviceForbids_iff (s : State) (fs : List ForceReq) (setting : Bool) : serviceForbids s fs setting = true ↔
    s.ctl.state = .service ∧ ((∃ f ∈ fs, f.kind ≠ 4) ∨ setting = true ∧ s.svc.calWork.isSome = true) := by
  simp [serviceForbids]

theorem isChout_iff (i : ForceItem) : isChout i = true ↔ ∃ c, i = .chout c := by cases i <;> simp [isChout]

/-- A request of up to 16 items has a sound number of them. -/
theorem not_itemCount_bad {α : Type} {fs : List α} (hne : fs ≠ []) (hlen : fs.length ≤ 16) : ¬(fs.isEmpty = true ∨ 16 < fs.length) := by
  simp [hne, hlen]

/-- A removal at tide `eff` names the entries of the items in `p` that are not removed yet, and leaves the others (R213). -/
def Removes (eff : Nat) (p : ForceItem → Prop) (fs gs : List Force) : Prop :=
  gs.length = fs.length ∧ ∀ (k : Nat) f, fs[k]? = some f →
    (p f.item → f.ended = false → f.endAt = none → gs[k]? = some { f with endAt := some eff }) ∧
      (¬(p f.item ∧ f.ended = false ∧ f.endAt = none) → gs[k]? = some f)

theorem removes_map_endForce (eff : Nat) {named : ForceItem → Bool} {p : ForceItem → Prop} (hp : ∀ i, named i = true ↔ p i)
    (fs : List Force) :
    Removes eff p fs (fs.map (endForce eff named)) := by
  refine ⟨List.length_map _, fun k f hf => ?_⟩
  have hcond : (named f.item && !f.ended && f.endAt.isNone) = true ↔ p f.item ∧ f.ended = false ∧ f.endAt = none := by
    simp [hp, and_assoc]
  rw [List.getElem?_map, hf, Option.map_some, endForce]
  exact ⟨fun hn he ha => by rw [if_pos (hcond.mpr ⟨hn, he, ha⟩)], fun h => by rw [if_neg (hcond.not.mpr h)]⟩

/-- Settles O52: the body of each command is a chain of refusals, and what it does where none of them stands. -/
theorem forcesAndChangesAccepted : Obligations.ForcesAndChangesAccepted := by
  unfold Obligations.ForcesAndChangesAccepted
  intro s e x eff logs same
  refine ⟨fun items hg => ?force, fun items hg => ?unforce, fun first hg => ?forcelist, fun named items hg => ?olc, fun num hg => ?olcstat⟩
  case force =>
    have run := yields_of_serve hg rfl rfl (by simp)
    have hforbid := serviceForbids_iff s items true
    simp only [true_and] at hforbid
    intro no foreign
    refine ⟨fun hf => run.refused_of (hforbid.mpr hf) fun _ _ => ⟨rfl, rfl⟩, fun hf hbad => ?_, fun hf hne hlen is his => ?_⟩
    all_goals replace run := run.passed (hforbid.not.mpr hf)
    · split at run
      · exact run.refused fun _ _ => ⟨rfl, rfl⟩
      · next hcount =>
        rw [not_or, List.isEmpty_iff] at hcount
        rw [(hbad.resolve_left hcount.1).resolve_left hcount.2] at run
        exact run.refused fun _ _ => ⟨rfl, rfl⟩
    · replace run := run.passed (not_itemCount_bad hne hlen)
      rw [his] at run
      intro total
      exact ⟨fun hmany => run.refused_of hmany fun _ _ => ⟨rfl, rfl⟩,
        fun hfew => (run.passed (Nat.not_lt.mpr hfew)).answered rfl fun _ _ => ⟨rfl, rfl⟩⟩
  case unforce =>
    have run := yields_of_serve hg rfl rfl (by simp)
    intro ends
    have removes (p : ForceItem → Prop) {named : ForceItem → Bool} {is} (hp : ∀ i, named i = true ↔ p i)
        (h : Yields (.unforce e items) s e 0x21 x (okReply (logChange
          { s with ctl := { s.ctl with forces := s.ctl.forces.map (endForce eff named) } } (peerOf e x) 0x0021 0 is) (.tide eff))) : ends p :=
      h.answered rfl fun _ _ => ⟨rfl, removes_map_endForce eff hp _⟩
    refine ⟨fun hnone => ?_, fun fs hsome => ?_⟩
    · subst hnone
      exact removes (fun i => s.ctl.state ≠ .service ∨ ∃ c, i = .chout c) (named := fun i => s.ctl.state != .service || isChout i)
        (fun i => by simp [isChout_iff]) run
    · intro foreign no
      have hforbid := serviceForbids_iff s fs false
      simp only [Bool.false_eq_true, false_and, or_false] at hforbid
      subst hsome
      refine ⟨fun hf => run.refused_of (hforbid.mpr hf) fun _ _ => ⟨rfl, rfl⟩, fun hf hbad => ?_, fun hf hne hlen is his => ?_⟩
      all_goals replace run := run.passed (hforbid.not.mpr hf)
      · split at run
        · exact run.refused fun _ _ => ⟨rfl, rfl⟩
        · next hcount =>
          rw [not_or, List.isEmpty_iff] at hcount
          rw [(hbad.resolve_left hcount.1).resolve_left hcount.2] at run
          exact run.refused fun _ _ => ⟨rfl, rfl⟩
      · replace run := run.passed (not_itemCount_bad hne hlen)
        rw [his] at run
        exact removes (fun i => ∃ y ∈ is, y.1 = i) (named := fun i => is.any fun y => y.1 == i) (fun i => by simp) run
  case forcelist => exact (yields_of_serve hg rfl rfl fun _ _ => rfl).answered rfl fun _ _ => rfl
  case olc =>
    have run := yields_of_serve hg rfl rfl (by simp)
    intro ahead no bad
    have hcheck : (items.isEmpty = true ∨ 64 < items.length ∨ tideAhead s named < 2 ∨ 40000 < tideAhead s named) ∨ olcItems s items = none ↔
        bad := by
      simp only [bad, ahead, tideAhead, List.isEmpty_iff, or_assoc]
    refine ⟨fun hbad => ?_, fun hok hfull => ?_, fun hok hroom is his => ?_⟩
    · split at run
      · exact run.refused fun _ _ => ⟨rfl, rfl⟩
      · next hnot =>
        rw [(hcheck.mpr hbad).resolve_left hnot] at run
        exact run.refused fun _ _ => ⟨rfl, rfl⟩
    · obtain ⟨is, his⟩ := Option.ne_none_iff_exists'.mp fun h => hok (hcheck.mp (.inr h))
      replace run := run.passed fun h => hok (hcheck.mp (.inl h))
      rw [his] at run
      exact run.refused_of hfull fun _ _ => ⟨rfl, rfl⟩
    · replace run := run.passed fun h => hok (hcheck.mp (.inl h))
      rw [his] at run
      exact (run.passed (Nat.not_le.mpr hroom)).answered rfl fun _ _ => ⟨rfl, rfl, _, rfl, rfl, rfl, rfl⟩
  case olcstat =>
    have run := yields_of_serve hg rfl rfl fun _ _ => rfl
    refine ⟨fun r hr => ?_, fun hr => ?_⟩
    · rw [hr] at run
      exact run.answered rfl fun _ _ => rfl
    · rw [List.find?_eq_none.mpr (by simpa using hr)] at run
      exact run.refused fun _ _ => rfl

end Sys2Proof.Machine
end

section
/-! PROOF. What blocks, the end of an update and its confirmation write (17_engineering_service.md, R568, R569; 18_boot_update_and_trust.md, R585,
R592, R593, R598). -/

namespace Sys2Proof.Machine

/-! Blocks of a load or of an update. -/

/-- What was written is what is read back. -/
theorem memReadN_memWriteN {d : Byte} {m : Memory} (h : Memory.wf d m = true) (a : Nat) (data : List Byte) :
    memReadN d (memWriteN d m a data) a data.length = data := by
  refine List.ext_getElem (by simp [memReadN]) fun k _ hk => ?_
  simp only [memReadN, List.getElem_map, List.getElem_range]
  rw [memRead_memWriteN h (Nat.zero_le a), if_pos (by omega), Nat.add_sub_cancel_left, List.getD_eq_getElem?_getD, List.getElem?_eq_getElem hk]
  rfl

@[simp] theorem bankOf_wake (s : State) (c : SlackDom) (d : BankId) : bankOf (wake s c) d = bankOf s d :=
  bankOf_congr (by simp) (by simp) d

/-- The bytes of a block stand in flash once they are written (R568). -/
theorem flashRead_flashWrite {s : State} (h : MemoriesOk s) (d : BankId) (p : LoadPlace) (data : List Byte) :
    flashRead (flashWrite s d p data) d p data.length = data := by
  obtain ⟨-, -, hbank⟩ := h
  obtain ⟨hfw, h0, h1⟩ := hbank d
  rcases p with ⟨second, off⟩ | off
  · have harea : Memory.wf 0xFF (appArea (bankOf s d) second) = true := by cases second <;> assumption
    cases second <;> simpa [flashRead, flashWrite, setAppArea, appArea] using memReadN_memWriteN harea off data
  · simpa [flashRead, flashWrite] using memReadN_memWriteN hfw off data

theorem flashWrite_memoriesOk {s : State} (h : MemoriesOk s) (d : BankId) (p : LoadPlace) (data : List Byte) : MemoriesOk (flashWrite s d p data) :=
  (memoriesOk_iff _).mpr ((flashWrite_keeps (keeps_refl s)).2.2 h)

theorem modBank_uid (s : State) (d : BankId) (f : BankSt → BankSt) : (modBank s d f).boot.uid = s.boot.uid := by cases d <;> rfl

theorem flashWrite_uid (s : State) (d : BankId) (p : LoadPlace) (data : List Byte) : (flashWrite s d p data).boot.uid = s.boot.uid := by
  rcases p with ⟨_, _⟩ | _ <;> simp [flashWrite, modBank_uid]

theorem blockFits_iff (q : LoadSeq) (o : Nat) (data : List Byte) :
    blockFits q o data = true ↔ o % 1024 = 0 ∧ 1 ≤ data.length ∧ data.length ≤ 1024 ∧ o + data.length ≤ q.length := by
  simp [blockFits, and_assoc]

section
variable {s : State} {q : LoadSeq} {o : Nat} {data : List Byte}

/-- A block at an offset that holds none yet is written (R568). -/
theorem loadBlock_new (hfit : blockFits q o data = true) (hnew : ∀ b ∈ q.blocks, b.1 ≠ o) :
    ∃ q2 : LoadSeq, (o, data.length) ∈ q2.blocks ∧ q2.length = q.length ∧ q2.session = q.session ∧
      loadBlock s q o data = okReply (setSeq (flashWrite s (placeOf s q.kind o).1 (placeOf s q.kind o).2 data) (some q2)) (.count (written q2)) := by
  have hnone : q.blocks.find? (fun b => b.1 = o) = none := List.find?_eq_none.mpr (by simpa using hnew)
  have hread : flashRead s (placeOf s q.kind o).1 (placeOf s q.kind o).2 0 = [] := by cases (placeOf s q.kind o).2 <;> rfl
  have hlen : ¬data.length ≤ 0 := by
    have := ((blockFits_iff q o data).mp hfit).2.1
    omega
  refine ⟨{ q with blocks := (o, data.length) :: q.blocks.filter fun b => b.1 ≠ o }, by simp, rfl, rfl, ?_⟩
  unfold loadBlock
  rw [if_neg (by simp [hfit]), hnone]
  simp only [Option.map_none, Option.getD_none, Nat.zero_min, List.take_zero]
  rw [hread, if_neg (by simp), if_neg hlen]

/-- A block at an offset that holds one of its length must repeat its data (R568). -/
theorem loadBlock_again (hfit : blockFits q o data = true) (hold : q.blocks.find? (fun b => b.1 = o) = some (o, data.length)) :
    loadBlock s q o data = if flashRead s (placeOf s q.kind o).1 (placeOf s q.kind o).2 data.length ≠ data then reject s 0x000A
      else okReply s (.count (written q)) := by
  unfold loadBlock
  rw [if_neg (by simp [hfit]), hold]
  simp

end

theorem ownSeq_other {s : State} {x : Session} {upd : Bool} {q : LoadSeq} (hq : s.boot.seq = some q) (h : q.session ≠ x.id) :
    ownSeq s x upd = .inr 0x0005 := by
  rw [ownSeq, hq]
  exact if_pos h

theorem ownSeq_own {s : State} {x : Session} {upd : Bool} {q : LoadSeq} (hq : s.boot.seq = some q) (h : q.session = x.id)
    (hk : (∃ k, q.kind = .upd k) ↔ upd = true) : ownSeq s x upd = .inl q := by
  have hkind : isUpd q.kind = upd := by
    rw [Bool.eq_iff_iff, ← hk]
    cases q.kind <;> simp [isUpd]
  rw [ownSeq, hq]
  exact (if_neg (not_not.mpr h)).trans (if_pos hkind)

/-- APPBLOCK and UPDBLOCK do with a block what the open sequence of the session makes of it. -/
theorem block_yields {s : State} {e : Env} {x : Session} {upd : Bool} {o : Nat} {data : List Byte}
    (hg : Granted s (if upd then .updblock e o data else .appblock e o data) e (if upd then 0x61 else 0x51) x) :
    let out := Yields (if upd then .updblock e o data else .appblock e o data) s e (if upd then 0x61 else 0x51) x
    (∀ status, ownSeq s x upd = .inr status → out (reject s status)) ∧ (∀ q, ownSeq s x upd = .inl q → out (loadBlock s q o data)) := by
  have run : ∃ y, ownSeq s x upd = y ∧ Yields (if upd then .updblock e o data else .appblock e o data) s e (if upd then 0x61 else 0x51) x
      (y.elim (fun q => loadBlock s q o data) fun status => reject s status) := by
    refine ⟨_, rfl, ?_⟩
    cases upd with
    | true =>
      have run := yields_of_serve (i := .updblock e o data) hg rfl rfl fun _ _ => rfl
      cases h : ownSeq s x true <;> rw [h] at run <;> exact run
    | false =>
      have run := yields_of_serve (i := .appblock e o data) hg rfl rfl (by simp [stoppedOrService])
      cases h : ownSeq s x false <;> rw [h] at run <;> exact run
  obtain ⟨y, hy, run⟩ := run
  exact ⟨fun status h => by cases hy.symm.trans h; exact run, fun q h => by cases hy.symm.trans h; exact run⟩

/-! The end of an update (R593). -/

theorem journalOf_setSeq (s : State) (q : Option LoadSeq) : journalOf (setSeq s q) = journalOf s := rfl

theorem bankOf_setSeq (s : State) (q : Option LoadSeq) (d : BankId) : bankOf (setSeq s q) d = bankOf s d := bankOf_congr rfl rfl d

/-- The journal of a complete update is STAGED. -/
theorem journalOf_stageUpdate (s : State) (q : LoadSeq) (k : Byte) :
    ∃ v, journalOf (stageUpdate s q k) =
      { journalOf s with gen := (journalOf s).gen + 1, state := .staged, step := .none, attempt := 0, slip := false, kind := k, version := v } := by
  unfold stageUpdate
  simp only [journalOf_setSeq, journalOf_record, journalOf_writeJournal]
  split
  · exact ⟨_, by rw [journalOf_modBank]⟩
  · exact ⟨_, rfl⟩

/-- A firmware update takes the application in force along; the ACTIVE bank stays. -/
theorem bankOf_stageUpdate (s : State) (q : LoadSeq) (k : Byte) :
    (k = 1 → (bankOf (stageUpdate s q k) (targetBank s)).app0 = appInForce (bankOf s (journalOf s).active)) ∧
      bankOf (stageUpdate s q k) (journalOf s).active = bankOf s (journalOf s).active := by
  unfold stageUpdate
  simp only [bankOf_setSeq, bankOf_record, bankOf_writeJournal]
  refine ⟨fun hk => ?_, ?_⟩
  · rw [if_pos hk, bankOf_modBank, if_pos rfl]
  · split
    · exact (bankOf_modBank ..).trans (if_neg (otherBank_ne _).symm)
    · rfl

theorem writeJournal_uid (s : State) (f : Journal → Journal) : (writeJournal s f).boot.uid = s.boot.uid := by
  obtain ⟨_, _, h⟩ := writeJournal_copies s f
  rw [h]

theorem stageUpdate_uid (s : State) (q : LoadSeq) (k : Byte) : (stageUpdate s q k).boot.uid = s.boot.uid := by
  unfold stageUpdate
  simp only [setSeq, record_boot, writeJournal_uid]
  split
  · exact modBank_uid _ _ _
  · rfl

/-- An update without a block has its lowest gap at 0. -/
theorem lowestGap_nil {q : LoadSeq} (h : q.blocks = []) (s : State) (k : Byte) : lowestGap s q k = (0, false) := by
  simp [lowestGap, gapFrom, h, runFrom]

/-! The confirmation (R585, R598). -/

theorem keyIgnored_only (s : State) (d : BankId) : ∃ r, keyIgnored s d = { s with rc := r } := by
  unfold keyIgnored
  split
  · exact ⟨_, rfl⟩
  · dsimp only
    split
    · exact ⟨_, rfl⟩
    · exact record_only _ _ _

/-- The state in which a confirmation has written its journal, its events and its entry of the change log. -/
def confirmed (s : State) (e : Env) (x : Session) : State :=
  let d := targetBank s
  let v := imgVersion (bankOf s d).fw
  logChange (keyIgnored (record (confirmJournal s) 0x0A0A (d1 (bankNo d) ++ d4 v.toNat)) d) (peerOf e x) 0x0064 0 [BitVec.ofNat 32 (bankNo d), v]

theorem confirmJournal_only (s : State) : ∃ y, confirmJournal s = { s with boot := y } := by
  unfold confirmJournal
  exact writeJournal_only _ _

/-- What a confirmation leaves: its journal, one more entry of the change log, and the last reply as it was. -/
theorem confirmed_left (s : State) (e : Env) (x : Session) :
    journalOf (confirmed s e x) = journalOf (confirmJournal s) ∧ (confirmed s e x).svc.nextLog = s.svc.nextLog + 1 ∧
      (confirmed s e x).svc.last = s.svc.last ∧ (confirmed s e x).boot.uid = s.boot.uid := by
  have huid : (confirmJournal s).boot.uid = s.boot.uid := writeJournal_uid _ _
  unfold confirmed
  dsimp only
  obtain ⟨rc, hrc⟩ := record_only (confirmJournal s) 0x0A0A (d1 (bankNo (targetBank s)) ++ d4 (imgVersion (bankOf s (targetBank s)).fw).toNat)
  obtain ⟨rc', hkey⟩ := keyIgnored_only { confirmJournal s with rc := rc } (targetBank s)
  obtain ⟨y, hj⟩ := confirmJournal_only s
  rw [hrc, hkey]
  rw [hj] at huid ⊢
  exact ⟨rfl, rfl, rfl, huid⟩

theorem otherBank_otherBank (d : BankId) : otherBank (otherBank d) = d := by cases d <;> rfl

end Sys2Proof.Machine
end

section
/-! PROOF. Controller commands, loads and updates as the service accepts them (06_cyclic_execution.md, R203; 07_lanes_voting_and_lockstep.md, R228;
17_engineering_service.md, R563, R568 to R572; 18_boot_update_and_trust.md, R592 to R600). -/

namespace Sys2Proof.Machine

theorem onTrial_iff (s : State) :
    onTrial s = true ↔ (journalOf s).state = .staged ∨ (journalOf s).state = .trialBoot ∨ (journalOf s).state = .trialRun := by
  simp [onTrial, or_assoc]

theorem mayUpdate_iff (s : State) :
    mayUpdate s = true ↔ ((journalOf s).state = .confirmed ∧ (journalOf s).fusepend = false) ∨ (journalOf s).state = .reverted := by
  simp [mayUpdate]

theorem updLengthOk_iff (k : Byte) (n : Nat) :
    updLengthOk k n = true ↔ (k = 1 ∧ 1 ≤ n ∧ n ≤ 0x2000000) ∨ (k = 2 ∧ 0x2000000 < n ∧ n ≤ 0x3800000) := by
  unfold updLengthOk
  split
  · next h =>
    rw [Bool.and_eq_true, decide_eq_true_eq, decide_eq_true_eq]
    exact ⟨fun hn => .inl ⟨h, hn⟩, fun hn => (hn.resolve_right fun h2 => absurd (h.symm.trans h2.1) (by decide)).2⟩
  · next h1 =>
    split
    · next h =>
      rw [Bool.and_eq_true, decide_eq_true_eq, decide_eq_true_eq]
      exact ⟨fun hn => .inr ⟨h, hn⟩, fun hn => (hn.resolve_left fun h2 => h1 h2.1).2⟩
    · next h2 => exact ⟨fun h => absurd h Bool.false_ne_true, fun h => absurd h (not_or.mpr ⟨fun h => h1 h.1, fun h => h2 h.1⟩)⟩

theorem ChansOnly.svc {s t : State} (h : ChansOnly s t) : t.svc = s.svc := by obtain ⟨_, _, rfl⟩ := h; rfl
theorem ChansOnly.lanes {s t : State} (h : ChansOnly s t) : t.lanes = s.lanes := by obtain ⟨_, _, rfl⟩ := h; rfl

/-- A module reset leaves the controller in COLD, closes every session and takes the power from every lane (R200, R559, R587). -/
theorem resetModule_left (s : State) : (resetModule s).ctl.state = .cold ∧ (resetModule s).boot = bootAfter false s.boot ∧
    (resetModule s).svc.sessions = [] ∧ ∀ l, (lane (resetModule s) l).st = .absent := by
  refine ⟨resetModule_ctl_state s, resetModule_boot s, ?_, fun l => ?_⟩
  · simp [resetModule, startDomains, modPower, moduleReset, svcAfter, resetSvc, (refreshDrives_chansOnly _).svc]
  · simp [resetModule, startDomains, modPower, moduleReset, laneAfter, resetLane, lane, (refreshDrives_chansOnly _).lanes, lanes_map_get]

/-! The journal and the banks do not depend on sessions, replies and the change log. -/

theorem journalOf_afterRequest (u : State) (f : Session → Session) (r : Option Reply) : journalOf (afterRequest u f r) = journalOf u := rfl

theorem bankOf_afterRequest (u : State) (f : Session → Session) (r : Option Reply) (d : BankId) :
    bankOf (afterRequest u f r) d = bankOf u d := bankOf_congr rfl rfl d

theorem journalOf_logChange (u : State) (peer : Option (Role × SvcIface × Word)) (cmd status : Nat) (details : List Word) :
    journalOf (logChange u peer cmd status details) = journalOf u := rfl

theorem bankOf_logChange (u : State) (peer : Option (Role × SvcIface × Word)) (cmd status : Nat) (details : List Word) (d : BankId) :
    bankOf (logChange u peer cmd status details) d = bankOf u d := bankOf_congr rfl rfl d

/-- Settles O53: what each body does is read off it, the checks on the open sequence and the journal in turn. -/
theorem loadsAndControlAccepted : Obligations.LoadsAndControlAccepted := by
  unfold Obligations.LoadsAndControlAccepted
  intro s e x j trial accepts no
  refine ⟨fun hg => ?stop, fun w hg => ?restart, fun hg => ?service, fun hg => ?leave, fun hg => ?reboot, fun n hg => ?appbegin,
    fun k n hg => ?updbegin, fun upd o data => ?block, fun hg q hq hk hown => ?append, fun hg => ?updquery, fun hg q k hq hk hown => ?updend,
    fun hg => ?confirm⟩
  case stop => exact (yields_of_serve hg rfl rfl (by simp)).answered rfl fun _ _ => ⟨rfl, rfl, rfl⟩
  case service => exact (yields_of_serve hg rfl rfl (by simp)).answered rfl fun _ _ => ⟨rfl, rfl, rfl⟩
  case restart | leave =>
    have run := yields_of_serve hg rfl rfl (by simp)
    exact ⟨fun h => run.refused_of h fun _ _ => ⟨rfl, rfl, rfl⟩,
      fun h => (run.passed (by simp [h])).answered rfl fun _ _ => ⟨rfl, rfl, rfl⟩⟩
  case reboot =>
    have run := yields_of_serve hg rfl rfl (by simp [stoppedOrService])
    obtain ⟨hstate, hboot, hsessions, habsent⟩ := resetModule_left (logChange s (peerOf e x) 0x0044 0 [])
    generalize resetModule (logChange s (peerOf e x) 0x0044 0 []) = u at run hstate hboot hsessions habsent
    exact run.answered (by rw [hboot]; rfl) fun f _ => ⟨hstate, congrArg Boot.booted hboot, congrArg (List.map f) hsessions, habsent⟩
  case appbegin =>
    have run := yields_of_serve hg rfl rfl (by simp [stoppedOrService])
    refine ⟨fun h => run.refused_of ((onTrial_iff s).mpr h) fun _ _ => ⟨rfl, rfl, rfl⟩, fun h hopen => ?_, fun h hnone hlen => ?_,
      fun h hnone h1 h2 => ?_⟩
    all_goals replace run := run.passed ((onTrial_iff s).not.mpr h)
    · exact run.refused_of hopen fun _ _ => ⟨rfl, rfl, rfl⟩
    · exact (run.passed (by simp [hnone])).refused_of (c := n = 0 ∨ appSlot < n) hlen fun _ _ => ⟨rfl, rfl, rfl⟩
    · exact ((run.passed (by simp [hnone])).passed (by unfold appSlot; omega)).answered (by simp [setSeq]) fun _ _ => by
        simp [afterRequest, setSeq]
  case updbegin =>
    have run := yields_of_serve hg rfl rfl fun _ _ => rfl
    intro lengthOk may
    refine ⟨fun h => run.refused_of (by simp [Bool.eq_false_iff.mpr ((mayUpdate_iff s).not.mpr h)]) fun _ _ => ⟨rfl, rfl, rfl⟩,
      fun h hopen => ?_, fun h hnone hlen => ?_, fun h hnone hlen => ?_⟩
    all_goals replace run := run.passed (by simp [(mayUpdate_iff s).mpr h])
    · exact run.refused_of hopen fun _ _ => ⟨rfl, rfl, rfl⟩
    · exact (run.passed (by simp [hnone])).refused_of (by simp [Bool.eq_false_iff.mpr ((updLengthOk_iff k n).not.mpr hlen)]) fun _ _ =>
        ⟨rfl, rfl, rfl⟩
    · refine ((run.passed (by simp [hnone])).passed (by simp [(updLengthOk_iff k n).mpr hlen])).answered (by simp [setSeq, writeJournal_uid])
        fun f r => ⟨by simp [afterRequest, setSeq], ?_⟩
      refine (journalOf_record _ _ _).trans ?_
      rw [journalOf_setSeq, journalOf_writeJournal]
  case block =>
    intro c cmd hg q hq
    obtain ⟨hrefuse, hload⟩ := block_yields hg
    refine ⟨fun h => (hrefuse 5 (ownSeq_other hq h)).refused fun _ _ => ⟨rfl, rfl, rfl⟩, fun hown hk => ?_⟩
    have run := hload q (ownSeq_own hq hown hk)
    intro fits p
    have hfits : blockFits q o data = true ↔ fits := blockFits_iff q o data
    refine ⟨fun h => ?_, fun h hnew hmem => ?_, fun h hold => ?_⟩
    · rw [loadBlock] at run
      exact run.refused_of (c := (!blockFits q o data) = true) (by simp [Bool.eq_false_iff.mpr (hfits.not.mpr h)]) fun _ _ => ⟨rfl, rfl, rfl⟩
    · obtain ⟨q2, hin, hlen, hsess, hout⟩ := loadBlock_new (s := s) (hfits.mpr h) hnew
      rw [hout] at run
      exact ⟨_, run.answered (flashWrite_uid s _ _ data) fun _ _ =>
        ⟨⟨q2, rfl, hin, hlen, hsess.trans hown⟩, flashRead_flashWrite hmem p.1 p.2 data, flashWrite_memoriesOk hmem p.1 p.2 data⟩⟩
    · rw [loadBlock_again (hfits.mpr h) hold] at run
      exact ⟨fun hsame => ⟨written q, (run.passed (not_not.mpr hsame)).answered rfl fun _ _ => rfl⟩,
        fun hother => run.refused_of hother fun _ _ => ⟨rfl, rfl, rfl⟩⟩
  case append =>
    have run := yields_of_serve hg rfl rfl (by simp [stoppedOrService])
    rw [ownSeq_own hq hown (by simp [hk])] at run
    refine ⟨fun h => run.refused_of h fun _ _ => ⟨rfl, rfl, rfl⟩, fun h => ?_⟩
    obtain ⟨f, hf⟩ := run.passed (by simp [h])
    exact ⟨_, _, hf, rfl, rfl, rfl, rfl, rfl, rfl⟩
  case updquery =>
    have run := yields_of_serve hg rfl rfl fun _ _ => rfl
    refine ⟨fun h => ?_, fun q k hq hk hb => ?_⟩
    · rw [h] at run
      exact run.answered rfl fun _ _ => rfl
    · rw [hq] at run
      dsimp only at run
      rw [hk] at run
      dsimp only at run
      rw [lowestGap_nil hb] at run
      exact run.answered rfl fun _ _ => rfl
  case updend =>
    have run := yields_of_serve hg rfl rfl fun _ _ => rfl
    rw [ownSeq_own hq hown (by simp [hk])] at run
    dsimp only at run
    rw [hk] at run
    refine ⟨fun h => run.refused_of (by simp [h]) fun _ _ => ⟨rfl, rfl, rfl⟩, fun h => ?_⟩
    obtain ⟨v, hj⟩ := journalOf_stageUpdate s q k
    obtain ⟨happ, hact⟩ := bankOf_stageUpdate s q k
    refine (run.passed (by simp [h])).answered (stageUpdate_uid s q k) fun f r => ⟨rfl, ?_⟩
    simp only [journalOf_afterRequest, bankOf_afterRequest, journalOf_logChange, bankOf_logChange]
    rw [hj]
    exact ⟨rfl, rfl, rfl, rfl, happ, hact⟩
  case confirm =>
    have run := yields_of_serve hg rfl rfl (by simp)
    refine ⟨fun h => run.refused_of h fun _ _ => ⟨rfl, rfl, rfl⟩, fun h => ?_⟩
    intro d svn done
    replace run : Yields (.confirm e) s e 0x64 x (if (journalOf (confirmed s e x)).fusepend then
        ({ confirmed s e x with svc := { (confirmed s e x).svc with confirmBy := some (x.id, e) } }, none)
      else okReply (confirmed s e x) (.count 0)) := run.passed (not_not.mpr h)
    obtain ⟨hj, hlog, hlast, huid⟩ := confirmed_left s e x
    rw [confirmJournal, journalOf_writeJournal] at hj
    have hold : otherBank (targetBank s) = j.active := otherBank_otherBank _
    have hdone (t : State) (ht : journalOf t = journalOf (confirmed s e x))
        (hl : t.svc.nextLog = (confirmed s e x).svc.nextLog) : done t := by
      rw [hj, hold] at ht
      exact ⟨ht ▸ rfl, ht ▸ rfl, by rw [ht]; exact decide_eq_true_iff, ht ▸ rfl, hl.trans hlog⟩
    have hpend : (journalOf (confirmed s e x)).fusepend = (decide (s.boot.rb < svn) || keyPending s d) := hj ▸ rfl
    refine ⟨fun h => ?_, fun hrb hkey => ?_⟩
    · have hp : (journalOf (confirmed s e x)).fusepend = true := by simpa [hpend] using h
      rw [if_pos hp] at run
      obtain ⟨f, hf⟩ := run
      exact ⟨_, hf, hdone _ rfl rfl, hp, rfl, hlast⟩
    · have hp : (journalOf (confirmed s e x)).fusepend = false := by simp [hpend, hrb, hkey]
      rw [if_neg (by simp [hp])] at run
      exact run.answered huid fun _ _ => ⟨hdone _ rfl rfl, hp⟩

end Sys2Proof.Machine
end

section
/-! PROOF. The retain cycle, and a K item that becomes applied (06_cyclic_execution.md, R204, R206, R222; 18_boot_update_and_trust.md, R578). -/

namespace Sys2Proof.Machine

theorem committed_iff (b : RetBuf) : committed b = true ↔ b.mark = 0xC3 ∧ b.bad = false := by
  simp [committed]

/-- Where buffer 1 holds the latest committed generation, buffer 0 is written. -/
theorem retTarget_of_latest1 {r : Retain} (h1 : committed r.buf1 = true)
    (h : committed r.buf0 = true → ¬later r.buf0.gen r.buf1.gen) : retTarget r = false := by
  cases h0 : committed r.buf0
  · simp [retTarget, h0]
  · simpa [retTarget, h0, h1] using h h0

/-- Where buffer 0 holds it, buffer 1 is. -/
theorem retTarget_of_latest0 {r : Retain} (h0 : committed r.buf0 = true)
    (h : committed r.buf1 = true → later r.buf0.gen r.buf1.gen) : retTarget r = true := by
  cases h1 : committed r.buf1
  · simp [retTarget, h0, h1]
  · simpa [retTarget, h0, h1] using h h1

theorem leadLane_of_voters {s : State} {l : LaneId} {rest : List LaneId} (h : voters s = l :: rest) : leadLane s = some l := by
  rw [leadLane, h]
  rfl

theorem allCaptured_of (s : State) (h : ∀ d ∈ (setup s).tasks, ∃ b, (d.pair, d.task, b) ∈ s.ctl.retain.caps) : allCaptured s = true := by
  rw [allCaptured, List.all_eq_true]
  intro d hd
  obtain ⟨b, hb⟩ := h d hd
  exact List.any_eq_true.mpr ⟨_, hb, by simp⟩

theorem retainCapturesComplete_eq {s : State} (haw : awake s = true) (hbusy : s.ctl.retain.busy = true) (hfull : s.ctl.retain.full = false)
    (hcap : allCaptured s = true) :
    exec .retainCapturesComplete s = .next (setRetain s { setBuf s.ctl.retain (retTarget s.ctl.retain)
      { body := s.ctl.retain.caps, gen := s.ctl.retain.lastGen + 1, digest := curDigest s, mark := 0, bad := false } with full := true }) := by
  simp [exec, execRetainCapturesComplete, haw, hbusy, hfull, hcap, writeBody, setRetain, nextGen]

theorem retainWriteDone_eq {s : State} (haw : awake s = true) (hbusy : s.ctl.retain.busy = true) (hfull : s.ctl.retain.full = true) :
    exec .retainWriteDone s = .next (abandonRetain (markBuf s (retTarget s.ctl.retain))) := by
  simp [exec, execRetainWriteDone, haw, hbusy, hfull]

/-- The half that a settings write takes is the one that then holds the valid generation. -/
theorem settingsOf_writeSettings (s : State) (d : BankId) (f : Settings → Settings) :
    settingsOf (bankOf (writeSettings s d f) d) =
      { f (settingsOf (bankOf s d)) with
        gen := (settingsOf (bankOf s d)).gen + 1, fmt := BitVec.ofNat 16 (hdr (bankOf s s.boot.bank).fw 20 2) } := by
  rw [writeSettings, bankOf_modBank, if_pos rfl]
  generalize bankOf s d = x
  cases h0 : x.half0 with
  | none => cases h1 : x.half1 <;> simp [settingsOf, validSettings, h0, h1, cureFlash]
  | some g0 =>
    cases h1 : x.half1 with
    | none => simp [settingsOf, validSettings, h0, h1, cureFlash]
    | some g1 => cases hl : later g1.gen g0.gen <;> simp [settingsOf, validSettings, h0, h1, hl]

theorem mem_overlayWith (g : Settings) (p : PairId) (off : Nat) (v w : Word) :
    (p, off, w) ∈ (overlayWith g p off v).overlay ↔ w = v := by
  simp [overlayWith]

theorem withItem_get (r : OlcReq) (n : Nat) (f : OlcItem → OlcItem) : (withItem r n f).items[n]? = r.items[n]?.map f := by
  simp [withItem, modAt]

/-- The requests `l` after item `n` of request `num` has been applied. -/
def itemApplied (num : Word) (n : Nat) (l : List OlcReq) : List OlcReq :=
  l.map fun x => if x.num = num then withItem x n fun i => { i with outcome := .applied } else x

/-- A request of that number has the item applied where it stands. -/
theorem item_of_itemApplied {num : Word} {n : Nat} {l : List OlcReq} {x : OlcReq} (hx : x ∈ itemApplied num n l) (hnum : x.num = num) :
    ∃ y ∈ l, y.num = num ∧ x.items[n]? = y.items[n]?.map fun i => { i with outcome := .applied } := by
  obtain ⟨y, hy, rfl⟩ := List.mem_map.mp hx
  by_cases h : y.num = num
  · exact ⟨y, hy, h, by rw [if_pos h, withItem_get]⟩
  · rw [if_neg h] at hnum
    exact absurd hnum h

/-- The state after K_OVERLAY_WRITE_DONE for item `i`. -/
def kItemApplied (s : State) (r : OlcReq) (n : Nat) (i : OlcItem) (p : PairId) (off : Nat) : State :=
  let u := writeSettings s s.boot.bank fun g => overlayWith g p off i.value
  let v := { u with ctl := { u.ctl with olcs := itemApplied r.num n u.ctl.olcs, olcDone := itemApplied r.num n u.ctl.olcDone } }
  logItem (recordItem v r.num n .applied) r n i.old i.value .applied

theorem kOverlayWriteDone_eq {s : State} {r : OlcReq} {n : Nat} {i : OlcItem} {p : PairId} {off : Nat}
    (hmem : r ∈ s.ctl.olcs ++ s.ctl.olcDone) (huniq : ∀ x ∈ s.ctl.olcs ++ s.ctl.olcDone, x.num = r.num → x = r)
    (hi : r.items[n]? = some i) (ht : i.target = .kWord p off) (ho : i.outcome = .inEffect) :
    exec (.kOverlayWriteDone r.num n) s = .next (kItemApplied s r n i p off) := by
  have hfind : (s.ctl.olcs ++ s.ctl.olcDone).find? (fun x => x.num = r.num) = some r := by
    cases h : (s.ctl.olcs ++ s.ctl.olcDone).find? (fun x => x.num = r.num) with
    | none => exact absurd (List.find?_eq_none.mp h r hmem) (by simp)
    | some x => rw [huniq x (List.mem_of_find?_eq_some h) (by simpa using List.find?_some h)]
  show execKOverlayWriteDone r.num n s = _
  simp only [execKOverlayWriteDone, hfind, hi, ht, ho]
  rfl

theorem writeSettings_boot (s : State) (d : BankId) (f : Settings → Settings) :
    ∃ x, writeSettings s d f = { s with boot := x } ∧ x.bank = s.boot.bank := by
  rw [writeSettings]
  cases d <;> exact ⟨_, rfl, rfl⟩

theorem logItem_boot (s : State) (r : OlcReq) (n : Nat) (old new : Word) (o : OlcOutcome) : (logItem s r n old new o).boot = s.boot :=
  rfl

/-- What of the applied item's state the statement speaks of. -/
theorem kItemApplied_left (s : State) (r : OlcReq) (n : Nat) (i : OlcItem) (p : PairId) (off : Nat) :
    let t := kItemApplied s r n i p off
    t.ctl.olcs = itemApplied r.num n s.ctl.olcs ∧ t.ctl.olcDone = itemApplied r.num n s.ctl.olcDone ∧
      settingsOf (bankOf t t.boot.bank) =
        settingsOf (bankOf (writeSettings s s.boot.bank fun g => overlayWith g p off i.value) s.boot.bank) ∧
      t.svc.nextLog = s.svc.nextLog + 1 ∧ t.lanes = s.lanes := by
  obtain ⟨x, hx, hbank⟩ := writeSettings_boot s s.boot.bank fun g => overlayWith g p off i.value
  simp only [kItemApplied, hx]
  refine ⟨?_, ?_, ?_, ?_, ?_⟩
  · exact congrArg Ctl.olcs (record_ctl _ _ _)
  · exact congrArg Ctl.olcDone (record_ctl _ _ _)
  · rw [logItem_boot, logItem, bankOf_logChange, recordItem, bankOf_record, record_boot, hbank]
    exact congrArg settingsOf (bankOf_congr rfl rfl _)
  · exact congrArg (·.nextLog + 1) (record_svc _ _ _)
  · exact record_lanes _ _ _

/-- Settles O22: each instant is read off its command, the buffer written being the one that does not hold the latest committed
generation; the K item through `kItemApplied`. -/
theorem retainAndSettings : Obligations.RetainAndSettings := by
  refine ⟨fun s haw => ?_, fun s r n i p off hmem huniq hi ht ho => ?_⟩
  · intro r whole
    refine ⟨fun hrun ht hb l rest hv => ?_, fun h => ?_, fun hb hf hcap => ?_, fun hb hf => ?_⟩
    · simp [exec, execRetainCycleStart, haw, hrun, ht, leadLane_of_voters hv, setRetain, show s.ctl.retain.busy = false from hb, r]
    · have hno : (awake s && s.ctl.state == .run && s.tide % 64 == 0 && !s.ctl.retain.busy) = false := by
        rcases h with h | h | h <;> simp_all [r]
      simp [exec, execRetainCycleStart, hno]
    · have run := retainCapturesComplete_eq haw hb hf (allCaptured_of s hcap)
      refine ⟨fun ⟨h1, h⟩ => ?_, fun hnot h0 => ?_⟩
      · rw [run, retTarget_of_latest1 ((committed_iff _).mpr h1) fun h0 => h ((committed_iff _).mp h0)]
        rfl
      · rw [run, retTarget_of_latest0 ((committed_iff _).mpr h0)]
        · rfl
        · intro h1
          by_contra hl
          exact hnot ⟨(committed_iff _).mp h1, fun _ => hl⟩
    · refine ⟨_, retainWriteDone_eq haw hb hf, rfl, rfl, fun h0 h1 => ?_, fun h1 h0 => ?_⟩
      · rw [retTarget_of_latest0 ((committed_iff _).mpr h0) fun h => absurd ((committed_iff _).mp h).1 h1]
        exact ⟨rfl, rfl, rfl⟩
      · rw [retTarget_of_latest1 ((committed_iff _).mpr h1) fun h => absurd ((committed_iff _).mp h).1 h0]
        exact ⟨rfl, rfl, rfl⟩
  · obtain ⟨holcs, hdone, hset, hlog, hlanes⟩ := kItemApplied_left s r n i p off
    refine ⟨_, kOverlayWriteDone_eq hmem huniq hi ht ho, fun x hx hnum => ?_, fun v => ?_, hlog, hlanes⟩
    · rw [holcs, hdone, itemApplied, itemApplied, ← List.map_append] at hx
      obtain ⟨y, hy, hynum, hget⟩ := item_of_itemApplied hx hnum
      rw [hget, huniq y hy hynum, hi]
      rfl
    · rw [hset, settingsOf_writeSettings]
      exact mem_overlayWith _ p off i.value v

end Sys2Proof.Machine
end

section
/-! PROOF. A restart step by step, and what it leaves (06_cyclic_execution.md, R208). -/

namespace Sys2Proof.Machine

/-! Whether a channel has been given a value stays through a refresh of the drives. -/

/-- Every channel that had been given a value still has been, and no other. -/
def EverComKept (s t : State) : Prop := ∀ c, (t.chans.get c).everCom = (s.chans.get c).everCom

theorem EverComKept.refl (s : State) : EverComKept s s := fun _ => rfl

theorem EverComKept.trans {s t u : State} (h : EverComKept s t) (g : EverComKept t u) : EverComKept s u := fun c => (g c).trans (h c)

theorem EverComKept.modChan {s t : State} (h : EverComKept s t) (c : Chan) {f : ChanSt → ChanSt}
    (hf : ∀ x, (f x).everCom = x.everCom := by intro x; rfl) : EverComKept s (modChan t c f) := by
  intro j
  simp only [Sys2Proof.Machine.modChan, vmod_get]
  split
  · next hj => rw [hf, hj, h c]
  · exact h j

theorem EverComKept.record {s t : State} (h : EverComKept s t) (code : BitVec 16) (d : List Byte) : EverComKept s (record t code d) := by
  intro j
  rw [record_chans, h j]

theorem demand_everComKept {s t : State} (h : EverComKept s t) (c : Chan) : EverComKept s (demand t c) := by
  simp only [demand]
  split
  · exact h
  · exact h.modChan c
  · split
    · exact ((h.modChan c).modChan c).record _ _
    · exact h.modChan c

theorem releaseTrip_everComKept {s t : State} (h : EverComKept s t) (c : Chan) : EverComKept s (releaseTrip t c) := by
  simp only [releaseTrip, dropCause, settleBit]
  split
  · split
    · exact (((h.modChan c).modChan c).modChan c).record _ _
    · exact (h.modChan c).modChan c
  · exact h

theorem takeDrive_everComKept {s t : State} (h : EverComKept s t) (c : Chan) : EverComKept s (takeDrive t c) := by
  have accepts : EverComKept s (modIsland t c fun x => { x with drvAcc := x.drv }) := h.modChan c fun x => by
    dsimp only
    split <;> rfl
  simp only [takeDrive]
  split
  · split
    · exact accepts
    · exact releaseTrip_everComKept accepts c
  · exact h

theorem refreshDrives_everComKept (s : State) : EverComKept s (refreshDrives s) := by
  refine forAll_keeps (EverComKept s) _ s _ (.refl s) fun t c _ h => ?_
  refine EverComKept.modChan (takeDrive_everComKept (EverComKept.modChan ?_ c) c) c
  split
  · exact h
  · exact demand_everComKept h c

/-! The banks loaded and the RET sections restored. -/

/-- Only the lanes differ, and none of them in its state. -/
def BanksOnly (s t : State) : Prop := ∃ ls, t = { s with lanes := ls } ∧ ∀ l, (ls.get l).st = (lane s l).st

theorem BanksOnly.refl (s : State) : BanksOnly s s := ⟨_, rfl, fun _ => rfl⟩

theorem BanksOnly.modLane {s t : State} (h : BanksOnly s t) (l : LaneId) {f : LaneSt → LaneSt}
    (hf : ∀ x, (f x).st = x.st := by intro x; rfl) : BanksOnly s (modLane t l f) := by
  obtain ⟨ls, rfl, hst⟩ := h
  refine ⟨_, rfl, fun r => ?_⟩
  rw [lanes_get_set]
  split
  · next hr => rw [hf, hr, hst l]
  · exact hst r

theorem loadBank_st (s : State) (im : AppImage) (d : LayoutDecl) (x : LaneSt) : (loadBank s im d x).st = x.st := by
  simp only [loadBank, fillRange]

theorem sectWrite_banksOnly {s t : State} (h : BanksOnly s t) (l : LaneId) (d : TaskDecl) (k : SectKind) (b : List Byte) :
    BanksOnly s (sectWrite t l d k b) := by
  unfold sectWrite bankWrite sramWrite
  exact h.modLane l

theorem loadBanks_banksOnly (s : State) : BanksOnly s (loadBanks s) := by
  unfold loadBanks
  split
  · exact .refl s
  · exact forAll_keeps (BanksOnly s) _ s _ (.refl s) fun t l _ h => forAll_keeps (BanksOnly s) _ t _ h fun u d _ hu =>
      hu.modLane l (loadBank_st u _ d)

theorem restoreRet_banksOnly {s t : State} (h : BanksOnly s t) (b : RetBuf) : BanksOnly s (restoreRet t b) := by
  refine forAll_keeps (BanksOnly s) _ t _ h fun u c _ hu => ?_
  split
  · exact forAll_keeps (BanksOnly s) _ u _ hu fun v l _ hv => sectWrite_banksOnly hv l _ _ _
  · exact hu

/-! The online changes discarded. -/

/-- No request is open after all of them have been discarded; else only the record and the closed requests differ. -/
theorem discardOlcs_eq (s : State) :
    ∃ rc done last, discardOlcs s = { s with rc := rc, ctl := { s.ctl with olcs := [], olcDone := done, olcLast := last } } := by
  have records (rs : List OlcReq) : ∃ rc, (forAll rs s fun s r => forAll r.items.zipIdx s fun s p =>
      if p.1.outcome = .pending then recordItem s r.num p.2 .discarded else s) = { s with rc := rc } := by
    refine forAll_keeps (fun t => ∃ rc, t = { s with rc := rc }) _ s _ ⟨_, rfl⟩ fun t r _ h =>
      forAll_keeps (fun t => ∃ rc, t = { s with rc := rc }) _ t _ h fun u p _ ⟨rc, hu⟩ => ?_
    split
    · obtain ⟨rc', hrc⟩ := record_only u 0x0C07 (d4 r.num.toNat ++ d1 p.2 ++ d1 (outcomeNo .discarded))
      exact ⟨rc', hrc.trans (by rw [hu])⟩
    · exact ⟨rc, hu⟩
  obtain ⟨rc, hrc⟩ := records (s.ctl.olcs.filter fun _ => true)
  rw [discardOlcs, discardSome]
  dsimp only
  rw [hrc]
  split
  · next hnone =>
    have hempty : s.ctl.olcs = [] := by simpa using hnone
    exact ⟨rc, s.ctl.olcDone, s.ctl.olcLast, by rw [← hempty]⟩
  · exact ⟨rc, s.ctl.olcDone ++ (s.ctl.olcs.filter fun _ => true).map fun r => { r with items := r.items.map discardItem }, 3, by simp⟩

/-! The restart. -/

/-- A restart is warm: it was asked for, and a retain buffer is usable. -/
def warmRestart (s : State) (warm : Bool) (rb : BitVec 2) : Bool := warm && (latestBuf (spoilBuffers (reviveLanes s) rb)).isSome

/-- The retain area that a restart has read: without a warm restart neither buffer holds a committed generation. -/
def readyRetain (s : State) (warm : Bool) (rb : BitVec 2) : Retain :=
  let r := if warm then (spoilBuffers s rb).ctl.retain else s.ctl.retain
  if warmRestart s warm rb then r else { r with buf0 := { r.buf0 with mark := 0 }, buf1 := { r.buf1 with mark := 0 } }

/-- STOPCAUSE and STOPPC at a restart. -/
def stoppedRegs (c : Ctl) (hot : Bool) : Ctl :=
  { c with
      stopcause := if hot then c.retain.stopcause else 0, stoppc := if hot then c.retain.stoppc else 0,
      retain := if hot then c.retain else { c.retain with stopcause := 0, stoppc := 0 } }

theorem stopRegs_eq (s : State) (hot : Bool) : stopRegs s hot = { s with ctl := stoppedRegs s.ctl hot } := by
  cases hot <;> rfl

/-- Step 9 of a restart and the entry into RUN. -/
def enterRun (s : State) (hot fallback : Bool) (src : BitVec 2) : State :=
  let u := abandonRetain (record (tasksAtRun (netAtRun s)) (if hot then 0x0C03 else 0x0C04) (d1 src.toNat))
  setCtl { u with
    ctl := { u.ctl with warm := hot, fallback := fallback, source := BitVec.ofNat 2 src.toNat, runTide := u.tide, pendStop := none },
    time := { u.time with rel := false }, rejoin := { u.rejoin with withheld := false } } .run

/-- The controller of `c` after the entry into RUN at boundary `n`. -/
def enteredRun (c : Ctl) (hot fallback : Bool) (src : BitVec 2) (n : Nat) : Ctl :=
  { c with
      state := .run, warm := hot, fallback := fallback, source := src, runTide := n, pendStop := none,
      rel := Vector.replicate 8 (Vector.replicate 16 bareRel),
      retain := { c.retain with busy := false, full := false, src := none, caps := [] } }

/-- What of the state the entry into RUN leaves; it begins the tasks and the network anew. -/
theorem enterRun_only (s : State) (hot fallback : Bool) (src : BitVec 2) :
    ∃ rc time rejoin, enterRun s hot fallback src = { tasksAtRun (netAtRun s) with
      rc := rc, time := time, rejoin := rejoin, ctl := enteredRun s.ctl hot fallback src s.tide } := by
  obtain ⟨rc, hrc⟩ := record_only (tasksAtRun (netAtRun s)) (if hot then 0x0C03 else 0x0C04) (d1 src.toNat)
  rw [enterRun, hrc, setCtl, BitVec.ofNat_toNat, BitVec.setWidth_eq]
  obtain ⟨rc', hrc'⟩ := record_only _ _ _
  exact ⟨rc', _, _, hrc'⟩

/-- The controller at entry into RUN. -/
def ctlAtRun (s : State) (warm : Bool) (src rb : BitVec 2) (done : List OlcReq) (last : BitVec 2) : Ctl :=
  let hot := warmRestart s warm rb
  let c := { s.ctl with forces := (keepForces s hot).ctl.forces, retain := readyRetain s warm rb }
  { enteredRun (stoppedRegs c hot) hot (warm && !hot) src s.tide with olcs := [], olcDone := done, olcLast := last }

/-- What the state at entry into RUN is, before the drives follow it. -/
structure AtRun (s : State) (warm : Bool) (src rb : BitVec 2) (u : State) : Prop where
  ctl : ∃ done last, u.ctl = ctlAtRun s warm src rb done last
  lanes : ∃ ls : Lanes LaneSt, (u.lanes = ls.map fun _ x => bareTasks x) ∧ ∀ l, (ls.get l).st = (lane (reviveLanes s) l).st
  chans : u.chans = s.chans.map fun x => { x with everCom := false, force := none }
  rx : u.net.rx = (setup s).slots.map fun _ => freshRx
  straps : u.pw.straps = s.pw.straps

/-- The commit records are spoilt, or unmarked, with nothing else but a record. -/
theorem marks_only (s : State) (warm : Bool) (rb : BitVec 2) :
    let u := if warm then spoilBuffers (reviveLanes s) rb else unmark (reviveLanes s)
    ∃ rc, (if warm && !warmRestart s warm rb then unmark (record u 0x0C08 []) else u) =
      { reviveLanes s with rc := rc, ctl := { (reviveLanes s).ctl with retain := readyRetain s warm rb } } := by
  intro u
  cases warm with
  | false => exact ⟨_, rfl⟩
  | true =>
    cases hw : warmRestart s true rb
    · obtain ⟨rc, hrc⟩ := record_only u 0x0C08 []
      refine ⟨rc, ?_⟩
      rw [hrc, readyRetain, hw]
      rfl
    · refine ⟨u.rc, ?_⟩
      rw [readyRetain, hw]
      rfl

/-- Steps 1 to 5: the lanes' banks and the retain area are made ready, with nothing else but a record. -/
def ReadyForRun (s : State) (warm : Bool) (rb : BitVec 2) (t : State) : Prop :=
  ∃ ls rc, t = { s with lanes := ls, rc := rc, ctl := { s.ctl with retain := readyRetain s warm rb } } ∧
    ∀ l, (ls.get l).st = (lane (reviveLanes s) l).st

/-- A restart is the refresh of the drives in the state at entry into RUN. -/
theorem restart_eq (s : State) (warm : Bool) (src rb : BitVec 2) :
    ∃ u, AtRun s warm src rb u ∧ restart s warm src.toNat rb = refreshDrives u := by
  unfold restart
  extract_lets s1 s2 pick fallback s3 hot s4 s5 s6 s7 s8 s9 s10 rejoin ctl time s11
  have hhot : hot = warmRestart s warm rb := by
    cases warm <;> rfl
  have hfall : fallback = (warm && !hot) := by
    cases warm <;> simp [fallback, hot]
  have h5 : ReadyForRun s warm rb s5 := by
    have h3 : ∃ rc, s3 = { s1 with rc := rc, ctl := { s1.ctl with retain := readyRetain s warm rb } } := by
      unfold s3 s2
      rw [hfall, hhot]
      exact marks_only s warm rb
    have h4 : BanksOnly s3 s4 := loadBanks_banksOnly s3
    have h5 : BanksOnly s3 s5 := by
      unfold s5
      clear_value pick
      split
      · exact restoreRet_banksOnly h4 _
      · exact h4
    obtain ⟨ls, hls, hst⟩ := h5
    obtain ⟨rc, hrc⟩ := h3
    refine ⟨ls, rc, ?_, fun l => ?_⟩
    · rw [hls, hrc]
      rfl
    · rw [hst l, hrc]
      rfl
  clear_value s5
  obtain ⟨ls, rc, h5, hst⟩ := h5
  obtain ⟨rc6, done, last, h6⟩ := discardOlcs_eq (keepForces s5 hot)
  have h7 : s7 = { s with
      lanes := ls, rc := rc6, ctl := { stoppedRegs (keepForces s5 hot).ctl hot with olcs := [], olcDone := done, olcLast := last } } := by
    unfold s7 s6
    rw [stopRegs_eq, h6, h5]
    rfl
  refine ⟨enterRun s7 hot fallback src, ?_, rfl⟩
  obtain ⟨rc9, time, rejoin, hrun⟩ := enterRun_only s7 hot fallback src
  rw [hrun, h7]
  refine ⟨⟨done, last, ?_⟩, ⟨ls, rfl, hst⟩, rfl, rfl, rfl⟩
  rw [h5, hfall, hhot]
  rfl

theorem readyRetain_marks {s : State} {warm : Bool} {rb : BitVec 2} (h : warmRestart s warm rb = false) :
    (readyRetain s warm rb).buf0.mark = 0 ∧ (readyRetain s warm rb).buf1.mark = 0 := by
  simp [readyRetain, h]

theorem readyRetain_stop (s : State) (warm : Bool) (rb : BitVec 2) :
    (readyRetain s warm rb).stopcause = s.ctl.retain.stopcause ∧ (readyRetain s warm rb).stoppc = s.ctl.retain.stoppc := by
  rw [readyRetain]
  cases warm <;> cases warmRestart s _ rb <;> exact ⟨rfl, rfl⟩

theorem keepForces_items (s : State) :
    (keepForces s false).ctl.forces = [] ∧ ((policy s).forcekeep = false → (keepForces s true).ctl.forces = []) ∧
      ((policy s).forcekeep = true →
        (keepForces s true).ctl.forces.map (·.item) = (s.ctl.forces.filter fun f => !f.ended).map (·.item)) := by
  refine ⟨rfl, fun h => ?_, fun h => ?_⟩
  · simp [keepForces, h]
  · simp [keepForces, h, Function.comp_def]

theorem bareTasks_task (x : LaneSt) (p : PairId) (k : TaskId) :
    (((bareTasks x).pairs.get p).tasks.get k).phase = .idle ∧ (((bareTasks x).pairs.get p).tasks.get k).com = none := by
  simp [bareTasks, bareTask, endTask, Vector.get]

/-- Settles O21: each conjunct is read off the controller, the lanes and the channels at entry into RUN; the refresh of the drives keeps them. -/
theorem restartPreparesRun : Obligations.RestartPreparesRun := by
  intro s warm src rb t hot
  obtain ⟨u, ⟨⟨done, last, hctl⟩, ⟨ls, hlanes, hst⟩, hchans, hrx, -⟩, ht⟩ := restart_eq s warm src rb
  have hkept := refreshDrives_everComKept u
  obtain ⟨ch, rc, hdrives⟩ := refreshDrives_chansOnly u
  rw [hdrives] at ht hkept
  replace ht : t = { u with chans := ch, rc := rc } := ht
  have hhot : hot = warmRestart s warm rb := rfl
  have htc : t.ctl = ctlAtRun s warm src rb done last := ht ▸ hctl
  have htl (l : LaneId) : lane t l = bareTasks (ls.get l) := by
    rw [lane, show t.lanes = u.lanes from ht ▸ rfl, hlanes, lanes_map_get]
  rw [htc]
  obtain ⟨hnone, hdrop, hkeep⟩ := keepForces_items s
  obtain ⟨hcause, hpc⟩ := readyRetain_stop s warm rb
  refine ⟨rfl, rfl, rfl, rfl, rfl, rfl, rfl, fun hcold => ?_, fun hwarm => ?_, fun p k => ?_, fun l p k => ?_, fun r hr => ?_, fun c => ?_, rfl,
    fun l h1 h2 h3 => ?_⟩
  · rw [hhot] at hcold
    simp only [ctlAtRun, hcold]
    exact ⟨rfl, rfl, rfl, readyRetain_marks hcold⟩
  · rw [hhot] at hwarm
    simp only [ctlAtRun, hwarm]
    exact ⟨hcause, hpc, hdrop, hkeep⟩
  · rw [relOf, htc]
    simp [ctlAtRun, enteredRun, bareRel, Vector.get]
  · rw [taskRun, pair, htl]
    exact bareTasks_task _ p k
  · rw [show t.net = u.net from ht ▸ rfl, hrx] at hr
    obtain ⟨-, -, rfl⟩ := List.mem_map.mp hr
    exact ⟨rfl, rfl⟩
  · rw [show t.chans = ch from ht ▸ rfl]
    refine (hkept c).trans ?_
    simp [hchans, Vector.get]
  · rw [htl]
    refine (hst l).trans ?_
    simp_all [reviveLanes, lane, lanes_map_get]

end Sys2Proof.Machine
end

section
/-! PROOF. The force table at FORCE_EFFECT, and controller commands at their tide (06_cyclic_execution.md, R202, R203, R213 to R216). -/

namespace Sys2Proof.Machine

/-! The force table, as a list. -/

theorem mem_activateForce {fs : List Force} {f y : Force} :
    y ∈ activateForce fs f ↔ (y ∈ fs ∧ (y.active = true → y.item ≠ f.item) ∧ y ≠ f) ∨
      y = { f with active := true, under := (fs.find? fun x => x.active && x.item == f.item).bind (·.under) } := by
  simp [activateForce, imp_iff_not_or]

/-- The table `fs` after the removal of `f`, where its tide has come by tide `n`. -/
def finishForce (n : Nat) (fs : List Force) (f : Force) : List Force :=
  match f.endAt with
  | some t =>
    if f.active && !f.ended && decide (t ≤ n) then
      fs.flatMap fun x => if x = f then (if f.under.isSome then [{ f with ended := true }] else []) else [x]
    else fs
  | none => fs

/-- A removal leaves every force but the one removed, which may stay marked ended. -/
theorem mem_of_mem_finishForce {n : Nat} {fs : List Force} {f y : Force} (h : y ∈ finishForce n fs f) :
    y ∈ fs ∧ (y = f → ∀ e, y.endAt = some e → e ≤ n → y.active = true → y.ended = true) ∨
      (f ∈ fs ∧ f.active = true ∧ y = { f with ended := true }) := by
  unfold finishForce at h
  split at h
  · next t ht =>
    split at h
    · next hc =>
      simp only [Bool.and_eq_true] at hc
      obtain ⟨x, hx, hy⟩ := List.mem_flatMap.mp h
      by_cases he : x = f
      · rw [if_pos he] at hy
        right
        split at hy
        · exact ⟨he ▸ hx, hc.1.1, List.mem_singleton.mp hy⟩
        · nomatch hy
      · rw [if_neg he] at hy
        obtain rfl := List.mem_singleton.mp hy
        exact .inl ⟨hx, fun h => absurd h he⟩
    · next hc =>
      refine .inl ⟨h, ?_⟩
      rintro rfl e he hle hact
      obtain rfl : e = t := Option.some.inj (he.symm.trans ht)
      by_contra hend
      exact hc (by simp [hact, hend, hle])
  · next hn =>
    refine .inl ⟨h, ?_⟩
    rintro rfl e he
    simp [hn] at he

/-- A force without a removal, or not in effect, stays. -/
theorem mem_finishForce {n : Nat} {fs : List Force} {f x : Force} (hx : x ∈ fs) (h : x.active = false ∨ x.endAt = none) :
    x ∈ finishForce n fs f := by
  unfold finishForce
  split
  · next t ht =>
    split
    · next hc =>
      have hne : x ≠ f := by
        rintro rfl
        simp_all
      exact List.mem_flatMap.mpr ⟨x, hx, by simp [hne]⟩
    · exact hx
  · exact hx

/-- The forces whose effect tide has come by tide `n`, in effect; then the removals whose tide has come. -/
def startedForces (n : Nat) (fs : List Force) : List Force := (fs.filter fun f => !f.active && decide (f.eff ≤ n)).foldl activateForce fs
def endedForces (n : Nat) (fs : List Force) : List Force := fs.foldl (finishForce n) fs

theorem startedForces_active {n : Nat} {fs : List Force} {x : Force} (hx : x ∈ startedForces n fs) (he : x.eff ≤ n) : x.active = true := by
  have run (l : List Force) : ∀ fs : List Force, (∀ x ∈ fs, x.eff ≤ n → x.active = true ∨ x ∈ l) →
      ∀ x ∈ l.foldl activateForce fs, x.eff ≤ n → x.active = true := by
    induction l with
    | nil => exact fun fs h x hx he => (h x hx he).resolve_right (by simp)
    | cons f l ih =>
      refine fun fs h => ih _ fun x hx he => ?_
      obtain ⟨hmem, -, hne⟩ | rfl := mem_activateForce.mp hx
      · exact (h x hmem he).imp_right fun hx => (List.mem_cons.mp hx).resolve_left hne
      · exact .inl rfl
  refine run _ fs (fun y hy hye => ?_) x hx he
  cases ha : y.active
  · exact .inr (List.mem_filter.mpr ⟨hy, by simp [ha, hye]⟩)
  · exact .inl rfl

theorem endedForces_ended {n : Nat} {fs : List Force} (hact : ∀ x ∈ fs, x.eff ≤ n → x.active = true) {x : Force} (hx : x ∈ endedForces n fs)
    (he : x.eff ≤ n) : x.active = true ∧ ∀ e, x.endAt = some e → e ≤ n → x.ended = true := by
  have run (l : List Force) : ∀ fs : List Force, (∀ x ∈ fs, x.eff ≤ n → x.active = true) →
      (∀ x ∈ fs, x.eff ≤ n → ∀ e, x.endAt = some e → e ≤ n → x.ended = true ∨ x ∈ l) →
      ∀ x ∈ l.foldl (finishForce n) fs, x.eff ≤ n → x.active = true ∧ ∀ e, x.endAt = some e → e ≤ n → x.ended = true := by
    induction l with
    | nil => exact fun fs h1 h2 x hx he => ⟨h1 x hx he, fun e h hle => (h2 x hx he e h hle).resolve_right (by simp)⟩
    | cons f l ih =>
      refine fun fs h1 h2 => ih _ (fun x hx he => ?_) fun x hx he e hend hle => ?_
      · obtain ⟨hmem, -⟩ | ⟨-, hf, rfl⟩ := mem_of_mem_finishForce hx
        · exact h1 x hmem he
        · exact hf
      · obtain ⟨hmem, hself⟩ | ⟨-, -, rfl⟩ := mem_of_mem_finishForce hx
        · obtain h | h := h2 x hmem he e hend hle
          · exact .inl h
          · obtain rfl | h := List.mem_cons.mp h
            · exact .inl (hself rfl e hend hle (h1 x hmem he))
            · exact .inr h
        · exact .inl rfl
  exact run fs fs hact (fun x hx _ _ _ _ => .inr hx) x hx he

theorem mem_endedForces {n : Nat} {fs : List Force} {x : Force} (hx : x ∈ fs) (h : x.active = false ∨ x.endAt = none) : x ∈ endedForces n fs :=
  List.foldlRecOn (motive := (x ∈ ·)) fs (finishForce n) hx fun _ hx _ _ => mem_finishForce hx h

theorem startedForces_keeps {n : Nat} {fs : List Force} {x : Force} (hx : x ∈ fs)
    (h : ∀ f ∈ fs, f.active = false → f.eff ≤ n → (x.active = true → x.item ≠ f.item) ∧ x ≠ f) : x ∈ startedForces n fs := by
  refine List.foldlRecOn (motive := (x ∈ ·)) _ activateForce hx fun gs hg f hf => ?_
  obtain ⟨hmem, hdue⟩ := List.mem_filter.mp hf
  simp only [Bool.and_eq_true, Bool.not_eq_true', decide_eq_true_eq] at hdue
  exact mem_activateForce.mpr (.inl ⟨hg, h f hmem hdue.1 hdue.2⟩)

/-- The one force on its item, due and not in effect yet, comes into effect without an underlying value. -/
theorem startedForces_starts {n : Nat} {fs : List Force} {x : Force} (hx : x ∈ fs) (he : x.eff ≤ n) (ha : x.active = false)
    (hone : ∀ y ∈ fs, y.item = x.item → y = x) : { x with active := true, under := none } ∈ startedForces n fs := by
  have run (l : List Force) (hl : ∀ f ∈ l, f.item = x.item → f = x) : ∀ fs : List Force,
      (∀ y ∈ fs, y.item = x.item → y = x ∨ y = { x with active := true, under := none }) →
      (x ∈ l ∨ { x with active := true, under := none } ∈ fs) → { x with active := true, under := none } ∈ l.foldl activateForce fs := by
    induction l with
    | nil => exact fun fs _ h => h.resolve_left (by simp)
    | cons f l ih =>
      intro fs hI h
      have hold : f = x → (fs.find? fun y => y.active && y.item == f.item).bind (·.under) = none := by
        rintro rfl
        cases hfind : fs.find? fun y => y.active && y.item == f.item with
        | none => rfl
        | some y =>
          have hmatch := List.find?_some hfind
          simp only [Bool.and_eq_true, beq_iff_eq] at hmatch
          obtain rfl | rfl := hI y (List.mem_of_find?_eq_some hfind) hmatch.2
          · simp [ha] at hmatch
          · rfl
      refine ih (fun g hg => hl g (by simp [hg])) _ (fun y hy hitem => ?_) ?_
      · obtain ⟨hmem, -⟩ | rfl := mem_activateForce.mp hy
        · exact hI y hmem hitem
        · have hf : f = x := hl f (by simp) hitem
          exact .inr (by rw [hold hf, hf])
      · by_cases hf : f = x
        · exact .inr (mem_activateForce.mpr (.inr (by rw [hold hf, hf])))
        · refine h.imp (fun hx => (List.mem_cons.mp hx).resolve_left (Ne.symm hf)) fun hmem => ?_
          have hitem : f.item ≠ x.item := fun h => hf (hl f (by simp) h)
          refine mem_activateForce.mpr (.inl ⟨hmem, fun _ h => hitem h.symm, ?_⟩)
          rintro rfl
          exact hitem rfl
  refine run _ (fun f hf => hone f (List.mem_filter.mp hf).1) fs (fun y hy h => .inl (hone y hy h)) (.inl (List.mem_filter.mpr ⟨hx, ?_⟩))
  simp [ha, he]

/-! FORCE_EFFECT. -/

/-- Steps that change the force table by `g`, and the record, change them by the fold of `g`. -/
theorem forAll_forces {n : Nat} {f : State → Force → State} {g : List Force → Force → List Force}
    (hf : ∀ s x, s.tide = n → ∃ rc, f s x = { s with ctl := { s.ctl with forces := g s.ctl.forces x }, rc := rc })
    (l : List Force) (s : State) (hn : s.tide = n) :
    ∃ rc, forAll l s f = { s with ctl := { s.ctl with forces := l.foldl g s.ctl.forces }, rc := rc } := by
  induction l generalizing s with
  | nil => exact ⟨s.rc, rfl⟩
  | cons x l ih =>
    obtain ⟨rc, h⟩ := hf s x hn
    obtain ⟨rc', h'⟩ := ih (f s x) (by rw [h, hn])
    exact ⟨rc', by rw [forAll_cons, h', h]; rfl⟩

theorem recordForce_only (s : State) (i : ForceItem) (n : Nat) : ∃ rc, recordForce s i n = { s with rc := rc } := record_only _ _ _

theorem startForces_eq (s : State) :
    ∃ rc, startForces s = { s with ctl := { s.ctl with forces := startedForces s.tide s.ctl.forces }, rc := rc } :=
  forAll_forces (n := s.tide) (fun t x _ => recordForce_only { t with ctl := { t.ctl with forces := activateForce t.ctl.forces x } } _ _) _ s rfl

theorem endForces_eq (s : State) :
    ∃ rc, endForces s = { s with ctl := { s.ctl with forces := endedForces s.tide s.ctl.forces }, rc := rc } := by
  refine forAll_forces (n := s.tide) (fun t f hn => ?_) _ s rfl
  rw [← hn, finishForce]
  cases f.endAt with
  | none => exact ⟨t.rc, rfl⟩
  | some e =>
    dsimp only
    split
    · obtain ⟨rc, hrc⟩ := recordForce_only _ _ _
      exact ⟨rc, hrc⟩
    · exact ⟨t.rc, rfl⟩

theorem forceEffect_eq {s : State} (haw : awake s = true) (hst : s.ctl.state ≠ .service) :
    ∃ rc, exec .forceEffect s =
      .next { s with ctl := { s.ctl with forces := endedForces s.tide (startedForces s.tide s.ctl.forces) }, rc := rc } := by
  obtain ⟨rc, h⟩ := startForces_eq s
  obtain ⟨rc', h'⟩ := endForces_eq (startForces s)
  refine ⟨rc', ?_⟩
  show execForceEffect s = _
  rw [execForceEffect, if_pos haw]
  dsimp only
  rw [h', h, if_neg hst]

/-! Controller commands. -/

theorem tooFew_congr {s t : State} (hst : ∀ l, (lane t l).st = (lane s l).st) (hstraps : t.pw.straps = s.pw.straps) :
    tooFew t = tooFew s := by
  have hv : voters t = voters s := by
    unfold voters isVoting
    simp only [hst]
  unfold tooFew benchMode
  rw [hv, hstraps]

/-- A restart with enough voting lanes is not left at once. -/
theorem checkVoters_restart {s : State} {n : Nat} (warm : Bool) (src rb : BitVec 2) (hn : src.toNat = n) (h : tooFew (reviveLanes s) = false) :
    ∃ done last, (checkVoters (restart s warm n rb)).ctl = ctlAtRun s warm src rb done last := by
  subst hn
  obtain ⟨u, ⟨⟨done, last, hctl⟩, ⟨ls, hlanes, hst⟩, -, -, hstraps⟩, ht⟩ := restart_eq s warm src rb
  obtain ⟨ch, rc, hdrives⟩ := refreshDrives_chansOnly u
  rw [ht, hdrives]
  have hfew : tooFew { u with chans := ch, rc := rc } = false := by
    rw [← h]
    refine tooFew_congr (fun l => ?_) hstraps
    rw [← hst l]
    show (u.lanes.get l).st = _
    rw [hlanes, lanes_map_get]
    rfl
  rw [checkVoters, hfew, Bool.and_false]
  exact ⟨done, last, hctl⟩

theorem ctlEffect_restart {s : State} {w : Bool} {rb : BitVec 2} (hst : s.ctl.state = .stopped) (hset : s.time.set = true)
    (hadm : s.adm.cur.isSome = true) : ctlEffect s (.restart w) rb = checkVoters (restart s w 2 rb) := by
  have h : ctlEffect s (.restart w) rb = if s.time.set && s.adm.cur.isSome then checkVoters (restart s w 2 rb) else s := by
    unfold ctlEffect
    rw [hst]
  rw [h, hset, hadm]
  exact if_pos rfl

theorem ctlEffect_stop {s : State} {rb : BitVec 2} (hst : s.ctl.state = .run) : ctlEffect s .stop rb = enterStopped s none := by
  unfold ctlEffect
  rw [hst]

theorem ctlEffect_service {s : State} {rb : BitVec 2} (hst : s.ctl.state = .stopped) :
    ctlEffect s .service rb = applyForces (setCtl s .service) fun _ => true := by
  unfold ctlEffect
  rw [hst]

theorem ctlEffect_leave {s : State} {rb : BitVec 2} (hst : s.ctl.state = .service) : ctlEffect s .leave rb = enterStopped s none := by
  unfold ctlEffect
  rw [hst]

/-- A command that no row of the transition table names has no effect. -/
theorem ctlEffect_other {s : State} {c : CtlCmd} {rb : BitVec 2} (h1 : ¬(c = .stop ∧ s.ctl.state = .run))
    (h2 : ¬(c = .service ∧ s.ctl.state = .stopped)) (h3 : ¬(c = .leave ∧ s.ctl.state = .service))
    (h4 : ¬∃ w, c = .restart w ∧ s.ctl.state = .stopped) : ctlEffect s c rb = s := by
  unfold ctlEffect
  split
  · next h => exact absurd ⟨rfl, h⟩ h1
  · next w h => exact absurd ⟨w, rfl, h⟩ h4
  · next h => exact absurd ⟨rfl, h⟩ h2
  · next h => exact absurd ⟨rfl, h⟩ h3
  · rfl

/-- The rows of the transition table for controller commands. -/
theorem ctlEffect_rows (s : State) (c : CtlCmd) (rb : BitVec 2) :
    let t := ctlEffect s c rb
    (c = .stop → s.ctl.state = .run → t.ctl.state = .stopped ∧ t.ctl.stopcause = 0x80000000) ∧
      (c = .service → s.ctl.state = .stopped → t.ctl.state = .service) ∧
      (c = .leave → s.ctl.state = .service → t.ctl.state = .stopped) ∧
      ∀ w, c = .restart w → s.ctl.state = .stopped → s.time.set = true → s.adm.cur.isSome = true → tooFew (reviveLanes s) = false →
        t.ctl.state = .run ∧ t.ctl.source = 2 ∧ t.ctl.runTide = s.tide := by
  refine ⟨?_, ?_, ?_, ?_⟩
  · rintro rfl hst
    obtain ⟨hstopped, -, hcause, -⟩ := enterStopped_ctl s none
    rw [ctlEffect_stop hst]
    exact ⟨hstopped, hcause⟩
  · rintro rfl hst
    rw [ctlEffect_service hst, applyForces, refreshDrives_ctl]
    show (setCtl s .service).ctl.state = _
    rw [setCtl, record_ctl]
  · rintro rfl hst
    rw [ctlEffect_leave hst]
    exact (enterStopped_ctl s none).1
  · rintro w rfl hst hset hadm hfew
    obtain ⟨done, last, hctl⟩ := checkVoters_restart (n := 2) w 2 rb rfl hfew
    rw [ctlEffect_restart hst hset hadm, hctl]
    exact ⟨rfl, rfl, rfl⟩

theorem commandEffectTide_eq {s : State} {rb : BitVec 2} (haw : awake s = true) :
    exec (.commandEffectTide rb) s =
      .next (forAll (s.ctl.cmds.filter fun c => decide (c.2 ≤ s.tide))
        { s with ctl := { s.ctl with cmds := s.ctl.cmds.filter fun c => !decide (c.2 ≤ s.tide) } } fun s c => ctlEffect s c.1 rb) :=
  if_pos haw

/-- Settles O20: the force table by the folds of `startedForces` and `endedForces`, the commands by the rows of `ctlEffect`. -/
theorem forcesAndControllerCommands : Obligations.ForcesAndControllerCommands := by
  refine ⟨fun s haw hst => ?_, fun s rb haw => ?_⟩
  · obtain ⟨rc, h⟩ := forceEffect_eq haw hst
    refine ⟨_, rc, h, fun x hx he => endedForces_ended (fun y hy hye => startedForces_active hy hye) hx he, fun x hx hn ha => ?_,
      fun x hx he ha hend hone => ?_, fun x hx ha he hend hone => ?_⟩
    · refine mem_endedForces (startedForces_keeps hx fun f _ _ hf => ⟨by simp [ha], ?_⟩) (.inl ha)
      rintro rfl
      omega
    · exact mem_endedForces (startedForces_starts hx he ha hone) (.inr hend)
    · refine mem_endedForces (startedForces_keeps hx fun f hmem hf _ => ⟨fun _ hitem => ?_, ?_⟩) (.inr hend)
      · obtain rfl := hone f hmem hitem.symm
        simp [ha] at hf
      · rintro rfl
        simp [ha] at hf
  · intro taken
    refine ⟨fun hnone => ?_, fun c e hone => ?_⟩
    · have hdue : (s.ctl.cmds.filter fun c => decide (c.2 ≤ s.tide)) = [] := by simpa using hnone
      have hkeep : (s.ctl.cmds.filter fun c => !decide (c.2 ≤ s.tide)) = s.ctl.cmds := by simpa using hnone
      rw [commandEffectTide_eq haw, hdue, hkeep]
      rfl
    · obtain ⟨hstop, hservice, hleave, hrestart⟩ := ctlEffect_rows taken c rb
      refine ⟨ctlEffect taken c rb, ?_, hstop, hservice, hleave, fun w hc hst hset hadm hfew => ?_,
        fun h1 h2 h3 h4 => ctlEffect_other h1 h2 h3 h4⟩
      · rw [commandEffectTide_eq haw, hone, forAll_cons, forAll_nil]
      · exact hrestart w hc hst hset hadm ((tooFew_congr (s := reviveLanes s) (fun _ => rfl) rfl).trans hfew)

end Sys2Proof.Machine
end

section
/-! PROOF. The end of the input window: activations become ready, pairs take up their best task, comparators are tested
(02_programming_model.md, R61 to R64; 07_lanes_voting_and_lockstep.md, R253). -/

namespace Sys2Proof.Machine

/-! The best ready task. -/

/-- The step of the search for the best ready task. -/
def better (ready : TaskId → Prop) [DecidablePred ready] (prio : TaskId → Nat) (best : Option TaskId) (t : TaskId) : Option TaskId :=
  if ready t then
    match best with
    | none => some t
    | some b => if prio b < prio t then some t else best
  else best

theorem better_foldl {ready : TaskId → Prop} [DecidablePred ready] {prio : TaskId → Nat} (l : List TaskId) :
    ∀ best : Option TaskId, (∀ b, best = some b → ready b) →
      (∀ k, l.foldl (better ready prio) best = some k →
        ready k ∧ (∀ j ∈ l, ready j → prio j ≤ prio k) ∧ ∀ b, best = some b → prio b ≤ prio k) ∧
      (l.foldl (better ready prio) best = none → best = none ∧ ∀ j ∈ l, ¬ready j) := by
  induction l with
  | nil =>
    exact fun best hb => ⟨fun k h => ⟨hb k h, by simp, fun b h' => by rw [Option.some.inj (h'.symm.trans h)]⟩, fun h => ⟨h, by simp⟩⟩
  | cons t l ih =>
    intro best hb
    have hready : ∀ b, better ready prio best t = some b → ready b := by
      intro b h
      unfold better at h
      grind
    have hle : ready t → ∃ b, better ready prio best t = some b ∧ prio t ≤ prio b := by
      unfold better
      grind
    have hold : ∀ b, best = some b → ∃ b', better ready prio best t = some b' ∧ prio b ≤ prio b' := by
      unfold better
      grind
    obtain ⟨hsome, hnone⟩ := ih _ hready
    refine ⟨fun k hk => ?_, fun h => ?_⟩
    · obtain ⟨h1, h2, h3⟩ := hsome k hk
      refine ⟨h1, fun j hj hr => ?_, fun b hbest => ?_⟩
      · obtain rfl | hj := List.mem_cons.mp hj
        · obtain ⟨b, h, hp⟩ := hle hr
          exact hp.trans (h3 b h)
        · exact h2 j hj hr
      · obtain ⟨b', h, hp⟩ := hold b hbest
        exact hp.trans (h3 b' h)
    · obtain ⟨h1, h2⟩ := hnone h
      refine ⟨?_, fun j hj hr => ?_⟩
      · cases hbest : best with
        | none => rfl
        | some b =>
          obtain ⟨b', h', -⟩ := hold b hbest
          rw [h1] at h'
          nomatch h'
      · obtain rfl | hj := List.mem_cons.mp hj
        · obtain ⟨b, h', -⟩ := hle hr
          rw [h1] at h'
          nomatch h'
        · exact h2 j hj hr

theorem bestReady_eq (s : State) (l : LaneId) (p : PairId) :
    bestReady s l p = (fins 16).foldl (better (fun t => (taskRun s l p t).phase = .ready) (prioOf s p)) none := rfl

/-- The best ready task is ready, and none that is ready has a higher priority. -/
theorem bestReady_some {s : State} {l : LaneId} {p : PairId} {k : TaskId} (h : bestReady s l p = some k) :
    (taskRun s l p k).phase = .ready ∧ ∀ j, (taskRun s l p j).phase = .ready → prioOf s p j ≤ prioOf s p k := by
  rw [bestReady_eq] at h
  obtain ⟨h1, h2, -⟩ := (better_foldl (fins 16) none (by simp)).1 k h
  exact ⟨h1, fun j => h2 j (List.mem_finRange j)⟩

theorem bestReady_none {s : State} {l : LaneId} {p : PairId} (h : bestReady s l p = none) (k : TaskId) : (taskRun s l p k).phase ≠ .ready := by
  rw [bestReady_eq] at h
  exact ((better_foldl (fins 16) none (by simp)).2 h).2 k (List.mem_finRange k)

/-! The pairs of one lane take up their best task. -/

/-- Pairs `ps` of lane `l` have taken up their best task; nothing else differs. -/
structure Rescheduled (s t : State) (l : LaneId) (ps : List PairId) : Prop where
  only : ∃ qs, t = modLane s l fun x => { x with pairs := qs }
  done : ∀ p ∈ ps, (pair t l p).active = bestReady s l p ∧ ∀ j, SameRun (taskRun t l p j) (taskRun s l p j)
  kept : ∀ p, p ∉ ps → pair t l p = pair s l p

theorem modLane_modLane (s : State) (l : LaneId) (f g : LaneSt → LaneSt) : modLane (modLane s l f) l g = modLane s l fun x => g (f x) := by
  cases l <;> rfl

theorem reschedules {l : LaneId} (ps : List PairId) : ∀ {s : State}, ps.Nodup → (∀ p ∈ ps, SoundComps (pair s l p)) →
    Rescheduled s (forAll ps s fun s p => reschedule s l p) l ps := by
  induction ps with
  | nil => exact fun {s} _ _ => ⟨⟨(lane s l).pairs, by cases l <;> rfl⟩, by simp, fun _ _ => rfl⟩
  | cons p ps ih =>
    intro s hnodup hsound
    obtain ⟨hp, hnodup⟩ := List.nodup_cons.mp hnodup
    obtain ⟨q, hq, hactive, hrun⟩ := reschedule_sound (hsound p (by simp))
    have hone (r : PairId) : pair (reschedule s l p) l r = if r = p then q else pair s l r := by
      rw [hq, pair_modPair]
      simp
    obtain ⟨⟨qs, hqs⟩, hdone, hkept⟩ := ih (s := reschedule s l p) hnodup fun r hr => by
      rw [hone, if_neg (ne_of_mem_of_not_mem hr hp)]
      exact hsound r (by simp [hr])
    rw [forAll_cons]
    refine ⟨⟨qs, ?_⟩, fun r hr => ?_, fun r hr => ?_⟩
    · rw [hqs, hq, modPair, modLane_modLane]
    · obtain rfl | hr := List.mem_cons.mp hr
      · have hpair := (hkept r hp).trans ((hone r).trans (if_pos rfl))
        exact ⟨by rw [hpair, hactive], fun j => by rw [taskRun, hpair]; exact hrun j⟩
      · have hpair : pair (reschedule s l p) l r = pair s l r := (hone r).trans (if_neg (ne_of_mem_of_not_mem hr hp))
        obtain ⟨hact, hsame⟩ := hdone r hr
        refine ⟨hact.trans (bestReady_congr (by rw [hq]; rfl) fun j => by rw [taskRun, hpair]; rfl), fun j => ?_⟩
        have := hsame j
        rwa [taskRun.eq_def (reschedule s l p), hpair] at this
    · obtain ⟨hne, hr⟩ := not_or.mp fun h => hr (List.mem_cons.mpr h)
      rw [hkept r hr, hone, if_neg hne]

/-! A lane becomes ready. -/

/-- A released activation becomes ready. -/
def readyTask (x : TaskRun) : TaskRun := if x.phase = .released then { x with phase := .ready } else x

def readyTasks (x : LaneSt) : LaneSt := { x with pairs := x.pairs.map fun q => { q with tasks := q.tasks.map readyTask } }

theorem readyLane_eq (s : State) (l : LaneId) : readyLane s l = forAll (fins 8) (modLane s l readyTasks) fun s p => reschedule s l p := rfl

theorem readyTasks_pair (x : LaneSt) (p : PairId) :
    (readyTasks x).pairs.get p = { x.pairs.get p with tasks := (x.pairs.get p).tasks.map readyTask } := by
  simp [readyTasks]

theorem pair_readyTasks (s : State) (l : LaneId) (p : PairId) :
    pair (modLane s l readyTasks) l p = { pair s l p with tasks := (pair s l p).tasks.map readyTask } := by
  rw [pair, lane_modLane, if_pos rfl, readyTasks_pair]
  rfl

theorem taskRun_readyTasks (s : State) (l : LaneId) (p : PairId) (k : TaskId) :
    taskRun (modLane s l readyTasks) l p k = readyTask (taskRun s l p k) := by
  rw [taskRun, pair_readyTasks]
  simp [taskRun, Vector.get]

/-- Pair `p` of lane `l` has its best ready task active, and its released activations have become ready. -/
def PairReady (s t : State) (l : LaneId) (p : PairId) : Prop :=
  (pair t l p).active = bestReady t l p ∧ ∀ j, SameRun (taskRun t l p j) (readyTask (taskRun s l p j))

/-- The lanes `ls` are ready; nothing else differs, and no lane's state. -/
structure LanesReady (s t : State) (ls : List LaneId) : Prop where
  only : ∃ x, t = { s with lanes := x }
  st : ∀ l, (lane t l).st = (lane s l).st
  ready : ∀ l ∈ ls, ∀ p, PairReady s t l p
  kept : ∀ l, l ∉ ls → lane t l = lane s l

theorem readyLanes (ls : List LaneId) : ∀ {s : State}, ls.Nodup → (∀ l ∈ ls, ∀ p, SoundComps (pair s l p)) →
    LanesReady s (forAll ls s readyLane) ls := by
  induction ls with
  | nil => exact fun _ _ => ⟨⟨_, rfl⟩, fun _ => rfl, by simp, fun _ _ => rfl⟩
  | cons l ls ih =>
    intro s hnodup hsound
    obtain ⟨hl, hnodup⟩ := List.nodup_cons.mp hnodup
    obtain ⟨⟨qs, hqs⟩, hdone, -⟩ := reschedules (l := l) (s := modLane s l readyTasks) (fins 8) (List.nodup_finRange 8) fun p _ => by
      rw [pair_readyTasks]
      exact hsound l (by simp) p
    rw [← readyLane_eq] at hqs hdone
    have hother (r : LaneId) (hr : r ≠ l) : lane (readyLane s l) r = lane s r := by
      rw [hqs, lane_modLane, if_neg hr, lane_modLane, if_neg hr]
    obtain ⟨⟨x, hx⟩, hst, hready, hkept⟩ := ih (s := readyLane s l) hnodup fun r hr p => by
      rw [pair, hother r fun h => hl (h ▸ hr)]
      exact hsound r (by simp [hr]) p
    rw [forAll_cons]
    refine ⟨⟨x, by rw [hx, hqs]; rfl⟩, fun r => (hst r).trans ?_, fun r hr p => ?_, fun r hr => ?_⟩
    · by_cases hrl : r = l
      · rw [hqs, hrl, lane_modLane, if_pos rfl, lane_modLane, if_pos rfl]
        rfl
      · rw [hother r hrl]
    · obtain rfl | hr := List.mem_cons.mp hr
      · obtain ⟨hact, hsame⟩ := hdone p (List.mem_finRange p)
        have hpair : pair (forAll ls (readyLane s r) readyLane) r p = pair (readyLane s r) r p := by rw [pair, hkept r hl]; rfl
        have hrun (j : TaskId) : SameRun (taskRun (forAll ls (readyLane s r) readyLane) r p j) (readyTask (taskRun s r p j)) := by
          rw [taskRun, hpair, ← taskRun_readyTasks]
          exact hsame j
        refine ⟨?_, hrun⟩
        rw [hpair, hact]
        refine (bestReady_congr (by rw [hx, hqs]; rfl) fun j => ?_).symm
        obtain ⟨n, hn⟩ := hrun j
        rw [hn, taskRun_readyTasks]
      · obtain ⟨hact, hsame⟩ := hready r hr p
        refine ⟨hact, fun j => ?_⟩
        have := hsame j
        rwa [taskRun.eq_def (readyLane s l), pair, hother r fun h => hl (h ▸ hr)] at this
    · obtain ⟨hne, hr⟩ := not_or.mp fun h => hr (List.mem_cons.mpr h)
      rw [hkept r hr, hother r hne]

end Sys2Proof.Machine
end

section
/-! PROOF. A comparator that fails its test drops the lane, which stays dropped while the other lanes become ready
(07_lanes_voting_and_lockstep.md, R242, R243, R253). -/

namespace Sys2Proof.Machine

/-! A lane that has failed stays so. -/

/-- Lane `l` is dropped with the cause of a failed test, and no rejoin of it is under way. -/
structure TestFailed (l : LaneId) (t : State) : Prop where
  st : (lane t l).st = .dropped
  cause : (lane t l).cause = 4
  rejoin : t.rejoin.lane ≠ some l

section
variable {l : LaneId} {s t : State} (h : TestFailed l s)
include h

theorem TestFailed.congr (hst : (lane t l).st = (lane s l).st) (hcause : (lane t l).cause = (lane s l).cause)
    (hrejoin : t.rejoin.lane = some l → s.rejoin.lane = some l) : TestFailed l t :=
  ⟨hst.trans h.st, hcause.trans h.cause, fun hl => h.rejoin (hrejoin hl)⟩

theorem TestFailed.modLane (r : LaneId) {f : LaneSt → LaneSt} (hf : ∀ x, (f x).st = x.st ∧ (f x).cause = x.cause) :
    TestFailed l (modLane s r f) := by
  refine h.congr ?_ ?_ id <;> rw [lane_modLane] <;> split
  · next hr => rw [(hf _).1, hr]
  · rfl
  · next hr => rw [(hf _).2, hr]
  · rfl

theorem TestFailed.modPair (r : LaneId) (p : PairId) (f : PairSt → PairSt) : TestFailed l (modPair s r p f) := h.modLane r fun _ => ⟨rfl, rfl⟩

theorem TestFailed.rejoinEnded (ht : RejoinEnded s t) : TestFailed l t := by
  have hl := ht.lane_eq h.rejoin
  exact h.congr (by rw [hl]) (by rw [hl]) (ht.rejoin l)

omit h in
theorem enterStopped_rejoin {r : LaneId} {pf : Option (Word × Word)} (hr : (enterStopped s pf).rejoin.lane = some r) : s.rejoin.lane = some r := by
  obtain ⟨u, y, hu, hy, ht⟩ := enterStopped_steps s pf
  obtain ⟨_, _, hdrives⟩ := refreshDrives_chansOnly y
  obtain ⟨_, _, _, _, _, _, rfl⟩ := hy
  obtain ⟨rc, he⟩ := stopEntry_only s pf
  rw [ht, hdrives] at hr
  have hs := hu.rejoin r hr
  rwa [he] at hs

theorem TestFailed.checkVoters : TestFailed l (checkVoters s) := by
  unfold Machine.checkVoters
  split
  · have hl := enterStopped_lane_eq h.rejoin none
    exact h.congr (by rw [hl]; rfl) (by rw [hl]; rfl) enterStopped_rejoin
  · exact h

/-- The cause of a failed test is not lowered by another failed test. -/
theorem TestFailed.lowerCause (r : LaneId) (p k : Nat) : TestFailed l (lowerCause s r 4 p k) := by
  unfold Machine.lowerCause
  split
  · next hlow =>
    have hr : l ≠ r := by
      rintro rfl
      simp [h.cause] at hlow
    refine h.congr ?_ ?_ id <;> rw [lane_modLane, if_neg hr]
  · exact h

theorem TestFailed.dropLane (r : LaneId) (p k : Nat) : TestFailed l (dropLane s r 4 p k) := by
  by_cases hv : (lane s r).st = .voting
  · obtain ⟨u, a, b, ha, hrejoin, hb, hdrop⟩ := dropLane_steps hv 4 p k
    have hne : l ≠ r := by
      rintro rfl
      rw [h.st] at hv
      nomatch hv
    have hla : lane a l = lane s l := ha.other l hne
    have hfa : TestFailed l a := h.congr (by rw [hla]) (by rw [hla]) (by rw [hrejoin]; exact id)
    rw [hdrop]
    exact (hfa.rejoinEnded hb).checkVoters
  · rw [Machine.dropLane, if_neg (by simpa [isVoting] using hv)]
    exact h.lowerCause r p k

theorem TestFailed.laneFails (r : LaneId) (p k : Nat) : TestFailed l (laneFails s r 4 p k) := by
  unfold Machine.laneFails
  split
  · exact h.rejoinEnded (rejoinFail_rejoinEnded s _)
  · exact h.dropLane r p k

theorem TestFailed.testComps (r : LaneId) (p : PairId) : TestFailed l (testComps s r p) := by
  unfold Machine.testComps
  dsimp only
  split
  · exact h.modPair r p _
  · exact (h.modPair r p _).laneFails r _ _

theorem TestFailed.reschedule (r : LaneId) (p : PairId) : TestFailed l (reschedule s r p) := by
  unfold Machine.reschedule
  dsimp only
  split
  · exact h
  · split
    · exact h.modPair r p _
    · split
      · exact ((h.modPair r p _).modPair r p _).testComps r p
      · exact (h.modPair r p _).modPair r p _

theorem TestFailed.readyLane (r : LaneId) : TestFailed l (readyLane s r) := by
  rw [readyLane_eq]
  exact forAll_keeps (TestFailed l) _ _ _ (h.modLane r fun _ => ⟨rfl, rfl⟩) fun _ p _ ht => ht.reschedule r p

end

/-! The lane fails. -/

/-- A voting lane that fails its test is dropped with cause 0x04. -/
theorem laneFails_testFailed {s : State} {l : LaneId} (hl : (lane s l).st = .voting)
    (hr : ∀ r, s.rejoin.lane = some r → (lane s r).st = .rejoining) (p k : Nat) : TestFailed l (laneFails s l 4 p k) := by
  have hno : (s.rejoin.lane == some l && (lane s l).st == .rejoining) = false := by simp [hl]
  have hdrop : laneFails s l 4 p k = dropLane s l 4 p k := by rw [laneFails, hno]; rfl
  obtain ⟨hdropped, hcause, -, -, -⟩ := dropLane_fallenLane hl hr 4 p k
  rw [hdrop]
  refine ⟨hdropped.st, hcause, fun h => ?_⟩
  obtain ⟨u, a, b, ha, hrejoin, hb, hd⟩ := dropLane_steps hl 4 p k
  have hb' : b.rejoin.lane = some l := by
    rw [hd] at h
    unfold checkVoters at h
    split at h
    · exact enterStopped_rejoin h
    · exact h
  exact rejoin_ne_of_voting hl hr (hrejoin ▸ hb.rejoin l hb')

theorem modLane_st (s : State) (l r : LaneId) {f : LaneSt → LaneSt} (hf : ∀ x, (f x).st = x.st) :
    (lane (modLane s l f) r).st = (lane s r).st := by
  rw [lane_modLane]
  split
  · next h => rw [hf, h]
  · rfl

theorem modPair_st (s : State) (l r : LaneId) (p : PairId) (f : PairSt → PairSt) : (lane (modPair s l p f) r).st = (lane s r).st :=
  modLane_st s l r fun _ => rfl

/-- A comparator that reports a difference whatever it sees fails its test. -/
theorem compPasses_differ {f : CompFault} (h : f.differ = true) (k : Fin 64) : compPasses f k = false := by
  simp [compPasses, compDiffers, h]

theorem testComps_testFailed {s : State} {l : LaneId} {p : PairId} (hl : (lane s l).st = .voting)
    (hr : ∀ r, s.rejoin.lane = some r → (lane s r).st = .rejoining) (hdiffer : (pair s l p).cmpX.differ = true) :
    TestFailed l (testComps s l p) := by
  have heq : testComps s l p = laneFails (modPair s l p fun x => { x with testCnt := x.testCnt + 1 }) l 4 p.val 0 := by
    unfold testComps
    dsimp only
    rw [compPasses_differ hdiffer, Bool.false_and]
    rfl
  rw [heq]
  exact laneFails_testFailed ((modPair_st s l l p _).trans hl) (fun r h => (modPair_st s l r p _).trans (hr r h)) _ _

/-- A pair that starts an activation with such a comparator fails its lane. -/
theorem reschedule_testFailed {s : State} {l : LaneId} {p : PairId} {k : TaskId} (hl : (lane s l).st = .voting)
    (hr : ∀ r, s.rejoin.lane = some r → (lane s r).st = .rejoining) (hactive : (pair s l p).active = none)
    (hk : bestReady s l p = some k) (hstart : (taskRun s l p k).cycles = 0) (hdiffer : (pair s l p).cmpX.differ = true) :
    TestFailed l (reschedule s l p) := by
  have hpair : pair (modPair s l p fun x => { closeWindow x with active := some k }) l p = { closeWindow (pair s l p) with active := some k } := by
    rw [pair_modPair, if_pos ⟨rfl, rfl⟩]
  have hcycles : ((taskRun (modPair s l p fun x => { closeWindow x with active := some k }) l p k).cycles == 0) = true := by
    rw [taskRun, hpair, closeWindow_tasks]
    simpa [taskRun] using hstart
  have heq : reschedule s l p = testComps (modPair s l p fun x =>
      { closeWindow x with active := some k, tasks := vmod x.tasks k fun y => { y with cycles := y.cycles + 4 } }) l p := by
    unfold reschedule
    dsimp only
    rw [hk, hactive, if_neg (by simp)]
    dsimp only
    rw [hcycles, modTask, modPair_modPair]
    simp
  rw [heq]
  refine testComps_testFailed ((modPair_st s l l p _).trans hl) (fun r h => (modPair_st s l r p _).trans (hr r h)) ?_
  rw [pair_modPair, if_pos ⟨rfl, rfl⟩]
  exact (congrArg CompFault.differ (closeWindow_comps _).1).trans hdiffer

theorem readyTask_phase (x : TaskRun) : (readyTask x).phase = if x.phase = .released then .ready else x.phase := by
  unfold readyTask
  split <;> rfl

theorem readyTask_cycles (x : TaskRun) : (readyTask x).cycles = x.cycles := by
  unfold readyTask
  split <;> rfl

theorem readyTask_bank (x : TaskRun) : (readyTask x).bank = x.bank := by
  unfold readyTask
  split <;> rfl

theorem forAll_append {α : Type} (l r : List α) (s : State) (f : State → α → State) : forAll (l ++ r) s f = forAll r (forAll l s f) f :=
  List.foldl_append

/-- A voting lane in which an activation starts, on a pair with such a comparator, fails as it becomes ready; the comparators of its other
pairs are sound. -/
theorem readyLane_testFailed {s : State} {l : LaneId} {p : PairId} (hl : (lane s l).st = .voting)
    (hr : ∀ r, s.rejoin.lane = some r → (lane s r).st = .rejoining) (hactive : (pair s l p).active = none)
    (hreleased : ∃ k, (taskRun s l p k).phase = .released)
    (hstart : ∀ k, (taskRun s l p k).phase = .released ∨ (taskRun s l p k).phase = .ready → (taskRun s l p k).cycles = 0)
    (hdiffer : (pair s l p).cmpX.differ = true) (hsound : ∀ q, q ≠ p → SoundComps (pair s l q)) : TestFailed l (readyLane s l) := by
  obtain ⟨pre, post, heq, hpre⟩ := List.eq_append_cons_of_mem (List.mem_finRange p)
  have hnodup : pre.Nodup := (List.nodup_append.mp (heq ▸ List.nodup_finRange 8)).1
  obtain ⟨⟨qs, hqs⟩, -, hkept⟩ := reschedules (l := l) (s := modLane s l readyTasks) pre hnodup fun q hq => by
    rw [pair_readyTasks]
    exact hsound q (ne_of_mem_of_not_mem hq hpre)
  have hpair := (hkept p hpre).trans (pair_readyTasks s l p)
  rw [readyLane_eq, fins, heq, forAll_append, forAll_cons]
  generalize forAll pre (modLane s l readyTasks) (fun s p => reschedule s l p) = b at hqs hpair ⊢
  have hst (r : LaneId) : (lane b r).st = (lane s r).st := by
    rw [hqs]
    refine (modLane_st _ l r ?_).trans (modLane_st s l r ?_)
    · exact fun _ => rfl
    · exact fun _ => rfl
  have hrun (k : TaskId) : taskRun b l p k = readyTask (taskRun s l p k) := by
    rw [taskRun, hpair]
    simp [taskRun]
  obtain ⟨k, hk⟩ : ∃ k, bestReady b l p = some k := by
    obtain ⟨k, hk⟩ := hreleased
    refine Option.ne_none_iff_exists'.mp fun hnone => bestReady_none hnone k ?_
    rw [hrun, readyTask_phase, if_pos hk]
  have hcycles : (taskRun b l p k).cycles = 0 := by
    have hready := (bestReady_some hk).1
    rw [hrun, readyTask_phase] at hready
    rw [hrun, readyTask_cycles]
    refine hstart k ?_
    split at hready
    · next h => exact .inl h
    · exact .inr hready
  have hfail : TestFailed l (reschedule b l p) :=
    reschedule_testFailed ((hst l).trans hl) (fun r h => (hst r).trans (hr r (by rwa [hqs] at h))) (by rw [hpair, hactive]) hk hcycles
      (by rw [hpair, hdiffer])
  exact forAll_keeps (TestFailed l) _ _ _ hfail fun _ q _ ht => ht.reschedule l q

theorem timedLanes_nodup (s : State) : (timedLanes s).Nodup := List.Nodup.filter _ (by decide)

theorem mem_timedLanes {s : State} {l : LaneId} : l ∈ timedLanes s ↔ runsTimed s l = true := by
  rw [timedLanes, List.mem_filter]
  exact and_iff_right (by cases l <;> decide)

/-- TASK_READY where comparator X of one pair has come to report a difference whatever it sees. -/
theorem taskReady_testFailed {s : State} {l : LaneId} {p : PairId} (hrun : s.ctl.state = .run)
    (hsound : ∀ l p, SoundComps (pair s l p)) (hl : (lane s l).st = .voting)
    (hr : ∀ r, s.rejoin.lane = some r → (lane s r).st = .rejoining) (hactive : (pair s l p).active = none)
    (hreleased : ∃ k, (taskRun s l p k).phase = .released)
    (hstart : ∀ k, (taskRun s l p k).phase = .released ∨ (taskRun s l p k).phase = .ready → (taskRun s l p k).cycles = 0) :
    ∃ u, exec (.taskReady [(l, p, ⟨true, 0⟩, ⟨false, 0⟩)]) s = .next u ∧ TestFailed l u := by
  refine ⟨_, if_pos hrun, ?_⟩
  rw [forAll_cons, forAll_nil]
  generalize hh : hurtComps s l p ⟨true, 0⟩ ⟨false, 0⟩ = h
  have hst (r : LaneId) : (lane h r).st = (lane s r).st := by rw [← hh, hurtComps, modPair_st]
  have hpair (r : LaneId) (q : PairId) (hne : ¬(r = l ∧ q = p)) : pair h r q = pair s r q := by
    rw [← hh, hurtComps, pair_modPair, if_neg hne]
  have hhurt : pair h l p =
      { pair s l p with cmpX := addFault (pair s l p).cmpX ⟨true, 0⟩, cmpY := addFault (pair s l p).cmpY ⟨false, 0⟩ } := by
    rw [← hh, hurtComps, pair_modPair, if_pos ⟨rfl, rfl⟩]
  obtain ⟨pre, post, heq, hpre⟩ := List.eq_append_cons_of_mem
    (mem_timedLanes.mpr (by simp [runsTimed, hst, hl]) : l ∈ timedLanes h)
  have hnodup : pre.Nodup := (List.nodup_append.mp (heq ▸ timedLanes_nodup h)).1
  obtain ⟨⟨x, hx⟩, hst', -, hkept⟩ := readyLanes (s := h) pre hnodup fun r hmem q => by
    rw [hpair r q fun hq => hpre (hq.1 ▸ hmem)]
    exact hsound r q
  rw [heq, forAll_append, forAll_cons]
  generalize forAll pre h readyLane = a at hx hst' hkept ⊢
  have hrejoin : a.rejoin = s.rejoin := by rw [hx, ← hh]; rfl
  have hapair (q : PairId) : pair a l q = pair h l q := by rw [pair, hkept l hpre]; rfl
  have hfail : TestFailed l (readyLane a l) := by
    refine readyLane_testFailed (p := p) ?_ (fun r hlane => ?_) ?_ ?_ ?_ ?_ fun q hq => ?_
    · rw [hst', hst, hl]
    · rw [hst', hst]
      exact hr r (hrejoin ▸ hlane)
    · rw [hapair, hhurt, hactive]
    · unfold taskRun
      rw [hapair, hhurt]
      exact hreleased
    · unfold taskRun
      rw [hapair, hhurt]
      exact hstart
    · rw [hapair, hhurt]
      exact Bool.or_true _
    · rw [hapair, hpair l q fun h => hq h.2]
      exact hsound l q
  exact forAll_keeps (TestFailed l) _ _ _ hfail fun _ r _ ht => ht.readyLane r

/-- TASK_READY where every comparator is sound. -/
theorem taskReady_sound {s : State} (hrun : s.ctl.state = .run) (hsound : ∀ l p, SoundComps (pair s l p)) :
    exec (.taskReady []) s = .next (forAll (timedLanes s) s readyLane) ∧ LanesReady s (forAll (timedLanes s) s readyLane) (timedLanes s) :=
  ⟨if_pos hrun, readyLanes _ (timedLanes_nodup s) fun l _ p => hsound l p⟩

end Sys2Proof.Machine
end

section
/-! PROOF. What a release does before it begins the activations: it joins the split pairs, and carries tasks and releases over as they are
(06_cyclic_execution.md, R190, R196, R204, R209, R217 to R222; 07_lanes_voting_and_lockstep.md, R255). -/

namespace Sys2Proof.Machine

/-- The tide, the set-up, the releases, the lanes' states and every activation are those of `s`, and no pair has come to be split. -/
structure CarriedOver (s t : State) : Prop where
  tide : t.tide = s.tide
  adm : t.adm = s.adm
  rejoin : t.rejoin = s.rejoin
  rel : t.ctl.rel = s.ctl.rel
  st : ∀ l, (lane t l).st = (lane s l).st
  tasks : ∀ l p, (pair t l p).tasks = (pair s l p).tasks
  split : ∀ l p, (pair s l p).split = false → (pair t l p).split = false

theorem CarriedOver.refl (s : State) : CarriedOver s s := ⟨rfl, rfl, rfl, rfl, fun _ => rfl, fun _ _ => rfl, fun _ _ => id⟩

theorem CarriedOver.trans {s t u : State} (h : CarriedOver s t) (g : CarriedOver t u) : CarriedOver s u :=
  ⟨g.tide.trans h.tide, g.adm.trans h.adm, g.rejoin.trans h.rejoin, g.rel.trans h.rel, fun l => (g.st l).trans (h.st l),
    fun l p => (g.tasks l p).trans (h.tasks l p), fun l p => g.split l p ∘ h.split l p⟩

section
variable {s t u : State} (h : CarriedOver s t)
include h

/-- A change of other parts of the state carries everything over. -/
theorem CarriedOver.update (tide : u.tide = t.tide := by rfl) (adm : u.adm = t.adm := by rfl) (rejoin : u.rejoin = t.rejoin := by rfl)
    (rel : u.ctl.rel = t.ctl.rel := by rfl) (lanes : u.lanes = t.lanes := by rfl) : CarriedOver s u := by
  have hlane (l : LaneId) : lane u l = lane t l := by rw [lane, lanes]; rfl
  refine h.trans ⟨tide, adm, rejoin, rel, fun l => ?_, fun l p => ?_, fun l p => ?_⟩
  · rw [hlane]
  · rw [pair, hlane]
    rfl
  · rw [pair, pair, hlane]
    exact id

theorem CarriedOver.record (c : BitVec 16) (d : List Byte) : CarriedOver s (record t c d) := by
  obtain ⟨rc, hrc⟩ := record_only t c d
  rw [hrc]
  exact h.update

theorem CarriedOver.modPair (l : LaneId) (p : PairId) {f : PairSt → PairSt} (htasks : ∀ q, (f q).tasks = q.tasks)
    (hsplit : ∀ q, q.split = false → (f q).split = false) : CarriedOver s (modPair t l p f) := by
  refine h.trans ⟨rfl, rfl, rfl, rfl, fun r => modPair_st t l r p f, fun r q => ?_, fun r q hq => ?_⟩
  · rw [pair_modPair]
    split
    · next he => rw [htasks, he.1, he.2]
    · rfl
  · rw [pair_modPair]
    split
    · next he => exact hsplit _ (he.1 ▸ he.2 ▸ hq)
    · exact hq

theorem CarriedOver.bankWrite (l : LaneId) (p : PairId) (a : Nat) (b : List Byte) : CarriedOver s (bankWrite t l p a b) := by
  refine h.trans ⟨rfl, rfl, rfl, rfl, fun r => modLane_st t l r fun _ => rfl, fun r q => ?_, fun r q hq => ?_⟩
  · unfold Machine.bankWrite sramWrite pair
    rw [lane_modLane]
    split
    · next he => rw [he]
    · rfl
  · unfold Machine.bankWrite sramWrite pair
    rw [lane_modLane]
    split
    · next he => exact he ▸ hq
    · exact hq

theorem CarriedOver.loop {α : Type} (l : List α) {f : State → α → State} (hf : ∀ t x, CarriedOver s t → CarriedOver s (f t x)) :
    CarriedOver s (forAll l t f) := forAll_keeps (CarriedOver s) l t f h fun t x _ => hf t x

/-! The forced join. -/

theorem CarriedOver.wake (d : SlackDom) : CarriedOver s (wake t d) := by
  unfold Machine.wake
  split
  · exact h.update
  · exact h

theorem CarriedOver.modCore (x : Ctx) (f : UCore → UCore) : CarriedOver s (modCore t x f) := by
  unfold Machine.modCore
  split
  · exact h.modPair _ _ (fun _ => rfl) fun _ => id
  · exact h.modPair _ _ (fun _ => rfl) fun _ => id

omit h in
theorem CarriedOver.ite {c : Prop} [Decidable c] {v : State} (g : CarriedOver s u) (hv : CarriedOver s v) : CarriedOver s (if c then u else v) := by
  split
  · exact g
  · exact hv

theorem CarriedOver.dropItems (l : LaneId) (p : PairId) : CarriedOver s (dropItems t l p) := by
  have drop {u : State} (hu : CarriedOver s u) (odd : Bool) : CarriedOver s
      (if (if odd then (pair u l p).odd else (pair u l p).even).active then
        Machine.record (Machine.modCore u { lane := l, pair := p, odd := odd, fetch := .none, data := .none } fun u =>
          { u with active := false, wait := none }) 0x0C09 (d1 (laneNo l) ++ d1 p.val ++ d1 (b2n odd))
      else u) := by
    exact .ite ((hu.modCore _ _).record _ _) hu
  exact drop (drop h false) true

theorem CarriedOver.forceJoin (l : LaneId) (p : PairId) : CarriedOver s (forceJoin t l p) := by
  have hjoined : CarriedOver s (Machine.modPair t l p fun q => { q with split := false }) := h.modPair l p (fun _ => rfl) fun _ _ => rfl
  unfold Machine.forceJoin
  dsimp only
  split
  · split
    · exact hjoined
    · exact hjoined.dropItems l p
  · exact h

omit h in
theorem forceJoin_split (s : State) (l : LaneId) (p : PairId) : (pair (forceJoin s l p) l p).split = false := by
  have hjoined : (pair (modPair s l p fun q => { q with split := false }) l p).split = false := by rw [pair_modPair, if_pos ⟨rfl, rfl⟩]
  unfold forceJoin
  dsimp only
  split
  · split
    · exact hjoined
    · exact ((CarriedOver.refl _).dropItems l p).split l p hjoined
  · next hs => simpa using hs

/-! Forces, online changes and the retain capture. -/

theorem CarriedOver.putServed (d : TaskDecl) (k : SectKind) (off : Nat) (b : List Byte) : CarriedOver s (putServed t d k off b) :=
  h.loop _ fun _ l hu => hu.bankWrite l _ _ _

theorem CarriedOver.applyRw (d : TaskDecl) (f : Force) : CarriedOver s (applyRw t d f).1 := by
  unfold Machine.applyRw
  split
  · split
    · split
      · split
        · exact h.putServed _ _ _ _
        · exact h
      · exact h.putServed _ _ _ _
    · exact h
  · exact h

theorem CarriedOver.rwForces (d : TaskDecl) : CarriedOver s (rwForces t d) := by
  unfold Machine.rwForces
  extract_lets r
  have hr : CarriedOver s r.1 :=
    List.foldlRecOn (motive := fun x : State × List Force => CarriedOver s x.1) _ _ h fun x hx f _ => CarriedOver.applyRw hx d f
  exact hr.update

theorem CarriedOver.effectItem (d : TaskDecl) (k : SectKind) (off : Nat) (b : List Byte) : CarriedOver s (effectItem t d k off b).1 :=
  (CarriedOver.ite (h.putServed _ _ _ _) (.ite h (h.putServed _ _ _ _))).update

theorem CarriedOver.reachItem (ds : List TaskDecl) (r : OlcReq) (n : Nat) (i : OlcItem) : CarriedOver s (reachItem t ds r n i).1 := by
  unfold Machine.reachItem
  split
  · exact h
  · split
    · split
      · exact h.loop _ fun _ l hu => hu.bankWrite l _ _ _
      · exact h
    · split
      · exact h
      · split
        · exact h
        · exact ((h.effectItem _ _ _ _).record _ _).update

theorem CarriedOver.reachReq (ds : List TaskDecl) (r : OlcReq) : CarriedOver s (reachReq t ds r).1 := by
  unfold Machine.reachReq
  split
  · exact List.foldlRecOn (motive := fun x : State × List OlcItem => CarriedOver s x.1) _ _ h fun x hx p _ => CarriedOver.reachItem hx ds r p.2 p.1
  · exact h

theorem CarriedOver.reachOlcs (ds : List TaskDecl) : CarriedOver s (reachOlcs t ds) := by
  unfold Machine.reachOlcs
  extract_lets x whole done
  have hx : CarriedOver s x.1 :=
    List.foldlRecOn (motive := fun x : State × List OlcReq => CarriedOver s x.1) _ _ h fun x hx r _ => CarriedOver.reachReq hx ds r
  split
  · exact hx.update
  · exact hx.update

theorem CarriedOver.captureTask (d : TaskDecl) : CarriedOver s (captureTask t d) := by
  unfold Machine.captureTask
  dsimp only
  split
  · exact .ite h.update h
  · exact h

/-! The freeze. -/

theorem CarriedOver.setRx (i : Nat) (f : RxSt → RxSt) : CarriedOver s (setRx t i f) := h.update

theorem CarriedOver.modConn (n : Nat) (f : AshSt → AshSt) : CarriedOver s (modConn t n f) := h.update

theorem CarriedOver.lapse (n : Nat) (c : ConnDecl) : CarriedOver s (lapse t n c) := .ite ((h.modConn _ _).record _ _) h

theorem CarriedOver.acceptInst (n : Nat) (c : ConnDecl) (i : RxInst) : CarriedOver s (acceptInst t n c i) :=
  (CarriedOver.ite h (h.record _ _)).modConn n _

theorem CarriedOver.keepGood (pos : Nat) (b : Binding) (conn : Bool) (i : RxInst) : CarriedOver s (keepGood t pos b conn i) := h.setRx _ _

theorem CarriedOver.freezeSlot (d : SlotDecl) (b : Binding) : CarriedOver s (freezeSlot t d b) := by
  unfold Machine.freezeSlot
  dsimp only
  cases connOfSlot (setup t) d true with
  | none =>
    dsimp only
    split
    · exact h
    · exact (h.keepGood _ _ _ _).setRx _ _
  | some c =>
    have hc := h.lapse c.1 c.2
    dsimp only
    split
    · exact hc
    · exact ((hc.acceptInst _ _ _).keepGood _ _ _ _).setRx _ _

theorem CarriedOver.freezeAll (ds : List TaskDecl) : CarriedOver s (freezeAll t ds) :=
  h.loop _ fun _ x hu => .ite hu (hu.freezeSlot x.1 x.2)

theorem CarriedOver.meetBad (ds : List TaskDecl) (bad : List Nat) : CarriedOver s (meetBad t ds bad) :=
  h.loop _ fun _ _ hu => hu.update.record _ _

end

/-! The state in which the activations begin. -/

/-- The pairs of the released tasks joined in every lane. -/
def joinedPairs (s : State) : State :=
  forAll ((releasing s).map (·.pair)).eraseDups s fun s p => forAll laneList s fun s l => forceJoin (wake s (.cores l p)) l p

/-- The state in which a release begins the activations. -/
def readyToStart (s : State) (bad : List Nat) : State :=
  let ds := releasing s
  meetBad (freezeAll (forAll ds (reachOlcs (forAll ds (joinedPairs s) rwForces) ds) captureTask) ds) ds bad

theorem release_eq (s : State) (bad : List Nat) :
    release s bad = if (releasing s).isEmpty then s else
      forAll ((releasing s).map fun d => (d, piImage (readyToStart s bad) d bad)) (readyToStart s bad) fun s x => startTask s x.1 x.2 := rfl

theorem joinedPairs_carriedOver (s : State) : CarriedOver s (joinedPairs s) :=
  (CarriedOver.refl s).loop _ fun _ p h => h.loop _ fun _ l hu => (hu.wake _).forceJoin l p

theorem readyToStart_from (s : State) (bad : List Nat) : CarriedOver (joinedPairs s) (readyToStart s bad) :=
  (((((CarriedOver.refl _).loop _ fun _ d h => h.rwForces d).reachOlcs _).loop _ fun _ d h => h.captureTask d).freezeAll _).meetBad _ _

theorem readyToStart_carriedOver (s : State) (bad : List Nat) : CarriedOver s (readyToStart s bad) :=
  (joinedPairs_carriedOver s).trans (readyToStart_from s bad)

theorem readyToStart_keeps (s : State) (bad : List Nat) : Keeps s (readyToStart s bad) :=
  meetBad_keeps (freezeAll_keeps (loop_keeps (reachOlcs_keeps (loop_keeps (loop_keeps (keeps_refl s) fun _ _ h => loop_keeps h fun _ _ hu =>
    forceJoin_keeps (wake_keeps hu)) fun _ _ h => rwForces_keeps h)) fun _ _ h => captureTask_keeps h))

/-- The pair of a released task is joined in every lane (R255). -/
theorem readyToStart_joined {s : State} {d : TaskDecl} (hd : d ∈ releasing s) (bad : List Nat) (l : LaneId) :
    (pair (readyToStart s bad) l d.pair).split = false := by
  refine (readyToStart_from s bad).split l d.pair ?_
  have hmem : d.pair ∈ ((releasing s).map (·.pair)).eraseDups := List.mem_eraseDups.mpr (List.mem_map.mpr ⟨d, hd, rfl⟩)
  refine forAll_each (I := fun _ => True) (P := fun p t => ∀ l, (pair t l p).split = false) (fun _ _ _ => trivial) (fun t p _ l => ?_)
    (fun t p q _ h l => ?_) _ trivial hmem l
  · exact forAll_each (I := fun _ => True) (P := fun l t => (pair t l p).split = false) (fun _ _ _ => trivial)
      (fun u r _ => forceJoin_split _ r p) (fun u r r' _ hu => (((CarriedOver.refl u).wake _).forceJoin r p).split r' p hu) laneList trivial
      (show l ∈ laneList by cases l <;> decide)
  · exact ((CarriedOver.refl t).loop _ fun _ r hu => (hu.wake _).forceJoin r p).split l q (h l)

end Sys2Proof.Machine
end

section
/-! PROOF. A release begins the activation of every task that is due, with one process input image in every lane
(01_system_overview.md, R22; 06_cyclic_execution.md, R190, R193; 02_programming_model.md, R53). -/

namespace Sys2Proof.Machine

/-! The tasks that a boundary releases. -/

theorem taskIn_some {u : Setup} {p : PairId} {k : TaskId} {d : TaskDecl} (h : taskIn u p k = some d) :
    d.pair = p ∧ d.task = k ∧ d ∈ u.tasks := by
  have hkey := List.find?_some h
  simp only [decide_eq_true_eq] at hkey
  exact ⟨hkey.1, hkey.2, List.mem_of_find?_eq_some h⟩

/-- Where no two tasks share pair and number, each is the one found by them. -/
theorem taskIn_of_mem {u : Setup} {d : TaskDecl} (hnodup : (u.tasks.map fun d => (d.pair, d.task)).Nodup) (hd : d ∈ u.tasks) :
    taskIn u d.pair d.task = some d := by
  cases h : taskIn u d.pair d.task with
  | none => exact absurd (List.find?_eq_none.mp h d hd) (by simp)
  | some e =>
    obtain ⟨hp, hk, he⟩ := taskIn_some h
    exact congrArg some (List.inj_on_of_nodup_map hnodup he hd (by simp [hp, hk]))

theorem mem_tasksInOrder {u : Setup} {d : TaskDecl} : d ∈ tasksInOrder u ↔ taskIn u d.pair d.task = some d := by
  simp only [tasksInOrder, List.mem_flatMap, List.mem_filterMap]
  constructor
  · rintro ⟨p, -, k, -, h⟩
    obtain ⟨rfl, rfl, -⟩ := taskIn_some h
    exact h
  · exact fun h => ⟨_, List.mem_finRange _, _, List.mem_finRange _, h⟩

/-- A task is due at the boundary just passed, and has not been released at it. -/
def DueNow (s : State) (d : TaskDecl) : Prop :=
  s.tide % 2 ^ d.k = 0 ∧ s.ctl.runTide ≤ s.tide ∧ ¬((relOf s d.pair d.task).live = true ∧ (relOf s d.pair d.task).endTide = s.tide + 2 ^ d.k)

theorem mem_releasing {s : State} {d : TaskDecl} : d ∈ releasing s ↔ taskIn (setup s) d.pair d.task = some d ∧ DueNow s d := by
  simp only [releasing, List.mem_filter, mem_tasksInOrder, DueNow, Bool.and_eq_true, Bool.not_eq_true', beq_iff_eq, decide_eq_true_eq,
    Bool.and_eq_false_imp, not_and, and_assoc, beq_eq_false_iff_ne, ne_eq]

/-- Released tasks of one pair and number are one task. -/
theorem releasing_unique {s : State} {d e : TaskDecl} (hd : d ∈ releasing s) (he : e ∈ releasing s) (hp : d.pair = e.pair)
    (hk : d.task = e.task) : d = e := by
  have h := (mem_releasing.mp hd).1
  rw [hp, hk, (mem_releasing.mp he).1] at h
  exact (Option.some.inj h).symm

/-! One activation. -/

/-- A loop over lanes that changes each by `g` changes nothing else. -/
theorem forAll_modLane {f : State → LaneId → State} {g : LaneSt → LaneSt} {adm : Adm} (hf : ∀ t l, t.adm = adm → f t l = modLane t l g)
    (ls : List LaneId) : ∀ {s : State}, s.adm = adm → ls.Nodup →
      ∃ x, forAll ls s f = { s with lanes := x } ∧ ∀ l, x.get l = if l ∈ ls then g (lane s l) else lane s l := by
  induction ls with
  | nil => exact fun {s} _ _ => ⟨s.lanes, rfl, fun l => by simp [lane]⟩
  | cons r ls ih =>
    intro s hs hnodup
    obtain ⟨hr, hnodup⟩ := List.nodup_cons.mp hnodup
    obtain ⟨x, hx, hlane⟩ := ih (s := f s r) (by rw [hf s r hs]; exact hs) hnodup
    refine ⟨x, by rw [forAll_cons, hx, hf s r hs]; rfl, fun l => ?_⟩
    rw [hlane l, hf s r hs, lane_modLane]
    by_cases hl : l = r
    · simp [hl, hr]
    · simp [hl]

/-- A pair in which the activation of `d` begins. -/
def beginTask (d : TaskDecl) (q : PairSt) : PairSt :=
  { q with tasks := vmod q.tasks d.task (freshRun d), active := if q.active = some d.task then none else q.active }

/-- The PI section of `d` in a set-up: its first byte in a lane's SRAM, and the bytes of an image that it takes. -/
def piStart (u : Setup) (d : TaskDecl) : Nat := bankBase d.pair + (sectRange u d .pi).1
def piBytes (u : Setup) (d : TaskDecl) (img : List Byte) : List Byte := img.take (sectRange u d .pi).2

/-- The state `t` in which the activation of `d` has begun in `s`, with image `img` in its PI section. -/
structure Begun (s t : State) (d : TaskDecl) (img : List Byte) : Prop where
  tide : t.tide = s.tide
  adm : t.adm = s.adm
  rejoin : t.rejoin = s.rejoin
  st : ∀ l, (lane t l).st = (lane s l).st
  split : ∀ l p, (pair t l p).split = (pair s l p).split
  rel : ∀ p k, relOf t p k = if p = d.pair ∧ k = d.task then
    { relOf s p k with now := releaseNow s, tide := BitVec.ofNat 32 s.tide, endTide := s.tide + 2 ^ d.k, live := true } else relOf s p k
  run : ∀ l p k, taskRun t l p k = if runsTimed s l = true ∧ p = d.pair ∧ k = d.task then freshRun d (taskRun s l p k) else taskRun s l p k
  sram : ∀ l, (lane t l).sram =
    if l ∈ servedLanes s then memWriteN 0 (lane s l).sram (piStart (setup s) d) (piBytes (setup s) d img) else (lane s l).sram

theorem setup_congr {s t : State} (h : t.adm = s.adm) : setup t = setup s := by rw [setup, setup?, h]; rfl

theorem servedLanes_congr {s t : State} (h : ∀ l, (lane t l).st = (lane s l).st) : servedLanes t = servedLanes s := by
  unfold servedLanes
  simp only [h]

theorem runsTimed_congr {s t : State} (h : ∀ l, (lane t l).st = (lane s l).st) (hr : t.rejoin = s.rejoin) (l : LaneId) :
    runsTimed t l = runsTimed s l := by
  unfold runsTimed
  simp only [h, hr]

/-- A lane with an image in the PI section of `d`. -/
def putPi (u : Setup) (d : TaskDecl) (img : List Byte) (x : LaneSt) : LaneSt :=
  { x with
      sram := memWriteN 0 x.sram (piStart u d) (piBytes u d img),
      dmg := x.dmg.filter fun q => decide (q.1 < piStart u d) || decide (piStart u d + (piBytes u d img).length ≤ q.1) ||
        (match q.2 with | .hard _ => true | _ => false) }

theorem sectWrite_eq (s : State) (l : LaneId) (d : TaskDecl) (img : List Byte) :
    sectWrite s l d .pi img = modLane s l (putPi (setup s) d img) := rfl

def beginLane (d : TaskDecl) (x : LaneSt) : LaneSt := { x with pairs := vmod x.pairs d.pair (beginTask d) }

theorem startTask_begun (s : State) (d : TaskDecl) (img : List Byte) : Begun s (startTask s d img) d img := by
  obtain ⟨x, hx, hxl⟩ := forAll_modLane (adm := s.adm) (f := fun s l => sectWrite s l d .pi img) (g := putPi (setup s) d img)
    (fun t l ht => by rw [sectWrite_eq, setup_congr ht]) (servedLanes s) rfl (List.Nodup.filter _ (by decide))
  obtain ⟨y, hy, hyl⟩ := forAll_modLane (adm := s.adm)
    (f := fun s l => modPair (modTask s l d.pair d.task (freshRun d)) l d.pair fun q =>
      { q with active := if q.active = some d.task then none else q.active }) (g := beginLane d)
    (fun t l _ => by rw [modTask, modPair_modPair]; rfl) (timedLanes { s with lanes := x }) (s := { s with lanes := x }) rfl (timedLanes_nodup _)
  have ht : startTask s d img = { s with lanes := y, ctl := { s.ctl with rel := vmod s.ctl.rel d.pair fun v => vmod v d.task fun r =>
      { r with now := releaseNow s, tide := BitVec.ofNat 32 s.tide, endTide := s.tide + 2 ^ d.k, live := true } } } := by
    unfold startTask
    dsimp only
    rw [hx, hy]
    rfl
  have hxst (l : LaneId) : (x.get l).st = (lane s l).st := by
    rw [hxl]
    split <;> rfl
  have hxpairs (l : LaneId) : (x.get l).pairs = (lane s l).pairs := by
    rw [hxl]
    split <;> rfl
  have hyl (l : LaneId) : y.get l = if runsTimed s l = true then beginLane d (x.get l) else x.get l := by
    rw [hyl, ← runsTimed_congr (t := { s with lanes := x }) hxst rfl]
    simp only [mem_timedLanes]
    rfl
  have hpair (l : LaneId) (p : PairId) : (y.get l).pairs.get p =
      if runsTimed s l = true ∧ p = d.pair then beginTask d (pair s l p) else pair s l p := by
    rw [hyl]
    split
    · next h =>
      rw [beginLane, vmod_get, hxpairs]
      by_cases hp : p = d.pair
      · simp [h, hp, pair]
      · simp [hp, pair]
    · next h => simp [h, hxpairs, pair]
  rw [ht]
  refine ⟨rfl, rfl, rfl, fun l => ?_, fun l p => ?_, fun p k => ?_, fun l p k => ?_, fun l => ?_⟩
  · refine (congrArg LaneSt.st (hyl l)).trans ?_
    rw [← hxst l]
    split <;> rfl
  · refine (congrArg PairSt.split (hpair l p)).trans ?_
    split <;> rfl
  · simp only [relOf, vmod_get]
    by_cases hp : p = d.pair
    · by_cases hk : k = d.task
      · simp [hp, hk, vmod_get]
      · simp [hp, hk, vmod_get]
    · simp [hp]
  · refine (congrArg (fun q : PairSt => q.tasks.get k) (hpair l p)).trans ?_
    by_cases hp : runsTimed s l = true ∧ p = d.pair
    · rw [if_pos hp, beginTask, vmod_get]
      by_cases hk : k = d.task
      · simp [hp.1, hp.2, hk, taskRun]
      · simp [hk, taskRun]
    · rw [if_neg hp, if_neg fun h => hp ⟨h.1, h.2.1⟩]
      rfl
  · refine (congrArg LaneSt.sram (hyl l)).trans ?_
    have hsram : (x.get l).sram = if l ∈ servedLanes s then memWriteN 0 (lane s l).sram (piStart (setup s) d) (piBytes (setup s) d img)
        else (lane s l).sram := by
      rw [hxl]
      split <;> rfl
    rw [← hsram]
    split <;> rfl

end Sys2Proof.Machine
end

section
/-! PROOF. Every activation of a release, and the obligation on releases and readiness (06_cyclic_execution.md, R190, R193). -/

namespace Sys2Proof.Machine

/-- A loop that keeps `I`, gives each member of its list `P`, and takes it from no member. -/
theorem forAll_each_mem {α : Type} {I : State → Prop} {P : α → State → Prop} {f : State → α → State} (l : List α)
    (hI : ∀ s, ∀ a ∈ l, I s → I (f s a)) (hset : ∀ s, ∀ a ∈ l, I s → P a (f s a))
    (hkeep : ∀ s, ∀ a ∈ l, ∀ b ∈ l, I s → P b s → P b (f s a)) {s : State} (hs : I s) : ∀ a ∈ l, P a (forAll l s f) := by
  have run (r : List α) : r ⊆ l → ∀ s, I s → ∀ a ∈ l, a ∈ r ∨ P a s → P a (forAll r s f) := by
    induction r with
    | nil => exact fun _ s _ a _ h => h.resolve_left (by simp)
    | cons b r ih =>
      intro hr s hs a ha h
      have hb : b ∈ l := hr (by simp)
      refine ih (fun x hx => hr (by simp [hx])) (f s b) (hI s b hb hs) a ha ?_
      obtain h | h := h
      · obtain rfl | h := List.mem_cons.mp h
        · exact .inr (hset s a hb hs)
        · exact .inl h
      · exact .inr (hkeep s b hb a ha hs h)
  exact fun a ha => run l (fun _ h => h) s hs a ha (.inl ha)

theorem putBytes_length (l : List Byte) (o : Nat) (x : List Byte) : (putBytes l o x).length = l.length := by
  simp only [putBytes, List.length_append, List.length_take, List.length_drop]
  omega

/-- The process input image fills its section. -/
theorem piImage_length (s : State) (d : TaskDecl) (bad : List Nat) : (piImage s d bad).length = (sectRange (setup s) d .pi).2 := by
  have hforced (fs : List Force) (b : List Byte) (f : List Byte → Force → List Byte) (hf : ∀ b x, (f b x).length = b.length) :
      (fs.foldl f b).length = b.length := List.foldlRecOn (motive := fun c => c.length = b.length) fs f rfl fun c hc x _ => (hf c x).trans hc
  unfold piImage piForced
  dsimp only
  rw [hforced _ _ _ fun b x => ?_]
  · refine List.foldlRecOn (motive := fun c : List Byte => c.length = _) _ _ (List.length_replicate ..) fun c hc x _ => ?_
    rw [putBytes_length, hc]
  · split
    · split
      · exact putBytes_length _ _ _
      · rfl
    · rfl

/-- What the activations that begin in `s` leave as it is. -/
structure Starting (s t : State) : Prop where
  tide : t.tide = s.tide
  adm : t.adm = s.adm
  rejoin : t.rejoin = s.rejoin
  st : ∀ l, (lane t l).st = (lane s l).st
  split : ∀ l p, (pair t l p).split = (pair s l p).split
  srams : SramsOk t

theorem Starting.startTask {s t : State} (h : Starting s t) (d : TaskDecl) (img : List Byte) : Starting s (startTask t d img) := by
  obtain ⟨htide, hadm, hrejoin, hst, hsplit, -, -, hsram⟩ := startTask_begun t d img
  refine ⟨htide.trans h.tide, hadm.trans h.adm, hrejoin.trans h.rejoin, fun l => (hst l).trans (h.st l),
    fun l p => (hsplit l p).trans (h.split l p), fun l => ?_⟩
  rw [hsram]
  split
  · exact memWriteN_ok (h.srams l) (Nat.zero_le _) _
  · exact h.srams l

/-- The PI sections of `d` hold the same bytes in every lane that the tide movers serve. -/
def SamePi (s : State) (d : TaskDecl) (t : State) : Prop :=
  ∀ l r, l ∈ servedLanes s → r ∈ servedLanes s → ∀ i < (sectRange (setup s) d .pi).2,
    memRead 0 (lane t l).sram (piStart (setup s) d + i) = memRead 0 (lane t r).sram (piStart (setup s) d + i)

/-- The activation of `d` has begun. -/
structure Started (s : State) (d : TaskDecl) (t : State) : Prop where
  now : (relOf t d.pair d.task).now = BitVec.ofNat 32 (s.tide * 250)
  tide : (relOf t d.pair d.task).tide = BitVec.ofNat 32 s.tide
  endTide : (relOf t d.pair d.task).endTide = s.tide + 2 ^ d.k
  live : (relOf t d.pair d.task).live = true
  run : ∀ l, runsTimed s l = true → ∃ x, taskRun t l d.pair d.task = freshRun d x
  pi : SamePi s d t

/-- The bytes of a served lane's SRAM after an image has been written. -/
theorem startTask_read {s t : State} (h : Starting s t) (d : TaskDecl) (img : List Byte) {l : LaneId} (hl : l ∈ servedLanes s) (a : Nat) :
    memRead 0 (lane (startTask t d img) l).sram a =
      if piStart (setup s) d ≤ a ∧ a < piStart (setup s) d + (piBytes (setup s) d img).length
      then (piBytes (setup s) d img).getD (a - piStart (setup s) d) 0 else memRead 0 (lane t l).sram a := by
  rw [(startTask_begun t d img).sram l, servedLanes_congr h.st, if_pos hl, setup_congr h.adm,
    memRead_memWriteN (h.srams l) (Nat.zero_le _)]

theorem startTask_started {s t : State} (h : Starting s t) {d : TaskDecl} {img : List Byte} (himg : img.length = (sectRange (setup s) d .pi).2) :
    Started s d (startTask t d img) := by
  have hb := startTask_begun t d img
  have hrel := hb.rel d.pair d.task
  rw [if_pos ⟨rfl, rfl⟩] at hrel
  refine ⟨?_, ?_, ?_, ?_, fun l hl => ⟨taskRun t l d.pair d.task, ?_⟩, fun l r hl hr i hi => ?_⟩
  · rw [hrel, ← h.tide]
    rfl
  · rw [hrel, ← h.tide]
  · rw [hrel, ← h.tide]
  · rw [hrel]
  · rw [hb.run, if_pos ⟨(runsTimed_congr h.st h.rejoin l).trans hl, rfl, rfl⟩]
  · have hin : piStart (setup s) d ≤ piStart (setup s) d + i ∧
        piStart (setup s) d + i < piStart (setup s) d + (piBytes (setup s) d img).length := by
      rw [piBytes, List.length_take, himg]
      omega
    rw [startTask_read h d img hl, startTask_read h d img hr, if_pos hin, if_pos hin]

/-- An activation that has begun stays as another task's begins. -/
theorem Started.startTask_other {s t : State} (h : Starting s t) {d : TaskDecl} (hd : Started s d t) {e : TaskDecl} (img : List Byte)
    (hne : ¬(d.pair = e.pair ∧ d.task = e.task)) : Started s d (startTask t e img) := by
  have hb := startTask_begun t e img
  have hrel := hb.rel d.pair d.task
  rw [if_neg hne] at hrel
  refine ⟨hrel ▸ hd.now, hrel ▸ hd.tide, hrel ▸ hd.endTide, hrel ▸ hd.live, fun l hl => ?_, fun l r hl hr i hi => ?_⟩
  · rw [hb.run, if_neg fun h => hne h.2]
    exact hd.run l hl
  · rw [startTask_read h e img hl, startTask_read h e img hr, hd.pi l r hl hr i hi]

/-- The activations and images that a release begins. -/
def starts (s : State) (bad : List Nat) : List (TaskDecl × List Byte) :=
  (releasing s).map fun d => (d, piImage (readyToStart s bad) d bad)

theorem release_starts {s : State} (bad : List Nat) (h : releasing s ≠ []) :
    release s bad = forAll (starts s bad) (readyToStart s bad) fun s x => startTask s x.1 x.2 := by
  rw [release_eq, if_neg (by simpa using h)]
  rfl

theorem readyToStart_starting {s : State} (hm : MemoriesOk s) (bad : List Nat) : Starting (readyToStart s bad) (readyToStart s bad) :=
  ⟨rfl, rfl, rfl, fun _ => rfl, fun _ _ => rfl, ((readyToStart_keeps s bad).2.2 hm).1⟩

/-- Every released task's activation begins (R22, R190, R193). -/
theorem release_started {s : State} (hm : MemoriesOk s) (bad : List Nat) {d : TaskDecl} (hd : d ∈ releasing s) :
    Started (readyToStart s bad) d (release s bad) ∧ Starting (readyToStart s bad) (release s bad) := by
  rw [release_starts bad (List.ne_nil_of_mem hd)]
  have h0 := readyToStart_starting hm bad
  have mem {x : TaskDecl × List Byte} (hx : x ∈ starts s bad) : x.1 ∈ releasing s ∧ x.2 = piImage (readyToStart s bad) x.1 bad := by
    obtain ⟨e, he, rfl⟩ := List.mem_map.mp hx
    exact ⟨he, rfl⟩
  have set (t : State) (x : TaskDecl × List Byte) (hx : x ∈ starts s bad) (ht : Starting (readyToStart s bad) t) :
      Started (readyToStart s bad) x.1 (startTask t x.1 x.2) :=
    startTask_started ht (by rw [(mem hx).2, piImage_length])
  refine ⟨?_, forAll_keeps (Starting (readyToStart s bad)) _ _ _ h0 fun t x _ ht => ht.startTask x.1 x.2⟩
  exact forAll_each_mem (I := Starting (readyToStart s bad)) (P := fun x t => Started (readyToStart s bad) x.1 t) (starts s bad)
    (fun t x _ ht => ht.startTask x.1 x.2) set
    (fun t x hx y hy ht hty => by
      by_cases hkey : y.1.pair = x.1.pair ∧ y.1.task = x.1.task
      · rw [releasing_unique (mem hy).1 (mem hx).1 hkey.1 hkey.2]
        exact set t x hx ht
      · exact hty.startTask_other ht x.2 hkey)
    h0 _ (List.mem_map.mpr ⟨d, hd, rfl⟩)

/-- No other task's activation changes. -/
theorem release_others {s : State} (bad : List Nat) {p : PairId} {k : TaskId} (h : ∀ d ∈ releasing s, ¬(d.pair = p ∧ d.task = k)) :
    relOf (release s bad) p k = relOf s p k ∧ ∀ l, taskRun (release s bad) l p k = taskRun s l p k := by
  by_cases hnone : releasing s = []
  · rw [release_eq, hnone]
    exact ⟨rfl, fun _ => rfl⟩
  · rw [release_starts bad hnone]
    have hc := readyToStart_carriedOver s bad
    refine forAll_keeps (fun t => relOf t p k = relOf s p k ∧ ∀ l, taskRun t l p k = taskRun s l p k) _ _ _ ⟨?_, fun l => ?_⟩
      fun t x hx ⟨hrel, hrun⟩ => ?_
    · rw [relOf, hc.rel]
      rfl
    · rw [taskRun, hc.tasks]
      rfl
    · obtain ⟨d, hd, rfl⟩ := List.mem_map.mp hx
      have hb := startTask_begun t d (piImage (readyToStart s bad) d bad)
      have hne : ¬(p = d.pair ∧ k = d.task) := fun he => h d hd ⟨he.1.symm, he.2.symm⟩
      refine ⟨?_, fun l => ?_⟩
      · rw [hb.rel, if_neg hne, hrel]
      · rw [hb.run, if_neg fun h => hne h.2, hrun l]

theorem taskRelease_eq {s : State} (haw : awake s = true) (hrun : s.ctl.state = .run) (bad : List Nat) :
    exec (.taskRelease bad) s = .next (release s bad) := by
  show execTaskRelease bad s = _
  rw [execTaskRelease, haw, hrun]
  rfl

/-- Settles O18: what a release begins by `release_started` and leaves by `release_others`; readiness by `taskReady_sound`; the failed test by
`taskReady_testFailed`. -/
theorem releasesAndReadiness : Obligations.ReleasesAndReadiness := by
  refine ⟨fun s bad haw hrun hm hnodup => ?_, fun s hrun hcomps => ?_⟩
  · intro due
    have hdue {d : TaskDecl} : due d ↔ d ∈ releasing s := by
      rw [mem_releasing]
      exact ⟨fun h => ⟨taskIn_of_mem hnodup h.1, h.2⟩, fun h => ⟨(taskIn_some h.1).2.2, h.2⟩⟩
    have hc := readyToStart_carriedOver s bad
    refine ⟨_, taskRelease_eq haw hrun bad, fun d hd => ?_, fun p k hno => ?_⟩
    · have hmem := hdue.mp hd
      obtain ⟨⟨hnow, htide, hend, hlive, htask, hpi⟩, hkept⟩ := release_started hm bad hmem
      rw [hc.tide] at hnow htide hend
      refine ⟨⟨hnow, htide, hend, hlive⟩, fun l hl => ?_, fun l => ?_, fun l r hl hr => ?_⟩
      · obtain ⟨x, hx⟩ := htask l ((runsTimed_congr hc.st hc.rejoin l).trans hl)
        rw [hx]
        exact ⟨rfl, rfl, rfl, rfl⟩
      · rw [hkept.split, readyToStart_joined hmem]
      · have hserved := servedLanes_congr hc.st
        rw [← hserved] at hl hr
        unfold sectRead bankRead memReadN
        rw [setup_congr hkept.adm]
        exact List.map_congr_left fun i hi => hpi l r hl hr i (List.mem_range.mp hi)
    · obtain ⟨hrel, htask⟩ := release_others bad fun d hd => hno d (hdue.mpr hd)
      exact ⟨hrel, fun l => by rw [htask l]; exact ⟨rfl, rfl⟩⟩
  · obtain ⟨hexec, ⟨x, hx⟩, hst, hready, hkept⟩ := taskReady_sound hrun hcomps
    have hprio (p : PairId) (k : TaskId) : prioOf (forAll (timedLanes s) s readyLane) p k = prioOf s p k := by rw [hx]; rfl
    refine ⟨_, hexec, fun l p k hl => ?_, fun l hl => hkept l fun h => ?_, fun l p hv hactive hreleased hr hstart => ?_⟩
    · obtain ⟨hbest, hsame⟩ := hready l (mem_timedLanes.mpr hl) p
      obtain ⟨n, hn⟩ := hsame k
      refine ⟨?_, ?_, fun hk => ?_, fun hnone => ?_⟩
      · rw [hn, ← readyTask_phase]
      · rw [hn, readyTask_bank]
      · obtain ⟨hphase, hmax⟩ := bestReady_some (hbest.symm.trans hk)
        exact ⟨hphase, fun j hj => by rw [← hprio, ← hprio]; exact hmax j hj⟩
      · exact bestReady_none (hbest.symm.trans hnone) k
    · rw [mem_timedLanes.mp h] at hl
      nomatch hl
    · obtain ⟨u, hu, hfail⟩ := taskReady_testFailed hrun hcomps hv hr hactive hreleased hstart
      exact ⟨u, hu, hfail.st, hfail.cause⟩

end Sys2Proof.Machine
end
